-- ==== Sys2Proof/Word.lean ====
section
/-! DEFINITION. The word types of the PF-7240: bytes, words and the numbers of its units (01 Architecture, R28 to R32). -/

namespace Sys2Proof

/-- One byte; every multi-byte field is little-endian (R3). -/
abbrev Byte := BitVec 8
abbrev Half := BitVec 16
abbrev Word := BitVec 32
abbrev Dword := BitVec 64

/-- Cluster number CL00 to CL63 (R28). -/
abbrev ClusterId := Fin 64
/-- Core number, cluster * 64 + local core (R29). -/
abbrev CoreId := Fin 4096
/-- Slab number, core number * 4 + slab index (R30). -/
abbrev SlabId := Fin 16384
/-- Engine number, that of its cluster (R31). -/
abbrev EngineId := Fin 64
/-- Laser line L00 to L63 (R32). -/
abbrev LineId := Fin 64
/-- Laser cartridge: 0 A, 1 B (R27). -/
abbrev CartId := Fin 2
/-- Fabric port FP0 to FP15 (R535). -/
abbrev PortId := Fin 16
/-- Loop number, 0 to 5,128 (R365). -/
abbrev LoopId := Fin 5129
/-- Tenant and session slot number, 0 to 15 (R637). -/
abbrev TenantId := Fin 16
/-- Partner table index (R585). -/
abbrev PartnerId := Fin 131072
/-- Monitor converter MC0 to MC3 (R778). -/
abbrev McId := Fin 4

end Sys2Proof
end

