-- ==== Sys2Proof/Syntax.lean ====
section
/-! DEFINITION. The commands of the PF-7240: one constructor of `Instr` per row of spec/opcode_table.json.
Every command carries `dt`, the nanoseconds that pass before it (assumption 1); the operands that follow are what the
host, the network, a pin or the analogue side of the module presents to it. -/

namespace Sys2Proof

/-- The four mailbox rings (11, R674). -/
inductive Ring where
  | urg | ctl | blk | dia
deriving DecidableEq, Repr

/-- Envelope of a mailbox command: its ring, its CMD_ID, the session that carries it (`none`: in clear) and the
plaintext of its bulk payload (11, tables Command and R688). -/
structure CmdHdr where
  ring : Ring
  id : Word
  session : Option TenantId
  bulk : List Byte
deriving DecidableEq, Repr

/-! Parameters of the mailbox commands, field by field as R700 lays them out. -/

structure AttestParams where
  tenant : BitVec 4
  nonce : BitVec 256
deriving DecidableEq, Repr

structure TickSourceParams where
  period : BitVec 3
  nsrc : BitVec 2
  ptpDomain : Byte
  frameOffset : Word
  src0 : Half
  src1 : Half
  src2 : Half
deriving DecidableEq, Repr

structure PlanLoadParams where
  clusters : Dword
  header : Dword
  bufCount : BitVec 7
  planCap : BitVec 13
deriving DecidableEq, Repr

structure PlanArmParams where
  clusters : Dword
  named : Bool
  tick : Byte
  frame : BitVec 10
  armGen : Word
deriving DecidableEq, Repr

structure PartnerModifyParams where
  index : BitVec 17
  resume : Bool
deriving DecidableEq, Repr

structure MapPagesParams where
  model : Half
  count : BitVec 13
deriving DecidableEq, Repr

structure SlabDressParams where
  slab : BitVec 14
  seamThresh : Half
  redressAge : Word
  tileId : Dword
  model : Half
deriving DecidableEq, Repr

structure AssignSpareParams where
  cart : Bool
  switch : Bool
  policy : BitVec 2
  line : BitVec 6
  frame : BitVec 10
  tick : Byte
deriving DecidableEq, Repr

/-- FIRST and COUNT of LOCK_ACQUIRE, LOOP_FREEZE and LOOP_RELEASE. -/
structure LoopRange where
  first : BitVec 13
  count : BitVec 13
deriving DecidableEq, Repr

structure BankAssignParams where
  cluster : BitVec 6
  mem : Byte
  mask : Word
  owner : BitVec 3
  ownerCore : BitVec 6
deriving DecidableEq, Repr

structure BankPowerParams where
  cluster : BitVec 6
  mem : Byte
  mask : Word
  power : BitVec 2
deriving DecidableEq, Repr

structure PageLoadParams where
  page : BitVec 17
  kind : BitVec 2
  source : BitVec 2
  pageOfs : BitVec 23
  length : BitVec 24
  partner : BitVec 17
deriving DecidableEq, Repr

structure PageReleaseParams where
  page : BitVec 17
  count : BitVec 17
deriving DecidableEq, Repr

structure TenantStripParams where
  clusters : Dword
  tenant : BitVec 4
  delete : Bool
deriving DecidableEq, Repr

structure KeyImportParams where
  ca : BitVec 12
  cknLen : BitVec 6
deriving DecidableEq, Repr

structure PowerLimitParams where
  pwr : Half
  iin : Half
deriving DecidableEq, Repr

structure MonconvParams where
  mc : BitVec 2
  refmode : Bool
  continuous : Bool
  scanMask : Word
deriving DecidableEq, Repr

structure InjectParams where
  mc : BitVec 2
  channel : BitVec 5
deriving DecidableEq, Repr

structure LoopWriteParams where
  loop : BitVec 13
  offset : BitVec 5
  value : Word
deriving DecidableEq, Repr

structure XtalkParams where
  die : Bool
  commit : Bool
  first : BitVec 12
  count : BitVec 12
deriving DecidableEq, Repr

structure StateReadParams where
  cls : Half
  clear : Bool
  index : Word
  count : Half
  offset : Word
  length : Word
deriving DecidableEq, Repr

structure StateListParams where
  cls : Half
  start : Word
  max : Half
deriving DecidableEq, Repr

structure FaultInjectParams where
  kind : Byte
  target : Word
  holdUs : Word
deriving DecidableEq, Repr

structure SelftestParams where
  test : Byte
  target : Word
deriving DecidableEq, Repr

/-- The mailbox commands of R699, in the order of its table, with the parameters of R700. -/
inductive HostCmd where
  | devIdentify
  | devAttest (p : AttestParams)
  | devSessionOpen (tenant : BitVec 4)
  | devSessionClose
  | devReset
  | tickSourceSet (p : TickSourceParams)
  | tickPlanLoad (p : PlanLoadParams)
  | tickPlanArm (p : PlanArmParams)
  | tickPlanDisarm (clusters : Dword)
  | tickStatus
  | partnerAttach
  | partnerModify (p : PartnerModifyParams)
  | partnerDetach (index : BitVec 17)
  | modelDeclare
  | modelMapPages (p : MapPagesParams)
  | slabDress (p : SlabDressParams)
  | slabPin (slab : BitVec 14)
  | slabRelease (slab : BitVec 14)
  | lightStatus
  | lineAssignSpare (p : AssignSpareParams)
  | lockAcquire (p : LoopRange)
  | engineCalibrate (engine : BitVec 6)
  | phaseMapLoad (phases : BitVec 5)
  | bankAssign (p : BankAssignParams)
  | bankPower (p : BankPowerParams)
  | pageLoad (p : PageLoadParams)
  | pageRelease (p : PageReleaseParams)
  | tenantCreate (tenant : BitVec 4)
  | tenantAssign (clusters : Dword) (tenant : BitVec 4)
  | tenantStrip (p : TenantStripParams)
  | keyRotate (tenant : BitVec 4)
  | keyImport (p : KeyImportParams)
  | powerStateSet (st : BitVec 3)
  | powerLimitSet (p : PowerLimitParams)
  | thermalLimitsSet (setpoints : List Half)
  | monconvConfigure (p : MonconvParams)
  | monconvInject (p : InjectParams)
  | loopWrite (p : LoopWriteParams)
  | loopFreeze (p : LoopRange)
  | loopRelease (p : LoopRange)
  | xtalkLoad (p : XtalkParams)
  | stateRead (p : StateReadParams)
  | stateList (p : StateListParams)
  | eventRead (max : BitVec 11)
  | faultInject (p : FaultInjectParams)
  | selftestRun (p : SelftestParams)
  | fwLoadBegin (imageLen : Word)
  | fwLoadBlock (offset : Word)
  | fwLoadEnd
  | domainJoin
  | domainLeave
  | domainRelay (worker : Byte)
  | roleSet (manager : Bool)
deriving DecidableEq, Repr

/-- What the PUF, private keys, the random source and the analogue side answer when a command that takes time ends
(COMMAND_COMPLETE); nothing in the state fixes these (assumption 3). -/
structure Silicon where
  /-- The operation succeeded: PUF correction (R617), signature check (R628, R713), every loop locked (R362). -/
  ok : Bool
  /-- Identity or AK modulus. -/
  key1 : List Byte
  /-- XK modulus. -/
  key2 : List Byte
  /-- Signature of the quote or of the load certificate. -/
  sig : List Byte
  /-- Plaintext of a session opening (R628), `none` where decryption fails. -/
  plain : Option (List Byte)
  /-- Failures found, failed loops (R362, R699). -/
  count : Nat
  /-- Lowest failed loop (R699). -/
  lowest : Nat
  /-- Measured records, as the command's meaning lays them out (R249, R370). -/
  codes : List Int
deriving DecidableEq, Repr

/-- MACsec of a received frame: its CA, none where it came in clear, its packet number, and whether its ICV is right (R546 to R549). -/
structure Protection where
  ca : Option (BitVec 12) := none
  pn : Dword := 0
  intact : Bool := true
deriving DecidableEq, Repr

/-- What an Announce message says of its master (IEEE 1588): the quality and the identity of its grandmaster's clock, and the steps to
it. -/
structure PtpAnnounce where
  clockClass : Byte
  accuracy : Byte
  variance : Half
  priority2 : Byte
  identity : Dword
  steps : Half
deriving DecidableEq, Repr

/-- A PTP frame: its domain, its destination address, 01-1B-19-00-00-00 or with `peer` 01-80-C2-00-00-0E, and its protection (R561,
R562). -/
structure PtpHdr where
  domain : Byte := 24
  peer : Bool := false
  prot : Protection := {}
deriving DecidableEq, Repr

/-- PTP messages on a source port (R51, R561). -/
inductive PtpMsg where
  /-- A Sync interval of a master ends with this servo offset, in ns. -/
  | sync (master : Dword) (offset : Int)
  | announce (a : PtpAnnounce)
  | other
deriving DecidableEq, Repr

/-- Tick relay payload (02, Tick relay payload). -/
structure RelayPayload where
  boundaryNs : Dword
  txNs : Dword
  frame : BitVec 10
  tick : Byte
  period : Byte
  armGen : Word
deriving DecidableEq, Repr

/-- Joryar header (R575), its fields as received. -/
structure JoryarHdr where
  last : Bool
  srcModule : Byte
  dstModule : Byte
  dstPartner : BitVec 17
  seq : Word
  offset : Word
  tag : Half
  ack : Word
  /-- The EtherType and the MACsec of its frame (R546, R605). -/
  ether : Half := 0x88B5
  prot : Protection := {}
deriving DecidableEq, Repr

/-- One received physical resource block: exponent and 24 signed 9-bit mantissas, I before Q (R556). -/
structure Prb where
  exponent : BitVec 4
  iq : List (BitVec 9)
deriving DecidableEq, Repr

/-- A received U-plane section (R552, R555). -/
structure Section where
  mac : BitVec 48
  vlan : Option (BitVec 12)
  eaxc : Half
  frameId : Byte
  subframe : BitVec 4
  slot : BitVec 6
  symbol : BitVec 4
  /-- The udCompHdr of the section, where it carries one (R551). -/
  compHdr : Option Byte
  startPrb : Nat
  prbs : List Prb
  /-- The eCPRI revision and concatenation bit, the E bit of ecpriSeqid, and whether the section has extensions (R551). -/
  revision : BitVec 4 := 1
  concat : Bool := false
  ebit : Bool := true
  extension : Bool := false
  prot : Protection := {}
deriving DecidableEq, Repr

/-- Why a received frame is dropped before any type-specific handling (R536, R538, R546 to R549, R551, R576, R605). -/
inductive DropReason where
  | oversize | noBuffer | unprotected | icv | unknown
deriving DecidableEq, Repr

/-- A word of cluster memory that a task met in the same cycle as an access on the other port (R466): the 8-byte word, the task of the
other access by its descriptor index (4,096: fabric delivery or router reception), and whether that access was a write. -/
structure Clash where
  word : Fin 131072
  other : Fin 4097
  writes : Bool
deriving DecidableEq, Repr

/-- What the sensors and front ends show at one control tick (R347, R353, R375, R753). Lists the sender leaves short
keep the previous reading (assumption 4). -/
structure Measurements where
  /-- Raw sensor temperatures in 0.25 degC, die * 64 + sensor (R721 SENSOR order). -/
  temps : List Int
  /-- Raw oscillator counts, in the same order (R754 STUCK). -/
  counts : List Nat
  /-- HBM stack temperatures, 0.25 degC. -/
  hbm : List Int
  /-- Cartridge submount temperatures A and B, 0.25 degC. -/
  carts : List Int
  /-- Input power in 0.1 W, input current in 10 mA, input voltage in 10 mV. -/
  power : Nat
  current : Nat
  voltage : Nat
  /-- Lock-in product of the loops listed over this control tick: drop-tap signal times the dither, signed (R353). -/
  lockin : List (Nat × Int)
  /-- Lock loops whose ring left its lock window since the last control tick (R349). -/
  outWindow : List Nat
  /-- Reference-channel power of lines: engine, line, measured power in the units of P_nom (R251). -/
  linePower : List (Nat × Nat × Nat)
  /-- Lock loops one of whose heater DACs found its queue empty at a sample clock since the last control tick (R807). -/
  underruns : List Nat
deriving DecidableEq, Repr

/-- Readings and outcomes of one housekeeping slot (R87): what the analogue side shows to the work the module does. -/
structure HkInput where
  /-- Drift reads: slab and the sum over its active columns of (DR0 read - DR1 read) (R201, R202). -/
  drift : List (Nat × Int)
  /-- Spare dressing: slab, and whether the row under dressing verified at the first and at the second iteration of the slot
  (R225). -/
  spare : List (Nat × Bool × Bool)
  /-- Spare dressing finish: slab and the measured b of the column (R180, R225). -/
  spareB : List (Nat × Int)
  /-- Row calibration completed in this slot: engine, 64 (ZERO, GAIN) pairs and what may follow them (the row converter's
  OFFSET and GAIN, 64 pairs NV_TRIM and HOFS), and whether the rings pass lock and
  pilot checks and the converter its limits (R263, R264, R358, R803). -/
  rowCal : List (Nat × List (Nat × Nat) × Bool)
  /-- Test walker words that fail: cluster, word index in the region, failing-bit mask (R487). -/
  memFail : List (Nat × Nat × Nat)
  /-- Monitor converter bandgap codes, MC0 to MC3, raw (R793). -/
  bandgap : List Nat
  /-- Column converter calibrations: slab, and the measured OFFSET and GAIN, or none where the slot ends before the calibration does
  (R799 to R802). -/
  colCal : List (Nat × Option (Int × Nat))
  /-- Monitor converter calibrations: converter, OFFSET and GAIN (R804). -/
  mcCal : List (Nat × Int × Nat)
  /-- CONV_CORR indices of the row and monitor converters whose freed pipeline stage lies outside its limits (R795, R813). -/
  stageFail : List Nat
deriving DecidableEq, Repr

/-- What a sweep shows at its end (R361): whether the loop closed, the drop-tap power of each step, and the slope at the closing point. -/
structure SweepOutcome where
  closed : Bool
  taps : List Nat
  slope : Int
deriving DecidableEq, Repr

/-- What a loop's monitor measures over a pilot window (R356): the amplitude of its own line's tone, and those of the other existing tones
of lines n - 2 to n + 2. -/
structure PilotTones where
  own : Nat
  others : List Nat
deriving DecidableEq, Repr

/-- A one-way delay measurement message (R551): its port, source address, measurement identifier and action type. -/
structure DelayRequest where
  port : PortId
  mac : BitVec 48
  measurement : Byte
  action : Byte := 0
  revision : BitVec 4 := 1
  concat : Bool := false
  prot : Protection := {}
deriving DecidableEq, Repr

/-- What a dressing's verify reads and finish show (R180). -/
structure DressOutcome where
  /-- Last verify reads, each of a row and an active column, or 264 + s for spare s in the second pass; a cell left out reads its
  target. -/
  reads : List (Nat × Nat × Int)
  /-- Mean DR0 - DR1 difference b of active columns, by physical column; a column left out shows what its cells give. -/
  b : List (Nat × Int)
deriving DecidableEq, Repr

/-- The commands: one constructor per row of the table, in its order. -/
inductive Instr where
  -- The mailbox commands of R699, each accepted and started on its ring (assumption 5).
  | devIdentify (dt : Nat) (h : CmdHdr)
  | devAttest (dt : Nat) (h : CmdHdr) (p : AttestParams)
  | devSessionOpen (dt : Nat) (h : CmdHdr) (tenant : BitVec 4)
  | devSessionClose (dt : Nat) (h : CmdHdr)
  | devReset (dt : Nat) (h : CmdHdr)
  | tickSourceSet (dt : Nat) (h : CmdHdr) (p : TickSourceParams)
  | tickPlanLoad (dt : Nat) (h : CmdHdr) (p : PlanLoadParams)
  | tickPlanArm (dt : Nat) (h : CmdHdr) (p : PlanArmParams)
  | tickPlanDisarm (dt : Nat) (h : CmdHdr) (clusters : Dword)
  | tickStatus (dt : Nat) (h : CmdHdr)
  | partnerAttach (dt : Nat) (h : CmdHdr)
  | partnerModify (dt : Nat) (h : CmdHdr) (p : PartnerModifyParams)
  | partnerDetach (dt : Nat) (h : CmdHdr) (index : BitVec 17)
  | modelDeclare (dt : Nat) (h : CmdHdr)
  | modelMapPages (dt : Nat) (h : CmdHdr) (p : MapPagesParams)
  | slabDress (dt : Nat) (h : CmdHdr) (p : SlabDressParams)
  | slabPin (dt : Nat) (h : CmdHdr) (slab : BitVec 14)
  | slabRelease (dt : Nat) (h : CmdHdr) (slab : BitVec 14)
  | lightStatus (dt : Nat) (h : CmdHdr)
  | lineAssignSpare (dt : Nat) (h : CmdHdr) (p : AssignSpareParams)
  | lockAcquire (dt : Nat) (h : CmdHdr) (p : LoopRange)
  | engineCalibrate (dt : Nat) (h : CmdHdr) (engine : BitVec 6)
  | phaseMapLoad (dt : Nat) (h : CmdHdr) (phases : BitVec 5)
  | bankAssign (dt : Nat) (h : CmdHdr) (p : BankAssignParams)
  | bankPower (dt : Nat) (h : CmdHdr) (p : BankPowerParams)
  | pageLoad (dt : Nat) (h : CmdHdr) (p : PageLoadParams)
  | pageRelease (dt : Nat) (h : CmdHdr) (p : PageReleaseParams)
  | tenantCreate (dt : Nat) (h : CmdHdr) (tenant : BitVec 4)
  | tenantAssign (dt : Nat) (h : CmdHdr) (clusters : Dword) (tenant : BitVec 4)
  | tenantStrip (dt : Nat) (h : CmdHdr) (p : TenantStripParams)
  | keyRotate (dt : Nat) (h : CmdHdr) (tenant : BitVec 4)
  | keyImport (dt : Nat) (h : CmdHdr) (p : KeyImportParams)
  | powerStateSet (dt : Nat) (h : CmdHdr) (st : BitVec 3)
  | powerLimitSet (dt : Nat) (h : CmdHdr) (p : PowerLimitParams)
  | thermalLimitsSet (dt : Nat) (h : CmdHdr) (setpoints : List Half)
  | monconvConfigure (dt : Nat) (h : CmdHdr) (p : MonconvParams)
  | monconvInject (dt : Nat) (h : CmdHdr) (p : InjectParams)
  | loopWrite (dt : Nat) (h : CmdHdr) (p : LoopWriteParams)
  | loopFreeze (dt : Nat) (h : CmdHdr) (p : LoopRange)
  | loopRelease (dt : Nat) (h : CmdHdr) (p : LoopRange)
  | xtalkLoad (dt : Nat) (h : CmdHdr) (p : XtalkParams)
  | stateRead (dt : Nat) (h : CmdHdr) (p : StateReadParams)
  | stateList (dt : Nat) (h : CmdHdr) (p : StateListParams)
  | eventRead (dt : Nat) (h : CmdHdr) (max : BitVec 11)
  | faultInject (dt : Nat) (h : CmdHdr) (p : FaultInjectParams)
  | selftestRun (dt : Nat) (h : CmdHdr) (p : SelftestParams)
  | fwLoadBegin (dt : Nat) (h : CmdHdr) (imageLen : Word)
  | fwLoadBlock (dt : Nat) (h : CmdHdr) (offset : Word)
  | fwLoadEnd (dt : Nat) (h : CmdHdr)
  | domainJoin (dt : Nat) (h : CmdHdr)
  | domainLeave (dt : Nat) (h : CmdHdr)
  | domainRelay (dt : Nat) (h : CmdHdr) (worker : Byte)
  | roleSet (dt : Nat) (h : CmdHdr) (manager : Bool)
  -- The mailbox hardware (11).
  | cmdPortPush (dt : Nat) (r : Ring) (bytes : List Byte)
  | sealedPortPush (dt : Nat) (r : Ring) (bytes : List Byte)
  | cplPortPop (dt : Nat) (r : Ring)
  | bulkInWrite (dt : Nat) (bytes : List Byte)
  | bulkOutRead (dt : Nat) (count : Nat)
  | registerWrite (dt : Nat) (addr : BitVec 17) (value : Word)
  | bulkTimeout (dt : Nat)
  | commandStart (dt : Nat)
  -- SDIO card, power and start-up (11, 12, 14).
  | sdioCmd5 (dt : Nat) (s18r : Bool)
  | sdioCmd11 (dt : Nat)
  | sdVddLoss (dt : Nat)
  | powerUp (dt : Nat) (role : Bool) (pmAddr : BitVec 3)
  | startupSensorRecheck (dt : Nat) (temps : List Int)
  | refclkQualified (dt : Nat)
  /-- `probes`: return light seen by the first and the second probe; `returnPower`: return-tap power once lit. -/
  | startupLighting (dt : Nat) (cart : CartId) (probe1 probe2 : Bool) (returnPower : Int)
  | bootRomStart (dt : Nat)
  | inputPowerLoss (dt : Nat)
  /-- 0 low, 1 high, 2 back within range (R736). -/
  | inputOutOfRange (dt : Nat) (detail : Fin 3)
  | inputOvercurrent (dt : Nat)
  | resetAssert (dt : Nat) (lowNs : Nat)
  | resetRelease (dt : Nat) (role : Bool) (pmAddr : BitVec 3)
  | cartridgeInsert (dt : Nat) (cart : CartId) (interlockClosed : Bool)
  | interlockOpen (dt : Nat) (cart : CartId)
  | returnLoss (dt : Nat) (cart : CartId)
  | socketOvercurrent (dt : Nat) (cart : CartId)
  | cartridgeProbe (dt : Nat) (cart : CartId) (seen : Bool)
  | laneDark (dt : Nat) (port : PortId) (lane : Fin 8)
  | laneRelight (dt : Nat) (port : PortId) (lane : Fin 8)
  | laneProbe (dt : Nat) (port : PortId) (lane : Fin 8)
  -- Tick sources, boundaries and the relay (02).
  | tickInEdge (dt : Nat)
  | tickInEdgeLate (dt : Nat)
  | ppsInEdge (dt : Nat)
  | ptpFrame (dt : Nat) (port : PortId) (h : PtpHdr) (msg : PtpMsg)
  | ptpAnnounceTimeout (dt : Nat) (port : PortId)
  | esmcFrame (dt : Nat) (port : PortId) (dnu : Bool)
  /-- `phase`: phase of the source changed to, against the current tick, in ns (R56, R57). -/
  | sourceChange (dt : Nat) (phase : Int)
  | tickBoundary (dt : Nat)
  | tickRelaySend (dt : Nat)
  | relayFrame (dt : Nat) (srcModule : Byte) (prot : Protection) (p : RelayPayload)
  | relayMiss (dt : Nat)
  | relayAck (dt : Nat) (worker : Byte) (prot : Protection) (held : Bool)
  | workerLost (dt : Nat) (worker : Byte)
  | delayReqSend (dt : Nat)
  | delayReq (dt : Nat) (srcModule : Byte) (prot : Protection)
  | delayResp (dt : Nat) (srcModule : Byte) (prot : Protection) (pathNs : Nat)
  | housekeepingSlot (dt : Nat) (input : HkInput)
  | housekeepingEnd (dt : Nat)
  -- Tasks (02, 03, 05, 07, 08, 09): `task` is the descriptor index in the cluster's active plan.
  | taskDispatch (dt : Nat) (cluster : ClusterId) (task : Fin 4096)
  | slotGrant (dt : Nat) (cluster : ClusterId) (task : Fin 4096)
  | dataLate (dt : Nat) (cluster : ClusterId) (task : Fin 4096)
  /-- `noise`: what each conversion shows beyond its ideal column sum, in cell units, slab by slab and bench-phase by
  bench-phase in column order (R154; assumption 6). -/
  | slabMvmComplete (dt : Nat) (cluster : ClusterId) (task : Fin 4096) (noise : List Int)
  /-- `reads`: DR0 read - DR1 read of the group's 32 data columns and its seam column (R215). -/
  | seamLocalised (dt : Nat) (slab : SlabId) (reads : List Int)
  | detourStart (dt : Nat) (slab : SlabId)
  | detourBatchComplete (dt : Nat) (cluster : ClusterId) (noise : List Int)
  | opticalMvmComplete (dt : Nat) (cluster : ClusterId) (task : Fin 4096) (stallNs : Nat) (collisions : List Clash) (noise : List Int)
  | weightLoadComplete (dt : Nat) (cluster : ClusterId) (task : Fin 4096) (collisions : List Clash)
  | vectorComplete (dt : Nat) (cluster : ClusterId) (task : Fin 4096)
  /-- `collisions`: what the transfer met on the other port, with accesses that are still under way or of the fabric (R466). -/
  | coreHaulComplete (dt : Nat) (cluster : ClusterId) (task : Fin 4096) (collisions : List Clash)
  | clusterHaulComplete (dt : Nat) (cluster : ClusterId) (task : Fin 4096) (collisions : List Clash)
  | routerSendComplete (dt : Nat) (cluster : ClusterId) (task : Fin 4096) (collisions : List Clash)
  | egressComplete (dt : Nat) (cluster : ClusterId) (task : Fin 4096) (collisions : List Clash)
  | egressDeadline (dt : Nat) (cluster : ClusterId) (task : Fin 4096)
  | ingressLate (dt : Nat) (cluster : ClusterId) (task : Fin 4096)
  | aheadIssue (dt : Nat) (cluster : ClusterId) (task : Fin 4096) (ahead : Fin 2)
  | confirmedTransferStart (dt : Nat) (cluster : ClusterId) (task : Fin 4096)
  -- Confirmation, loops and light (05, 06, 12).
  | epochVerdict (dt : Nat) (engine : EngineId)
  | verdictLate (dt : Nat) (engine : EngineId)
  | spoil (dt : Nat) (engine : EngineId)
  | controlTick (dt : Nat) (m : Measurements)
  | lockLoss (dt : Nat) (loop : LoopId)
  | pilotCheck (dt : Nat) (loop : LoopId) (tones : PilotTones)
  /-- The end of a sweep: whether it found the line, the drop-tap power at each of its 40 steps, and the slope measured
  (MHz per unit of the lock-in, Q16.16). -/
  | reacquired (dt : Nat) (loop : LoopId) (out : SweepOutcome)
  | freezeTimeout (dt : Nat) (loop : LoopId)
  | weightRefresh (dt : Nat) (engine : EngineId)
  | throttleStep (dt : Nat)
  | wakeRecheck (dt : Nat) (temps : List Int)
  -- Slab upkeep and banks (04, 08).
  | ageTrimUpdate (dt : Nat) (slab : SlabId)
  | ageRedress (dt : Nat) (slab : SlabId)
  | dressStart (dt : Nat) (slab : SlabId)
  | dressDone (dt : Nat) (slab : SlabId) (outcome : DressOutcome)
  | detourEnd (dt : Nat) (slab : SlabId)
  | bankPowerDone (dt : Nat) (cluster : ClusterId) (mem : Byte)
  -- Monitor converters (13).
  | monconvPass (dt : Nat) (mc : McId)
  | monconvResult (dt : Nat) (mc : McId) (raw : BitVec 12)
  | monconvDataRead (dt : Nat) (mc : McId)
  | injectedConversion (dt : Nat) (mc : McId) (raw : BitVec 12)
  | refReady (dt : Nat) (mc : McId)
  -- Light supply (06).
  | lineFail (dt : Nat) (cart : CartId) (line : LineId) (driver : Bool)
  | takeover (dt : Nat) (cart : CartId) (line : LineId)
  | spareVerified (dt : Nat) (cart : CartId) (line : LineId)
  | spareIn (dt : Nat) (cart : CartId) (line : LineId)
  -- Fabric, transport and domains (09).
  | uplaneRx (dt : Nat) (port : PortId) (sec : Section)
  | oneWayDelay (dt : Nat) (req : DelayRequest)
  | pauseFrameRx (dt : Nat) (port : PortId)
  | lacpFrame (dt : Nat) (port : PortId) (collecting : Bool)
  /-- `sak`: the SAK that the peer distributes as key server; `none` where the module is key server itself (R550). -/
  | mkaFrame (dt : Nat) (ca : BitVec 12) (sak : Option (List Byte))
  | joryarData (dt : Nat) (port : PortId) (mac : BitVec 48) (h : JoryarHdr) (payload : List Byte)
  | joryarAck (dt : Nat) (port : PortId) (mac : BitVec 48) (h : JoryarHdr)
  | ackTimer (dt : Nat) (partner : PartnerId)
  | resendTimeout (dt : Nat) (partner : PartnerId)
  | joryarCmd (dt : Nat) (port : PortId) (h : JoryarHdr) (payload : List Byte)
  | joryarBulk (dt : Nat) (port : PortId) (h : JoryarHdr) (payload : List Byte)
  | joryarOutput (dt : Nat) (port : PortId) (h : JoryarHdr) (payload : List Byte)
  /-- `plain`: of a sealed relay, the command and the completion that the manager learns from, where it learns them (R603). -/
  | joryarCpl (dt : Nat) (port : PortId) (h : JoryarHdr) (payload : List Byte) (plain : Option (List Byte × List Byte))
  | domainRelayTimeout (dt : Nat) (worker : Byte) (tag : Half)
  | joryarShed (dt : Nat) (port : PortId) (h : JoryarHdr)
  | joryarTakeover (dt : Nat) (port : PortId) (srcModule : Byte) (prot : Protection) (fingerprint : BitVec 256)
  /-- 0 alignment, 1 FEC, 2 lane ring (R542). -/
  | portDown (dt : Nat) (port : PortId) (cause : Fin 3)
  | portUp (dt : Nat) (port : PortId)
  | phaseStart (dt : Nat)
  | retuneFail (dt : Nat) (cluster : ClusterId) (receiver : Fin 4)
  | routerReceive (dt : Nat) (cluster : ClusterId) (receiver : Fin 4) (src : ClusterId) (addr : Word) (data : List Byte)
  -- Keys, strips and faults (10, 15).
  | rekeyChunk (dt : Nat) (tenant : TenantId) (stack : Fin 2)
  | stripStart (dt : Nat) (cluster : ClusterId)
  | stripDone (dt : Nat) (cluster : ClusterId)
  | coreHang (dt : Nat) (core : CoreId)
  | hbmLost (dt : Nat) (stack : Fin 12)
  | dieLost (dt : Nat) (die : Fin 2)
  | cartLost (dt : Nat) (cart : CartId) (detail : Fin 3)
  | watchdogExpiry (dt : Nat)
  /-- `same`: the digest of the retained image equals the one kept for MR_FW (R717). -/
  | wdogRestart (dt : Nat) (same : Bool)
  | injectHoldEnd (dt : Nat) (kind : Byte) (target : Word)
  -- PMBus (12, R738).
  | clearFaults (dt : Nat)
  | capability (dt : Nat)
  | otFaultLimit (dt : Nat)
  | otWarnLimit (dt : Nat)
  | vinOvFaultLimit (dt : Nat)
  | vinUvFaultLimit (dt : Nat)
  | iinOcFaultLimit (dt : Nat)
  | statusByte (dt : Nat)
  | statusWord (dt : Nat)
  | statusInput (dt : Nat)
  | statusTemperature (dt : Nat)
  | statusCml (dt : Nat)
  | readVin (dt : Nat)
  | readIin (dt : Nat)
  | readTemperature1 (dt : Nat)
  | readTemperature2 (dt : Nat)
  | readTemperature3 (dt : Nat)
  | readPin (dt : Nat)
  | pmbusRevision (dt : Nat)
  | mfrId (dt : Nat)
  | mfrModel (dt : Nat)
  | mfrSerial (dt : Nat)
  /-- A write to `cmd`, or (`write` false) a read of a code the table does not list (R740). -/
  | pmbusWriteRejected (dt : Nat) (cmd : Byte) (write : Bool)
  -- Test access port (14). `cells`: levels at the boundary register's contacts.
  | extest (dt : Nat) (cells : List Bool)
  | samplePreload (dt : Nat) (cells preload : List Bool)
  | idcode (dt : Nat)
  | clamp (dt : Nat)
  | highz (dt : Nat)
  | bypass (dt : Nat)
  | jtagTestExit (dt : Nat)
  -- Rows the table adds at its end.
  | synceLock (dt : Nat) (port : PortId) (locked : Bool)
  | calRowStandby (dt : Nat) (engine : EngineId)
  | interlockClosed (dt : Nat) (cart : CartId)
  | sakReplace (dt : Nat) (ca : BitVec 12) (sak : Option (List Byte))
  | frameDropped (dt : Nat) (port : PortId) (reason : DropReason)
  | commandComplete (dt : Nat) (r : Ring) (si : Silicon)
  | pageLoadTimeout (dt : Nat)
  | sdVddReturn (dt : Nat)
  | sdioCmd52 (dt : Nat) (addr : BitVec 17) (value : Byte)
deriving DecidableEq, Repr

end Sys2Proof
end

