-- ==== Sys2Proof/WellFormed.lean ====
section
/-! DEFINITION. Which command terms are well formed: operand lists whose length the row fixes, values of a set. Unit
numbers are bounded by their types. -/

namespace Sys2Proof

/-- A sensor list covers the four dies (R753). -/
def tempsOk (l : List Int) : Bool := l.length == 256

/-- A PRB holds 24 mantissas (R556). -/
def Prb.wellFormed (p : Prb) : Bool := p.iq.length == 24

/-- The Joryar payload limit (R575). -/
def payloadOk (l : List Byte) : Bool := decide (l.length ≤ 8256)

/-- Lists of one control tick's readings are no longer than what they list, and name lock loops that exist. -/
def Measurements.wellFormed (m : Measurements) : Bool :=
  decide (m.temps.length ≤ 256) && decide (m.counts.length ≤ 256) && decide (m.hbm.length ≤ 12)
    && decide (m.carts.length ≤ 2) && m.underruns.all (fun k => decide (k < 5120))

/-- Operand lists that a row fixes have the row's length. -/
def Instr.wellFormed : Instr → Bool
  | .thermalLimitsSet _ _ l => l.length == 7
  | .startupSensorRecheck _ l => tempsOk l
  | .wakeRecheck _ l => tempsOk l
  | .controlTick _ m => m.wellFormed
  | .seamLocalised _ _ l => l.length == 33
  | .uplaneRx _ _ s => s.prbs.all Prb.wellFormed
  | .joryarData _ _ _ _ l => payloadOk l
  | .joryarCmd _ _ _ l => payloadOk l
  | .joryarBulk _ _ _ l => payloadOk l
  | .joryarOutput _ _ _ l => payloadOk l
  | .joryarCpl _ _ _ l _ => payloadOk l
  | .routerReceive _ _ _ _ _ l => decide (l.length ≤ 4096)
  | .mkaFrame _ _ k => k.all (fun l => l.length == 32)
  | .sakReplace _ _ k => k.all (fun l => l.length == 32)
  | _ => true

end Sys2Proof
end

