-- ==== Sys2Proof/Decode.lean ====
section
/-! DEFINITION. No row of the table gives bits, so no word spells a command. -/

namespace Sys2Proof

/-- The command a word of the table's bits spells: the table gives no row any bits, so none does. -/
def decodeTableWord (_nbits _w : Nat) : Option Instr := none

end Sys2Proof
end

