-- ==== Sys2Proof/Config.lean ====
section
/-! DEFINITION. The constants of the PF-7240 and the free values the manual leaves open (opaque: nothing can evaluate
them). -/

namespace Sys2Proof.Config

/-- HBM pages, and pages of one stack (R488). -/
def pages : Nat := 98304
def pagesPerStack : Nat := 8192
/-- Bytes of a master copy and the offset of its detour image (R705). -/
def masterBytes : Nat := 102400
def detourOfs : Nat := 0x11000

/-- The lead of a boundary that a command's effect needs, in ns (R77, R474, R586). -/
def leadNs : Nat := 5000

/-- Default SEAM_THRESH (R213) and age re-dressing limit in seconds (R191). -/
def seamThresh : Nat := 2880
def redressAge : Nat := 9900000

/-- Entries of the partner table, first index of PARTNER_ATTACH (R585). -/
def partners : Nat := 131072
def firstPartner : Nat := 257

/-- Capacity of the event log and of the hardware event FIFO (R730, R720). -/
def logRecords : Nat := 8192
def hwRecords : Nat := 1024

/-- Replay log entries of a cluster (R299). -/
def replayLog : Nat := 512

/-- FREE VALUE: an ACT result the manual does not state, by SUB and operand: GELU of minus infinity (R451). -/
opaque actFp32 : Nat → BitVec 32 → BitVec 32

/-- FREE VALUE: error in units in the last place of an ACT result, by SUB and operand; taken modulo the width of the bound
of R451, so that it keeps that bound. -/
opaque actUlp : Nat → BitVec 32 → Nat

/-- FREE VALUE: a word of memory after, or a read during, a collision on it (R466). -/
opaque collision : Nat → BitVec 64

/-- FREE VALUE: what a byte of HBM that was encrypted under a key reads as where the hub holds no key for its page: the key's number and
the address (R493, R642, R648). -/
opaque wrongKey : Nat → Nat → Byte

/-- FREE VALUE: a byte read from an HBM stack that has been lost, by its address; its contents are lost (R861). -/
opaque lostByte : Nat → Byte

/-- FREE VALUE: a key or secret from the module's random source (R550, R639, R650). -/
opaque randomKey : Nat → BitVec 512

/-- FREE VALUE: trim code of reference `r` of compute die `die` at a mean temperature; its coefficients are factory
values (R758). -/
opaque refCode : Nat → Nat → Int → Nat

/-- FREE VALUE: a value of a register or field that the manual does not state, by the number of the use (assumption 2). -/
opaque freeNat : Nat → Nat

/-- FREE VALUE: temperature used for the slabs of a cluster no sensor of whose die is valid, in 0.25 degC (R200 gives none). -/
opaque blindTemp : Nat → Int

/-- FREE VALUE: quotient of a number by a temperature factor of 0 (R202, R205; assumption 52). -/
opaque tempQuotient : Int → Int

/-- FREE VALUE: byte of the PUF region, 8 KiB of management SRAM, at a start-up (R614). -/
opaque pufByte : Nat → Fin 8192 → Byte

/-- FREE VALUE: SHA-256 digest of the private key that goes with a modulus (R661); the manual gives no private key. -/
opaque privateDigest : List Byte → BitVec 256

/-- FREE VALUE: zone of the photonic die whose sensors are nearest to the rings of a port; used modulo 32 (R347). -/
opaque portZone : Nat → Nat

/-- FREE VALUE: amplitude of the own pilot tone that a loop's monitor recorded at its calibration before delivery (R356). -/
opaque pilotCal : Nat → Nat

/-- FREE VALUE: measured output power of a line that is dark or probing, and of one at pilot level, in 0.01 dBm (R392). -/
opaque darkPower : Nat → Nat
opaque pilotPower : Nat → Nat

/-- FREE VALUE: shape of the dither of a TONE at a clock, signed, 2^15 for its amplitude (R353 names no wave form). -/
opaque dither : Nat → Nat → BitVec 16

/-- FREE VALUE: text of the module serial number (R738). -/
opaque serialText : List Byte

/-- FREE VALUE: bytes that a tag and MACsec add to a frame of this many bytes of content, used modulo 37; the manual states no count
(R610). -/
opaque frameOverhead : Nat → Nat

/-- FREE VALUE: salt of a SAK's initialisation vectors, its SSCI taken in; MKA gives both with the SAK (R546). -/
opaque xpnSalt : List Byte → BitVec 96

/-- FREE VALUE: MAC address of whoever relays commands to a worker on a port before its session (R605); no command brings it. -/
opaque bareMac : Nat → BitVec 48

/-- FREE VALUE: a receiver of a cluster that retunes has locked by a clock within the 3 us it has (R569). -/
opaque retuned : Nat → Nat → Nat → Bool

end Sys2Proof.Config
end

