-- ==== Sys2Proof/Machine/State.lean ====
section
/-! DEFINITION. The state of the PF-7240, all of it plain data: units by the thousand are sparse tables (`Tab`) whose
unlisted entries have the value the unit has at reset; `State.reset` is the module as its start-up leaves it. -/

namespace Sys2Proof.Machine

/-- A sparse table: (key, value) pairs with rising keys, no entry equal to the key's reset value. -/
abbrev Tab (α : Type) := List (Nat × α)

/-- W1C flags of one register and the event counter of each (R8, R9), by bit number; counters wrap at 2^32. -/
structure W1c where
  flags : Dword
  counts : Tab Word
deriving DecidableEq, Repr

def W1c.init : W1c := { flags := 0, counts := [] }

/-! ## Tick and time (02) -/

/-- Tick source states (02). -/
inductive SrcState where
  | free | acquiring | locked | holdover | held
deriving DecidableEq, Repr

inductive SrcKind where
  | ptp | tickIn | relay
deriving DecidableEq, Repr

/-- One listed source with its qualification (R50 to R53, R58). `run`: edges, Sync intervals or relay frames in a row
that met the rule; `since`: when it last became qualified; `last`: its last edge. -/
structure TickSource where
  kind : SrcKind
  port : Nat
  dst : Bool
  qualified : Bool
  run : Nat
  since : Nat
  last : Option Nat
  /-- Edge that is to be frame 0, tick 0, until the source is selected (R58). -/
  zero : Option Nat
deriving DecidableEq, Repr

structure TimeState where
  /-- Nanoseconds since the model's start; the model's own clock, by which durations are counted. -/
  clock : Nat
  /-- Issue time that activity levels below 255 have cost since then, in 1/256 ns (R378). -/
  lost : Nat
  /-- TIME_NS (02). -/
  timeNs : Dword
  /-- FRAME_OFFSET_NS (R45). -/
  frameOffset : Nat
  /-- Tick period code (R47). -/
  period : Nat
  ptpDomain : Nat
  sources : List TickSource
  srcState : SrcState
  srcIndex : Nat
  /-- TIME_NS counts TAI now (R44), and has done so in this power-up (R209). -/
  tai : Bool
  taiSeen : Bool
  /-- Frame 0 has been fixed since the last TICK_SOURCE_SET (R58, R59). -/
  frame0 : Bool
  /-- Last two rising edges of PPS_IN, newest first (R59). -/
  pps : List Nat
  /-- Number of the current tick and frame (R46, R48), TIME_NS at its start, and ticks since power-up. -/
  tick : Nat
  frame : Nat
  tickStart : Nat
  tickCount : Nat
  /-- TIME_NS before which the current tick, and the current epoch, does not end (R57, R870). -/
  tickNotBefore : Nat
  epochNotBefore : Nat
  /-- Current epoch number (R49), and the grid point of the last control tick (R91). -/
  epoch : Nat
  controlAt : Option Nat
  /-- TIME_NS of the last throttle step (R762). -/
  throttleAt : Option Nat
  /-- Ticks since power-up at the loss of the source in use (R54), and at the last housekeeping slot (R87). -/
  lostAt : Option Nat
  hkAt : Option Nat
  /-- Phase still to be absorbed by slewing, in ns (R56). -/
  slew : Int
  /-- In the housekeeping slot (R87). -/
  inHk : Bool
deriving DecidableEq, Repr

structure RelayState where
  /-- Consecutive valid relay frames (R67) and boundaries since the last one (R66). -/
  valid : Nat
  since : Nat
  /-- HELD: the state that it was entered from, and the boundary that the second valid frame names (R67). -/
  heldFrom : SrcState
  heldExit : Option Nat
  /-- The boundaries announced, newest first: the newest, and those that have not come (02). -/
  announced : List RelayPayload
  /-- Path delay to the manager, the tick from which it is measured again, and a request under way (R64). -/
  pathNs : Nat
  delayFrom : Nat
  asked : Bool
  /-- Unanswered relay frames, by worker (R606). -/
  unanswered : Tab Nat
deriving DecidableEq, Repr

/-! ## Plans and tasks (02, 08) -/

/-- A plan: its header (02, Plan header), its 64-byte descriptors and its 16-byte buffer table entries (R510). -/
structure Plan where
  header : Dword
  tasks : List (BitVec 512)
  bufs : List (BitVec 128)
deriving DecidableEq, Repr

/-- The boundary an arm names (R76 to R78, R82): the first at or after a clock, the boundary at a TIME_NS, each in a
manager with the generation its relay frame carries (0 none), or in a worker the boundary whose relay frame carries the
generation. -/
inductive ArmTarget where
  | next (notBefore : Nat) (armGen : Word)
  | named (timeNs : Nat) (armGen : Word)
  | gen (armGen : Word)
deriving DecidableEq, Repr

/-- Where a task of the current pass stands. -/
inductive RunPhase where
  /-- Dispatch is held: no free place on the slab or engine, or a full replay log (R123, R299). -/
  | held
  /-- Dispatch waits for a free replay log entry, and LOG_FULL has been reported (R299). -/
  | waitLog
  /-- Waits for buffer slots (R517, R521). -/
  | waitSlots
  /-- A transfer that waits for confirmation (R296). -/
  | waitConfirm
  | running
  | paused
  /-- In a replay set, to be dispatched again (R304). -/
  | replay
  | done
  | notRun
deriving DecidableEq, Repr

/-- Tag of a 64-byte line that is UNCONF (R294), and whether a spoil reached it (R293). -/
structure Tag where
  epoch : Nat
  spoiled : Bool
deriving DecidableEq, Repr

/-- Page map entry fields (R489). -/
structure Page where
  kind : Nat
  tenant : Nat
  keyGen : Nat
  model : Nat
deriving DecidableEq, Repr

/-- A collision that a task under way is still to feel (R466, R468): the word, whether the task wrote it, the number of the free value in
it, and the state of the other write's data. -/
structure Clashed where
  word : Nat
  wrote : Bool
  value : Nat
  tag : Option Tag
deriving DecidableEq, Repr

structure TaskRun where
  phase : RunPhase
  pass : Nat
  /-- Clock at its dispatch, and clock at which it stopped or paused. -/
  at_ : Nat
  stopped : Option Nat
  /-- The engine has taken it up (an OPTICAL_MVM may be queued behind another); the clock from which a SLAB_MVM applies its
  bench-phases (R123), and the engine runs an OPTICAL_MVM or a detour batch, or runs it again after a pause. -/
  begun : Bool
  applied : Nat
  /-- `TimeState.lost` when the engine took up or resumed an OPTICAL_MVM or a detour batch (R378); a SLAB_MVM's `applied` is a clock of
  issue time. -/
  lost : Nat
  /-- Driver windows that localisation reads have taken, in ns (R214); for an OPTICAL_MVM, what it ran before its latest pause ended. -/
  delay : Nat
  /-- Runs as a detour (R169), is a replay (R304), carries LATE (R88, R94). -/
  detour : Bool
  replayed : Bool
  late : Bool
  /-- Confirmation state of what it read (R292). -/
  unconf : Bool
  spoiled : Bool
  epoch : Nat
  /-- Input elements read at dispatch (R108), those of them that are escapes (R109), and the trim latched for each slab
  (R129). -/
  input : List Int
  escapes : List Nat
  trims : List Nat
  clashes : List Clashed
  /-- Packets of a ROUTER_SEND, or frames of an EGRESS, that have left (R570, R578); vectors of an OPTICAL_MVM that were over at its
  latest pause (R283). -/
  sent : Nat
  /-- Frames of an EGRESS that were lost while they were being sent (R543, R545). -/
  broken : List Nat
  /-- Entry of its page when a CLUSTER_HAUL was issued, once the page map has changed since (R492). -/
  page : Option Page
deriving DecidableEq, Repr

/-- State of one slot of one copy of a buffer (R517). -/
inductive SlotPhase where
  | free | taken | full
deriving DecidableEq, Repr

structure Slot where
  phase : SlotPhase
  pass : Nat
  /-- Bytes that fabric delivery and router reception wrote since it became FREE (R574). -/
  landed : Nat
deriving DecidableEq, Repr

/-- A transfer issued ahead (R526). -/
structure Ahead where
  task : Nat
  pass : Nat
  done : Bool
  clashes : List Clashed
deriving DecidableEq, Repr

/-- Replay log entry (R299): the task, its pass and its output epoch. -/
structure LogEntry where
  task : Nat
  pass : Nat
  epoch : Nat
  /-- Keys and lengths of the regions it holds (R300). -/
  reads : List (Nat × Nat)
  /-- Task and pass of the WEIGHT_LOAD whose set an OPTICAL_MVM integrated on; on a hold, those of its own WEIGHT_LOAD once
  an OPTICAL_MVM has integrated on the set (R305, R306). -/
  weight : Option (Nat × Nat)
  /-- A WEIGHT_LOAD's hold only, which takes no place in the log (R306). -/
  hold : Bool
  /-- No replay any more: its tick's housekeeping slot has begun in RT mode (R308), or its plan has been replaced. -/
  past : Bool
deriving DecidableEq, Repr

/-- Scale table entry (R423) with the tracker's history (R434), newest observation last. -/
structure Scale where
  scale : Word
  hist : Nat
  tgt : Bool
  obs : Word
  history : List Word
deriving DecidableEq, Repr

/-- A report to the scale tracker, held until its output is confirmed (R433). -/
structure Report where
  entry : Nat
  obs : Word
  task : Nat
  /-- Confirmation state of the task's output as it was written. -/
  tag : Option Tag
  /-- Runs of lines that the task wrote, output tiles and tailings: first line and count. -/
  lines : List (Nat × Nat)
deriving DecidableEq, Repr

structure Strip where
  target : Nat
  /-- Clock from which a boundary may start it (R655). -/
  notBefore : Nat
  running : Bool
  startedAt : Nat
  delete : Bool
deriving DecidableEq, Repr

structure Cluster where
  planCap : Nat
  activeBuf : Bool
  /-- `none`: the implicit zero-task plan (R81). -/
  active : Option Plan
  shadow : Option Plan
  armed : Option ArmTarget
  /-- Clock from which a boundary applies a disarm (R80). -/
  disarm : Option Nat
  /-- The active plan is not kept in the shadow buffer when it ends: a DEV_RESET disarmed it (R873). -/
  forget : Bool
  tseq : W1c
  pass : Nat
  passStart : Nat
  /-- Runs of the pass by task index; those of the pass before it of a BATCH plan by `oldKey`. -/
  runs : Tab TaskRun
  slots : Tab Slot
  ahead : List Ahead
  log : List LogEntry
  scaleCount : Nat
  scales : Tab Scale
  /-- Scale table writes that wait for a boundary: clock from which, entry, value (R426). -/
  scaleWrites : List (Nat × Nat × Scale)
  reports : List Report
  /-- Next region of the test walker (R483). -/
  walker : Nat
  tenant : Nat
  strip : Option Strip
  /-- Clock at which the cluster's last strip ended (R185). -/
  stripEnd : Option Nat
  /-- Local cores that are hung (R856); the first acts through the standby named with it (R857). -/
  hung : List (Nat × Option Nat)
  skipped : Nat
  router : W1c
  /-- Receivers locked (R611), and those that stay dark for the phase (R569). -/
  locked : BitVec 4
  missed : BitVec 4
  /-- Clock up to which packets of the cluster occupy its line to a destination (R565). -/
  lineBusy : Tab Nat
  capacity : Nat
deriving DecidableEq, Repr

/-! ## Slabs (03, 04) -/

/-- DRESS_STATE (R168). -/
inductive DressState where
  | blank | dressing | ready | repair | failed | incomplete | detour
deriving DecidableEq, Repr

/-- One accumulator set (R131, R877): slice accumulators by physical column, BASE by output, KCOUNT (R150). -/
structure AccSet where
  slice : Tab Int
  base : Tab Int
  kcount : Nat
  sat : Bool
  clip : Bool
  boundVoid : Bool
  seamFail : Bool
  unconf : Bool
  spoiled : Bool
  epoch : Nat
  /-- SLAB_MVM tasks since the last that had ACC_KEEP at 0 (R877). -/
  chain : List Nat
deriving DecidableEq, Repr

/-- What SLAB_DRESS writes on the slab (R170, R191, R213). -/
structure DressParams where
  tileId : Dword
  seamThresh : Nat
  redressAge : Nat
  model : Nat
deriving DecidableEq, Repr

/-- A queued dressing: its class of R188 (0 seam repair, 1 DRIFT_LIMIT, 2 SLAB_DRESS, 3 age) and queue time. -/
structure QueuedDress where
  cls : Nat
  queuedAt : Nat
  order : Nat
  params : Option DressParams
deriving DecidableEq, Repr

/-- A running dressing (R180, R181). -/
structure RunningDress where
  params : DressParams
  startedAt : Nat
  /-- Clock at completion, once complete; then it returns under R182. -/
  doneAt : Option Nat
  page : Nat
  ofs : Nat
  /-- Column map and TILE_DIGEST of the master copy it reads; in force from its end. -/
  map : List Half
  digest : BitVec 256
  /-- Codes of the copy's cells, and the targets of all cells by `cellKey` (R174 to R178). -/
  codes : Tab Nat
  goal : Tab Nat
  /-- Once the first finish is over (R180): the columns it retired, and the spares, by physical column, that a second pass dresses for
  them; none where too few were free. -/
  retired : Option (List Nat)
  spares : List Nat
  /-- First of the free values that its cells hold while they are reset or under dressing (the model's own). -/
  free : Nat
deriving DecidableEq, Repr

/-- Spare dressing (R225): the column being replaced, the spare, the row under dressing and its iterations, finish due. -/
structure SpareDress where
  column : Nat
  spare : Nat
  row : Nat
  iter : Nat
  unverified : Bool
  /-- Finished: remapped at the next boundary (R227), with b of its own finish. -/
  done : Bool
  base : Int
  /-- Retired: to be dressed to code 0 (R225). -/
  retire : Bool
deriving DecidableEq, Repr

structure Slab where
  dress : DressState
  /-- Cells at (row * 272 + column), rows 0 to 257 (R12, R14); seam cells in 1/32 cell units (R175). -/
  cells : Tab Nat
  /-- Targets of the cells that a dressing left unverified, by `cellKey` (R178, R180). -/
  unmet : Tab Nat
  /-- Column map in force, 256 entries (R102). -/
  map : List Half
  outputs : Nat
  driftTrim : Nat
  ageTrim : Nat
  tco : Int
  driftBase : Int
  seamThresh : Nat
  redressAge : Nat
  /-- MODEL of the SLAB_DRESS in force (R189). -/
  model : Nat
  tDress : Int
  dressTime : Dword
  /-- The clock at which that record was written, for its conversion to TAI (R209). -/
  dressClock : Nat
  timebase : Bool
  /-- The record of TIMEBASE 1 was written in this power-up (R208). -/
  thisPower : Bool
  dressCount : Nat
  tileId : Dword
  digest : BitVec 256
  sealed_ : Bool
  bound : Bool
  /-- Page that holds its mapped master copy, and its offset. -/
  master : Option (Nat × Nat)
  pinned : Bool
  /-- Remap of spare s to a column (R235), retired columns (R177), baseline b (R236). -/
  remap : Tab Nat
  retired : List Nat
  baseline : Tab Int
  status : W1c
  rowgrpLast : Nat
  live : AccSet
  shadow : AccSet
  zskip : Nat
  /-- Reconstructed data columns (R221), failed seam groups (R212), bench-phase and group of a mismatch being localised
  (R214), those localised in the running task and whether its tile is flagged (R216, R222). -/
  recon : List Nat
  seamOff : List Nat
  mismatch : Option (Nat × Nat)
  handled : List (Nat × Nat × Bool)
  /-- Columns that the running task had reconstructed before its slab left service or its spare came in, and up to which of its
  bench-phases (R221, R227, R230). -/
  kept : List (Nat × Nat)
  /-- Clocks of SEAM_TRANSIENTs (R217). -/
  transients : List Nat
  queued : Option QueuedDress
  running : Option RunningDress
  spare : Option SpareDress
  /-- Drift pairs since the last AGE_TRIM: count and sum of normalised D in units of 2^-20 (R202, R203). -/
  driftPairs : Nat
  driftSum : Int
  /-- A drift read pair of this slot that waits for a SLAB_MVM to complete (R152). -/
  driftDue : Option Int
  /-- An unplanned detour has been prepared since its fault (R199); an INCOMPLETE record is due (R193). -/
  detourReady : Bool
  incompleteDue : Bool
  /-- Column unit by position, the next position of the rotation (R797, R799), rotation stopped (R802). -/
  units : List Nat
  rotNext : Nat
  rotAgain : Bool
  rotStopped : Bool
deriving DecidableEq, Repr

/-! ## Optical engines (05) -/

/-- Physical row states (R261). -/
inductive RowState where
  | service | standby | cal | reacquire | failed
deriving DecidableEq, Repr

/-- RING_CAL (R248). -/
structure RingCal where
  zero : Nat
  gain : Nat
  epoch : Nat
deriving DecidableEq, Repr

/-- A weight set: bytes by 64 * row + line (R267), with its confirmation state (R255). -/
structure WeightSet where
  loaded : Bool
  q : Tab Int
  /-- DAC codes in its holds, by 64 * row + line (R247, R253); a ring that is not listed holds its zero-weight code. -/
  codes : Tab Nat
  /-- Powers of the lines behind the NORM of the codes (R252). -/
  power : Tab Nat
  unconf : Bool
  spoiled : Bool
  epoch : Nat
  sat : Bool
  /-- Clock at which it came in force (R256). -/
  since : Nat
  /-- Task that loaded it and the pass (R305). -/
  task : Nat
  pass : Nat
deriving DecidableEq, Repr

/-- Verdict history entry (R316). -/
structure Verdict where
  epoch : Nat
  clean : Bool
  ring : Bool
  power : Bool
  pilot : Bool
  late : Bool
  integrated : Bool
  row : Nat
  line : Option Nat
deriving DecidableEq, Repr

/-- What an open epoch has seen (R289, R298). -/
structure EpochInfo where
  ring : Bool
  power : Bool
  pilot : Bool
  /-- Dirty by a feed change or a row out of service (R326, R266, R360). -/
  forced : Bool
  integrated : Bool
  /-- An injected fault made it dirty (R867). -/
  inj : Bool
  row : Option Nat
  line : Option Nat
deriving DecidableEq, Repr

/-- A logical row that no physical row serves (R266): the row removed, the cause of its removal, how the verdicts name it, and the epoch
in which it was detected (R360). -/
structure Unmapped where
  logical : Nat
  row : Nat
  cause : Nat
  pilot : Bool
  inj : Bool
  since : Nat
deriving DecidableEq, Repr

structure Engine where
  rowMap : Tab Nat
  rows : Tab RowState
  calRow : Option Nat
  rotationNext : Nat
  calSlots : Nat
  /-- RING_CAL before the calibration in progress (R266). -/
  calSaved : Tab RingCal
  /-- Row that has completed its calibration and takes a logical row at the next swap (R264). -/
  rotDue : Option Nat
  /-- Logical rows that no physical row serves (R266). -/
  unmapped : List Unmapped
  /-- Calibration step of the housekeeping slot that waits for a WEIGHT_LOAD, a refresh or a detour batch under way (R880): its
  result, and whether a stage has failed. -/
  calDue : Option (Option (List (Nat × Nat) × Bool) × List Nat)
  ringCal : Tab RingCal
  pred : Tab Nat
  norm : Tab Nat
  pNom : Tab Nat
  pNow : Tab Nat
  /-- P_nom re-based while a split lasts (R251, R325). -/
  pBase : Tab Nat
  active : WeightSet
  shadow : WeightSet
  refreshDue : Bool
  /-- Clock at which the latest refresh ends (R256), and clock at which the restore after a detour batch is over (R879). -/
  refreshUntil : Nat
  freeAt : Nat
  /-- Rows that have left SERVICE since the last control tick (R289). -/
  left : List Nat
  status : W1c
  rateLast : Nat
  lastVerdict : Nat
  lastDirty : Nat
  /-- No verdict has been published yet (the model's own; R291). -/
  anyVerdict : Bool
  symbols : Nat
  stallNs : Nat
  history : List Verdict
  epochs : Tab EpochInfo
  /-- Epoch of a dirty verdict whose spoil has not run (R298, R303), and whether an injected fault caused it. -/
  spoilDue : Option (Nat × Bool)
  /-- Slab and tasks of the detour batch gathered (R284). -/
  batch : List (Nat × Nat)
deriving DecidableEq, Repr

/-! ## Memory and hauling (08) -/

inductive BankPower where
  | on | retention | off
deriving DecidableEq, Repr

/-- A BANK_ASSIGN or BANK_POWER that waits for its boundary (R474, R479). -/
structure BankChange where
  notBefore : Nat
  owner : Option (Nat × Nat)
  power : Option BankPower
deriving DecidableEq, Repr

structure Bank where
  owner : Nat
  ownerCore : Nat
  power : BankPower
  /-- In transition to `power` (R479), from OFF (R480). -/
  moving : Bool
  fromOff : Bool
  pending : Option BankChange
  status : W1c
deriving DecidableEq, Repr

structure Haul where
  status : W1c
  outstanding : Nat
  aheadIssued : Nat
  aheadCancelled : Nat
  bytes : Nat
deriving DecidableEq, Repr

/-- A run of 64-byte HBM lines and the number of the key that they are encrypted under (R493, R648). -/
structure Seal where
  first : Nat
  last : Nat
  key : Nat
deriving DecidableEq, Repr

structure PageChange where
  notBefore : Nat
  page : Nat
  entry : Page
deriving DecidableEq, Repr

/-- A tile map entry mapped by MODEL_MAP_PAGES (R705, R646). -/
structure TileMap where
  tenant : Nat
  tileId : Dword
  page : Nat
  ofs : Nat
  /-- Clock from which a boundary puts it in force (R492); `none` once in force. -/
  notBefore : Option Nat
deriving DecidableEq, Repr

/-! ## Light, loops and power (06, 12, 13) -/

/-- Laser states (R392). -/
inductive LaserState where
  | off | probe | on | failed | donor
deriving DecidableEq, Repr

/-- A tunable spare T0 to T3 (R320, R330). -/
structure Spare where
  line : Option Nat
  verified : Bool
  inService : Bool
  /-- Clock at which its tuning began (R330). -/
  tunedAt : Nat
  /-- It has failed in service: its line gets another spare (R324, R330, R855). -/
  failed : Bool
deriving DecidableEq, Repr

structure Cart where
  present : Bool
  intlk : Bool
  returnOk : Bool
  lit : Bool
  status : W1c
  spares : List Spare
  temp : Int
  /-- Socket powered (R842), cut by its current limit (R844), clock at which the interlock closed (R843). -/
  powered : Bool
  limited : Bool
  closedAt : Nat
  /-- Consecutive probes that saw return light (R338), return-tap power at lighting (R336). -/
  probes : Nat
  litPower : Int
  /-- Clocks of the last probe (R338) and of the last lighting (R339). -/
  probedAt : Option Nat
  litAt : Nat
  /-- Clock at which a ramp to nominal is over, and the return-tap power recorded then (R338). -/
  ramp : Option (Nat × Int)
  hold : Bool
  /-- Powered by the cartridge step of start-up, and not yet lit since (R835). -/
  starting : Bool
  /-- Relit lines that wait to return to service, and whether each is verified (R339). -/
  relit : Tab Bool
  /-- Switch-in boundaries named for lines (R331, R334): line and TIME_NS. -/
  named : Tab Nat
  /-- Lines whose boundary AUTO has set (R331). -/
  autoNamed : List Nat
  /-- Lines that failed: the clock at which LINE_FAIL was latched, 1 us after the failure (R325, R396). -/
  failedAt : Tab Nat
  lasers : Tab LaserState
  powerOut : Tab Int
deriving DecidableEq, Repr

inductive LoopPhase where
  | off | sweep | pilotWait | locked | failed
deriving DecidableEq, Repr

structure Loop where
  coef : BitVec 256
  staged : Option (BitVec 256)
  /-- Writes that wait for a control tick: clock from which, offset, value (R381). -/
  writes : List (Nat × Nat × Word)
  e : Int
  u : Int
  p : Int
  i : Int
  d : Int
  ff : Int
  applied : Int
  phase : LoopPhase
  frozen : Bool
  freezeFrom : Option Nat
  /-- Clock from which a control tick releases it (R387). -/
  releaseFrom : Option Nat
  frozenAt : Nat
  clamped : Bool
  status : W1c
  /-- Control ticks outside the window (R352), failed re-acquisitions (R361). -/
  outTicks : Nat
  fails : Nat
  /-- Clock at which a re-acquired loop closed (R361), and whether an injected fault removed it (R867). -/
  waitFrom : Nat
  byFault : Bool
  /-- Waits for its sweep (R362), clock at which the sweep began (R361), and its light was off (R364). -/
  queued : Bool
  sweepFrom : Nat
  lostLight : Bool
  /-- TIME_NS of the last pilot check (R356). -/
  pilotAt : Option Nat
  /-- Slope measured at acquisition, MHz per unit of the lock-in in Q16.16, and the products of LOCKIN_WIN, oldest first (R353). -/
  slope : Int
  demod : List Int
  heatOp : Int
  tCal : Int
  heatPlaus : Int
  nvTrim : Nat
  hofs : Int
deriving DecidableEq, Repr

structure Sensor where
  temp : Int
  count : Nat
  same : Nat
  pair : Nat
  failed : Bool
  /-- Failed by FAULT_INJECT (R755). -/
  injected : Bool
deriving DecidableEq, Repr

/-- Power states PS0 to PS5 (12). -/
inductive PState where
  | ps0 | ps1 | ps2 | ps3 | ps4 | ps5
deriving DecidableEq, Repr

/-- Where start-up stands (R831). -/
inductive Boot where
  | unpowered | inReset | sensors | refclk | rails | serving
deriving DecidableEq, Repr

structure Trip where
  overcurrent : Bool
  die : Nat
  sensor : Nat
  reading : Int
deriving DecidableEq, Repr

structure Power where
  boot : Boot
  pstate : PState
  /-- State asked for, and the clock from which a boundary enters it (R745). -/
  target : Option (PState × Nat)
  /-- Clock from which a boundary lets plans run again (R746). -/
  resumeFrom : Option Nat
  stop : Bool
  stopDue : Bool
  tl : Nat
  hostLimit : Int
  sensors : Tab Sensor
  hbm : List Int
  watts : Nat
  amps : Nat
  volts : Nat
  activity : Nat
  limiter : Nat
  refTrim : Tab Nat
  trip : Option Trip
  tripped : Bool
  /-- The TRIP record is due at the next firmware load (R772). -/
  tripDue : Bool
  rolePin : Bool
  pmAddr : BitVec 3
  /-- RESET_N is held low (R827, R831). -/
  resetLow : Bool
  /-- Start-up: the earliest clock of point W, the clock of the last sensor check, and that of the reference step (R831 to R834). -/
  pointW : Nat
  checkedAt : Option Nat
  refAt : Nat
  /-- Boundaries since die stack DS0 was lost (R861). -/
  ds0Ticks : Option Nat
deriving DecidableEq, Repr

/-- A mean over whole milliseconds (R739): sums and their count of the millisecond in progress, and of the last one. -/
structure Mean where
  sums : List Int
  n : Nat
  last : List Int
  lastN : Nat
deriving DecidableEq, Repr

structure Pmbus where
  /-- Status bits not yet cleared: input, temperature, CML, OFF. -/
  input : Byte
  temperature : Byte
  cml : Byte
  alertN : Bool
  /-- Input voltage, current and power, and the three temperatures of R738; the millisecond in progress. -/
  elec : Mean
  temps : Mean
  ms : Nat
  /-- Bytes of the module's last answer (the model's own). -/
  reply : List Byte
deriving DecidableEq, Repr

/-- MONCONV record (R794). -/
structure Monconv where
  scanMask : Word
  refmode : Bool
  continuous : Bool
  start : Bool
  busy : Bool
  refReady : Bool
  status : W1c
  /-- Clock from which the reference of REFMODE 0 settles (R791). -/
  refFrom : Nat
  /-- Injection queue (R788): channel, the ring whose MONCONV_INJECT waits, and the clock of the sample. -/
  inj : List (Nat × Ring × Nat)
  /-- OFFSET, GAIN and failed stage that the housekeeping slot in progress measured (R804). -/
  measured : Option (Int × Nat × Bool)
  /-- TIME_NS at which DATA was written (R786). -/
  dataAt : Nat
  dataCh : Nat
  dataValid : Bool
  data : Nat
  injCode : Nat
  injCh : Nat
  last : Tab Nat
  /-- Results still to deliver (R781): channel and clock of its sample; results lost in the pass (R787). -/
  todo : List (Nat × Nat)
  lost : Nat
deriving DecidableEq, Repr

/-- CONV_CORR (R796) less POSITION, which the slab's units give. -/
structure ConvCorr where
  offset : Int
  gain : Nat
  failed : Bool
  calCount : Nat
  calEpoch : Nat
deriving DecidableEq, Repr

/-- Heater DAC (R806 to R811). -/
structure Heater where
  /-- Range of the last queue entry written, and control ticks that its command has stayed below 9,000 (R810). -/
  low : Bool
  below : Nat
  /-- Last command (R348). -/
  cmd : Int
  /-- Present range (low) and code of the DAC, the entries that wait and the clock of the sample before the first (R806, R811). -/
  out : Bool × Nat
  queue : List (Bool × Nat)
  since : Nat
deriving DecidableEq, Repr

/-! ## Fabric (09) -/

/-- A frame that left the module (the model's own record of its output). -/
structure TxFrame where
  port : Nat
  /-- 0 Joryar, 1 U-plane, 2 C-plane, 3 eCPRI one-way delay, 4 LACP, 5 MKA, 6 PTP. -/
  kind : Nat
  type : Nat
  partner : Nat
  tag : Nat
  seq : Nat
  offset : Nat
  last : Bool
  payload : List Byte
  /-- The Joryar header (R575); of U-plane and C-plane the eCPRI common header, eAxC and ecpriSeqid (R551, R560). -/
  header : List Byte := []
  /-- Its Ethernet and MACsec fields: destination and source address (R540), IEEE 802.1Q tag, EtherType, and the CA that protects it,
  none in clear (R546). -/
  dst : BitVec 48 := 0
  src : List Byte := []
  vlan : Option Nat := none
  ether : Nat := 0
  ca : Option Nat := none
  /-- The SAK and the packet number that protect it (R546), and the clock at which its transmission begins (R543). -/
  sak : List Byte := []
  pn : Nat := 0
  at_ : Nat := 0
deriving DecidableEq, Repr

structure Port where
  /-- Up under R542, and in its group's capacity: up, or stopped without a fault (R591). -/
  up : Bool
  served : Bool
  /-- Collecting and distributing (R539, R609), the clock of the last LACPDU received, and of the last one sent. -/
  lacp : Bool
  lacpAt : Option Nat
  lacpSent : Nat
  dark : Byte
  light : Nat
  ptpLock : Bool
  synceLock : Bool
  /-- The last ESMC message carried DNU, or none has come (R563). -/
  dnu : Bool
  status : W1c
  counters : Tab Dword
  /-- Clock to which its transmit lanes pause (R545), and to which the frames sent occupy them. -/
  pausedUntil : Nat
  busyUntil : Nat
  /-- The PTP master that the BMCA has chosen on the port (R561). -/
  master : Option PtpAnnounce
deriving DecidableEq, Repr

/-- Landing of one symbol (R557, R558): the tick it belongs to, the symbol and the PRBs landed (stream * 273 + PRB). -/
structure Landing where
  frame : Nat
  tick : Nat
  symbol : Nat
  prbs : List Nat
  done : Bool
deriving DecidableEq, Repr

/-- Traffic state of a partner (R578, R579, R590). -/
structure PartnerDyn where
  counters : Tab Word
  landings : List Landing
  txSeq : Nat
  rxSeq : Nat
  sinceAck : Nat
  unacked : List TxFrame
  /-- Numbered frames that the window does not yet let go (R578). -/
  queued : List TxFrame
  /-- Clock of the last progress or resend while frames are unacknowledged (R578). -/
  ackAt : Nat
  resends : Nat
  stalled : Bool
  /-- Next ecpriSeqid by message type * 65,536 + eAxC (R551). -/
  ecpri : Tab Nat
deriving DecidableEq, Repr

structure PartnerChange where
  notBefore : Nat
  index : Nat
  /-- 0 attach, 1 modify, 2 detach (R613), 3 shed. -/
  kind : Nat
  entry : BitVec 512
deriving DecidableEq, Repr

structure Phase where
  start : Nat
  entries : List Byte
deriving DecidableEq, Repr

/-- A router packet in a receiver's buffer (R571, R573): destination cluster and receiver, DST_ADDR, source cluster, TAG. -/
structure Packet where
  dest : Nat
  rx : Nat
  addr : Nat
  src : Nat
  tag : Nat
  data : List Byte
deriving DecidableEq, Repr

/-- A relayed command outstanding at the manager (R603), or received by a worker (R604). -/
structure Relay where
  worker : Nat
  tag : Nat
  hdr : Option CmdHdr
  cmd : List Byte
  /-- Output received by the manager, and the completion, until DOMAIN_RELAY completes with them. -/
  data : List Byte
  cpl : Option (List Byte)
  /-- Clock of its last BULK frame, and the time that it may take from then (R603). -/
  since : Nat
  limit : Nat
deriving DecidableEq, Repr

structure Member where
  index : Nat
  cluster : Nat
  ca : Nat
  fp : BitVec 48
deriving DecidableEq, Repr

/-- A page of the domain page map (R601, R602): kind, tenant and model as the manager learned them. -/
structure DomainPage where
  kind : Nat
  tenant : Nat
  model : Nat
deriving DecidableEq, Repr

structure Domain where
  joined : Bool
  index : Nat
  ethertype : Nat
  members : List Member
  managerFp : BitVec 256
  succFps : List (BitVec 256)
  managerIndex : Nat
  relays : List Relay
  /-- The manager's domain page map by domain page number, and its partner directory by partner index and domain index (R601, R602). -/
  pageMap : Tab DomainPage
  directory : Tab (BitVec 512)
deriving DecidableEq, Repr

structure Fabric where
  ports : Tab Port
  partners : Tab (BitVec 512)
  dyn : Tab PartnerDyn
  changes : List PartnerChange
  admitSeq : Nat
  phaseMap : List Phase
  /-- Phase maps loaded, each with the clock from which a boundary applies it (R568). -/
  mapChanges : List (Nat × List Phase)
  /-- The current phase, the clock of its start, and the receiver entries of the phase before it (R569). -/
  curPhase : Nat
  phaseAt : Nat
  lastPhase : List Byte
  packets : List Packet
  /-- Group capacities lost to a die stack loss (R591). -/
  groupLost : List Nat
  sent : List TxFrame
  /-- Frames that no port can send yet: their port is down and no other of the group is up, or their CA has no SAK (R541, R546). -/
  waiting : List TxFrame
  domain : Domain
  relay : RelayState
deriving DecidableEq, Repr

/-! ## Trust and mailbox (10, 11) -/

structure Identity where
  fingerprint : BitVec 256
  modulus : List Byte
  serial : Dword
  /-- The private key is held: until the load certificate is signed (R620). -/
  priv : Bool := true
deriving DecidableEq, Repr

/-- Connectivity association (R547, R550). -/
structure Ca where
  cak : Option (List Byte)
  ckn : List Byte
  tenant : Nat
  sak : Option (List Byte)
  /-- Packet numbers under the SAK: of the next frame sent, and the next one expected (R546, R549, R550). -/
  txPn : Nat
  rxPn : Nat
deriving DecidableEq, Repr

/-- An open session: next SEQ of each channel (R632), discards in a row (R634), its keys (R630). -/
structure Session where
  seq : Tab Nat
  discards : Nat
  keyIn : BitVec 256
  keyOut : BitVec 256
deriving DecidableEq, Repr

structure Tenant where
  exist : Bool
  deleting : Bool
  modulus : List Byte
  session : Option Session
  genCur : Nat
  genOld : Option Nat
  /-- Page key of each generation, as the number of its random value (R639, R650). -/
  keys : Tab Nat
  /-- A rotation that waits for its boundary (R650). -/
  rotate : Option Nat
  /-- Watermark of the pass by die stack: page and next chunk (R651), and the clock at which the hold of the chunk before it ends
  (R652). -/
  rekey : Tab (Nat × Nat)
  holdUntil : Tab Nat
  badTag : Nat
  badSeq : Nat
  /-- Event log position (R730), LOST total and its value at the previous EVENT_READ (R731). -/
  pos : Nat
  lost : Nat
deriving DecidableEq, Repr

structure Trust where
  /-- The start-up contents of the PUF region that the boot ROM has read (R614), by the number of the start-up (`Config.pufByte`). -/
  puf : Option Nat
  identity : Option Identity
  /-- Public parts and presence of AK and XK (R620), AK fingerprint. -/
  ak : Option (List Byte)
  akFp : BitVec 256
  xk : Option (List Byte)
  mrFw : BitVec 256
  mrCfg : BitVec 256
  mrPlan : Tab (BitVec 256)
  mrModel : Tab (BitVec 256)
  nextSerial : Nat
  tenants : Tab Tenant
  cas : Tab Ca
deriving DecidableEq, Repr

/-- An accepted command in its ring: its 64 bytes, the session that carried it, the clock at which it became the head. -/
structure Accepted where
  bytes : List Byte
  session : Option TenantId
  headAt : Nat
  /-- Relayed command: partner and TAG of its relay, whose BULK frames bring its bulk (R604). -/
  relay : Option (Nat × Nat)
  /-- Presented by its own row with its bulk (assumption 5): nothing is taken from the bulk-in FIFO. -/
  direct : Bool
  /-- Bulk plaintext taken so far. -/
  bulk : List Byte
deriving DecidableEq, Repr

/-- A completion (11, Completion). -/
structure Cpl where
  status : Nat
  applied : Bool
  inF3 : Bool
  opcode : Nat
  id : Word
  outLen : Nat
  detail : Nat
  result : BitVec 128
  session : Option TenantId
  /-- The 64 bytes that CPL_PORT yields: clear, or the envelope sealed when it was posted (R631, R681). -/
  wire : List Byte
deriving DecidableEq, Repr

/-- A command in execution that has not completed (R682). -/
structure Exec where
  hdr : CmdHdr
  cmd : HostCmd
  since : Nat
  /-- What the command still waits for: bytes to land (R707), housekeeping slots (R727), or the owner it gives back. -/
  left : Nat
  /-- Relayed command: partner and TAG of its relay (R604). -/
  relay : Option (Nat × Nat)
deriving DecidableEq, Repr

structure RingState where
  cmds : List Accepted
  exec : Option Exec
  cpls : List Cpl
  pushResult : Nat
  status : W1c
  accepted : Nat
  completed : Nat
deriving DecidableEq, Repr

/-- FW_STATE (11). -/
inductive FwState where
  | waitImage | loading | verifying | running | restarting | halted
deriving DecidableEq, Repr

/-- An event record before its append (R862): class, tenant, MODULE, INJECTED and 20 payload bytes. -/
structure Event where
  time : Dword
  cls : Nat
  tenant : Nat
  module : Bool
  injected : Bool
  payload : BitVec 160
deriving DecidableEq, Repr

/-- A record or counter step held under R296 until a cluster's epoch is confirmed (R864). -/
structure HeldEvent where
  cluster : Nat
  epoch : Nat
  ev : Event
deriving DecidableEq, Repr

structure Mailbox where
  fw : FwState
  manager : Bool
  restarts : Nat
  int : W1c
  intEnable : Word
  rings : Tab RingState
  /-- Ring served last of CTL, BLK and DIA (R684). -/
  lastRing : Nat
  binFifo : List Byte
  boutFifo : List Byte
  f3 : Tab Byte
  wptr : Nat
  rptr : Nat
  image : List Byte
  imageLen : Nat
  digest : BitVec 256
  wdogs : List Nat
  /-- Firmware has stopped restarting its watchdog (R867 FW_CRASH). -/
  crashed : Bool
  log : List (Nat × Event)
  logSeq : Nat
  hwFifo : List Event
  hwLost : Nat
  held : List HeldEvent
deriving DecidableEq, Repr

structure Sdio where
  s18 : Bool
  v18 : Bool
  vdd : Bool
  /-- CCCR and FBR bytes that are written (R669, R671, R838). -/
  cccr : Tab Byte
  ioReady : Bool
  /-- Bytes of the last read the host made (the model's own). -/
  read : List Byte
deriving DecidableEq, Repr

inductive JtagInstr where
  | extest | sample | idcode | clamp | highz | bypass
deriving DecidableEq, Repr

structure Jtag where
  instr : JtagInstr
  inEffect : Bool
  capture : List Bool
  preload : List Bool
deriving DecidableEq, Repr

/-- An injected fault in force (R867). -/
structure Injected where
  kind : Nat
  target : Nat
  until_ : Option Nat
deriving DecidableEq, Repr

/-! ## The machine -/

structure State where
  pending : List Instr
  time : TimeState
  clusters : Tab Cluster
  slabs : Tab Slab
  vec : Tab W1c
  engines : Tab Engine
  banks : Tab Bank
  hauls : Tab Haul
  mem : List Host.Cell
  tags : Tab Tag
  /-- Keys of the HBM lines written, newest first; a line not among them has never been written under a key. -/
  seals : List Seal
  pages : Tab Page
  pageChanges : List PageChange
  tiles : List TileMap
  /-- HBM stacks lost, each with the clock from which a boundary frees its pages, until it has (R861). -/
  hbmLost : List (Nat × Option Nat)
  carts : Tab Cart
  feed : Tab Nat
  loops : Tab Loop
  ringTrim : Tab (Nat × Int)
  /-- Amplitude of the own pilot tone recorded at a loop's calibration, where one has been made since delivery (R356). -/
  pilotRef : Tab Nat
  xtalk : Tab (BitVec 256)
  xstage : Tab (BitVec 256)
  xcommit : List Nat
  power : Power
  pmbus : Pmbus
  monconv : Tab Monconv
  corr : Tab ConvCorr
  heaters : Tab Heater
  fabric : Fabric
  trust : Trust
  mbx : Mailbox
  sdio : Sdio
  jtag : Jtag
  faults : List Injected
  /-- Counter of free values taken (assumption 2). -/
  free : Nat
deriving DecidableEq, Repr

/-- Reasons to stop. -/
inductive Fault where
  /-- An operand list of a command does not have the length its row needs (`Instr.wellFormed`); raised by the meanings
  of those rows; safe. -/
  | malformed
deriving DecidableEq, Repr

/-- Refusals. -/
inductive Refusal where
  /-- Raised by `exec` for a row whose meaning is not written; safe. -/
  | notModelled (mnemonic : String)
deriving DecidableEq, Repr

/-! ## Reset values of the units -/

def TimeState.init : TimeState :=
  { clock := 0, lost := 0, timeNs := 0, frameOffset := 0, period := 4, ptpDomain := 24, sources := [],
    srcState := .free, srcIndex := 0, tai := false, taiSeen := false, frame0 := false, pps := [], tick := 0, frame := 0,
    tickStart := 0, tickCount := 0, tickNotBefore := 0, epochNotBefore := 0, epoch := 0, controlAt := none, throttleAt := none, lostAt := none,
    hkAt := none, slew := 0, inHk := false }

def RelayState.init : RelayState :=
  { valid := 0, since := 0, heldFrom := .free, heldExit := none, announced := [], pathNs := 0, delayFrom := 0, asked := false,
    unanswered := [] }

def Cluster.init : Cluster :=
  { planCap := 512, activeBuf := false, active := none, shadow := none, armed := none, disarm := none, forget := false, tseq := W1c.init,
    pass := 0, passStart := 0, runs := [], slots := [], ahead := [], log := [], scaleCount := 0, scales := [],
    scaleWrites := [], reports := [], walker := 0, tenant := 0, strip := none, stripEnd := none, hung := [], skipped := 0,
    router := W1c.init, locked := 0, missed := 0, lineBusy := [], capacity := 1024 }

def TaskRun.init : TaskRun :=
  { phase := .held, pass := 0, at_ := 0, stopped := none, begun := false, applied := 0, lost := 0, delay := 0, detour := false, replayed := false, late := false,
    unconf := false, spoiled := false, epoch := 0, input := [], escapes := [], trims := [], clashes := [], sent := 0, broken := [], page := none }

def Slot.init : Slot := { phase := .free, pass := 0, landed := 0 }

def Scale.init : Scale := { scale := 0x3F800000, hist := 0, tgt := false, obs := 0, history := [] }

def AccSet.init : AccSet :=
  { slice := [], base := [], kcount := 0, sat := false, clip := false, boundVoid := false, seamFail := false, unconf := false,
    spoiled := false, epoch := 0, chain := [] }

def Slab.init : Slab :=
  { dress := .blank, cells := [], unmet := [], map := List.replicate 256 0x0C00, outputs := 0, driftTrim := 0x4000,
    ageTrim := 0x4000, tco := 0, driftBase := 0, seamThresh := 2880, redressAge := 0, model := 0xFFFF, tDress := 0, dressTime := 0, dressClock := 0,
    timebase := false, thisPower := false, dressCount := 0, tileId := 0, digest := 0, sealed_ := false, bound := false,
    master := none, pinned := false, remap := [], retired := [], baseline := [], status := W1c.init, rowgrpLast := 1,
    live := AccSet.init, shadow := AccSet.init, zskip := 0, recon := [], seamOff := [], mismatch := none, handled := [], kept := [],
    transients := [], queued := none, running := none, spare := none, driftPairs := 0, driftSum := 0, driftDue := none,
    detourReady := false, incompleteDue := false,
    units := [0, 1, 2, 3, 4, 5, 6, 7, 8, 9, 10, 11, 12, 13, 14, 15, 16, 17], rotNext := 0, rotAgain := false,
    rotStopped := false }

def RingCal.init : RingCal := { zero := 0x200, gain := 0x6400, epoch := 0 }

def WeightSet.init : WeightSet :=
  { loaded := false, q := [], codes := [], power := [], unconf := false, spoiled := false, epoch := 0, sat := false, since := 0,
    task := 0, pass := 0 }

def EpochInfo.init : EpochInfo :=
  { ring := false, power := false, pilot := false, forced := false, integrated := false, inj := false, row := none, line := none }

def Engine.init : Engine :=
  { rowMap := [], rows := [], calRow := some 65, rotationNext := 0, calSlots := 0, calSaved := [], rotDue := none,
    unmapped := [], ringCal := [], pred := [], norm := [], pNom := [], pNow := [], pBase := [], active := WeightSet.init,
    shadow := WeightSet.init, refreshDue := false, refreshUntil := 0, freeAt := 0, calDue := none, left := [], status := W1c.init, rateLast := 0,
    lastVerdict := 0, lastDirty := 0,
    anyVerdict := false, symbols := 0, stallNs := 0, history := [], epochs := [], spoilDue := none, batch := [] }

/-- Bank `k` = cluster * 544 + b: b below 32 is a cluster memory bank, else scratch bank (b - 32) (R473, R721). -/
def Bank.init (k : Nat) : Bank :=
  { owner := if k % 544 < 32 then 1 else 2, ownerCore := if k % 544 < 32 then 0 else (k % 544 - 32) / 8, power := .on,
    moving := false, fromOff := false, pending := none, status := W1c.init }

def Haul.init : Haul := { status := W1c.init, outstanding := 0, aheadIssued := 0, aheadCancelled := 0, bytes := 0 }

def Page.init : Page := { kind := 0, tenant := 0, keyGen := 0, model := 0xFFFF }

def Spare.init : Spare := { line := none, verified := false, inService := false, tunedAt := 0, failed := false }

def Cart.init : Cart :=
  { present := false, intlk := false, returnOk := false, lit := false, status := W1c.init,
    spares := [Spare.init, Spare.init, Spare.init, Spare.init], temp := 0, powered := false, limited := false,
    closedAt := 0, probes := 0, litPower := 0, probedAt := none, litAt := 0, ramp := none, hold := false, starting := false, relit := [],
    named := [], autoNamed := [], failedAt := [], lasers := [], powerOut := [] }

/-- SETPOINT of power loop 5,120 + k after reset (R375). -/
def powerSetpoint (k : Nat) : Nat :=
  match k with
  | 0 => 14000
  | 1 => 3600
  | 2 => 368
  | 3 => 368
  | 4 => 368
  | 5 => 368
  | 6 => 340
  | _ => 240

/-- LOOP_COEF of a loop at reset: zero but for a power loop's SETPOINT (R375), its integrator limits and OUT_MAX, with which
nothing is restricted (R378), and a lock loop's LOCKIN_WIN (06, Lock-in windows) and heater range (R809) (assumption 7). -/
def Loop.coefInit (k : Nat) : BitVec 256 :=
  if k < 5120 then (BitVec.ofNat 256 40000 <<< (8 * 0x16)) ||| (BitVec.ofNat 256 4 <<< (8 * 0x1A))
  else (BitVec.ofNat 256 (powerSetpoint (k - 5120)) <<< (8 * 0x0E)) ||| (BitVec.ofNat 256 255 <<< (8 * 0x10))
    ||| (BitVec.ofNat 256 255 <<< (8 * 0x12)) ||| (BitVec.ofNat 256 255 <<< (8 * 0x16))

def Loop.init (k : Nat) : Loop :=
  { coef := Loop.coefInit k, staged := none, writes := [], e := 0, u := 0, p := 0, i := 0, d := 0, ff := 0, applied := 0,
    phase := .off, frozen := false, freezeFrom := none, releaseFrom := none, frozenAt := 0, clamped := false, status := W1c.init,
    outTicks := 0, fails := 0, waitFrom := 0, byFault := false, queued := false, sweepFrom := 0, lostLight := false, pilotAt := none,
    slope := 65536, demod := [], heatOp := 0, tCal := 0, heatPlaus := if k < 5120 then 1800 else 0, nvTrim := 0,
    hofs := 0 }

def Sensor.init : Sensor := { temp := 100, count := 0, same := 0, pair := 0, failed := false, injected := false }

def Power.init : Power :=
  { boot := .serving, pstate := .ps0, target := none, resumeFrom := none, stop := false, stopDue := false, tl := 14000,
    hostLimit := 14000, sensors := [], hbm := [], watts := 0, amps := 0, volts := 4800, activity := 255, limiter := 15,
    refTrim := [], trip := none, tripped := false, tripDue := false, rolePin := false, pmAddr := 0, resetLow := false, pointW := 0, checkedAt := none, refAt := 0,
    ds0Ticks := none }

def Pmbus.init : Pmbus :=
  { input := 0, temperature := 0, cml := 0, alertN := true
    elec := { sums := [0, 0, 0], n := 0, last := [4800, 0, 0], lastN := 1 }
    temps := { sums := [0, 0, 0], n := 0, last := [100, 100, 100], lastN := 1 }
    ms := 0, reply := [] }

def Monconv.init : Monconv :=
  { scanMask := 0, refmode := true, continuous := false, start := false, busy := false, refReady := false,
    refFrom := 0, measured := none, dataAt := 0, status := W1c.init, inj := [], dataCh := 0, dataValid := false, data := 0, injCode := 0, injCh := 0, last := [],
    todo := [], lost := 0 }

def ConvCorr.init : ConvCorr := { offset := 0, gain := 0x4000, failed := false, calCount := 0, calEpoch := 0 }

def Heater.init : Heater := { low := false, below := 0, cmd := 0, out := (false, 0), queue := [], since := 0 }

def Port.init : Port :=
  { up := false, served := false, lacp := false, lacpAt := none, lacpSent := 0, dark := 0, light := 0, ptpLock := false, synceLock := false,
    dnu := true, status := W1c.init, counters := [], pausedUntil := 0, busyUntil := 0, master := none }

def PartnerDyn.init : PartnerDyn :=
  { counters := [], landings := [], txSeq := 0, rxSeq := 0, sinceAck := 0, unacked := [], queued := [], ackAt := 0, resends := 0,
    stalled := false, ecpri := [] }

def Domain.init : Domain :=
  { joined := false, index := 0xFF, ethertype := 0x88B5, members := [], managerFp := 0, succFps := [],
    managerIndex := 0xFF, relays := [], pageMap := [], directory := [] }

def Fabric.init : Fabric :=
  { ports := [], partners := [], dyn := [], changes := [], admitSeq := 0, phaseMap := [], mapChanges := [],
    curPhase := 0, phaseAt := 0, lastPhase := [], packets := [], groupLost := [], sent := [], waiting := [], domain := Domain.init, relay := RelayState.init }

def Ca.init : Ca := { cak := none, ckn := [], tenant := 0, sak := none, txPn := 1, rxPn := 1 }

def Session.init : Session := { seq := [], discards := 0, keyIn := 0, keyOut := 0 }

/-- Tenant 0 always exists (R637). -/
def Tenant.init (k : Nat) : Tenant :=
  { exist := k == 0, deleting := false, modulus := [], session := none, genCur := 0, genOld := none, keys := [],
    rotate := none, rekey := [], holdUntil := [], badTag := 0, badSeq := 0, pos := 0, lost := 0 }

def Trust.init : Trust :=
  { puf := none, identity := none, ak := none, akFp := 0, xk := none, mrFw := 0, mrCfg := 0, mrPlan := [], mrModel := [],
    nextSerial := 0, tenants := [], cas := [] }

def RingState.init : RingState :=
  { cmds := [], exec := none, cpls := [], pushResult := 0xF, status := W1c.init, accepted := 0, completed := 0 }

def Mailbox.init : Mailbox :=
  { fw := .waitImage, manager := false, restarts := 0, int := W1c.init, intEnable := 0, rings := [], lastRing := 3,
    binFifo := [], boutFifo := [], f3 := [], wptr := 0, rptr := 0, image := [], imageLen := 0, digest := 0, wdogs := [],
    crashed := false, log := [], logSeq := 0, hwFifo := [], hwLost := 0, held := [] }

def Sdio.init : Sdio := { s18 := false, v18 := false, vdd := true, cccr := [], ioReady := true, read := [] }

def Jtag.init : Jtag := { instr := .idcode, inEffect := false, capture := [], preload := [] }

/-- The module right after reset: start-up has run to FW_STATE WAIT_IMAGE with both sockets empty of light, every
register at its Reset column, non-volatile records as the assumptions name them; the boot ROM has read the PUF (R614). -/
def State.reset : State :=
  { pending := [], time := TimeState.init, clusters := [], slabs := [], vec := [], engines := [], banks := [],
    hauls := [], mem := [], tags := [], seals := [], pages := [], pageChanges := [], tiles := [], hbmLost := [], carts := [], feed := [],
    loops := [], ringTrim := [], pilotRef := [], xtalk := [], xstage := [], xcommit := [], power := Power.init, pmbus := Pmbus.init,
    monconv := [], corr := [], heaters := [], fabric := Fabric.init, trust := { Trust.init with puf := some 0 },
    mbx := Mailbox.init, sdio := Sdio.init, jtag := Jtag.init, faults := [], free := 1 }

end Sys2Proof.Machine
end

