-- ==== Sys2Proof/Machine/Bits.lean ====
section
/-! DEFINITION. Bit fields, little-endian bytes (R3, R4), rounding and sparse tables: the helpers every layer uses. -/

namespace Sys2Proof.Machine

/-- Bits lo .. lo + len - 1 of a value (R4). -/
def field (v lo len : Nat) : Nat := (v >>> lo) % 2 ^ len

/-- Bit `i` of a value. -/
def bitAt (v i : Nat) : Bool := v.testBit i

/-- A bit from a Bool; a field placed at a bit. -/
def b2n (b : Bool) : Nat := if b then 1 else 0
def fld (lo n v : Nat) : Nat := (v % 2 ^ n) <<< lo

/-- Value of little-endian bytes (R3). -/
def leNat : List Byte → Nat
  | [] => 0
  | b :: bs => b.toNat + 256 * leNat bs

/-- The low `n` bytes of a value, little-endian (R3). -/
def toLe : Nat → Nat → List Byte
  | 0, _ => []
  | n + 1, v => BitVec.ofNat 8 v :: toLe n (v / 256)

/-- Two's complement reading of the low `n` bits. -/
def signed (n v : Nat) : Int :=
  let w := v % 2 ^ n
  if w < 2 ^ (n - 1) then (w : Int) else (w : Int) - (2 ^ n : Nat)

/-- The low `n` bits of an integer, two's complement. -/
def unsigned (n : Nat) (x : Int) : Nat := (x % (2 ^ n : Nat)).toNat

/-- x / d rounded to nearest, ties away from zero. -/
def divRound (x : Int) (d : Nat) : Int :=
  let q : Int := ((2 * x.natAbs + d) / (2 * d) : Nat)
  if x < 0 then -q else q

/-- Round a quotient of a signed numerator and a positive Nat power, ties away from zero, x / 2^k. -/
def shiftRound (x : Int) (k : Nat) : Int := divRound x (2 ^ k)

def clampI (lo hi x : Int) : Int := if x < lo then lo else if hi < x then hi else x

/-- Limit to plus or minus `m` and say whether it limited (R126, R127). -/
def satI (m : Nat) (x : Int) : Int × Bool :=
  if x < -(m : Int) then (-(m : Int), true) else if (m : Int) < x then ((m : Int), true) else (x, false)

def ceilDiv (a b : Nat) : Nat := (a + b - 1) / b

/-! ## Sparse tables -/

/-- The value listed for a key. -/
def tabFind {α : Type} : Tab α → Nat → Option α
  | [], _ => none
  | (k, v) :: t, n => if k = n then some v else tabFind t n

/-- The value of a key: what is listed, or the default. -/
def tabGet {α : Type} (d : α) (t : Tab α) (k : Nat) : α := (tabFind t k).getD d

/-- List a value under a key, keeping the keys rising. -/
def tabPut {α : Type} : Tab α → Nat → α → Tab α
  | [], n, v => [(n, v)]
  | (k, w) :: t, n, v =>
    if n < k then (n, v) :: (k, w) :: t else if n = k then (n, v) :: t else (k, w) :: tabPut t n v

/-- Take a key off the list. -/
def tabDel {α : Type} : Tab α → Nat → Tab α
  | [], _ => []
  | (k, w) :: t, n => if k = n then tabDel t n else (k, w) :: tabDel t n

/-- Give a key a value; the default value is not listed. -/
def tabSet {α : Type} [DecidableEq α] (d : α) (t : Tab α) (k : Nat) (v : α) : Tab α :=
  if v = d then tabDel t k else tabPut t k v

/-- Change every listed entry of a table. -/
def tabMap {α : Type} [DecidableEq α] (d : Nat → α) (f : Nat → α → α) (t : Tab α) : Tab α :=
  (t.map (fun x => (x.1, f x.1 x.2))).filter (fun x => decide (x.2 ≠ d x.1))

/-- The canonical form: rising keys above a bound, no entry equal to its default. -/
def tabWfFrom {α : Type} [DecidableEq α] (d : Nat → α) : Nat → Tab α → Bool
  | _, [] => true
  | lo, (k, v) :: t => decide (lo ≤ k) && decide (v ≠ d k) && tabWfFrom d (k + 1) t

def tabWf {α : Type} [DecidableEq α] (d : Nat → α) (t : Tab α) : Bool := tabWfFrom d 0 t

/-! ## W1C flags (R8, R9) -/

/-- Hardware sets flag `i`: the flag is set and its counter counts one more. -/
def W1c.hit (w : W1c) (i : Nat) : W1c :=
  { flags := w.flags ||| (1 <<< i), counts := tabSet 0 w.counts i (tabGet 0 w.counts i + 1) }

/-- Hardware sets flag `i` and its counter counts `n`. -/
def W1c.hitN (w : W1c) (i n : Nat) : W1c :=
  if n = 0 then w
  else { flags := w.flags ||| (1 <<< i), counts := tabSet 0 w.counts i (tabGet 0 w.counts i + BitVec.ofNat 32 n) }

/-- Set flag `i` when the condition holds. -/
def W1c.hitIf (w : W1c) (c : Bool) (i : Nat) : W1c := if c then w.hit i else w

/-- Writing 1 clears, writing 0 has no effect (R8). -/
def W1c.clear (w : W1c) (mask : Dword) : W1c := { w with flags := w.flags &&& ~~~mask }

def W1c.has (w : W1c) (i : Nat) : Bool := w.flags.getLsbD i

def W1c.count (w : W1c) (i : Nat) : Word := tabGet 0 w.counts i

/-- Bits set in a 64-bit mask, as numbers, ascending. -/
def maskBits (m : Dword) : List Nat := (List.range 64).filter (fun i => m.getLsbD i)

/-- `n`-th element of a list, or a default. -/
def nth {α : Type} (d : α) (l : List α) (n : Nat) : α := l.getD n d

/-- Bytes as one number, from a list. -/
def bytesToBv (n : Nat) (l : List Byte) : BitVec n := BitVec.ofNat n (leNat l)

def sumI (l : List Int) : Int := l.foldl (· + ·) 0

/-- ASCII bytes of a string. -/
def ascii (s : String) : List Byte := s.toList.map (fun c => BitVec.ofNat 8 c.toNat)

/-! ## SHA-256 (named by R616, R624, R646; the digest function itself is the published standard's, assumption 8) -/

/-- Words packed in a number, the first lowest. -/
def wordsOf (n v : Nat) : List Word := (List.range n).map (fun i => BitVec.ofNat 32 (v >>> (32 * i)))

/-- The 64 round constants, eight to a number. -/
def shaConstants : List Word :=
  [0xab1c5ed5923f82a459f111f13956c25be9b5dba5b5c0fbcf71374491428a2f98,
   0xc19bf1749bdc06a780deb1fe72be5d74550c7dc3243185be12835b01d807aa98,
   0x76f988da5cb0a9dc4a7484aa2de92c6f240ca1cc0fc19dc6efbe4786e49b69c1,
   0x1429296706ca6351d5a79147c6e00bf3bf597fc7b00327c8a831c66d983e5152,
   0x92722c8581c2c92e766a0abb650a735453380d134d2c6dfc2e1b213827b70a85,
   0x106aa070f40e3585d6990624d192e819c76c51a3c24b8b70a81a664ba2bfe8a1,
   0x682e6ff35b9cca4f4ed8aa4a391c0cb334b0bcb52748774c1e376c0819a4c116,
   0xc67178f2bef9a3f7a4506ceb90befffa8cc7020884c8781478a5636f748f82ee].flatMap (wordsOf 8)

/-- The state that a digest starts from, its eight words a to h. -/
def shaStart : List Word := wordsOf 8 0x5be0cd191f83d9ab9b05688c510e527fa54ff53a3c6ef372bb67ae856a09e667

/-- The exclusive or of three rotations. -/
def turns (r s t : Nat) (x : Word) : Word := x.rotateRight r ^^^ x.rotateRight s ^^^ x.rotateRight t

/-- One round on the words a to h, with a round constant and a word of the schedule. -/
def shaStep (v : List Word) (k w : Word) : List Word :=
  let at_ (i : Nat) : Word := nth 0 v i
  let pick := at_ 6 ^^^ (at_ 4 &&& (at_ 5 ^^^ at_ 6))
  let most := (at_ 0 &&& at_ 1) ||| (at_ 2 &&& (at_ 0 ||| at_ 1))
  let t := turns 6 11 25 (at_ 4) + pick + at_ 7 + (k + w)
  (t + turns 2 13 22 (at_ 0) + most) :: v.take 3 ++ (at_ 3 + t) :: (v.drop 4).take 3

/-- The word of the schedule that follows sixteen others. -/
def shaNext (w : List Word) : Word :=
  let old := nth 0 w 1
  let late := nth 0 w 14
  nth 0 w 0 + (old.rotateRight 7 ^^^ old.rotateRight 18 ^^^ (old >>> 3)) + nth 0 w 9
    + (late.rotateRight 17 ^^^ late.rotateRight 19 ^^^ (late >>> 10))

/-- The rounds of a list of constants, with a window of sixteen words that moves along the schedule. -/
def shaRounds : List Word → List Word → List Word → List Word
  | [], _, v => v
  | k :: ks, w, v => shaRounds ks (w.drop 1 ++ [shaNext w]) (shaStep v k (nth 0 w 0))

/-- Bytes as a number whose first byte is the most significant. -/
def beNat (l : List Byte) : Nat := l.foldl (fun a b => a * 256 + b.toNat) 0

/-- `n` words of four bytes, big-endian. -/
def beWords (n : Nat) (l : List Byte) : List Word := (wordsOf n (beNat (l.take (4 * n)))).reverse

/-- The message with its closing bit, zeros and its length in bits. -/
def shaPadded (l : List Byte) : List Byte :=
  let zeros := (64 - (l.length + 9) % 64) % 64
  l ++ [0x80] ++ List.replicate zeros 0 ++ (toLe 8 (8 * l.length)).reverse

/-- The state after block `i` of a padded message is taken in. -/
def shaTake (m : List Byte) (v : List Word) (i : Nat) : List Word :=
  (v.zip (shaRounds shaConstants (beWords 16 (m.drop (64 * i))) v)).map (fun x => x.1 + x.2)

/-- SHA-256 of a byte string, as 32 bytes. -/
def sha256 (l : List Byte) : List Byte :=
  let m := shaPadded l
  ((List.range (m.length / 64)).foldl (shaTake m) shaStart).flatMap (fun (w : Word) => (toLe 4 w.toNat).reverse)

/-- The digest as one value whose byte 0 is the digest's first byte. -/
def sha256Bv (l : List Byte) : BitVec 256 := bytesToBv 256 (sha256 l)

end Sys2Proof.Machine
end

