-- ==== Sys2Proof/Machine/Crypto.lean ====
section
/-! DEFINITION. The published functions that sessions use: HMAC and HKDF over SHA-256 (RFC 2104, RFC 5869), AES-256 in GCM
(FIPS 197, NIST SP 800-38D), and the DER form of an RSA public key (RFC 5280), whose digest is a fingerprint (R616, R626,
R630, R631; assumption 8). -/

namespace Sys2Proof.Machine

/-! ## Keys -/

/-- HMAC with SHA-256 under a key of at most 64 bytes. -/
def hmacSha256 (key msg : List Byte) : List Byte :=
  let k := key ++ List.replicate (64 - key.length) 0
  sha256 (k.map (fun b => b ^^^ 0x5C) ++ sha256 (k.map (fun b => b ^^^ 0x36) ++ msg))

/-- HKDF of 32 bytes: extract with a salt from the key material, expand once with the information. -/
def hkdf32 (salt ikm info : List Byte) : List Byte := hmacSha256 (hmacSha256 salt ikm) (info ++ [1])

/-- Session keys (R630): `dir` is 1 for host to module and 2 for module to host. -/
def sessionKey (akFp : BitVec 256) (dir : Byte) (secret : List Byte) (serial tenant : Nat) : BitVec 256 :=
  bytesToBv 256 (hkdf32 (toLe 32 akFp.toNat) secret (dir :: toLe 4 serial ++ toLe 1 tenant))

/-- Fingerprint of an RSA-3072 public key with exponent 65,537: SHA-256 of its DER SubjectPublicKeyInfo (R616, R626). The
modulus is little-endian (R623). -/
def rsaFingerprint (modulus : List Byte) : BitVec 256 :=
  sha256Bv ([0x30, 0x82, 0x01, 0xA2, 0x30, 0x0D, 0x06, 0x09, 0x2A, 0x86, 0x48, 0x86, 0xF7, 0x0D, 0x01, 0x01, 0x01, 0x05, 0x00,
      0x03, 0x82, 0x01, 0x8F, 0x00, 0x30, 0x82, 0x01, 0x8A, 0x02, 0x82, 0x01, 0x81, 0x00]
    ++ (toLe 384 (leNat modulus)).reverse ++ [0x02, 0x03, 0x01, 0x00, 0x01])

/-! ## AES-256: words and blocks are numbers whose first byte is the most significant -/

/-- The S-box, 32 bytes a number, the first byte lowest. -/
def aesSbox : List Nat :=
  [0xc072a49cafa2d4adf04759fa7dc982ca76abd7fe2b670130c56f6bf27b777c63,
   0x75b227ebe28012079a059618c323c7041531d871f1e5a534ccf73f362693fdb7,
   0xcf584c4a39becb6a5bb1fc20ed00d153842fe329b3d63b52a05a6e1b1a2c8309,
   0xd2f3ff1021dab6bcf5389d928f40a351a89f3c507f02f94585334d43fbaaefd0,
   0xdb0b5ede14b8ee4688902a22dc4f816073195d643d7ea7c41744975fec130ccd,
   0x08ae7a65eaf4566ca94ed58d6d37c8e779e4959162acd3c25c2406490a3a32e0,
   0x9e1dc186b95735610ef6034866b53e708a8bbd4b1f74dde8c6b4a61c2e2578ba,
   0x16bb54b00f2d99416842e6bf0d89a18cdf2855cee9871e9b948ed9691198f8e1]

def aesSub (b : Nat) : Nat := nth 0 aesSbox (b / 32) >>> (8 * (b % 32)) % 256

/-- Byte `i` of a word, from the left. -/
def wordByte (w i : Nat) : Nat := w >>> (24 - 8 * i) % 256

def wordOf (a b c d : Nat) : Nat := ((a * 256 + b) * 256 + c) * 256 + d

def aesSubWord (w : Nat) : Nat :=
  wordOf (aesSub (wordByte w 0)) (aesSub (wordByte w 1)) (aesSub (wordByte w 2)) (aesSub (wordByte w 3))

/-- The next word of the key schedule, word `i`; the schedule so far stands newest first. -/
def aesNextWord (w : List Nat) (i : Nat) : List Nat :=
  let t := nth 0 w 0
  let t :=
    if i % 8 = 0 then aesSubWord (t % 2 ^ 24 * 256 + t / 2 ^ 24) ^^^ (2 ^ (i / 8 - 1) * 2 ^ 24)
    else if i % 8 = 4 then aesSubWord t
    else t
  (nth 0 w 7 ^^^ t) :: w

/-- The 60 words of the key schedule, in order, from the 32 bytes of a key. -/
def aesSchedule (key : List Byte) : List Nat :=
  ((List.range 52).foldl (fun w i => aesNextWord w (i + 8)) ((beWords 8 key).map (fun w => w.toNat)).reverse).reverse

/-- Double in the field of AES. -/
def aesDouble (b : Nat) : Nat := if b < 128 then 2 * b else (2 * b) ^^^ 0x11B

/-- One column of MixColumns. -/
def aesMix (a b c d : Nat) : Nat :=
  let x := a ^^^ b ^^^ c ^^^ d
  wordOf (a ^^^ x ^^^ aesDouble (a ^^^ b)) (b ^^^ x ^^^ aesDouble (b ^^^ c)) (c ^^^ x ^^^ aesDouble (c ^^^ d))
    (d ^^^ x ^^^ aesDouble (d ^^^ a))

/-- SubBytes and ShiftRows of column `c` of a block, then what `f` makes of it. -/
def aesColumn (f : Nat → Nat → Nat → Nat → Nat) (s : List Nat) (c : Nat) : Nat :=
  let g := fun r => aesSub (wordByte (nth 0 s ((c + r) % 4)) r)
  f (g 0) (g 1) (g 2) (g 3)

/-- One round on the four columns, with its four words of key. -/
def aesRound (f : Nat → Nat → Nat → Nat → Nat) (s k : List Nat) : List Nat :=
  ((List.range 4).map (aesColumn f s)).zipWith (fun a b => a ^^^ b) k

/-- The rounds of a block: thirteen, then the last without MixColumns. -/
def aesRounds : Nat → List Nat → List Nat → List Nat
  | 0, s, k => aesRound wordOf s (k.take 4)
  | n + 1, s, k => aesRounds n (aesRound aesMix s (k.take 4)) (k.drop 4)

/-- Four columns of a block. -/
def blockColumns (x : Nat) : List Nat := [x >>> 96 % 2 ^ 32, x >>> 64 % 2 ^ 32, x >>> 32 % 2 ^ 32, x % 2 ^ 32]

/-- AES-256 of one block under a key schedule. -/
def aesBlock (w : List Nat) (x : Nat) : Nat :=
  (aesRounds 13 ((blockColumns x).zipWith (fun a b => a ^^^ b) (w.take 4)) (w.drop 4)).foldl (fun a b => a * 2 ^ 32 + b) 0

/-! ## The inverse cipher, and XTS (IEEE 1619) -/

/-- The byte that the S-box takes to `b`. -/
def aesUnsub (b : Nat) : Nat := ((List.range 256).find? (fun x => aesSub x == b)).getD 0

/-- Four times, and eight times, in the field of AES. -/
def aesFour (b : Nat) : Nat := aesDouble (aesDouble b)
def aesEight (b : Nat) : Nat := aesDouble (aesFour b)

/-- One column of the inverse of MixColumns: MixColumns once more, on a column that has been made ready for it. -/
def aesUnmix (a b c d : Nat) : Nat :=
  let u := aesFour (a ^^^ c)
  let v := aesFour (b ^^^ d)
  aesMix (a ^^^ u) (b ^^^ v) (c ^^^ u) (d ^^^ v)

/-- Column `c` of a block after the inverses of ShiftRows and SubBytes. -/
def aesUncolumn (s : List Nat) (c : Nat) : Nat :=
  let g := fun r => aesUnsub (wordByte (nth 0 s ((c + 4 - r) % 4)) r)
  wordOf (g 0) (g 1) (g 2) (g 3)

def aesUnrotate (s : List Nat) : List Nat := (List.range 4).map (aesUncolumn s)

def addWords (s k : List Nat) : List Nat := s.zipWith (fun a b => a ^^^ b) k

/-- The inverse rounds: the keys stand last first, four words a round. -/
def aesUnrounds : Nat → List Nat → List (List Nat) → List Nat
  | 0, s, k => addWords (aesUnrotate s) (nth [] k 0)
  | n + 1, s, k =>
    aesUnrounds n ((addWords (aesUnrotate s) (nth [] k 0)).map (fun w =>
      aesUnmix (wordByte w 0) (wordByte w 1) (wordByte w 2) (wordByte w 3))) k.tail

/-- The four words of key of each round, last round first. -/
def aesKeys (w : List Nat) : List (List Nat) := ((List.range 15).map (fun i => (w.drop (4 * i)).take 4)).reverse

/-- Decryption of one block under a key schedule. -/
def aesUnblock (w : List Nat) (x : Nat) : Nat :=
  let k := aesKeys w
  (aesUnrounds 13 (addWords (blockColumns x) (nth [] k 0)) k.tail).foldl (fun a b => a * 2 ^ 32 + b) 0

/-- The tweak of the next block: the one before as a little-endian polynomial, times x. -/
def xtsNext (t : Nat) : Nat := if t < 2 ^ 127 then 2 * t else (2 * t) % 2 ^ 128 ^^^ 0x87

/-- Blocks of a data unit, from a tweak on, each through a block function. -/
def xtsBlocks (f : Nat → Nat) : Nat → Nat → List Byte → List Byte
  | 0, _, _ => []
  | n + 1, t, l =>
    let m := beNat (toLe 16 t)
    (toLe 16 (f (beNat (l.take 16) ^^^ m) ^^^ m)).reverse ++ xtsBlocks f n (xtsNext t) (l.drop 16)

/-- Tweak of the first block of data unit `n`: its number, 16 bytes little-endian, under the second half of the key. -/
def xtsTweak (key : List Byte) (n : Nat) : Nat := beNat (toLe 16 (aesBlock (aesSchedule (key.drop 32)) (beNat (toLe 16 n))))

/-- A 64-byte data unit encrypted, and decrypted, under a 512-bit key (R648). -/
def xtsSeal (key : List Byte) (n : Nat) (l : List Byte) : List Byte :=
  xtsBlocks (aesBlock (aesSchedule (key.take 32))) 4 (xtsTweak key n) l
def xtsOpen (key : List Byte) (n : Nat) (l : List Byte) : List Byte :=
  xtsBlocks (aesUnblock (aesSchedule (key.take 32))) 4 (xtsTweak key n) l

/-! ## GCM -/

/-- Blocks of 16 bytes, the last filled with zeros. -/
def gcmBlocks : Nat → List Byte → List Nat
  | 0, _ => []
  | n + 1, l => beNat (l.take 16 ++ List.replicate (16 - l.length) 0) :: gcmBlocks n (l.drop 16)

/-- Product in the field of GCM: `n` bits of `x` from the left, with what `v` has become. -/
def ghashMul : Nat → Nat → Nat → Nat → Nat
  | 0, _, _, z => z
  | n + 1, x, v, z =>
    ghashMul n x (if v % 2 = 1 then v / 2 ^^^ 0xE1 * 2 ^ 120 else v / 2) (if x.testBit n then z ^^^ v else z)

def ghash (h : Nat) (l : List Nat) : Nat := l.foldl (fun y x => ghashMul 128 (y ^^^ x) h 0) 0

/-- Counter mode from block `j` on: each block of the data exclusive-or its key stream. -/
def gcmStream (w : List Nat) : Nat → List Nat → List Nat
  | _, [] => []
  | j, x :: xs => (x ^^^ aesBlock w j) :: gcmStream w (j + 1) xs

/-- What GCM makes of data under a key and a 12-byte nonce: encryption and decryption are the same. -/
def gcmCrypt (w : List Nat) (nonce data : List Byte) : List Byte :=
  ((gcmStream w (beNat nonce * 2 ^ 32 + 2) (gcmBlocks (ceilDiv data.length 16) data)).flatMap
    (fun x => (toLe 16 x).reverse)).take data.length

/-- The tag of a ciphertext and its additional data. -/
def gcmTag (w : List Nat) (nonce aad cipher : List Byte) : List Byte :=
  let y := ghash (aesBlock w 0) (gcmBlocks (ceilDiv aad.length 16) aad ++ gcmBlocks (ceilDiv cipher.length 16) cipher
    ++ [8 * aad.length * 2 ^ 64 + 8 * cipher.length])
  (toLe 16 (y ^^^ aesBlock w (beNat nonce * 2 ^ 32 + 1))).reverse

/-- Ciphertext and tag. -/
def gcmSeal (key nonce aad plain : List Byte) : List Byte :=
  let w := aesSchedule key
  let c := gcmCrypt w nonce plain
  c ++ gcmTag w nonce aad c

/-- The plaintext of a ciphertext whose tag is right. -/
def gcmOpen (key nonce aad cipher tag : List Byte) : Option (List Byte) :=
  let w := aesSchedule key
  if gcmTag w nonce aad cipher = tag then some (gcmCrypt w nonce cipher) else none

end Sys2Proof.Machine
end

