-- ==== Sys2Proof/Machine/Operands.lean ====
section
/-! DEFINITION. Number formats, conversions and the rescale (07): every operand form a tile can hold. Floating-point
values are exact (a magnitude times a power of two), so each operation rounds once where the manual says it rounds. -/

namespace Sys2Proof.Machine

/-- Tile format codes (R397). -/
def fmtInt4 : Nat := 0
def fmtInt8 : Nat := 1
def fmtInt16 : Nat := 2
def fmtInt32 : Nat := 3
def fmtInt40 : Nat := 4
def fmtInt64 : Nat := 5
def fmtE4M3 : Nat := 6
def fmtE5M2 : Nat := 7
def fmtBf16 : Nat := 8
def fmtFp32 : Nat := 9

def fmtIsInt (f : Nat) : Bool := decide (f ≤ 5)
def fmtValid (f : Nat) : Bool := decide (f ≤ 9)

/-- Bits of one element in a payload (R397, R399). -/
def fmtBits (f : Nat) : Nat :=
  match f with
  | 0 => 4
  | 1 => 8
  | 2 => 16
  | 3 => 32
  | 4 => 64
  | 5 => 64
  | 6 => 8
  | 7 => 8
  | 8 => 16
  | _ => 32

/-- Elements per tile (R397). -/
def fmtElems (f : Nat) : Nat := 32768 / fmtBits f

/-- Width of an integer format as a number (R400 and R447: "at least as wide"). -/
def fmtWidth (f : Nat) : Nat := if f = 4 then 40 else fmtBits f

/-- Largest magnitude that the module writes in an integer format (R400). -/
def intMax (f : Nat) : Nat := 2 ^ (fmtWidth f - 1) - 1

/-! ## Floating point (R401) -/

/-- A floating-point value: a finite one is (-1)^neg * m * 2^e. -/
inductive FVal where
  | nan
  | inf (neg : Bool)
  | fin (neg : Bool) (m : Nat) (e : Int)
deriving DecidableEq, Repr

/-- Mantissa bits, exponent bits and bias (R401). -/
def fpMant (f : Nat) : Nat := if f = 9 then 23 else if f = 8 then 7 else if f = 6 then 3 else 2
def fpExp (f : Nat) : Nat := if f = 9 then 8 else if f = 8 then 8 else if f = 6 then 4 else 5
def fpBias (f : Nat) : Nat := if f = 6 then 7 else if f = 7 then 15 else 127

/-- Code of the largest finite magnitude, of infinity, and the canonical NaN (R401, R402). -/
def fpMaxCode (f : Nat) : Nat := if f = 9 then 0x7F7FFFFF else if f = 8 then 0x7F7F else if f = 6 then 0x7E else 0x7B
def fpInfCode (f : Nat) : Nat := if f = 9 then 0x7F800000 else if f = 8 then 0x7F80 else 0x7C
def fpNan (f : Nat) : Nat := if f = 9 then 0x7FC00000 else if f = 8 then 0x7FC0 else if f = 6 then 0x7F else 0x7E

def fpSign (f : Nat) (neg : Bool) : Nat := if neg then 2 ^ (fpMant f + fpExp f) else 0

/-- The value of a code (R401). -/
def fpDecode (f w : Nat) : FVal :=
  let mb := fpMant f
  let ex := field w mb (fpExp f)
  let ma := field w 0 mb
  let neg := bitAt w (mb + fpExp f)
  let top := 2 ^ fpExp f - 1
  if f = 6 ∧ ex = top ∧ ma = 7 then .nan
  else if f ≠ 6 ∧ ex = top then (if ma = 0 then .inf neg else .nan)
  else if ex = 0 then .fin neg ma (1 - (fpBias f : Int) - mb)
  else .fin neg (2 ^ mb + ma) ((ex : Int) - fpBias f - mb)

/-- floor(log2 (num / den)) for positive num and den. -/
def ratLog2 (num den : Nat) : Int :=
  let e : Int := (Nat.log2 num : Int) - Nat.log2 den
  -- 2^e ≤ num/den, or one too many
  if (if e < 0 then decide (den ≤ num * 2 ^ e.natAbs) else decide (den * 2 ^ e.natAbs ≤ num)) then e else e - 1

/-- num / den rounded to an integer, ties to even. -/
def divEven (num den : Nat) : Nat :=
  let q := num / den
  let r := num % den
  if 2 * r < den then q else if den < 2 * r then q + 1 else if q % 2 = 0 then q else q + 1

/-- num * 2^k / den, as a fraction. -/
def scaleFrac (num den : Nat) (k : Int) : Nat × Nat :=
  if k < 0 then (num, den * 2 ^ k.natAbs) else (num * 2 ^ k.natAbs, den)

/-- The magnitude code nearest to num / den under a rounding, subnormals kept, exponent range unbounded above. -/
def fpRawBy (round : Nat → Nat → Nat) (f num den : Nat) : Nat :=
  if num = 0 then 0 else
  let emin : Int := 1 - (fpBias f : Int)
  let e := max (ratLog2 num den) emin
  let fr := scaleFrac num den ((fpMant f : Int) - e)
  (e - emin).toNat * 2 ^ fpMant f + round fr.1 fr.2

/-- The magnitude code nearest to num / den, ties to even (R402). -/
def fpRaw (f num den : Nat) : Nat := fpRawBy divEven f num den

/-- A magnitude as a fraction. -/
def fpFrac (m : Nat) (e : Int) : Nat × Nat := scaleFrac m 1 e

/-- num / den lies above the largest finite value of a format (R405). -/
def fpBeyond (f num den : Nat) : Bool :=
  match fpDecode f (fpMaxCode f) with
  | .fin _ m e => let x := fpFrac m e; decide (x.1 * den < num * x.2)
  | _ => false

/-- Round a fraction; beyond the range, the nearest end (R403 for E4M3 and E5M2, R405). -/
def fpEncodeSat (f : Nat) (neg : Bool) (num den : Nat) : Nat := fpSign f neg + min (fpRaw f num den) (fpMaxCode f)

/-- Round a fraction; beyond the range, infinity (R403 for BF16). -/
def fpEncodeInf (f : Nat) (neg : Bool) (num den : Nat) : Nat :=
  let r := fpRaw f num den
  fpSign f neg + (if fpMaxCode f < r then fpInfCode f else r)

/-- Write a value in a format under Conversions (R403): FP32 and BF16 overflow to infinity, E4M3 and E5M2 to their
largest finite value; E4M3 has no infinity. -/
def fpEncode (f : Nat) (v : FVal) : Nat :=
  match v with
  | .nan => fpNan f
  | .inf neg => if f = 6 then fpSign f neg + fpMaxCode f else fpSign f neg + fpInfCode f
  | .fin neg m e =>
    let x := fpFrac m e
    if f = 6 ∨ f = 7 then fpEncodeSat f neg x.1 x.2 else fpEncodeInf f neg x.1 x.2

/-- A value rounded to FP32. -/
def fp32Round (v : FVal) : FVal := fpDecode 9 (fpEncode 9 v)

def FVal.neg : FVal → FVal
  | .nan => .nan
  | .inf n => .inf (!n)
  | .fin n m e => .fin (!n) m e

/-- Exact sum of two values. A zero sum of values of unlike sign is +0. -/
def FVal.add : FVal → FVal → FVal
  | .nan, _ => .nan
  | _, .nan => .nan
  | .inf a, .inf b => if a = b then .inf a else .nan
  | .inf a, _ => .inf a
  | _, .inf b => .inf b
  | .fin n1 m1 e1, .fin n2 m2 e2 =>
    let e := min e1 e2
    let a : Int := (m1 * 2 ^ (e1 - e).toNat : Nat)
    let b : Int := (m2 * 2 ^ (e2 - e).toNat : Nat)
    let s := (if n1 then -a else a) + (if n2 then -b else b)
    if s = 0 then .fin (n1 && n2) 0 0 else .fin (decide (s < 0)) s.natAbs e

/-- Exact product of two values. -/
def FVal.mul : FVal → FVal → FVal
  | .nan, _ => .nan
  | _, .nan => .nan
  | .inf a, .inf b => .inf (a != b)
  | .inf a, .fin n m _ => if m = 0 then .nan else .inf (a != n)
  | .fin n m _, .inf b => if m = 0 then .nan else .inf (n != b)
  | .fin n1 m1 e1, .fin n2 m2 e2 => .fin (n1 != n2) (m1 * m2) (e1 + e2)

/-- Quotient of two values rounded to FP32. -/
def FVal.divFp32 : FVal → FVal → FVal
  | .nan, _ => .nan
  | _, .nan => .nan
  | .inf _, .inf _ => .nan
  | .inf a, .fin n _ _ => .inf (a != n)
  | .fin n _ _, .inf b => .fin (n != b) 0 0
  | .fin n1 m1 e1, .fin n2 m2 e2 =>
    if m2 = 0 then (if m1 = 0 then .nan else .inf (n1 != n2))
    else
      let x := scaleFrac m1 m2 (e1 - e2)
      fpDecode 9 (fpEncodeInf 9 (n1 != n2) x.1 x.2)

/-- Order of two values: less, equal, greater; `none` where one is a NaN. -/
def FVal.cmp (a b : FVal) : Option Ordering :=
  match a, b with
  | .nan, _ => none
  | _, .nan => none
  | .inf a, .inf b => some (compare (if a then (0 : Nat) else 1) (if b then 0 else 1))
  | .inf a, _ => some (if a then .lt else .gt)
  | _, .inf b => some (if b then .gt else .lt)
  | .fin n1 m1 e1, .fin n2 m2 e2 =>
    let e := min e1 e2
    let x : Int := (m1 * 2 ^ (e1 - e).toNat : Nat)
    let y : Int := (m2 * 2 ^ (e2 - e).toNat : Nat)
    some (compare (if n1 then -x else x) (if n2 then -y else y))

def FVal.ofInt (x : Int) : FVal := .fin (decide (x < 0)) x.natAbs 0

def FVal.isFinite : FVal → Bool
  | .fin _ _ _ => true
  | _ => false

def FVal.abs : FVal → FVal
  | .nan => .nan
  | .inf _ => .inf false
  | .fin _ m e => .fin false m e

/-- A positive finite value (R881, R431). -/
def FVal.positive : FVal → Bool
  | .fin neg m _ => !neg && decide (0 < m)
  | _ => false

/-- Square root of a fraction as a fraction good to more than `bits` bits, with the remainder folded into the last bit. -/
def sqrtFrac (num den : Nat) : Nat × Nat :=
  let s := num * den * 2 ^ 600
  let r := Nat.sqrt s
  (2 * r + (if r * r = s then 0 else 1), 2 * den * 2 ^ 300)

/-- Move an FP32 code by the free error of R451: at most two units in the last place for EXP, RECIP, RSQRT and SQRT, four
for GELU, SIGMOID and TANH. -/
def actFree (sub : Nat) (x : Nat) (code : Nat) : Nat :=
  let b := if 1 ≤ sub ∧ sub ≤ 3 then 4 else 2
  let k := Config.actUlp sub (BitVec.ofNat 32 x) % (2 * b + 1)
  let neg := field code 31 1 = 1
  let v : Int := (if neg then -(field code 0 31 : Int) else (field code 0 31 : Int)) + k - b
  let mag := min v.natAbs (fpInfCode 9)
  if v < 0 ∨ (v = 0 ∧ neg) then 2 ^ 31 + mag else mag

/-- Fixed-point one of the functions below, which keep far more bits than rounding to FP32 needs. -/
def actOne : Nat := 2 ^ 400

/-- e to the power -x, for x below 512: the series at x / 2^20, squared 20 times. -/
def expNeg (x : Nat) : Nat :=
  let y := x / 2 ^ 20
  let t := (List.range 48).foldl (fun t k => actOne - y * t / (actOne * (48 - k))) actOne
  (List.range 20).foldl (fun t _ => t * t / actOne) t

/-- Root of 2 / pi, in units of 2^-400. -/
def rootTwoOverPi : Nat :=
  2060337309860625669158887524896583040847384015804865113243324589387049149478680161082114736606036866790242378560860575272

/-- Correctly rounded EXP, SIGMOID, TANH and GELU in its tanh form, x / (1 + e^(-2u)) with
u = sqrt(2 / pi) (x + 0.044715 x^3), of a finite operand; beyond the cut-offs the rounded result is the limit. -/
def actRounded (sub : Nat) (neg : Bool) (m : Nat) (e : Int) : Nat :=
  let x := fpFrac m e
  let x := x.1 * actOne / x.2
  let enc := fun (n : Bool) (num den : Nat) => fpEncodeInf 9 n num den
  if sub = 1 then
    if 16 * actOne ≤ x then (if neg then fpSign 9 true else enc false x actOne)
    else
      let q := expNeg (2 * rootTwoOverPi * (x + x * x * x * 44715 / (1000000 * actOne * actOne)) / actOne)
      enc neg (x * if neg then q else actOne) (actOne * (actOne + q))
  else if sub = 2 then
    if 128 * actOne ≤ x then (if neg then 0 else enc false 1 1)
    else let q := expNeg x; enc false (if neg then q else actOne) (actOne + q)
  else if sub = 3 then
    if 128 * actOne ≤ x then enc neg 1 1
    else let q := expNeg (2 * x); enc neg (actOne - q) (actOne + q)
  else
    if 128 * actOne ≤ x then (if neg then 0 else fpInfCode 9)
    else let q := expNeg x; if neg then enc false q actOne else enc false actOne q

/-- ACT in FP32 on the code `x` of the operand (R443, R451). -/
def actFp32 (sub x : Nat) : Nat :=
  match fpDecode 9 x, sub with
  | .nan, _ => fpNan 9
  | v, 0 => (match v with | .fin true _ _ => 0 | .inf true => 0 | w => fpEncode 9 w)
  | .fin neg m e, 5 =>
    if m = 0 then fpSign 9 neg + fpInfCode 9
    else let y := scaleFrac 1 m (-e); actFree 5 x (fpEncodeInf 9 neg y.1 y.2)
  | .inf neg, 5 => fpSign 9 neg
  | .fin neg m e, 6 =>
    if m = 0 then fpSign 9 neg + fpInfCode 9
    else if neg then fpNan 9
    else let y := fpFrac m e; let r := sqrtFrac y.2 y.1; actFree 6 x (fpEncodeInf 9 false r.1 r.2)
  | .inf neg, 6 => if neg then fpNan 9 else 0
  | .fin neg m e, 7 =>
    if m = 0 then fpSign 9 neg
    else if neg then fpNan 9
    else let y := fpFrac m e; let r := sqrtFrac y.1 y.2; actFree 7 x (fpEncodeInf 9 false r.1 r.2)
  | .inf neg, 7 => if neg then fpNan 9 else fpInfCode 9
  | .fin neg m e, s => actFree s x (actRounded s neg m e)
  | .inf neg, 1 => if neg then fpEncode 9 (fpDecode 9 (Config.actFp32 1 (BitVec.ofNat 32 x)).toNat) else fpInfCode 9
  | .inf neg, 2 => if neg then 0 else actFree 2 x (fpEncodeInf 9 false 1 1)
  | .inf neg, 3 => actFree 3 x (fpEncodeInf 9 neg 1 1)
  | .inf neg, _ => if neg then 0 else fpInfCode 9

/-! ## Elements and conversions -/

/-- The value of an element: an exact integer or a floating-point value. -/
inductive Num where
  | int (x : Int)
  | fp (v : FVal)
deriving DecidableEq, Repr

def Num.toF : Num → FVal
  | .int x => FVal.ofInt x
  | .fp v => v

/-- The value of an element's bits in a format (R398, R399, R401). -/
def elemNum (f w : Nat) : Num :=
  if fmtIsInt f then .int (signed (fmtWidth f) w) else .fp (fpDecode f w)

/-- Integer nearest to a finite value, ties away from zero. -/
def fpToInt (neg : Bool) (m : Nat) (e : Int) : Int :=
  let x := fpFrac m e
  divRound (if neg then -(x.1 : Int) else (x.1 : Int)) x.2

/-- Bits of an integer in an integer format; INT40 fills its container with its sign (R399). -/
def intBits (f : Nat) (x : Int) : Nat := unsigned (fmtBits f) x

/-- Conversion of a value into a format (R403, R404). -/
def cvt (f : Nat) (n : Num) : Nat :=
  let lim : Int := intMax f
  match n with
  | .int x =>
    if fmtIsInt f then intBits f (clampI (-lim) lim x)
    else if f = 6 ∨ f = 7 then fpEncodeSat f (decide (x < 0)) x.natAbs 1
    else fpEncodeInf f (decide (x < 0)) x.natAbs 1
  | .fp v =>
    if fmtIsInt f then
      match v with
      | .nan => 0
      | .inf neg => intBits f (if neg then -lim else lim)
      | .fin neg m e => intBits f (clampI (-lim) lim (fpToInt neg m e))
    else fpEncode f v

/-- Write an arithmetic result in a format, with SAT where the exact result lies outside the range (R405). Float
results are formed in FP32 first (R440). -/
def satWrite (f : Nat) (n : Num) : Nat × Bool :=
  match n with
  | .int x => let r := satI (intMax f) x; (intBits f r.1, r.2)
  | .fp v =>
    match v with
    | .fin neg m e =>
      let x := fpFrac m e
      if fpBeyond f x.1 x.2 then (fpSign f neg + fpMaxCode f, true)
      else
        match fpDecode 9 (fpEncodeSat 9 neg x.1 x.2) with
        | .fin n2 m2 e2 => let y := fpFrac m2 e2; (fpEncodeSat f n2 y.1 y.2, false)
        | w => (fpEncode f w, false)
    | w => (fpEncode f w, false)

/-! ## The rescale (R145, R277, R428 to R431) -/

/-- y = clamp(round(acc * M / 2^(31+S))), to the range of an integer format. -/
def rescale (f : Nat) (acc : Int) (m s : Nat) : Int :=
  let lim : Int := intMax f
  clampI (-lim) lim (divRound (acc * m) (2 ^ (31 + s)))

/-- M and S of a ratio given in FP32 (R430); `none` where it faults or the ratio is not positive and finite (R431). -/
def toMs (q : FVal) : Option (Nat × Nat) :=
  match q with
  | .fin false m e =>
    if m = 0 then none else
    let x := fpFrac m e
    if 2 * x.2 ≤ x.1 then none else
    let fl := ratLog2 x.1 x.2
    let s := min (-fl).toNat 62
    let mm := (divRound ((x.1 * 2 ^ (31 + s) : Nat) : Int) x.2).toNat
    if mm = 2 ^ 32 then (if 0 < s then some (2 ^ 31, s - 1) else some (2 ^ 32 - 1, s)) else some (mm, s)
  | _ => none

/-- num / den rounded to an integer, ties up. -/
def divAway (num den : Nat) : Nat := (2 * num + den) / (2 * den)

/-- The rescale by M and S into any output format: an exact quotient rounded once, ties away from zero (R428). Integer outputs are
clamped (R400); of float outputs E4M3 and E5M2 go to their ends and BF16 and FP32 to infinity, as under R403 (assumption 9). -/
def rescaleTo (f : Nat) (acc : Int) (m s : Nat) : Nat :=
  if fmtIsInt f then intBits f (rescale f acc m s)
  else
    let r := fpRawBy divAway f (acc * m).natAbs (2 ^ (31 + s))
    fpSign f (decide (acc < 0)) + (if r ≤ fpMaxCode f then r else if f = 6 ∨ f = 7 then fpMaxCode f else fpInfCode f)

/-- The same of an exact floating value, as an escaped element of an integer input has it (R428, R449). -/
def rescaleFp (f : Nat) (v : FVal) (m s : Nat) : Nat :=
  match v with
  | .fin neg k e =>
    let x := fpFrac (k * m) e
    let den := x.2 * 2 ^ (31 + s)
    if fmtIsInt f then
      let lim : Int := intMax f
      intBits f (clampI (-lim) lim (divRound (if neg then -(x.1 : Int) else x.1) den))
    else
      let r := fpRawBy divAway f x.1 den
      fpSign f neg + (if r ≤ fpMaxCode f then r else if f = 6 ∨ f = 7 then fpMaxCode f else fpInfCode f)
  | _ => cvt f (.fp v)

/-! ## Tile payloads (R398, R406) -/

/-- Element `i` of a payload, as its bits (R398: INT4 even elements in bits 3:0). -/
def elemAt (f : Nat) (payload : List Byte) (i : Nat) : Nat :=
  if f = 0 then field (nth 0 payload (i / 2)).toNat (4 * (i % 2)) 4
  else let n := fmtBits f / 8; leNat ((payload.drop (n * i)).take n)

/-- Elements as bits, in payload order, from consecutive bytes. -/
def bytesElems (f : Nat) : List Byte → List Nat :=
  match f with
  | 0 => fun bs => bs.flatMap (fun b => [b.toNat % 16, b.toNat / 16])
  | _ => fun bs => (List.range (bs.length / (fmtBits f / 8))).map (elemAt f bs)

/-- Pairs of INT4 elements packed into bytes, even element low (R398). -/
def packNibbles : List Nat → List Byte
  | [] => []
  | [a] => [BitVec.ofNat 8 (a % 16)]
  | a :: b :: t => BitVec.ofNat 8 (a % 16 + 16 * (b % 16)) :: packNibbles t

/-- Payload bytes of elements given as bits, padded with zero to a whole payload (R443). -/
def packElems (f : Nat) (l : List Nat) : List Byte :=
  let bs := if f = 0 then packNibbles l else l.flatMap (toLe (fmtBits f / 8))
  bs ++ List.replicate (4096 - bs.length) 0

end Sys2Proof.Machine
end

