-- ==== Sys2Proof/Machine/Ops.lean ====
section
/-! DEFINITION. The named operations over the state: reading and changing one unit, elapsing time, the tick and epoch
grid (R45 to R49), memory and its tags (R294, R462), and posting events (R862 to R865) and completions (R680). -/

namespace Sys2Proof.Machine

/-! ## Units -/

def State.cluster (s : State) (c : Nat) : Cluster := tabGet Cluster.init s.clusters c
def State.setCluster (s : State) (c : Nat) (x : Cluster) : State :=
  { s with clusters := tabSet Cluster.init s.clusters c x }
def State.modCluster (s : State) (c : Nat) (f : Cluster → Cluster) : State := s.setCluster c (f (s.cluster c))

def State.slab (s : State) (k : Nat) : Slab := tabGet Slab.init s.slabs k
def State.setSlab (s : State) (k : Nat) (x : Slab) : State := { s with slabs := tabSet Slab.init s.slabs k x }
def State.modSlab (s : State) (k : Nat) (f : Slab → Slab) : State := s.setSlab k (f (s.slab k))

def State.vecStatus (s : State) (core : Nat) : W1c := tabGet W1c.init s.vec core
def State.modVec (s : State) (core : Nat) (f : W1c → W1c) : State :=
  { s with vec := tabSet W1c.init s.vec core (f (s.vecStatus core)) }

def State.engine (s : State) (e : Nat) : Engine := tabGet Engine.init s.engines e
def State.setEngine (s : State) (e : Nat) (x : Engine) : State :=
  { s with engines := tabSet Engine.init s.engines e x }
def State.modEngine (s : State) (e : Nat) (f : Engine → Engine) : State := s.setEngine e (f (s.engine e))

def State.bank (s : State) (k : Nat) : Bank := tabGet (Bank.init k) s.banks k
def State.setBank (s : State) (k : Nat) (x : Bank) : State := { s with banks := tabSet (Bank.init k) s.banks k x }
def State.modBank (s : State) (k : Nat) (f : Bank → Bank) : State := s.setBank k (f (s.bank k))

/-- A bank as the power state leaves it: ON banks are in RETENTION in PS2, and every bank is off from PS3 on; the BANK_POWER
setting is kept (R482, R744). -/
def State.bankNow (s : State) (k : Nat) : Bank :=
  let b := s.bank k
  match s.power.pstate with
  | .ps0 => b
  | .ps1 => b
  | .ps2 => if b.power = .on then { b with power := .retention } else b
  | _ => { b with power := .off }

def Bank.isOn (b : Bank) : Bool := b.power == .on && !b.moving
/-- The bank is accessible (R478, R479). -/
def State.bankUp (s : State) (k : Nat) : Bool := (s.bankNow k).isOn

def State.haul (s : State) (k : Nat) : Haul := tabGet Haul.init s.hauls k
def State.modHaul (s : State) (k : Nat) (f : Haul → Haul) : State :=
  { s with hauls := tabSet Haul.init s.hauls k (f (s.haul k)) }

def State.page (s : State) (k : Nat) : Page := tabGet Page.init s.pages k
def State.setPage (s : State) (k : Nat) (x : Page) : State := { s with pages := tabSet Page.init s.pages k x }

def State.cart (s : State) (k : Nat) : Cart := tabGet Cart.init s.carts k
def State.modCart (s : State) (k : Nat) (f : Cart → Cart) : State :=
  { s with carts := tabSet Cart.init s.carts k (f (s.cart k)) }

def State.loop (s : State) (k : Nat) : Loop := tabGet (Loop.init k) s.loops k
def State.setLoop (s : State) (k : Nat) (x : Loop) : State := { s with loops := tabSet (Loop.init k) s.loops k x }
def State.modLoop (s : State) (k : Nat) (f : Loop → Loop) : State := s.setLoop k (f (s.loop k))

/-- STACK_FEED of stack * 64 + line as the table of R393 numbers it: 0 OWN, 1 TWIN, 2 to 5 SPARE, 6 NONE; NONE until a
cartridge is lit. -/
def State.feedOf (s : State) (k : Nat) : Nat := tabGet 6 s.feed k
def State.setFeed (s : State) (k v : Nat) : State := { s with feed := tabSet 6 s.feed k v }

def State.mc (s : State) (k : Nat) : Monconv := tabGet Monconv.init s.monconv k
def State.modMc (s : State) (k : Nat) (f : Monconv → Monconv) : State :=
  { s with monconv := tabSet Monconv.init s.monconv k (f (s.mc k)) }

def State.convCorr (s : State) (k : Nat) : ConvCorr := tabGet ConvCorr.init s.corr k
def State.modCorr (s : State) (k : Nat) (f : ConvCorr → ConvCorr) : State :=
  { s with corr := tabSet ConvCorr.init s.corr k (f (s.convCorr k)) }

def State.port (s : State) (k : Nat) : Port := tabGet Port.init s.fabric.ports k
def State.modPort (s : State) (k : Nat) (f : Port → Port) : State :=
  { s with fabric := { s.fabric with ports := tabSet Port.init s.fabric.ports k (f (s.port k)) } }

def State.partner (s : State) (k : Nat) : BitVec 512 := tabGet 0 s.fabric.partners k
def State.setPartner (s : State) (k : Nat) (x : BitVec 512) : State :=
  { s with fabric := { s.fabric with partners := tabSet 0 s.fabric.partners k x } }

def State.dyn (s : State) (k : Nat) : PartnerDyn := tabGet PartnerDyn.init s.fabric.dyn k
def State.modDyn (s : State) (k : Nat) (f : PartnerDyn → PartnerDyn) : State :=
  { s with fabric := { s.fabric with dyn := tabSet PartnerDyn.init s.fabric.dyn k (f (s.dyn k)) } }

def State.tenant (s : State) (t : Nat) : Tenant := tabGet (Tenant.init t) s.trust.tenants t
def State.modTenant (s : State) (t : Nat) (f : Tenant → Tenant) : State :=
  { s with trust := { s.trust with tenants := tabSet (Tenant.init t) s.trust.tenants t (f (s.tenant t)) } }

def State.ca (s : State) (k : Nat) : Ca := tabGet Ca.init s.trust.cas k
def State.modCa (s : State) (k : Nat) (f : Ca → Ca) : State :=
  { s with trust := { s.trust with cas := tabSet Ca.init s.trust.cas k (f (s.ca k)) } }

def ringNo : Ring → Nat
  | .urg => 0
  | .ctl => 1
  | .blk => 2
  | .dia => 3

def State.ring (s : State) (r : Nat) : RingState := tabGet RingState.init s.mbx.rings r
def State.modRing (s : State) (r : Nat) (f : RingState → RingState) : State :=
  { s with mbx := { s.mbx with rings := tabSet RingState.init s.mbx.rings r (f (s.ring r)) } }

def State.sensor (s : State) (k : Nat) : Sensor := tabGet Sensor.init s.power.sensors k
def State.modSensor (s : State) (k : Nat) (f : Sensor → Sensor) : State :=
  { s with power := { s.power with sensors := tabSet Sensor.init s.power.sensors k (f (s.sensor k)) } }

def State.modMbx (s : State) (f : Mailbox → Mailbox) : State := { s with mbx := f s.mbx }
def State.modPower (s : State) (f : Power → Power) : State := { s with power := f s.power }
def State.modFabric (s : State) (f : Fabric → Fabric) : State := { s with fabric := f s.fabric }
def State.modTrust (s : State) (f : Trust → Trust) : State := { s with trust := f s.trust }
def State.modTime (s : State) (f : TimeState → TimeState) : State := { s with time := f s.time }
def State.modDomain (s : State) (f : Domain → Domain) : State :=
  s.modFabric (fun x => { x with domain := f x.domain })
def State.modRelay (s : State) (f : RelayState → RelayState) : State :=
  s.modFabric (fun x => { x with relay := f x.relay })

/-- Run an update over a list of units, in order. -/
def forEach {α : Type} (l : List α) (s : State) (f : State → α → State) : State := l.foldl f s

/-- Take one free value's number (assumption 2). -/
def State.takeFree (s : State) : State := { s with free := s.free + 1 }
/-- The free value that the next `takeFree` uses up. -/
def State.freeNat (s : State) : Nat := Config.freeNat s.free

/-! ## Time (02) -/

/-- The module has input power and is not in reset; TIME_NS steps from REFCLK_IN. -/
def State.powered (s : State) : Bool := s.power.boot != .unpowered && s.power.boot != .inReset

/-- `dt` nanoseconds pass (assumption 1). -/
def State.elapse (s : State) (dt : Nat) : State :=
  { s with time := { s.time with
      clock := s.time.clock + dt
      lost := s.time.lost + dt * (255 - s.power.activity)
      timeNs := if s.powered then s.time.timeNs + BitVec.ofNat 64 dt else s.time.timeNs } }

def State.now (s : State) : Nat := s.time.clock
/-- Issue time (R378): the clock without what activity levels below 255 have cost, and `ns` of it at the level of now. DEDUCED: latencies
that follow the last issue are not stretched (assumption 108). -/
def State.issueAt (s : State) (clock : Nat) : Nat := clock - s.time.lost / 256
def State.issue (s : State) : Nat := s.issueAt s.now
def State.issueSpan (s : State) (ns : Nat) : Nat := ns * (s.power.activity + 1) / 256

/-- Length of a tick in ns by period code (R47). -/
def periodNs (code : Nat) : Nat := 62500 * 2 ^ code
def ticksPerFrame (code : Nat) : Nat := 160 / 2 ^ code

def frameNs : Nat := 10000000

/-- TIME_NS against the frame grid. -/
def TimeState.gridPos (t : TimeState) (ns : Nat) : Int := (ns : Int) - t.frameOffset

/-- Frame number at a time (R46). -/
def TimeState.frameAt (t : TimeState) (ns : Nat) : Nat := ((t.gridPos ns / frameNs) % 1024).toNat
/-- Tick-in-frame number at a time (R48). -/
def TimeState.tickAt (t : TimeState) (ns : Nat) : Nat := ((t.gridPos ns % frameNs) / periodNs t.period).toNat
/-- Epoch number at a time (R49). -/
def TimeState.epochAt (t : TimeState) (ns : Nat) : Nat := (((ns : Int) - t.frameOffset) / 10000 % 4294967296).toNat
/-- The grid point of a spacing nearest to a time, for a boundary that the slew or the source moved a little (R56, R60). -/
def TimeState.nearest (t : TimeState) (spacing ns : Nat) : Nat :=
  ((t.gridPos ns + (spacing / 2 : Nat)) / spacing * spacing + t.frameOffset).toNat
/-- First grid point of a spacing at or after a time. -/
def TimeState.nextGrid (t : TimeState) (spacing ns : Nat) : Nat :=
  (-(-(t.gridPos ns) / spacing) * spacing + t.frameOffset).toNat

def State.timeNat (s : State) : Nat := s.time.timeNs.toNat
/-- Nanoseconds into the current tick. -/
def State.inTick (s : State) : Nat := s.timeNat - s.time.tickStart

/-- RESULT of TICK_STATUS, and the TIME object (R699, R721): TIME_NS, epoch, FRAME, SRC_STATE, PERIOD, tick. -/
def SrcState.code : SrcState → Nat
  | .free => 0
  | .acquiring => 1
  | .locked => 2
  | .holdover => 3
  | .held => 4

/-! ## Plans and descriptors (02) -/

def hdrGen (h : Dword) : Nat := field h.toNat 0 32
def hdrCount (h : Dword) : Nat := field h.toNat 32 13
def hdrBatch (h : Dword) : Bool := bitAt h.toNat 48
def hdrPeriod (h : Dword) : Nat := field h.toNat 49 3
def hdrStandby (h : Dword) : Nat := field h.toNat 56 6

/-- Task descriptor fields (02, Task descriptor). -/
def dTag (d : BitVec 512) : Nat := field d.toNat 0 16
def dKind (d : BitVec 512) : Nat := field d.toNat 16 8
def dLcore (d : BitVec 512) : Nat := field d.toNat 32 8
def dSlabMask (d : BitVec 512) : Nat := field d.toNat 40 4
def dStart (d : BitVec 512) : Nat := field d.toNat 64 32
def dDeadline (d : BitVec 512) : Nat := field d.toNat 96 32
def dPred (d : BitVec 512) (i : Nat) : Nat := field d.toNat (128 + 16 * i) 16
def dSrc (d : BitVec 512) : Nat := field d.toNat 192 32
def dDst (d : BitVec 512) : Nat := field d.toNat 224 32
def dLength (d : BitVec 512) : Nat := field d.toNat 256 32
def dTensor (d : BitVec 512) : Nat := field d.toNat 288 24
def dScale (d : BitVec 512) : Nat := field d.toNat 320 16
def dOp (d : BitVec 512) : Nat := field d.toNat 336 16
def dPartner (d : BitVec 512) : Nat := field d.toNat 352 17
/-- PARAMS, 96 bits. -/
def dParams (d : BitVec 512) : Nat := field d.toNat 384 96

/-- Task kinds (R73); kind 0, NOP, completes at dispatch. -/
def kSlab : Nat := 1
def kOptical : Nat := 2
def kWeight : Nat := 3
def kVector : Nat := 4
def kCoreHaul : Nat := 5
def kClusterHaul : Nat := 6
def kRouter : Nat := 7
def kIngress : Nat := 8
def kEgress : Nat := 9

/-- Predecessors that a descriptor names. -/
def dPreds (d : BitVec 512) : List Nat := ((List.range 4).map (dPred d)).filter (· ≠ 0xFFFF)

/-- Key under which a run and the log entry of a task stand once the next pass of a BATCH plan has begun: its replays go on
across tick boundaries (R308). -/
def oldKey (i : Nat) : Nat := 1048576 + i
/-- Key of task `p` in the pass of key `i`. -/
def passKey (i p : Nat) : Nat := if i < 4096 then p else oldKey p

/-- Descriptor of a task, by its index or by its key. -/
def Cluster.task (c : Cluster) (i : Nat) : BitVec 512 :=
  match c.active with
  | some p => nth 0 p.tasks (i % 4096)
  | none => 0
def Cluster.taskCount (c : Cluster) : Nat :=
  match c.active with
  | some p => p.tasks.length
  | none => 0
def Cluster.batch (c : Cluster) : Bool :=
  match c.active with
  | some p => hdrBatch p.header
  | none => false
def Cluster.run (c : Cluster) (i : Nat) : Option TaskRun := tabFind c.runs i
def Cluster.setRun (c : Cluster) (i : Nat) (r : TaskRun) : Cluster := { c with runs := tabPut c.runs i r }

/-- First byte of the reserved top of cluster memory (R463). -/
def ownerTop (planCap scaleCount : Nat) : Nat := 0x200000 - 128 * planCap - 256 * ceilDiv scaleCount 16
def Cluster.top (c : Cluster) : Nat := ownerTop c.planCap c.scaleCount

/-- The local core whose engines run a task of `lcore` (R857). -/
def Cluster.actingCore (c : Cluster) (lcore : Nat) : Nat :=
  match c.hung.find? (fun x => x.1 = lcore) with
  | some (_, some b) => b
  | _ => lcore
/-- `lcore` is hung and no standby acts for it (R859). -/
def Cluster.skips (c : Cluster) (lcore : Nat) : Bool :=
  c.hung.any (fun x => decide (x.1 = lcore) && x.2.isNone)

/-! ## Memory (08): one list of cells for scratch, cluster memory and HBM -/

/-- Key of byte `a` of a cluster's memory, of a core's scratch, of an HBM page. -/
def cmKey (c a : Nat) : Nat := c * 0x100000 + a
def scKey (core a : Nat) : Nat := 0x4000000 + core * 0x10000 + a
def hbmKey (page ofs : Nat) : Nat := 0x10000000000 + page * 0x800000 + ofs

/-- What an unlisted address reads as: memory leaves power-on zeroised (R480, R831); assumption 10 for HBM. -/
def memDefault : Byte := 0

def memRead (m : List Host.Cell) (k : Nat) : Byte := tabGet memDefault m k

/-- The canonical form of memory: rising addresses, no entry equal to what an unlisted address reads as. -/
def Memory.wf (m : List Host.Cell) : Bool := tabWf (fun _ => memDefault) m

/-- The cells with keys in [k, k + n), from a list with rising keys. -/
def memSlice (m : List Host.Cell) (k n : Nat) : List Host.Cell :=
  (m.dropWhile (fun x => decide (x.1 < k))).takeWhile (fun x => decide (x.1 < k + n))

/-- `n` bytes from an address on, from its slice. -/
def sliceBytes : Nat → Nat → List Host.Cell → List Byte
  | 0, _, _ => []
  | n + 1, k, [] => memDefault :: sliceBytes n (k + 1) []
  | n + 1, k, (j, b) :: t => if j = k then b :: sliceBytes n (k + 1) t else memDefault :: sliceBytes n (k + 1) ((j, b) :: t)

def State.bytes (s : State) (k n : Nat) : List Byte := sliceBytes n k (memSlice s.mem k n)
def State.byte (s : State) (k : Nat) : Byte := memRead s.mem k

/-- Bytes as listed cells from an address on. -/
def cellsFrom : Nat → List Byte → List Host.Cell
  | _, [] => []
  | k, b :: bs => if b = memDefault then cellsFrom (k + 1) bs else (k, b) :: cellsFrom (k + 1) bs

/-- Store bytes from an address on. -/
def memStore (m : List Host.Cell) (k : Nat) (bs : List Byte) : List Host.Cell :=
  m.takeWhile (fun x => decide (x.1 < k)) ++ cellsFrom k bs
    ++ (m.dropWhile (fun x => decide (x.1 < k))).dropWhile (fun x => decide (x.1 < k + bs.length))

def State.store (s : State) (k : Nat) (bs : List Byte) : State := { s with mem := memStore s.mem k bs }

/-- An HBM key lies on a stack that has been lost (R861). -/
def State.stackLost (s : State) (k : Nat) : Bool := s.hbmLost.any (fun x => x.1 == (k - 0x10000000000) / 0x800000 / 8192)

/-! ### Encryption (R493, R648, R649, R651)

Keys are free values, so the ciphertext is one; a line is held as its plaintext with the number of its key, and reads under any other
key as what that one decrypts the ciphertext to (assumption 10). -/

/-- Number of a tenant's page key of a generation; 0 with no key. -/
def State.keyNo (s : State) (t g : Nat) : Nat :=
  match tabFind (s.tenant t).keys g with
  | some n => n + 1
  | none => 0

/-- The entry a page is written and read under: the one in force, or of a FREE page the one it is about to have. -/
def State.pageEntry (s : State) (p : Nat) : Page :=
  if (s.page p).kind ≠ 0 then s.page p
  else match (s.pageChanges.filter (fun c => decide (c.page = p) && decide (c.entry.kind ≠ 0))).getLast? with
    | some c => c.entry
    | none => s.page p

/-- The hub's key at an HBM key: that of TENANT at KEY_GEN, below the watermark of a pass the current one (R651). -/
def State.hubKey (s : State) (k : Nat) : Nat :=
  let a := k - 0x10000000000
  let p := a / 0x800000
  let e := s.pageEntry p
  let x := s.tenant e.tenant
  let done := match tabFind x.rekey (p / 49152) with
    | some w => w.1 == p && decide (a % 0x800000 < w.2 * 0x10000)
    | none => false
  s.keyNo e.tenant (if done && x.genOld == some e.keyGen then x.genCur else e.keyGen)

/-- Number of the key that a line is encrypted under; 0 if none. -/
def State.sealOf (s : State) (line : Nat) : Nat :=
  match s.seals.find? (fun y => decide (y.first ≤ line) && decide (line ≤ y.last)) with
  | some y => y.key
  | none => 0

/-- The 512 bits of a page key by its number: key 1 of XTS, then key 2. -/
def pageKey (no : Nat) : List Byte := toLe 64 (Config.randomKey (no - 1)).toNat

/-- A 64-byte line of HBM as the hub decrypts it: the tweak is its byte address in HBM over 64 (R648). With no key in the hub it is free. -/
def State.hubLine (s : State) (l : Nat) : List Byte :=
  let bs := s.bytes (64 * l) 64
  let old := s.sealOf l
  let key := s.hubKey (64 * l)
  let n := l - 0x10000000000 / 64
  if old = 0 ∨ old = key then bs
  else if key = 0 then (List.range 64).map (fun i => Config.wrongKey old (64 * l + i))
  else xtsOpen (pageKey key) n (xtsSeal (pageKey old) n bs)

/-- Bytes that the hub decrypts. -/
def State.opened (s : State) (k n : Nat) : List Byte :=
  if s.seals.isEmpty then s.bytes k n
  else if n = 0 then []
  else (((List.range ((k + n - 1) / 64 - k / 64 + 1)).flatMap (fun i => s.hubLine (k / 64 + i))).drop (k % 64)).take n

/-- Mark lines as encrypted under a key. -/
def State.sealLines (s : State) (first last key : Nat) : State :=
  if key = 0 ∧ s.seals.isEmpty then s
  else
    let rest := s.seals.filter (fun y => !(decide (first ≤ y.first) && decide (y.last ≤ last)))
    { s with seals := match rest with
        | y :: t => if y.key = key ∧ y.first ≤ first ∧ first ≤ y.last + 1 then { y with last := max y.last last } :: t
            else { first := first, last := last, key := key } :: rest
        | [] => [{ first := first, last := last, key := key }] }

/-- Write `n` bytes of HBM through the hub: a line that they cover in part keeps what it reads as under this key. `f` stores them. -/
def State.hubWrite (s : State) (k n : Nat) (f : State → State) : State :=
  if n = 0 then s
  else if s.seals.isEmpty ∧ s.hubKey k = 0 then f s
  else
    let a := k / 64 * 64
    let e := (k + n - 1) / 64 * 64
    let s := if s.sealOf (a / 64) = s.hubKey k then s else s.store a (s.opened a 64)
    let s := if s.sealOf (e / 64) = s.hubKey k then s else s.store e (s.opened e 64)
    (f s).sealLines (a / 64) (e / 64) (s.hubKey k)

/-- Bytes of HBM: a lost stack's contents are lost, and nothing is written to it (R861). -/
def State.hbmRead (s : State) (k n : Nat) : List Byte :=
  if s.stackLost k then (List.range n).map (fun i => Config.lostByte (k + i)) else s.opened k n
def State.hbmWrite (s : State) (k : Nat) (bs : List Byte) : State :=
  if s.stackLost k then s else s.hubWrite k bs.length (fun s => s.store k bs)

/-- Die stack of an HBM key. -/
def hbmDie (k : Nat) : Nat := (k - 0x10000000000) / 0x800000 / 49152
/-- Data passes between two die stacks: within one, or over the die bridge while both stand (R38, R39, R861). -/
def State.bridged (s : State) (a b : Nat) : Bool := a == b || s.fabric.groupLost.isEmpty
/-- HBM as the haul engine of a cluster reaches it (R38). -/
def State.haulRead (s : State) (c k n : Nat) : List Byte :=
  if s.bridged (c / 32) (hbmDie k) then s.hbmRead k n else (List.range n).map (fun i => Config.lostByte (k + i))
def State.haulWrite (s : State) (c k : Nat) (bs : List Byte) : State := if s.bridged (c / 32) (hbmDie k) then s.hbmWrite k bs else s

/-- Zeroise the bytes of an address range that satisfy a condition. -/
def State.wipe (s : State) (p : Nat → Bool) : State := { s with mem := s.mem.filter (fun x => !p x.1) }
/-- Write zeros to a run of HBM. -/
def State.hbmZero (s : State) (k n : Nat) : State :=
  if s.stackLost k then s else s.hubWrite k n (fun s => s.wipe (fun a => decide (k ≤ a) && decide (a < k + n)))

/-! ## Cluster addresses (R462) -/

/-- A place an engine of a cluster names: scratch of a local core, cluster memory, an accumulator window, or none. -/
inductive Place where
  | scratch (lcore ofs : Nat)
  | cm (ofs : Nat)
  | window (lcore slab ofs : Nat)
  | none
deriving DecidableEq, Repr

def placeOf (lcore addr : Nat) : Place :=
  if addr < 0x10000 then (if lcore < 64 then .scratch lcore addr else .none)
  else if 0x100000 ≤ addr ∧ addr < 0x200000 then .cm (addr - 0x100000)
  else if 0x200000 ≤ addr ∧ addr < 0x204000 then
    (if lcore < 64 then .window lcore ((addr - 0x200000) / 0x1000) ((addr - 0x200000) % 0x1000) else .none)
  else .none

/-- Memory key of a cluster address for a task of local core `lcore`; windows and gaps have none. -/
def keyOf (c lcore addr : Nat) : Option Nat :=
  match placeOf lcore addr with
  | .scratch k a => some (scKey (c * 64 + k) a)
  | .cm a => some (cmKey c a)
  | _ => none

/-- Number of the 64-byte line that holds a key: 16,384 lines of each cluster memory, then 1,024 of each scratch. -/
def lineOf (key : Nat) : Nat := key / 64

/-- Bank index (R721 BANK_STATUS) of a cluster address. -/
def bankOf (c lcore addr : Nat) : Option Nat :=
  match placeOf lcore addr with
  | .scratch k a => some (c * 544 + 32 + 8 * k + a / 8 % 8)
  | .cm a => some (c * 544 + a / 8 % 32)
  | _ => none

/-! ## Line tags (R294) -/

/-- Order of epoch numbers, which count modulo 2^32 (R49). -/
def epLe (a b : Nat) : Bool := decide ((b + 4294967296 - a % 4294967296) % 4294967296 < 2147483648)
def epMax (a b : Nat) : Nat := if epLe a b then b else a

/-- Lines covered by `n` bytes from a key. -/
def linesOf (key n : Nat) : List Nat :=
  if n = 0 then [] else (List.range (lineOf (key + n - 1) - lineOf key + 1)).map (· + lineOf key)

/-- Latest tag of the lines of a region that is still unconfirmed, if any (R295). -/
def State.tagOf (s : State) (key n : Nat) : Option Tag :=
  (linesOf key n).foldl (fun a l =>
    match a, tabFind s.tags l with
    | none, t => t
    | some x, some y => some { epoch := epMax x.epoch y.epoch, spoiled := x.spoiled || y.spoiled }
    | some x, none => some x) none

/-- Write the tags of a region: UNCONF data sets them, any other write clears them (R294). -/
def State.setTags (s : State) (key n : Nat) (t : Option Tag) : State :=
  match t with
  | some x => { s with tags := (linesOf key n).foldl (fun a l => tabPut a l x) s.tags }
  | none => if s.tags.isEmpty then s else { s with tags := (linesOf key n).foldl (fun a l => tabDel a l) s.tags }

/-- Store bytes with the tag of their data. -/
def State.storeTagged (s : State) (key : Nat) (bs : List Byte) (t : Option Tag) : State :=
  (s.store key bs).setTags key bs.length t

/-- The later of two unconfirmed states (R292). -/
def joinTag (a b : Option Tag) : Option Tag :=
  match a, b with
  | none, t => t
  | t, none => t
  | some x, some y => some { epoch := epMax x.epoch y.epoch, spoiled := x.spoiled || y.spoiled }

/-- Cluster whose on-chip memory holds a line. -/
def lineCluster (l : Nat) : Nat := if l < 0x100000 then l / 16384 else (l - 0x100000) / 1024 / 64

/-- Cluster address of a line's first byte (HOLD_BREAK). -/
def lineAddr (l : Nat) : Nat := if l < 0x100000 then l % 16384 * 64 + 0x100000 else (l - 0x100000) % 1024 * 64

/-! ## Event records (R862 to R865, R869) -/

/-- Append a record to the event log, of 8,192 records (R730), and set EVENT (R865). -/
def Mailbox.append (m : Mailbox) (e : Event) : Mailbox :=
  { m with
    log := if m.log.length < Config.logRecords then m.log ++ [(m.logSeq, e)] else m.log.drop 1 ++ [(m.logSeq, e)]
    logSeq := m.logSeq + 1
    int := m.int.hit 4 }

/-- The oldest record is about to leave a full log: each position at it moves on, and a record that the session may read
adds to its LOST total (R731). -/
def State.dropOldest (s : State) : State :=
  match s.mbx.log with
  | [] => s
  | x :: _ =>
    if s.mbx.log.length < Config.logRecords then s
    else forEach (List.range 16) s (fun s t =>
      if (s.tenant t).exist ∧ (s.tenant t).pos ≤ x.1 then
        s.modTenant t (fun y => { y with
          pos := x.1 + 1
          lost := if x.2.module || t == 0 || x.2.tenant == t then y.lost + 1 else y.lost })
      else s)

def State.append (s : State) (e : Event) : State := s.dropOldest.modMbx (fun m => m.append e)

/-- Post a record: in the log while the firmware runs, in the hardware FIFO otherwise, lost beyond 1,024 (R720). -/
def State.post (s : State) (e : Event) : State :=
  if s.mbx.fw = .running then s.append e
  else s.modMbx (fun m =>
    if m.hwFifo.length < Config.hwRecords then { m with hwFifo := m.hwFifo ++ [e] } else { m with hwLost := m.hwLost + 1 })

/-- Post an event now. -/
def State.raise (s : State) (cls tenant : Nat) (module injected : Bool) (payload : Nat) : State :=
  s.post { time := s.time.timeNs, cls := cls, tenant := tenant, module := module, injected := injected,
           payload := BitVec.ofNat 160 payload }

/-- The 32 bytes of a record (R862). -/
def Event.bytes (seq : Nat) (e : Event) : List Byte :=
  toLe 8 e.time.toNat ++ toLe 2 seq ++ [BitVec.ofNat 8 e.cls,
    BitVec.ofNat 8 (e.tenant % 16 + (if e.module then 16 else 0) + (if e.injected then 32 else 0))]
    ++ toLe 20 e.payload.toNat

/-- An injected fault of a kind is in force on a target (R867). -/
def State.isInjected (s : State) (kind target : Nat) : Bool :=
  s.faults.any (fun f => decide (f.kind = kind) && decide (f.target = target))

/-! ## Completions (R680, R694) -/

def stOk : Nat := 0
def stBusy : Nat := 1
def stInvalid : Nat := 2
def stInvalidLength : Nat := 3
def stDenied : Nat := 4
def stNoSpace : Nat := 5
def stNotReady : Nat := 6
def stRekeyPending : Nat := 7
def stConflict : Nat := 8
def stTimeout : Nat := 9
def stFault : Nat := 10

/-- What a command's execution answers. `stay`: it remains in execution, its completion follows by another step. -/
structure Answer where
  s : State
  status : Nat
  detail : Nat
  result : Nat
  out : List Byte
  f3 : Bool
  stay : Bool
  left : Nat
  /-- The state holds effects that the rules give with an error code (R617, R713). -/
  force : Bool
  /-- APPLIED of a command that a watchdog restart ends (R718). -/
  applied : Bool
deriving DecidableEq, Repr

/-- OK with a new state. -/
def Answer.ok (s : State) : Answer :=
  { s := s, status := stOk, detail := 0, result := 0, out := [], f3 := false, stay := false, left := 0,
    force := false, applied := false }

/-- OK with a RESULT. -/
def Answer.okR (s : State) (r : Nat) : Answer := { Answer.ok s with result := r }

/-- A code other than OK and FAULT has no side effect (R695). -/
def Answer.err (s : State) (status : Nat) : Answer := { Answer.ok s with status := status }
def Answer.errD (s : State) (status detail : Nat) : Answer := { Answer.ok s with status := status, detail := detail }

/-- An error whose effects the rules state. -/
def Answer.errWith (s : State) (status : Nat) : Answer := { Answer.err s status with force := true }

/-- The state that a command's answer leaves, from the state it was started on (R695). -/
def Answer.after (a : Answer) (s : State) : State := if a.force ∨ a.status = stOk ∨ a.status = stFault then a.s else s

/-- Checks passed; the command stays in execution. -/
def Answer.wait (s : State) (left : Nat) : Answer := { Answer.ok s with stay := true, left := left }

/-- FW_STATE changes and its INT_STATUS bit is set (R674). -/
def State.setFw (s : State) (f : FwState) : State :=
  if s.mbx.fw = f then s else { s with mbx := { s.mbx with fw := f, int := s.mbx.int.hit 7 } }

/-! ## Sessions and owners -/

/-- Tenant of a session, the operator's being tenant 0; a clear command acts as tenant 0's only where R635 lets it. -/
def sessionTenant (h : CmdHdr) : Nat :=
  match h.session with
  | some t => t.val
  | none => 0

/-- Tenant a cluster belongs to: none while its strip runs (R656). -/
def State.clusterTenant (s : State) (c : Nat) : Option Nat :=
  match (s.cluster c).strip with
  | some x => if x.running then none else some (s.cluster c).tenant
  | none => some (s.cluster c).tenant

/-- The session carries authority over a cluster: it is its tenant's own (R636). -/
def State.ownsCluster (s : State) (h : CmdHdr) (c : Nat) : Bool := s.clusterTenant c == some (sessionTenant h)

end Sys2Proof.Machine
end

