-- ==== Sys2Proof/Machine/Flags.lean ====
section
/-! DEFINITION. Flags and events: for each event class its payload (02, 04 to 10, 12, 13, 15) with MODULE and TENANT as
R869 gives them, and the W1C flags that go with an event. -/

namespace Sys2Proof.Machine

/-- An unsigned value in 32 bits of DETAIL. -/
def det (n : Nat) : Nat := n % 4294967296
/-- A signed value in 32 bits, saturating. -/
def detSigned (x : Int) : Nat := unsigned 32 (clampI (-2147483648) 2147483647 x)

/-! ## MISS (02, Deadline misses) -/

def missStartLate : Nat := 1
def missRunLate : Nat := 2
def missDataLate : Nat := 3
def missUnconfirmed : Nat := 4
def missIngressLate : Nat := 5
def missHkCut : Nat := 6

/-- Deadline-miss payload. -/
def missPayload (c cause tag gen frame tick late skipped : Nat) : Nat :=
  c + cause * 2 ^ 8 + tag * 2 ^ 16 + gen * 2 ^ 32 + frame * 2 ^ 64 + tick * 2 ^ 80 + min late 0xFFFFFFFF * 2 ^ 96
    + min skipped 0xFFFF * 2 ^ 128

def Cluster.gen (c : Cluster) : Nat :=
  match c.active with
  | some p => hdrGen p.header
  | none => 0

/-- Report a miss: the event, DL_MISS and, for HK_CUT, the HK_CUT flag (R97, TSEQ_STATUS). -/
def State.miss (s : State) (c cause tag late skipped : Nat) : State :=
  let x := s.cluster c
  let s := s.raise 1 x.tenant false false
    (missPayload c cause tag x.gen s.time.frame s.time.tick late skipped)
  s.modCluster c (fun x => { x with tseq := (x.tseq.hit 8).hitIf (cause == missHkCut) 11 })

/-! ## TICKSRC (15) -/

def State.ticksrc (s : State) (kind : Nat) (detail : Nat) : State :=
  s.raise 2 0 true false (kind + (s.time.srcState.code + s.time.srcIndex * 8) * 2 ^ 8 + detail * 2 ^ 32)

/-- PHASE_JUMP: the event and the flag of every cluster (R57). -/
def State.phaseJump (s : State) (phase : Int) : State :=
  forEach (List.range 64) (s.ticksrc 1 (detSigned phase))
    (fun s c => s.modCluster c (fun x => { x with tseq := x.tseq.hit 9 }))

/-- RELAY_MISS: the event and the flag of every cluster (R65). -/
def State.relayMissed (s : State) : State :=
  forEach (List.range 64) (s.ticksrc 2 0) (fun s c => s.modCluster c (fun x => { x with tseq := x.tseq.hit 10 }))

/-! ## UPKEEP (R237, R238) -/

def upDressDone : Nat := 1
def upDressFail : Nat := 2
def upSeamFail : Nat := 3
def upSeamTransient : Nat := 4
def upRemapped : Nat := 5
def upSpareExhausted : Nat := 6
def upDriftLimit : Nat := 7
def upPinLost : Nat := 8
def upNoTile : Nat := 9
def upIncomplete : Nat := 10
def upDetourStart : Nat := 11
def upDetourEnd : Nat := 12
def upMapInvalid : Nat := 13

def slabCluster (k : Nat) : Nat := k / 256

/-- An upkeep event about a slab; `group` 0xFF and `column` 0x1FF mean none. -/
def State.upkeep (s : State) (k kind group column detail : Nat) (injected : Bool) : State :=
  s.raise 3 (s.cluster (slabCluster k)).tenant false injected
    (k + kind * 2 ^ 16 + group * 2 ^ 24 + column * 2 ^ 32 + det detail * 2 ^ 64)

/-! ## OPTICAL (R317, R318) -/

def opDirty : Nat := 1
def opSpoil : Nat := 2
def opRowSwap : Nat := 3
def opCalDone : Nat := 4
def opNoStandby : Nat := 5
def opHoldBreak : Nat := 6
def opOwnerFault : Nat := 7
def opLogFull : Nat := 8
def opSwapEmpty : Nat := 9
def opRowFailed : Nat := 10

def State.optical (s : State) (e kind row line epoch detail : Nat) (injected : Bool) : State :=
  s.raise 4 (s.cluster e).tenant false injected
    (e + kind * 2 ^ 8 + row * 2 ^ 16 + line * 2 ^ 24 + det epoch * 2 ^ 32 + det detail * 2 ^ 64)

/-- An optical event with its OPT_STATUS flag. -/
def State.opticalFlag (s : State) (e kind flag row line epoch detail : Nat) : State :=
  (s.optical e kind row line epoch detail false).modEngine e (fun x => { x with status := x.status.hit flag })

/-! ## LIGHT (R395, R396) -/

def liLineFail : Nat := 1
def liTakeover : Nat := 2
def liSpareTuning : Nat := 3
def liSpareIn : Nat := 4
def liSpareExhausted : Nat := 5
def liEyeOff : Nat := 6
def liRelit : Nat := 7
def liPortDark : Nat := 8
def liPortRelit : Nat := 9
def liMislock : Nat := 10
def liLockLoss : Nat := 11
def liReacquired : Nat := 12
def liReacqFail : Nat := 13
def liFreezeTimeout : Nat := 14
def liLimiter : Nat := 15
def liHeatSat : Nat := 16

/-- Line that a loop stands on, or 0xFF: of a ROW loop that of its physical row's reference ring (R344, R365). -/
def loopLine (k : Nat) : Nat := if k < 5120 ∧ k % 2560 < 2112 then k % 2560 % 66 % 64 else 0xFF

/-- A light and lock event; one of a loop alone names the line that the loop stands on. -/
def State.light (s : State) (cart kind line spare loop detail : Nat) (injected : Bool) : State :=
  s.raise 5 0 true injected
    (cart + kind * 2 ^ 8 + (if line = 0xFF then loopLine loop else line) * 2 ^ 16 + spare * 2 ^ 24 + loop * 2 ^ 32 + det detail * 2 ^ 64)

/-! ## NUMBER (R460, R461) -/

def nuFormat : Nat := 1
def nuOrphan : Nat := 2
def nuRange : Nat := 3

/-- A number event and its VEC_STATUS flag (R459, R461): FORMAT_FAULT bit 1, ORPHAN_ESCAPE bit 2, SCALE_RANGE bit 3. -/
def State.number (s : State) (core kind tag detail addr : Nat) : State :=
  (s.raise 6 (s.cluster (core / 64)).tenant false false
    (core + kind * 2 ^ 16 + tag * 2 ^ 32 + det detail * 2 ^ 64 + det addr * 2 ^ 96)).modVec core (fun w => w.hit kind)

/-! ## MEMORY (R533, R534) -/

def meOwner : Nat := 1
def mePage : Nat := 2
def meFault : Nat := 3
def meApplied : Nat := 4

def State.memory (s : State) (c kind unit addr detail : Nat) : State :=
  s.raise 7 (s.cluster c).tenant false false
    (c + kind * 2 ^ 8 + unit * 2 ^ 16 + det addr * 2 ^ 32 + det detail * 2 ^ 64)

/-! ## FABRIC (R612, R613) -/

def faPortDown : Nat := 1
def faPortUp : Nat := 2
def faPartnerMove : Nat := 3
def faPartnerApplied : Nat := 4
def faShed : Nat := 5
def faCapacity : Nat := 6
def faRouterDrop : Nat := 7
def faRetuneFail : Nat := 8
def faPartnerStall : Nat := 9
def faIngressLate : Nat := 10
def faEgressFormat : Nat := 11
def faWorkerLost : Nat := 12
def faManagerChange : Nat := 13

def noPartner : Nat := 0x1FFFF

/-- A fabric event; MODULE is 1 for the kinds that R869 lists. -/
def State.fabricEv (s : State) (tenant port kind unit partner detail : Nat) (injected : Bool) : State :=
  let m := kind == faPortDown || kind == faPortUp || kind == faWorkerLost || kind == faManagerChange
    || (kind == faCapacity && unit == 0xFF)
  s.raise 8 (if m then 0 else tenant) m injected
    (port + kind * 2 ^ 8 + unit * 2 ^ 16 + partner * 2 ^ 32 + det detail * 2 ^ 64)

/-! ## TRUST (R664, R665) -/

def trIdentityFail : Nat := 1
def trSessionOpen : Nat := 2
def trSessionClose : Nat := 3
def trTenantCreated : Nat := 4
def trTenantDeleted : Nat := 5
def trStripStart : Nat := 6
def trStripDone : Nat := 7
def trKeyRotated : Nat := 8
def trKeyRetired : Nat := 9

/-- A trust event of a tenant; IDENTITY_FAIL is module state (R869). -/
def State.trustEv (s : State) (tenant kind cluster detail : Nat) : State :=
  let m := kind == trIdentityFail
  s.raise 9 (if m then 0 else tenant) m false (tenant + kind * 2 ^ 8 + cluster * 2 ^ 16 + det detail * 2 ^ 64)

/-! ## POWER (R776, R777) -/

def poSensorFail : Nat := 1
def poThrottle : Nat := 2
def poThrottleEnd : Nat := 3
def poThermalStop : Nat := 4
def poTrip : Nat := 5
def poPstate : Nat := 6
def poInput : Nat := 7

/-- A power event; `temp` in 0.25 degC units. -/
def State.powerEv (s : State) (source kind sensor : Nat) (temp : Int) (detail : Nat) (injected : Bool) : State :=
  s.raise 10 0 true injected
    (source + kind * 2 ^ 8 + sensor * 2 ^ 16 + unsigned 16 temp * 2 ^ 32 + det detail * 2 ^ 64)

/-! ## CONVERTER (R812, R813) -/

def coFail : Nat := 1
def coOverrun : Nat := 2
def coXcheck : Nat := 3
def coUnderrun : Nat := 4

def State.converter (s : State) (conv kind detail : Nat) : State :=
  s.raise 11 0 true false (conv + kind * 2 ^ 32 + det detail * 2 ^ 64)

/-! ## FAULT (R866) -/

def ftCoreHang : Nat := 1
def ftCoreSkip : Nat := 2
def ftWdog : Nat := 3
def ftHalted : Nat := 4
def ftHbm : Nat := 5
def ftDie : Nat := 6
def ftCart : Nat := 7
def ftEventsLost : Nat := 8

/-- A fault event; CORE_HANG and CORE_SKIP belong to the tenant of the cluster, the others are module state (R869). -/
def State.faultEv (s : State) (unit kind detail : Nat) (tenant : Nat) (injected : Bool) : State :=
  let m := kind != ftCoreHang && kind != ftCoreSkip
  s.raise 12 (if m then 0 else tenant) m injected (unit + kind * 2 ^ 16 + det detail * 2 ^ 64)

/-! ## Events held under R296 -/

/-- Hold a record until the epoch of its data is confirmed (R296, R864): `t` is the tag of that data. -/
def State.raiseHeld (s : State) (c : Nat) (t : Option Tag) (f : State → State) : State :=
  match t with
  | none => f s
  | some x =>
    -- the records as the hardware posts them, kept aside from the mailbox
    let probe := f { s with mbx := { s.mbx with fw := .halted, hwFifo := [] } }
    { probe with mbx := { s.mbx with
        held := if x.spoiled then s.mbx.held
          else s.mbx.held ++ probe.mbx.hwFifo.map (fun e => { cluster := c, epoch := x.epoch, ev := e }) } }

/-- Records of a cluster whose epoch is confirmed are appended with their detection time (R864). -/
def State.releaseHeld (s : State) (c : Nat) (done : Nat → Bool) : State :=
  let due := s.mbx.held.filter (fun h => decide (h.cluster = c) && done h.epoch)
  let s := { s with mbx := { s.mbx with held := s.mbx.held.filter (fun h => !(decide (h.cluster = c) && done h.epoch)) } }
  due.foldl (fun s h => s.post h.ev) s

/-- Records whose data is spoiled are discarded (R864, R296). -/
def State.dropHeld (s : State) (c : Nat) (spoiled : Nat → Bool) : State :=
  { s with mbx := { s.mbx with held := s.mbx.held.filter (fun h => !(decide (h.cluster = c) && spoiled h.epoch)) } }

/-- The firmware starts or resumes: waiting records are appended and the lost ones counted in EVENTS_LOST (R720, R865). -/
def State.resumeEvents (s : State) : State :=
  let lost := s.mbx.hwLost
  let due := s.mbx.hwFifo
  let s := due.foldl State.append (s.modMbx (fun m => { m with hwFifo := [], hwLost := 0 }))
  if lost = 0 then s else s.faultEv 0xFFFF ftEventsLost lost 0 false

/-! ## Holds (R300, R301) -/

/-- Two byte ranges share a line. -/
def shareLine (a b : Nat × Nat) : Bool :=
  a.2 != 0 && b.2 != 0 && decide (lineOf a.1 ≤ lineOf (b.1 + b.2 - 1)) && decide (lineOf b.1 ≤ lineOf (a.1 + a.2 - 1))

/-- A line that a task would write is held by another task. -/
def Cluster.isHeld (x : Cluster) (ws : List (Nat × Nat)) (mine : Nat → Bool) : Bool :=
  x.log.any (fun e => !mine e.task && e.reads.any (fun r => ws.any (fun w => shareLine r w)))

/-- Fabric delivery, management and the walker write into held lines: HOLD_BREAK for each (R301). -/
def State.breakHolds (s : State) (key n : Nat) : State :=
  let c := lineCluster (lineOf key)
  if (s.cluster c).log.isEmpty then s else
  ((linesOf key n).filter (fun l => (s.cluster c).isHeld [(64 * l, 64)] (fun _ => false))).foldl
    (fun s l => s.opticalFlag c opHoldBreak 5 0x7F 0xFF 0 (lineAddr l)) s

end Sys2Proof.Machine
end

