-- ==== Sys2Proof/Machine/Rings.lean ====
section
/-! DEFINITION. Sessions and envelopes (R627 to R634), completions (R680), the bulk-out FIFO and the F3 window (R691,
R692): what every command of the mailbox shares. -/

namespace Sys2Proof.Machine

/-! ## Sessions -/

/-- Close a tenant's session and report it with the reason (R634, R665). -/
def State.closeSession (s : State) (t reason : Nat) : State :=
  match (s.tenant t).session with
  | none => s
  | some _ => (s.modTenant t (fun x => { x with session := none })).trustEv t trSessionClose 0xFF reason

/-- Close every session (R716, R711). -/
def State.closeAll (s : State) (reason : Nat) : State := forEach (List.range 16) s (fun s t => s.closeSession t reason)

/-- Envelope header (R631). -/
def envHeader (t chan len seq : Nat) : List Byte :=
  [BitVec.ofNat 8 (t + 16 * chan), 0] ++ toLe 2 len ++ toLe 4 0 ++ toLe 8 seq

/-- The nonce of an envelope: CHANNEL, three zero bytes, SEQ (R631). -/
def envNonce (chan seq : Nat) : List Byte := toLe 4 chan ++ toLe 8 seq

/-- An envelope: header, ciphertext and tag under AES-256-GCM, the header as additional data (R631). -/
def envelope (key : BitVec 256) (t chan seq : Nat) (plain : List Byte) : List Byte :=
  let hd := envHeader t chan plain.length seq
  hd ++ gcmSeal (toLe 32 key.toNat) (envNonce chan seq) hd plain

/-- Use one sequence number of a channel; a SEQ that reaches 2^64 - 1 closes the session (R632, R634). -/
def State.useSeq (s : State) (t chan : Nat) : State :=
  match (s.tenant t).session with
  | none => s
  | some x =>
    let n := tabGet 0 x.seq chan + 1
    let s := s.modTenant t (fun y => { y with session := some { x with seq := tabSet 0 x.seq chan n } })
    if n = 2 ^ 64 - 1 then s.closeSession t 2 else s

/-- Seal plaintext on a channel of a session. -/
def State.sealOn (s : State) (t chan : Nat) (plain : List Byte) : List Byte × State :=
  match (s.tenant t).session with
  | none => (plain, s)
  | some x => (envelope x.keyOut t chan (tabGet 0 x.seq chan) plain, s.useSeq t chan)

/-- Blocks of at most `n` bytes. -/
def chunks (n : Nat) : Nat → List Byte → List (List Byte)
  | 0, _ => []
  | _ + 1, [] => []
  | k + 1, l => l.take n :: chunks n k (l.drop n)

/-! ## Completions -/

/-- The 32 bytes of a completion (11, Completion). -/
def Cpl.bytes (c : Cpl) : List Byte :=
  [BitVec.ofNat 8 c.status, BitVec.ofNat 8 ((if c.applied then 1 else 0) + (if c.inF3 then 2 else 0))]
    ++ toLe 2 c.opcode ++ toLe 4 c.id.toNat ++ toLe 4 c.outLen ++ toLe 4 c.detail ++ toLe 16 c.result.toNat

/-- Post a completion on a ring: its slot, its count and the CPL bit of INT_STATUS (R674, R680). A sealed one is
sealed now, on channel 1 of its session. -/
def State.postCpl (s : State) (r : Nat) (c : Cpl) : State :=
  let w : List Byte × State := match c.session with
    | some t => s.sealOn t.val 1 c.bytes
    | none => (c.bytes, s)
  let s := w.2.modRing r (fun x =>
    { x with cpls := x.cpls ++ [{ c with wire := w.1 ++ List.replicate (64 - w.1.length) 0 }], completed := x.completed + 1 })
  { s with mbx := { s.mbx with int := s.mbx.int.hit r } }

/-- Command slots free on a ring (R674, R680). -/
def RingState.free (x : RingState) : Nat :=
  256 - (x.cmds.length + (if x.exec.isSome then 1 else 0) + x.cpls.length)

/-! ## Output -/

/-- Bytes that plaintext output takes in the bulk-out FIFO: raw, or in envelopes of up to 32,768 (R691). -/
def bulkOutLen (session : Option TenantId) (n : Nat) : Nat :=
  match session with
  | some _ => n + 32 * ceilDiv n 32768
  | none => n

/-- Bytes that output takes in the F3 window: raw, or one envelope (R692). -/
def f3Len (session : Option TenantId) (n : Nat) : Nat :=
  match session with
  | some _ => if n = 0 then 0 else n + 32
  | none => n

/-- Room in the F3 window: F3_WPTR never comes to equal F3_RPTR (R692). -/
def Mailbox.f3Room (m : Mailbox) : Nat := (m.rptr + 65536 - m.wptr - 1) % 65536

/-- Output of a command fits now (R691, R692). -/
def State.fits (s : State) (session : Option TenantId) (f3 : Bool) (n : Nat) : Bool :=
  if f3 then decide (f3Len session n ≤ s.mbx.f3Room)
  else decide (s.mbx.boutFifo.length + bulkOutLen session n ≤ 65536)

/-- Put output in the bulk-out FIFO, sealed on channel 3 under a session (R691). -/
def State.bulkOut (s : State) (session : Option TenantId) (out : List Byte) : State :=
  if out.isEmpty then s
  else
    let s := match session with
      | some t => (chunks 32768 (ceilDiv out.length 32768) out).foldl (fun (s : State) b =>
          let e := s.sealOn t.val 3 b
          { e.2 with mbx := { e.2.mbx with boutFifo := e.2.mbx.boutFifo ++ e.1 } }) s
      | none => { s with mbx := { s.mbx with boutFifo := s.mbx.boutFifo ++ out } }
    { s with mbx := { s.mbx with int := s.mbx.int.hit 5 } }

/-- Bytes of the F3 window from an offset, with its wrap (R692). -/
def f3Put : Tab Byte → Nat → List Byte → Tab Byte
  | t, _, [] => t
  | t, k, b :: bs => f3Put (tabSet 0 t (k % 65536) b) (k + 1) bs

/-- Put output in the F3 window from F3_WPTR on (R692). -/
def State.f3Out (s : State) (session : Option TenantId) (out : List Byte) : State :=
  if out.isEmpty then s
  else
    let e : List Byte × State := match session with
      | some t => s.sealOn t.val 4 out
      | none => (out, s)
    { e.2 with mbx := { e.2.mbx with
        f3 := f3Put e.2.mbx.f3 e.2.mbx.wptr e.1
        wptr := (e.2.mbx.wptr + e.1.length) % 65536
        int := e.2.mbx.int.hit 6 } }

/-- Extend a measurement register with an item (R624). -/
def extend (reg : BitVec 256) (item : List Byte) : BitVec 256 :=
  sha256Bv (toLe 32 reg.toNat ++ sha256 item)

/-- Close the books on a command: its output, then its completion, on its ring (R680, R691, R692). `clear`: the
completion is posted in clear. -/
def State.finish (s : State) (h : CmdHdr) (opcode : Nat) (clear : Bool) (a : Answer) : State :=
  let off := s.mbx.wptr
  let s1 := a.after s
  let s2 := if a.f3 then s1.f3Out h.session a.out else s1.bulkOut h.session a.out
  s2.postCpl (ringNo h.ring)
    { status := a.status, applied := a.applied, inF3 := a.f3 && !a.out.isEmpty, opcode := opcode, id := h.id,
      outLen := a.out.length, detail := if a.f3 && !a.out.isEmpty then off else a.detail,
      result := BitVec.ofNat 128 a.result, session := if clear then none else h.session, wire := [] }

end Sys2Proof.Machine
end

