-- ==== Sys2Proof/Machine/Regions.lean ====
section
/-! DEFINITION. Task fields by kind (R138, R139, R270, R271, R441, R442, R498 to R501 and 09), the regions a task reads
and writes, buffers and their slots (R510 to R518), and bank access (R469 to R472). -/

namespace Sys2Proof.Machine

abbrev Desc := BitVec 512

def dParam (d : Desc) (bit n : Nat) : Nat := field (dParams d) bit n

/-! ## SLAB_MVM (R138, R139) -/

def smRowgrp (d : Desc) : Nat := field (dOp d) 0 2
def smInt4 (d : Desc) : Bool := bitAt (dOp d) 2
def smKeep (d : Desc) : Bool := bitAt (dOp d) 3
def smChain (d : Desc) : Bool := bitAt (dOp d) 4
def smZskip (d : Desc) : Bool := bitAt (dOp d) 5
def smDrain (d : Desc) : Nat := field (dOp d) 6 2
def smRows (d : Desc) : Nat := dParam d 0 9
def smBase (d : Desc) : Nat := dParam d 16 8
def smS (d : Desc) : Nat := dParam d 24 6
def smM (d : Desc) : Nat := dParam d 32 32
/-- Rows of a bench (R112). -/
def smBench (d : Desc) : Nat := 32 * 2 ^ smRowgrp d
/-- Slabs S0 to S3 named, ascending. -/
def smSlabs (d : Desc) : List Nat := (List.range 4).filter (fun i => bitAt (dSlabMask d) i)
/-- Input elements the task takes (R108, R149). -/
def smInputs (d : Desc) : Nat := if smChain d then smRows d * (smSlabs d).length else smRows d

/-! ## OPTICAL_MVM (R270, R271, R276) -/

def omRate (d : Desc) : Nat := field (dOp d) 0 2
def omInt4 (d : Desc) : Bool := bitAt (dOp d) 2
def omSwap (d : Desc) : Bool := bitAt (dOp d) 3
def omOut (d : Desc) : Nat := field (dOp d) 4 2
def omRows (d : Desc) : Nat := field (dOp d) 8 7
def omVcount (d : Desc) : Nat := dParam d 0 13
def omS (d : Desc) : Nat := dParam d 24 6
def omM (d : Desc) : Nat := dParam d 32 32
/-- Bytes per result, vectors per output tile, vectors per input tile (R275, R276). -/
def omE (d : Desc) : Nat := if omOut d = 0 then 8 else if omOut d = 1 then 1 else 2
def omVecsOut (d : Desc) : Nat := 64 / omE d
def omVecsIn (d : Desc) : Nat := if omInt4 d then 128 else 64
def omInTiles (d : Desc) : Nat := ceilDiv (omVcount d) (omVecsIn d)
def omOutTiles (d : Desc) : Nat := ceilDiv (omVcount d) (omVecsOut d)

/-! ## VECTOR (R441, R442) -/

def veOp (d : Desc) : Nat := field (dOp d) 0 8
def veOfmt (d : Desc) : Nat := field (dOp d) 8 4
def veEsc (d : Desc) : Bool := bitAt (dOp d) 12
def veTrack (d : Desc) : Bool := bitAt (dOp d) 13
def veSrc2 (d : Desc) : Nat := dParam d 0 32
def veM (d : Desc) : Nat := dParam d 32 32
def veTiles (d : Desc) : Nat := dParam d 64 16
def veS (d : Desc) : Nat := dParam d 80 6
def veSub (d : Desc) : Nat := dParam d 88 8

def vAdd : Nat := 1
def vSub : Nat := 2
def vMul : Nat := 3
def vCmp : Nat := 4
def vSel : Nat := 5
def vCvt : Nat := 6
def vQuant : Nat := 7
def vRescale : Nat := 8
def vSum : Nat := 9
def vRsum : Nat := 10
def vAct : Nat := 11

/-- The operation reads a second operand at SRC2_ADDR. -/
def veBinary (d : Desc) : Bool := decide (1 ≤ veOp d) && decide (veOp d ≤ 5)

/-! ## Hauls (R498 to R502) -/

def chTile (d : Desc) : Bool := bitAt (dOp d) 0
def chZero (d : Desc) : Bool := bitAt (dOp d) 1
def chRows (d : Desc) : Nat := dParam d 0 16
def chSrcStride (d : Desc) : Nat := dParam d 32 32
def chDstStride (d : Desc) : Nat := dParam d 64 32
def clDir (d : Desc) : Nat := field (dOp d) 0 2
def clTile (d : Desc) : Bool := bitAt (dOp d) 2
def clZero (d : Desc) : Bool := bitAt (dOp d) 3
def clPage (d : Desc) : Nat := dParam d 0 17
def clOfs (d : Desc) : Nat := dParam d 32 23
def clRows (d : Desc) : Nat := dParam d 64 16
def clStride (d : Desc) : Nat := dParam d 80 16

/-! ## Router, egress and ingress (09) -/

def roDest (d : Desc) : Nat := field (dOp d) 0 6
def roTile (d : Desc) : Bool := bitAt (dOp d) 6
def roPhase (d : Desc) : Nat := field (dOp d) 8 5
def egForm (d : Desc) : Nat := field (dOp d) 0 2
def egSymbol (d : Desc) : Nat := field (dOp d) 8 4
def egRemote (d : Desc) : Nat := dParam d 0 32
def egSection (d : Desc) : Nat := dParam d 32 12
def inSymbol (d : Desc) : Nat := dParam d 0 4

/-- Reserved bits of a descriptor by kind, as a mask of its 512 bits (02 Task descriptor, R871, and the chapters). -/
def dReserved (kind : Nat) : Nat :=
  let common : Nat := (0xFE <<< 24) + (0xF0 <<< 40) + (0xFFFF <<< 48) + (0xFF <<< 312) + (0x7FFF <<< 369)
    + (0xFFFFFFFF <<< 480)
  let mask := if kind = kSlab then 0 else 0xF <<< 40
  let op : Nat := (match kind with
    | 1 => 0xFF00
    | 2 => 0x80C0
    | 4 => 0xC000
    | 5 => 0xFFFC
    | 6 => 0xFFF0
    | 7 => 0xE080
    | 9 => 0xF0FC
    | _ => 0xFFFF)
  let par : Nat := (match kind with
    | 1 => (0xFE00) + (0xC0 <<< 24) + (0xFFFFFFFF <<< 64)
    | 2 => (0xE000) + (0xFF <<< 16) + (0xC0 <<< 24) + (0xFFFFFFFF <<< 64)
    | 4 => 0xC0 <<< 80
    | 5 => 0xFFFF <<< 16
    | 6 => (0xFFFE <<< 16) + (0xFF80 <<< 48)
    | 8 => 0xFFFFFFFFFFFFFFFFFFFFFFF0
    | 9 => (0xFFFFF000 <<< 32) + (0xFFFFFFFF <<< 64)
    | _ => 0xFFFFFFFFFFFFFFFFFFFFFFFF)
  common ||| mask ||| (op <<< 336) ||| (par <<< 384)

/-! ## Regions -/

/-- A region: `rows` rows of `len` bytes, `stride` apart, in the address space of local core `core`. -/
structure Region where
  core : Nat
  addr : Nat
  len : Nat
  rows : Nat
  stride : Nat
deriving DecidableEq, Repr

def Region.flat (core addr len : Nat) : Region := { core := core, addr := addr, len := len, rows := 1, stride := 0 }
/-- Bytes from the first to the last byte of the region. -/
def Region.hull (r : Region) : Nat := if r.len = 0 ∨ r.rows = 0 then 0 else (r.rows - 1) * r.stride + r.len
def Region.isEmpty (r : Region) : Bool := r.hull == 0
/-- Row starts. -/
def Region.starts (r : Region) : List Nat := (List.range r.rows).map (fun i => r.addr + i * r.stride)

/-- Local core whose scratch a task addresses. -/
def dCore (d : Desc) : Nat := dLcore d

/-- A task that completes at dispatch without touching memory (R142, R274, R446, R504). -/
def dEmpty (d : Desc) : Bool :=
  match dKind d with
  | 0 => true
  | 1 => smRows d == 0
  | 2 => omVcount d == 0 || omRows d == 0
  | 4 => veTiles d == 0
  | 5 => chRows d == 0 || dLength d == 0
  | 6 => clRows d == 0 || dLength d == 0
  | 7 => dLength d == 0
  | _ => false

/-- Bytes of header and input elements that a SLAB_MVM reads (R108). -/
def smBytes (d : Desc) : Nat := 32 + (if smInt4 d then ceilDiv (smInputs d) 2 else smInputs d)

/-- Regions a task reads in its cluster's address map. -/
def readRegions (d : Desc) : List Region :=
  if dEmpty d then [] else
  let c := dCore d
  match dKind d with
  | 1 => [Region.flat c (dSrc d) (smBytes d)]
  | 2 => [Region.flat 0xFF (dSrc d) (omInTiles d * 4128)]
  | 3 => [Region.flat 0xFF (dSrc d) 4128]
  | 4 => [Region.flat c (dSrc d) (veTiles d * 4128)]
      ++ (if veBinary d then [Region.flat c (veSrc2 d) (veTiles d * 4128)] else [])
      ++ (if veOp d = vSel then [Region.flat c (veM d) (veTiles d * 4128)] else [])
  | 5 => if chZero d then [] else 
      [{ core := c, addr := dSrc d, len := dLength d / chRows d, rows := chRows d, stride := chSrcStride d }]
  | 6 => if clZero d ∨ clDir d = 0 then [] else 
      [{ core := 0xFF, addr := dSrc d, len := dLength d / clRows d, rows := clRows d, stride := clStride d }]
  | 7 => [Region.flat 0xFF (dSrc d) (dLength d)]
  | 9 => [Region.flat 0xFF (dSrc d) (dLength d)]
  | _ => []

/-- Regions a task writes in its cluster's address map. -/
def writeRegions (d : Desc) : List Region :=
  if dEmpty d then [] else
  let c := dCore d
  match dKind d with
  | 1 => if smDrain d = 0 then [] else [Region.flat c (dDst d) (dLength d)]
  | 2 => [Region.flat 0xFF (dDst d) (omOutTiles d * 4128)]
  | 4 => [Region.flat c (dDst d) (dLength d)]
      ++ (if veEsc d then [Region.flat c (veSrc2 d) (dLength d / 4128 * 256)] else [])
  | 5 => [{ core := c, addr := dDst d, len := dLength d / chRows d, rows := chRows d, stride := chDstStride d }]
  | 6 => if clDir d = 1 then [] else 
      [{ core := 0xFF, addr := dDst d, len := dLength d / clRows d, rows := clRows d, stride := clStride d }]
  | _ => []

/-- Spaces of R462, numbered: 0 scratch, 1 cluster memory, 2 + s accumulator window of slab s. -/
def spaceOf (addr : Nat) : Option (Nat × Nat × Nat) :=
  if addr < 0x10000 then some (0, 0, 0x10000)
  else if 0x100000 ≤ addr ∧ addr < 0x200000 then some (1, 0x100000, 0x200000)
  else if 0x200000 ≤ addr ∧ addr < 0x204000 then
    let s := (addr - 0x200000) / 0x1000
    some (2 + s, 0x200000 + s * 0x1000, 0x201000 + s * 0x1000)
  else none

/-- The engine of a kind reaches the space (R462). -/
def reaches (kind space : Nat) : Bool :=
  if kind = kSlab ∨ kind = kVector then space == 0
  else if kind = kCoreHaul then true
  else space == 1

/-- R464: the region lies wholly within one space that the engine reaches, below OWNER_TOP. -/
def Region.fits (r : Region) (kind top : Nat) : Bool :=
  if r.isEmpty then true else
  match spaceOf r.addr with
  | none => false
  | some (sp, _, hi) => reaches kind sp && decide (r.addr + r.hull ≤ hi) && (sp != 1 || decide (r.addr + r.hull ≤ top))

/-! ## Buffers (R510 to R514) -/

def bfBase (b : BitVec 128) : Nat := field b.toNat 0 32
def bfSlotBytes (b : BitVec 128) : Nat := field b.toNat 32 24
def bfSlots (b : BitVec 128) : Nat := field b.toNat 64 8
def bfDepth (b : BitVec 128) : Nat := field b.toNat 72 2
def bfCore (b : BitVec 128) : Nat := field b.toNat 80 8
/-- The entry declares a buffer (R511). -/
def bfUsed (b : BitVec 128) : Bool := bfSlots b != 0 && bfSlotBytes b != 0
/-- Bytes of one copy, and of all copies (R512). -/
def bfCopy (b : BitVec 128) : Nat := bfSlots b * bfSlotBytes b
def bfBytes (b : BitVec 128) : Nat := bfDepth b * bfCopy b

/-- The address lies in the space of the buffer: scratch of its core, or cluster memory (R510). -/
def bfSpace (b : BitVec 128) (core addr : Nat) : Bool :=
  if addr < 0x10000 then bfCore b == core else bfCore b == 0xFF && decide (0x100000 ≤ addr) && decide (addr < 0x200000)

/-- The region overlaps [lo, hi) in the buffer's space. -/
def Region.meets (r : Region) (b : BitVec 128) (lo hi : Nat) : Bool :=
  !r.isEmpty && bfSpace b r.core r.addr && r.starts.any (fun a => decide (a < hi) && decide (lo < a + r.len))

/-- The buffers of a plan, with their index. -/
def Plan.buffers (p : Plan) : List (Nat × BitVec 128) :=
  ((List.range p.bufs.length).zip p.bufs).filter (fun x => bfUsed x.2)

/-- Key of slot j of copy c of buffer b in a cluster's slot table. -/
def slotKey (b c j : Nat) : Nat := b * 1024 + c * 256 + j

/-- Slots of copy 0 that a region overlaps: buffer index, its entry and slot (R517, R518). -/
def Plan.slotsOf (p : Plan) (r : Region) : List (Nat × BitVec 128 × Nat) :=
  p.buffers.flatMap (fun x =>
    if r.meets x.2 (bfBase x.2) (bfBase x.2 + bfCopy x.2) then
      ((List.range (bfSlots x.2)).filter (fun j =>
        r.meets x.2 (bfBase x.2 + j * bfSlotBytes x.2) (bfBase x.2 + (j + 1) * bfSlotBytes x.2))).map
        (fun j => (x.1, x.2, j))
    else [])

/-- Slot keys for a pass (R514). -/
def Plan.slotKeys (p : Plan) (rs : List Region) (pass : Nat) : List Nat :=
  (rs.flatMap (fun r => (p.slotsOf r).map (fun x => slotKey x.1 (pass % bfDepth x.2.1) x.2.2))).dedup

/-- Address of a pass: copies of buffers are added (R514). -/
def Plan.addrOf (p : Plan) (pass core addr : Nat) : Nat :=
  match p.buffers.find? (fun x => bfSpace x.2 core addr && decide (bfBase x.2 ≤ addr)
      && decide (addr < bfBase x.2 + bfCopy x.2)) with
  | some x => addr + (pass % bfDepth x.2) * bfCopy x.2
  | none => addr

def Cluster.addrOf (c : Cluster) (pass core addr : Nat) : Nat :=
  match c.active with
  | some p => p.addrOf pass core addr
  | none => addr

/-- A region in the copy of a pass. -/
def Cluster.place (c : Cluster) (pass : Nat) (r : Region) : Region := { r with addr := c.addrOf pass r.core r.addr }

/-! ## Bank access (R469 to R472) -/

/-- Engines as the table of R470 tells them apart. -/
inductive Actor where
  | clusterHaul | optical | coreHaul (lcore : Nat) | coreEngine (lcore : Nat) | fabric
deriving DecidableEq, Repr

def actorOf (d : Desc) : Actor :=
  match dKind d with
  | 1 => .coreEngine (dLcore d)
  | 4 => .coreEngine (dLcore d)
  | 5 => .coreHaul (dLcore d)
  | 2 => .optical
  | 3 => .optical
  | _ => .clusterHaul

/-- Access of an engine to a word by its bank's owner (R470). -/
def mayAccess (b : Bank) (a : Actor) (inCm write : Bool) : Bool :=
  if inCm then
    match b.owner with
    | 1 => (match a with | .clusterHaul => true | .optical => true | .coreHaul _ => true | _ => false)
    | 2 => (match a with | .coreHaul k => k == b.ownerCore | _ => false)
    | 3 => (match a with
      | .fabric => write
      | .clusterHaul => !write
      | .coreHaul _ => !write
      | _ => false)
    | _ => false
  else
    match b.owner with
    | 2 => (match a with | .coreHaul k => k == b.ownerCore | .coreEngine k => k == b.ownerCore | _ => false)
    | _ => false

/-- What a word breaks, in the order of R472: 2 reserved top, 1 bank not ON, 0 owner. -/
def State.wordFault (s : State) (c : Nat) (a : Actor) (core addr : Nat) (write : Bool) : Option Nat :=
  match bankOf c core addr with
  | none => none
  | some k =>
    let b := s.bankNow k
    let cm := decide (0x100000 ≤ addr)
    if cm ∧ (s.cluster c).top ≤ addr then some 2
    else if !b.isOn then some 1
    else if mayAccess b a cm write then none
    else some 0

/-- Words (8-byte aligned addresses) of a row of bytes that lie in distinct banks: after 32 words the banks repeat, so
the lowest offender is among the first 32 of a row, or is the first word of the reserved top. -/
def rowWords (addr len top : Nat) : List Nat :=
  let lo := addr / 8
  let n := if len = 0 then 0 else (addr + len - 1) / 8 - lo + 1
  let ws := (List.range (min n 32)).map (fun i => (lo + i) * 8)
  if 0x100000 ≤ addr ∧ addr < top ∧ top < addr + len then ws ++ [top / 8 * 8] else ws

/-- Every bank that holds bytes [addr, addr + n) of a core's address map is accessible (R481). -/
def State.banksUp (s : State) (c core addr n : Nat) : Bool :=
  (rowWords addr n 0).all (fun w => match bankOf c core w with
    | some k => s.bankUp k
    | none => true)

/-- Lowest word that breaks a condition over the regions of a task, with its cause (R472). -/
def State.ownerFault (s : State) (c : Nat) (a : Actor) (rs : List (Region × Bool)) : Option (Nat × Nat × Nat) :=
  let top := (s.cluster c).top
  (rs.flatMap (fun x => x.1.starts.flatMap (fun r =>
    (rowWords r x.1.len top).filterMap (fun w =>
      match s.wordFault c a x.1.core w x.2 with
      | some cause => some (w, cause, x.1.core)
      | none => none)))).foldl (fun best x =>
    match best with
    | none => some x
    | some y => if x.1 < y.1 then some x else some y) none

end Sys2Proof.Machine
end

