-- ==== Sys2Proof/Machine/PlanCheck.lean ====
section
/-! DEFINITION. The checks of TICK_PLAN_LOAD (R70, R71, R74, R140, R141, R268, R272, R273, R444, R445, R464, R505, R506,
R509, R515, R516, R524, R572, R581, R871, R872). DETAIL is a byte offset, with bit 31 set in the bulk payload (R694). -/

namespace Sys2Proof.Machine

def bulkBit : Nat := 2 ^ 31

/-- The first check that fails: its code and DETAIL. -/
def firstFail : List (Bool × Nat × Nat) → Option (Nat × Nat)
  | [] => none
  | (bad, st, dt) :: l => if bad then some (st, dt) else firstFail l

/-- Byte offset of a reserved field's lowest bit set among the reserved bits of a value. -/
def reservedAt (n v mask : Nat) : Option Nat :=
  let r := v &&& mask
  if r = 0 then none else some (lowByteOf n r)
where
  lowByteOf : Nat → Nat → Nat
    | 0, _ => 0
    | n + 1, v => if v % 256 = 0 then 1 + lowByteOf n (v / 256) else 0

/-- Reserved bits of a plan header (02, Plan header). -/
def headerReserved : Nat := (0xE000 <<< 32) + (0xF0 <<< 48) + (0xC0 <<< 56)

/-- Split of the bulk payload into descriptors and buffer table entries (R701). -/
def takeDescs : Nat → List Byte → List Desc
  | 0, _ => []
  | n + 1, l => bytesToBv 512 (l.take 64) :: takeDescs n (l.drop 64)
def takeBufs : Nat → List Byte → List (BitVec 128)
  | 0, _ => []
  | n + 1, l => bytesToBv 128 (l.take 16) :: takeBufs n (l.drop 16)

def indexed {α : Type} (l : List α) : List (Nat × α) := (List.range l.length).zip l

/-- Reserved fields of the descriptors and the table (R7, R871): DETAIL of the first. -/
def planReserved (tasks : List Desc) (bufs : List (BitVec 128)) : Option Nat :=
  match (indexed tasks).findSome? (fun x =>
      (reservedAt 64 x.2.toNat (dReserved (dKind x.2))).map (fun o => bulkBit + 64 * x.1 + o)) with
  | some o => some o
  | none => (indexed bufs).findSome? (fun x =>
      (reservedAt 16 x.2.toNat ((0xFF <<< 56) + (0xFC <<< 72) + (0xFF <<< 88) + (0xFFFFFFFF <<< 96))).map
        (fun o => bulkBit + 64 * tasks.length + 16 * x.1 + o))

def kindKnown (k : Nat) : Bool := decide (k ≤ 9)

/-- Regions that a load checks, each with the field that gives it (R464); of a VECTOR those of R445, whatever its NTILES. -/
def lengthRegions (d : Desc) : List (Region × Nat) :=
  if dKind d = kVector then
    let n := veTiles d * 4128
    let at_ (a len : Nat) : Region := Region.flat (dCore d) a len
    [(at_ (dSrc d) n, 0x18)] ++ (if veBinary d then [(at_ (veSrc2 d) n, 0x30)] else [])
      ++ (if veOp d = vSel then [(at_ (veM d) n, 0x34)] else []) ++ [(at_ (dDst d) (dLength d), 0x1C)]
      ++ (if veOp d = vQuant ∧ veEsc d then [(at_ (veSrc2 d) (dLength d / 4128 * 256), 0x30)] else [])
  else (readRegions d).map (fun r => (r, 0x18)) ++ (writeRegions d).map (fun r => (r, 0x1C))

/-- Field of a descriptor whose length rule fails (R141, R268, R273, R445, R506, R464); `tops` gives OWNER_TOP of a
cluster after the load. -/
def taskLength (c : Nat) (tops : Nat → Nat) (d : Desc) : Option Nat :=
  let k := dKind d
  let len := dLength d
  let rows := if k = kCoreHaul then chRows d else clRows d
  let hbm := k == kClusterHaul && decide (clDir d ≤ 1)
  let moves := (k == kCoreHaul || k == kClusterHaul) && rows != 0 && len != 0
  let tile := if k = kCoreHaul then chTile d else clTile d
  let own : Option Nat :=
    if k = kSlab ∧ 256 < smBase d + smRows d then some 0x30
    else if k = kOptical ∧ omOut d ≠ 3 ∧ len < omOutTiles d * 4128 then some 0x20
    else if k = kWeight ∧ len ≠ 4128 then some 0x20
    else if k = kVector ∧ veTiles d ≠ 0 ∧ len < 4128 then some 0x20
    else if moves ∧ (len % rows ≠ 0 ∨ len / rows % 8 ≠ 0 ∨ (tile ∧ len / rows % 4128 ≠ 0)
        ∨ (hbm ∧ len / rows % 64 ≠ 0)) then some 0x20
    else if k = kClusterHaul ∧ 2 ^ 23 < clOfs d + len then some 0x34
    else none
  match own with
  | some o => some o
  | none =>
    if k = kSlab ∧ dSlabMask d = 0 then none else
    match (lengthRegions d).find? (fun r => !r.1.fits k (tops c)) with
    | some r => some r.2
    | none =>
      if k = kRouter ∧ !(Region.flat 0xFF (dDst d) len).fits k (tops (roDest d)) then some 0x1C else none

/-- Field of a descriptor that breaks R74. -/
def taskPlan (h : Dword) (i : Nat) (d : Desc) : Option Nat :=
  let rt := !hdrBatch h
  if !kindKnown (dKind d) then some 0x02
  else if dLcore d = hdrStandby h then some 0x04
  else match (List.range 4).find? (fun p => dPred d p ≠ 0xFFFF ∧ i ≤ dPred d p) with
    | some p => some (0x10 + 2 * p)
    | none =>
      if rt ∧ dDeadline d ≤ dStart d then some 0x08
      else if rt ∧ periodNs (hdrPeriod h) - 2500 < dDeadline d then some 0x0C
      else none

/-- LCORE does not suit the kind (R872). -/
def taskLcore (d : Desc) : Bool :=
  let k := dKind d
  let l := dLcore d
  if k = kSlab ∨ k = kVector ∨ k = kCoreHaul then decide (64 ≤ l)
  else if k = 0 ∨ k = kIngress then decide (64 ≤ l) && decide (l ≠ 0xFF)
  else decide (l ≠ 0xFF)

/-- Field of a descriptor that breaks its engine's rules (R140, R272, R444, R505, R572, R581). -/
def taskEngine (c : Nat) (d : Desc) : Option Nat :=
  let sel (l : List (Bool × Nat)) : Option Nat := (l.find? (fun x => x.1)).map (fun x => x.2)
  match dKind d with
  | 1 => sel [(smRowgrp d == 3, 0x2A), (dSlabMask d == 0, 0x05), (smBase d % 32 != 0, 0x32), (decide (62 < smS d), 0x33)]
  | 2 => sel [(omRate d == 3, 0x2A), (omOut d == 3, 0x2A), (decide (4096 < omVcount d), 0x30),
      (decide (64 < omRows d), 0x2B), (decide (62 < omS d), 0x33)]
  | 4 =>
    let op := veOp d
    let f := veOfmt d
    let sub := veSub d
    sel [(op == 0 || decide (11 < op), 0x2A), (!fmtValid f, 0x2B), (decide (15 < veTiles d), 0x38),
      (decide (62 < veS d), 0x3A),
      ((op == vCmp && decide (5 < sub)) || (op == vAct && decide (7 < sub)) || (op == vRsum && (sub == 0 || decide (12 < sub))),
        0x3B),
      (veEsc d && (op != vQuant || f != fmtInt8), 0x2B), (veTrack d && op != vQuant, 0x2B),
      ((op == vSum || op == vRsum) && fmtIsInt f && f != fmtInt64, 0x2B),
      (op == vQuant && veEsc d && veSrc2 d % 32 != 0, 0x30)]
  | 5 => sel [(chZero d && chTile d, 0x2A), (!chZero d && dSrc d % 8 != 0, 0x18), (dDst d % 8 != 0, 0x1C),
      (chSrcStride d % 8 != 0, 0x34), (chDstStride d % 8 != 0, 0x38)]
  | 6 => sel [(clDir d == 3, 0x2A), (clZero d && (clDir d == 0 || clTile d), 0x2A), (decide (98303 < clPage d), 0x30),
      (clOfs d % 64 != 0, 0x34), (!clZero d && dSrc d % 8 != 0, 0x18), (dDst d % 8 != 0, 0x1C), (clStride d % 8 != 0, 0x3A)]
  | 7 => sel [(roDest d == c, 0x2A), (decide (16 ≤ roPhase d) && roPhase d != 0x1F, 0x2B)]
  | 8 => sel [(decide (13 < inSymbol d), 0x30)]
  | 9 => sel [(egForm d == 3, 0x2A), (decide (13 < egSymbol d), 0x2B)]
  | _ => none

/-! ## Buffer table (R515, R516, R524) -/

/-- R516: the buffer lies outside the space its CORE field names, or reaches the reserved top. A CORE that names no space is
INVALID (R515). -/
def bufLength (top : Nat) (b : BitVec 128) : Bool :=
  if bfCore b = 0xFF then decide (bfBase b < 0x100000) || decide (top < bfBase b + bfBytes b)
  else decide (bfCore b < 64) && decide (0x10000 < bfBase b + bfBytes b)

/-- The field of an entry that breaks R515 by itself. -/
def bufField (b : BitVec 128) : Option Nat :=
  if bfBase b % 64 ≠ 0 then some 0x00
  else if bfSlotBytes b % 64 ≠ 0 then some 0x04
  else if bfDepth b = 0 then some 0x09
  else if 64 ≤ bfCore b ∧ bfCore b ≠ 0xFF then some 0x0A
  else none

def bufOverlap (a b : BitVec 128) : Bool :=
  bfCore a == bfCore b && decide (bfBase a < bfBase b + bfBytes b) && decide (bfBase b < bfBase a + bfBytes a)

/-- Buffer entry that overlaps an earlier one. -/
def bufsOverlap (l : List (Nat × BitVec 128)) : Option Nat :=
  (l.find? (fun x => l.any (fun y => decide (y.1 < x.1) && bufOverlap y.2 x.2))).map (fun x => x.1)

/-- A region lies in a copy other than copy 0, or only partly inside copy 0 (R515). -/
def regionSplits (b : BitVec 128) (r : Region) : Bool :=
  r.meets b (bfBase b) (bfBase b + bfBytes b)
    && !r.starts.all (fun a => decide (bfBase b ≤ a) && decide (a + r.len ≤ bfBase b + bfCopy b))

/-- Edges from each buffer a task reads to each buffer it writes (R524). -/
def creditEdges (p : Plan) : List (Nat × Nat) :=
  (p.tasks.flatMap (fun d =>
    let bs (rs : List Region) : List Nat := (rs.flatMap (fun r => (p.slotsOf r).map (fun x => x.1))).dedup
    (bs (readRegions d)).flatMap (fun a => (bs (writeRegions d)).map (fun b => (a, b))))).dedup

/-- Nodes reached from a set along the edges, in `n` rounds. -/
def reached (edges : List (Nat × Nat)) : Nat → List Nat → List Nat
  | 0, l => l
  | n + 1, l => reached edges n (l ++ (edges.filter (fun e => l.contains e.1 && !l.contains e.2)).map (fun e => e.2)).dedup

/-- Lowest buffer index on a cycle (R524). -/
def creditCycle (p : Plan) : Option Nat :=
  let edges := creditEdges p
  ((p.buffers.map (fun x => x.1)).find? (fun b =>
    (reached edges 64 ((edges.filter (fun e => e.1 == b)).map (fun e => e.2)).dedup).contains b))

/-! ## All checks, in order (R696, R699; assumption 13) -/

/-- Length rules: INVALID_LENGTH and its DETAIL. -/
def planLengths (c : Nat) (tops : Nat → Nat) (p : Plan) : Option (Nat × Nat) :=
  let n := p.tasks.length
  match (indexed p.tasks).findSome? (fun x =>
      if kindKnown (dKind x.2) then (taskLength c tops x.2).map (fun o => bulkBit + 64 * x.1 + o) else none) with
  | some o => some (stInvalidLength, o)
  | none =>
    ((p.buffers.find? (fun x => bufLength (tops c) x.2)).map (fun x => (stInvalidLength, bulkBit + 64 * n + 16 * x.1)))

/-- The command's own rules on the plan for cluster `c`. DESIGN CHOICE: a header whose PERIOD is a code that names no period (5 to 7)
is INVALID here, as TICK_SOURCE_SET answers it (assumption 13). -/
def planRules (c : Nat) (p : Plan) : Option (Nat × Nat) :=
  let n := p.tasks.length
  let task (f : Nat → Desc → Option Nat) : Option (Nat × Nat) :=
    ((indexed p.tasks).findSome? (fun x => (f x.1 x.2).map (fun o => (stInvalid, bulkBit + 64 * x.1 + o))))
  if hdrGen p.header = 0 then some (stInvalid, 0x18)
  else if 4 < hdrPeriod p.header then some (stInvalid, 0x1E)
  else match task (taskPlan p.header) with
  | some x => some x
  | none => match task (fun _ d => if taskLcore d then some 0x04 else none) with
  | some x => some x
  | none => match (p.buffers.findSome? (fun x => (bufField x.2).map (fun o => (stInvalid, bulkBit + 64 * n + 16 * x.1 + o)))) with
  | some x => some x
  | none => match bufsOverlap p.buffers with
  | some j => some (stInvalid, bulkBit + 64 * n + 16 * j)
  | none => match task (fun _ d =>
      if (readRegions d ++ writeRegions d).any (fun r => p.buffers.any (fun b => regionSplits b.2 r)) then some 0x18
      else none) with
  | some x => some x
  | none => match creditCycle p with
  | some j => some (stInvalid, bulkBit + 64 * n + 16 * j)
  | none => task (fun _ d => taskEngine c d)

end Sys2Proof.Machine
end

