-- ==== Sys2Proof/Machine/Tile.lean ====
section
/-! DEFINITION. What hauls and engines share about data: tile headers (R407 to R411), and what a haul reads and writes, row by row
(R498 to R503). -/

namespace Sys2Proof.Machine

/-! ## Tile headers (R407) -/

/-- The 32 bytes of a header as one value. -/
abbrev Hdr := Nat

def hdFmt (h : Hdr) : Nat := field h 24 4
def hdScale (h : Hdr) : Nat := field h 32 16
def hdTailCount (h : Hdr) : Nat := field h 72 6
def hdTailOfs (h : Hdr) : Nat := field h 80 16

/-- SAT, CLIP, BOUND_VOID, SEAM_FAIL and LATE of a header. -/
structure HFlags where
  sat : Bool
  clip : Bool
  boundVoid : Bool
  seamFail : Bool
  late : Bool
deriving DecidableEq, Repr

def HFlags.none : HFlags := { sat := false, clip := false, boundVoid := false, seamFail := false, late := false }

def HFlags.join (a b : HFlags) : HFlags :=
  { sat := a.sat || b.sat, clip := a.clip || b.clip, boundVoid := a.boundVoid || b.boundVoid
    seamFail := a.seamFail || b.seamFail, late := a.late || b.late }

def hdFlags (h : Hdr) : HFlags :=
  { sat := bitAt h 65, clip := bitAt h 66, boundVoid := bitAt h 67, seamFail := bitAt h 68, late := bitAt h 69 }

def HFlags.bits (f : HFlags) : Nat :=
  (if f.sat then 2 else 0) + (if f.clip then 4 else 0) + (if f.boundVoid then 8 else 0) + (if f.seamFail then 16 else 0)
    + (if f.late then 32 else 0)

/-- UNCONF and EPOCH of a header, from the tag of its payload's lines (R295, R411). -/
def tagBits (t : Option Tag) : Nat :=
  match t with
  | some x => (x.epoch % 65536) <<< 48 + 1 <<< 64
  | none => 0

/-- A header that an engine writes: TAIL_COUNT and TAIL_OFS are zero but where a tailings list goes with it (R421). -/
def mkHeader (tensor fmt scale : Nat) (f : HFlags) (t : Option Tag) (tailCount tailOfs : Nat) : List Byte :=
  toLe 32 (tensor % 2 ^ 24 + (fmt % 16) <<< 24 + (scale % 65536) <<< 32 + tagBits t + f.bits <<< 64
    + (tailCount % 64) <<< 72 + (tailOfs % 65536) <<< 80)

/-- A header copied by a haul with its confirmation state renewed (R410, R411) and LATE set where the copy is late. -/
def copyHeader (l : List Byte) (t : Option Tag) (late : Bool) : List Byte :=
  let h := leNat l
  let h := if late then h ||| 1 <<< 69 else h
  let keep := h - (field h 64 1) <<< 64
  toLe 32 (match t with
    | some x => keep - (field keep 48 16) <<< 48 + (x.epoch % 65536) <<< 48 + 1 <<< 64
    | none => keep)

/-! ## Where a haul reads and writes (R498 to R503) -/

/-- One side of a row: a cluster address, an HBM key, or zeros (R498, R500). -/
inductive Side where
  | at_ (addr : Nat)
  | hbm (key : Nat)
  | zero
deriving DecidableEq, Repr

def Side.add (x : Side) (o : Nat) : Side :=
  match x with
  | .at_ a => .at_ (a + o)
  | .hbm k => .hbm (k + o)
  | .zero => .zero

/-- Row length of a haul (R502). -/
def haulRow (d : Desc) : Nat := if dKind d = kCoreHaul then dLength d / chRows d else dLength d / clRows d
def haulTile (d : Desc) : Bool := if dKind d = kCoreHaul then chTile d else clTile d

/-- Source and destination of each row in the copy of a pass (R502). -/
def haulSides (x : Cluster) (d : Desc) (pass : Nat) : List (Side × Side) :=
  let src := x.addrOf pass (dLcore d) (dSrc d)
  let dst := x.addrOf pass (dLcore d) (dDst d)
  if dKind d = kCoreHaul then
    (List.range (chRows d)).map (fun i =>
      (if chZero d then .zero else .at_ (src + i * chSrcStride d), .at_ (dst + i * chDstStride d)))
  else
    (List.range (clRows d)).map (fun i =>
      let h : Side := .hbm (hbmKey (clPage d) (clOfs d + i * haulRow d))
      let a : Side := if clZero d then .zero else .at_ (src + i * clStride d)
      match clDir d with
      | 0 => (h, .at_ (dst + i * clStride d))
      | 1 => (a, h)
      | _ => (a, .at_ (dst + i * clStride d)))

/-- What a haul moves one after another: its rows, or with TILE its tiles (R875). -/
def haulUnits (x : Cluster) (d : Desc) (pass : Nat) : List (Side × Side) :=
  let rows := haulSides x d pass
  if haulTile d then rows.flatMap (fun r => (List.range (haulRow d / 4128)).map (fun k => (r.1.add (4128 * k), r.2.add (4128 * k))))
  else rows

/-! ## Words of cluster memory that a task touches (R465, R466) -/

def clashAddr (word : Nat) : Nat := 0x100000 + 8 * word

/-- Side `x` of `n` bytes covers the word at a cluster memory address. -/
def Side.covers (x : Side) (n addr : Nat) : Bool :=
  match x with
  | .at_ a => decide (a ≤ addr) && decide (addr < a + n)
  | _ => false

/-- A task reads, or writes, a word of cluster memory in a pass: a haul in its rows, another in its regions. -/
def State.accesses (s : State) (c i pass word : Nat) (write : Bool) : Bool :=
  let x := s.cluster c
  let d := x.task i
  let a := clashAddr word
  if dKind d = kCoreHaul ∨ dKind d = kClusterHaul then
    (haulSides x d pass).any (fun r => (if write then r.2 else r.1).covers (haulRow d) a)
  else (if write then writeRegions d else readRegions d).any (fun r => (x.place pass r).starts.any (fun b =>
    decide (b < a + 8) && decide (a < b + r.len)))

/-! ## What a haul moves -/

/-- Bytes of scratch, cluster memory or HBM at a side of a haul. -/
def State.plainRead (s : State) (c core : Nat) (x : Side) (n : Nat) : List Byte :=
  match x with
  | .zero => List.replicate n 0
  | .hbm k => s.haulRead c k n
  | .at_ a => (match keyOf c core a with
    | some k => s.bytes k n
    | none => List.replicate n 0)

/-- Their state. -/
def State.plainTag (s : State) (c core : Nat) (x : Side) (n : Nat) : Option Tag :=
  match x with
  | .at_ a => (keyOf c core a).bind (fun k => s.tagOf k n)
  | _ => none

/-- Write bytes of cluster memory or scratch with the state of their data: words of a bank that is not ON keep what they hold (R478). -/
def State.writeAt (s : State) (c core addr : Nat) (bs : List Byte) (t : Option Tag) : State :=
  match keyOf c core addr with
  | none => s
  | some k =>
    if s.banksUp c core addr bs.length then s.storeTagged k bs t
    else forEach (List.range bs.length) s (fun s i =>
      if s.banksUp c core (addr + i) 1 then s.storeTagged (k + i) ((bs.drop i).take 1) t else s)

/-- Move the first `n` units of a haul between scratch, cluster memory and HBM, as far as a fill does that is cancelled (R530). -/
def State.movePlain (s : State) (c i pass n : Nat) : State :=
  let x := s.cluster c
  let d := x.task i
  let core := dLcore d
  let len := if haulTile d then 4128 else haulRow d
  ((haulUnits x d pass).take n).foldl (fun (s : State) u =>
    let t := s.plainTag c core u.1 len
    let bs := s.plainRead c core u.1 len
    let bs := if haulTile d then copyHeader (bs.take 32) t false ++ bs.drop 32 else bs
    match u.2 with
    | .at_ a => s.writeAt c core a bs t
    | _ => s) s

end Sys2Proof.Machine
end

