-- ==== Sys2Proof/Machine/Credit.lean ====
section
/-! DEFINITION. Boundaries to come, buffer slots (R517 to R520) and fills made ahead (R525 to R530). -/

namespace Sys2Proof.Machine

/-! ## Boundaries to come -/

/-- TIME_NS at which the current tick ends: the next grid point, or a later one where a change lengthened it (R57, R870). -/
def TimeState.tickEnd (t : TimeState) : Nat := max t.tickNotBefore (t.nextGrid (periodNs t.period) (t.tickStart + 1))
/-- TIME_NS at which the current epoch ends. -/
def TimeState.epochEnd (t : TimeState) (now : Nat) : Nat :=
  max t.epochNotBefore ((-(-((now + 1 : Int) - t.frameOffset) / 10000) * 10000 + t.frameOffset).toNat)

/-- A control tick may come now: TIME_NS is at a grid point that is new, and no lengthened epoch runs on (R49, R91). -/
def State.controlPoint (s : State) : Nat := (s.time.gridPos s.timeNat / 10000 * 10000 + s.time.frameOffset).toNat
def State.controlDue (s : State) : Bool :=
  let p := s.controlPoint
  decide (s.timeNat ≤ p + 50) && decide (s.time.epochNotBefore ≤ p) && s.time.controlAt.all (fun q => decide (q < p))

/-- The tick has come to its last 2.5 us (R87). -/
def State.inSlot (s : State) : Bool := s.time.inHk || decide (s.time.tickEnd < s.timeNat + 2500)
/-- A tick boundary has just come. -/
def State.atStart (s : State) : Bool := decide (s.timeNat ≤ s.time.tickStart + 100)
/-- Clock of the boundary that began the tick. -/
def State.startClock (s : State) : Nat := s.now - (s.timeNat - s.time.tickStart)

/-- Clock of the next boundary, not before now. -/
def State.nextBoundary (s : State) : Nat := s.now + (s.time.tickEnd - s.timeNat)
/-- Clock of the first boundary at or after a clock. -/
def State.boundaryAt (s : State) (t : Nat) : Nat :=
  s.nextBoundary + ceilDiv (t - s.nextBoundary) (periodNs s.time.period) * periodNs s.time.period
/-- Clock at which pass `p` of a cluster's plan begins: in RT mode each tick is one pass (R513). -/
def State.passStartAt (s : State) (c p : Nat) : Nat :=
  s.nextBoundary + (p - (s.cluster c).pass - 1) * periodNs s.time.period

/-- Clock from which a deferred effect of a command may come (R77, R474, R586). -/
def State.leadFrom (s : State) : Nat := s.now + Config.leadNs

/-- The epoch in progress (R49): the numbered one, or the one a change lengthened (R57). -/
def State.epochNow (s : State) : Nat :=
  if s.timeNat < s.time.epochNotBefore then s.time.epoch else s.time.epochAt s.timeNat
/-- Frame and tick in progress (R46, R48); a boundary that a slew drew forward has begun its tick (R60). -/
def State.frameNow (s : State) : Nat :=
  if s.timeNat < max s.time.tickNotBefore s.time.tickStart then s.time.frame else s.time.frameAt s.timeNat
def State.tickNow (s : State) : Nat :=
  if s.timeNat < max s.time.tickNotBefore s.time.tickStart then s.time.tick else s.time.tickAt s.timeNat

/-- TIME_NS, epoch, FRAME, SRC_STATE, PERIOD and tick in frame, 16 bytes (R699 TICK_STATUS, R721 TIME). -/
def State.tickResult (s : State) : Nat :=
  s.timeNat + (s.epochNow % 2 ^ 32) <<< 64
    + (s.frameNow + s.time.srcState.code <<< 10 + s.time.period <<< 13) <<< 96 + s.tickNow <<< 112

/-! ## Slots -/

def Cluster.slot (c : Cluster) (k : Nat) : Slot := tabGet Slot.init c.slots k
def Cluster.modSlot (c : Cluster) (k : Nat) (f : Slot → Slot) : Cluster :=
  { c with slots := tabSet Slot.init c.slots k (f (c.slot k)) }
def Cluster.freeSlots (c : Cluster) (ks : List Nat) : Cluster :=
  ks.foldl (fun c k => c.modSlot k (fun _ => Slot.init)) c

/-- Slots of the active plan that a task reads and writes in a pass (R514, R517). -/
def Cluster.readSlots (c : Cluster) (i pass : Nat) : List Nat :=
  match c.active with
  | some p => p.slotKeys (readRegions (c.task i)) pass
  | none => []
def Cluster.writeSlots (c : Cluster) (i pass : Nat) : List Nat :=
  match c.active with
  | some p => p.slotKeys (writeRegions (c.task i)) pass
  | none => []

/-- Readers of a slot (R518): the tasks whose input regions overlap it. -/
def Plan.readers (p : Plan) (key : Nat) : List Nat :=
  (List.range p.tasks.length).filter (fun i =>
    (p.slotKeys (readRegions (nth 0 p.tasks i)) (key % 1024 / 256)).contains key)

/-- A task has completed, been stopped or not been run in a pass. -/
def Cluster.ended (c : Cluster) (i pass : Nat) : Bool :=
  if pass = c.pass then
    (match c.run i with
      | some r => r.phase == .done || r.phase == .notRun
      | none => false)
  else if c.pass < pass then c.ahead.any (fun a => decide (a.task = i) && decide (a.pass = pass) && a.done)
  else match c.run (oldKey i) with
    | some r => r.phase == .done || r.phase == .notRun || r.pass != pass
    | none => true

/-- A FULL slot becomes FREE once every one of its readers in its pass is over (R518). -/
def Cluster.releaseSlot (c : Cluster) (k : Nat) : Cluster :=
  match c.active with
  | some p =>
    let x := c.slot k
    if x.phase = .full ∧ (p.readers k).all (fun i => c.ended i x.pass) then c.modSlot k (fun _ => Slot.init) else c
  | none => c

/-- Slots become FULL for a pass; one without readers becomes FREE at once (R517, R518). -/
def Cluster.fillSlots (c : Cluster) (pass : Nat) (ks : List Nat) : Cluster :=
  ks.foldl (fun c k => (c.modSlot k (fun x => { x with phase := .full, pass := pass })).releaseSlot k) c

/-- The input slots of a task that is over. -/
def Cluster.readDone (c : Cluster) (i pass : Nat) : Cluster := (c.readSlots i pass).foldl Cluster.releaseSlot c

/-- Every slot a task reads is FULL for the pass (R521), every slot it writes is FREE (R517). -/
def Cluster.inputsFull (c : Cluster) (i pass : Nat) : Bool :=
  (c.readSlots i pass).all (fun k => (c.slot k).phase == .full && (c.slot k).pass == pass)
def Cluster.outputsFree (c : Cluster) (i pass : Nat) : Bool := (c.writeSlots i pass).all (fun k => (c.slot k).phase == .free)

/-- Take every slot the task writes. -/
def Cluster.takeSlots (c : Cluster) (i pass : Nat) : Cluster :=
  (c.writeSlots i pass).foldl (fun c k => c.modSlot k (fun x => { x with phase := .taken, pass := pass })) c

/-! ## Fills made ahead (R526 to R530) -/

/-- Index of the haul engine that runs a task (R721 HAUL_STATUS): a core haul of a hung core runs on the standby core's (R857). -/
def State.haulKey (s : State) (c : Nat) (d : Desc) : Nat :=
  c * 65 + (if dKind d = kCoreHaul then (s.cluster c).actingCore (dLcore d) else 64)

/-- What a fill under way has written by the time it is cancelled: a free number of its rows or tiles (R530). -/
def State.partFill (s : State) (c : Nat) (a : Ahead) : State :=
  if a.done then s
  else
    let n := s.freeNat % ((haulUnits (s.cluster c) ((s.cluster c).task a.task) a.pass).length + 1)
    s.takeFree.movePlain c a.task a.pass n

/-- Cancel the fills ahead that a predicate names: what is in flight is written, their slots become FREE and AHEAD_CANCELLED counts each
(R530). -/
def State.cancelAhead (s : State) (c : Nat) (p : Ahead → Bool) : State :=
  let gone := (s.cluster c).ahead.filter p
  if gone.isEmpty then s
  else
    let s := gone.foldl (fun (s : State) a =>
      let d := (s.cluster c).task a.task
      let ks := (s.cluster c).writeSlots a.task a.pass
      ((s.partFill c a).modHaul (s.haulKey c d) (fun h =>
        { h with aheadCancelled := (h.aheadCancelled + 1) % 2 ^ 32,
                 outstanding := if a.done then h.outstanding else h.outstanding - 1 })).modCluster c
        (fun x => x.freeSlots ks)) s
    s.modCluster c (fun x => { x with ahead := x.ahead.filter (fun a => !p a) })

/-- Cancel fills for passes that begin at or after a boundary (R528, R529 first case). -/
def State.cancelFrom (s : State) (c boundary : Nat) : State :=
  s.cancelAhead c (fun a => decide (boundary ≤ s.passStartAt c a.pass))

/-- Banks of a cluster that a task writes. -/
def taskBanks (c : Nat) (x : Cluster) (i pass : Nat) : List Nat :=
  ((writeRegions (x.task i)).flatMap (fun r =>
    let r := x.place pass r
    r.starts.flatMap (fun a => (rowWords a r.len 0).filterMap (fun w => bankOf c r.core w)))).dedup

/-- Cancel fills that write one of the banks, when the change comes at or before their pass (R529 second case). -/
def State.cancelBanks (s : State) (c : Nat) (banks : List Nat) (boundary : Nat) : State :=
  s.cancelAhead c (fun a => decide (boundary ≤ s.passStartAt c a.pass)
    && (taskBanks c (s.cluster c) a.task a.pass).any (fun b => banks.contains b))

/-- Cancel fills that read one of the pages, in every cluster (R529 second case). -/
def State.cancelPages (s : State) (p : Nat → Bool) (boundary : Nat) : State :=
  forEach (List.range 64) s (fun s c =>
    if (s.cluster c).ahead.isEmpty then s else
    s.cancelAhead c (fun a =>
      let d := (s.cluster c).task a.task
      decide (boundary ≤ s.passStartAt c a.pass) && dKind d == kClusterHaul && clDir d == 0 && p (clPage d)))

end Sys2Proof.Machine
end

