-- ==== Sys2Proof/Machine/Parse.lean ====
section
/-! DEFINITION. The 64-byte command (11, Command): opcodes and rings of R699, the layout of PARAMS (R700) both ways, and
reserved fields (R7, R696). -/

namespace Sys2Proof.Machine

/-- Opcode: class * 0x100 + index in the table of R699. -/
def opcodeOf : HostCmd → Nat
  | .devIdentify => 0x0101
  | .devAttest _ => 0x0102
  | .devSessionOpen _ => 0x0103
  | .devSessionClose => 0x0104
  | .devReset => 0x0105
  | .tickSourceSet _ => 0x0201
  | .tickPlanLoad _ => 0x0202
  | .tickPlanArm _ => 0x0203
  | .tickPlanDisarm _ => 0x0204
  | .tickStatus => 0x0205
  | .partnerAttach => 0x0301
  | .partnerModify _ => 0x0302
  | .partnerDetach _ => 0x0303
  | .modelDeclare => 0x0401
  | .modelMapPages _ => 0x0402
  | .slabDress _ => 0x0403
  | .slabPin _ => 0x0404
  | .slabRelease _ => 0x0405
  | .lightStatus => 0x0501
  | .lineAssignSpare _ => 0x0502
  | .lockAcquire _ => 0x0503
  | .engineCalibrate _ => 0x0504
  | .phaseMapLoad _ => 0x0505
  | .bankAssign _ => 0x0601
  | .bankPower _ => 0x0602
  | .pageLoad _ => 0x0603
  | .pageRelease _ => 0x0604
  | .tenantCreate _ => 0x0701
  | .tenantAssign _ _ => 0x0702
  | .tenantStrip _ => 0x0703
  | .keyRotate _ => 0x0704
  | .keyImport _ => 0x0705
  | .powerStateSet _ => 0x0801
  | .powerLimitSet _ => 0x0802
  | .thermalLimitsSet _ => 0x0803
  | .monconvConfigure _ => 0x0901
  | .monconvInject _ => 0x0902
  | .loopWrite _ => 0x0A01
  | .loopFreeze _ => 0x0A02
  | .loopRelease _ => 0x0A03
  | .xtalkLoad _ => 0x0A04
  | .stateRead _ => 0x0B01
  | .stateList _ => 0x0B02
  | .eventRead _ => 0x0B03
  | .faultInject _ => 0x0C01
  | .selftestRun _ => 0x0C02
  | .fwLoadBegin _ => 0x0D01
  | .fwLoadBlock _ => 0x0D02
  | .fwLoadEnd => 0x0D03
  | .domainJoin => 0x0E01
  | .domainLeave => 0x0E02
  | .domainRelay _ => 0x0E03
  | .roleSet _ => 0x0E04

/-- Rings a command may use, by opcode (R699). -/
def ringsOf (op : Nat) : List Ring :=
  if op ∈ [0x0203, 0x0204, 0x0303, 0x0502, 0x0802, 0x0902, 0x0A01, 0x0A02, 0x0A03] then [.urg, .ctl]
  else if op = 0x0205 ∨ op = 0x0501 then [.urg, .ctl, .dia]
  else if op = 0x0B01 then [.ctl, .dia]
  else if op = 0x0B03 then [.urg, .dia]
  else if op ∈ [0x0503, 0x0504, 0x0B02, 0x0C01, 0x0C02] then [.dia]
  else if op ∈ [0x0104, 0x0105, 0x0201, 0x0403, 0x0404, 0x0405, 0x0601, 0x0602, 0x0604, 0x0702, 0x0703, 0x0704, 0x0801,
      0x0803, 0x0901, 0x0E02, 0x0E04] then [.ctl]
  else [.blk]

/-- A field of PARAMS: its bit position from the start of the command, its width, its value. -/
def at_ (byte bit width v : Nat) : Nat := (v % 2 ^ width) <<< (8 * byte + bit)

/-- PARAMS in place in the 512 bits of a command (R700). -/
def paramBits : HostCmd → Nat
  | .devAttest p => at_ 0x10 0 4 p.tenant.toNat + at_ 0x20 0 256 p.nonce.toNat
  | .devSessionOpen t => at_ 0x10 0 4 t.toNat
  | .tickSourceSet p => at_ 0x10 0 3 p.period.toNat + at_ 0x11 0 2 p.nsrc.toNat + at_ 0x12 0 8 p.ptpDomain.toNat
      + at_ 0x14 0 32 p.frameOffset.toNat + at_ 0x18 0 16 p.src0.toNat + at_ 0x1A 0 16 p.src1.toNat
      + at_ 0x1C 0 16 p.src2.toNat
  | .tickPlanLoad p => at_ 0x10 0 64 p.clusters.toNat + at_ 0x18 0 64 p.header.toNat + at_ 0x20 0 7 p.bufCount.toNat
      + at_ 0x22 0 13 p.planCap.toNat
  | .tickPlanArm p => at_ 0x10 0 64 p.clusters.toNat + at_ 0x18 0 1 p.named.toNat + at_ 0x19 0 8 p.tick.toNat
      + at_ 0x1A 0 10 p.frame.toNat + at_ 0x1C 0 32 p.armGen.toNat
  | .tickPlanDisarm c => at_ 0x10 0 64 c.toNat
  | .partnerModify p => at_ 0x10 0 17 p.index.toNat + at_ 0x10 17 1 p.resume.toNat
  | .partnerDetach i => at_ 0x10 0 17 i.toNat
  | .modelMapPages p => at_ 0x10 0 16 p.model.toNat + at_ 0x12 0 13 p.count.toNat
  | .slabDress p => at_ 0x10 0 14 p.slab.toNat + at_ 0x12 0 16 p.seamThresh.toNat + at_ 0x14 0 32 p.redressAge.toNat
      + at_ 0x18 0 64 p.tileId.toNat + at_ 0x20 0 16 p.model.toNat
  | .slabPin k => at_ 0x10 0 14 k.toNat
  | .slabRelease k => at_ 0x10 0 14 k.toNat
  | .lineAssignSpare p => at_ 0x10 0 1 p.cart.toNat + at_ 0x10 1 1 p.switch.toNat + at_ 0x10 2 2 p.policy.toNat
      + at_ 0x11 0 6 p.line.toNat + at_ 0x12 0 10 p.frame.toNat + at_ 0x14 0 8 p.tick.toNat
  | .lockAcquire p => at_ 0x10 0 13 p.first.toNat + at_ 0x12 0 13 p.count.toNat
  | .engineCalibrate e => at_ 0x10 0 6 e.toNat
  | .phaseMapLoad n => at_ 0x10 0 5 n.toNat
  | .bankAssign p => at_ 0x10 0 6 p.cluster.toNat + at_ 0x11 0 8 p.mem.toNat + at_ 0x14 0 32 p.mask.toNat
      + at_ 0x18 0 3 p.owner.toNat + at_ 0x19 0 6 p.ownerCore.toNat
  | .bankPower p => at_ 0x10 0 6 p.cluster.toNat + at_ 0x11 0 8 p.mem.toNat + at_ 0x14 0 32 p.mask.toNat
      + at_ 0x18 0 2 p.power.toNat
  | .pageLoad p => at_ 0x10 0 17 p.page.toNat + at_ 0x14 0 2 p.kind.toNat + at_ 0x14 2 2 p.source.toNat
      + at_ 0x18 0 23 p.pageOfs.toNat + at_ 0x1C 0 24 p.length.toNat + at_ 0x20 0 17 p.partner.toNat
  | .pageRelease p => at_ 0x10 0 17 p.page.toNat + at_ 0x14 0 17 p.count.toNat
  | .tenantCreate t => at_ 0x10 0 4 t.toNat
  | .tenantAssign c t => at_ 0x10 0 64 c.toNat + at_ 0x18 0 4 t.toNat
  | .tenantStrip p => at_ 0x10 0 64 p.clusters.toNat + at_ 0x18 0 4 p.tenant.toNat + at_ 0x18 4 1 p.delete.toNat
  | .keyRotate t => at_ 0x10 0 4 t.toNat
  | .keyImport p => at_ 0x10 0 12 p.ca.toNat + at_ 0x12 0 6 p.cknLen.toNat
  | .powerStateSet st => at_ 0x10 0 3 st.toNat
  | .powerLimitSet p => at_ 0x10 0 16 p.pwr.toNat + at_ 0x12 0 16 p.iin.toNat
  | .thermalLimitsSet l => ((List.range 7).map (fun k => at_ (0x10 + 2 * k) 0 16 (nth 0 l k).toNat)).foldl (· + ·) 0
  | .monconvConfigure p => at_ 0x10 0 2 p.mc.toNat + at_ 0x10 2 1 p.refmode.toNat + at_ 0x10 3 1 p.continuous.toNat
      + at_ 0x14 0 32 p.scanMask.toNat
  | .monconvInject p => at_ 0x10 0 2 p.mc.toNat + at_ 0x11 0 5 p.channel.toNat
  | .loopWrite p => at_ 0x10 0 13 p.loop.toNat + at_ 0x12 0 5 p.offset.toNat + at_ 0x14 0 32 p.value.toNat
  | .loopFreeze p => at_ 0x10 0 13 p.first.toNat + at_ 0x12 0 13 p.count.toNat
  | .loopRelease p => at_ 0x10 0 13 p.first.toNat + at_ 0x12 0 13 p.count.toNat
  | .xtalkLoad p => at_ 0x10 0 1 p.die.toNat + at_ 0x10 1 1 p.commit.toNat + at_ 0x12 0 12 p.first.toNat
      + at_ 0x14 0 12 p.count.toNat
  | .stateRead p => at_ 0x10 0 16 p.cls.toNat + at_ 0x12 0 1 p.clear.toNat + at_ 0x14 0 32 p.index.toNat
      + at_ 0x18 0 16 p.count.toNat + at_ 0x1C 0 32 p.offset.toNat + at_ 0x20 0 32 p.length.toNat
  | .stateList p => at_ 0x10 0 16 p.cls.toNat + at_ 0x14 0 32 p.start.toNat + at_ 0x18 0 16 p.max.toNat
  | .eventRead m => at_ 0x10 0 11 m.toNat
  | .faultInject p => at_ 0x10 0 8 p.kind.toNat + at_ 0x14 0 32 p.target.toNat + at_ 0x18 0 32 p.holdUs.toNat
  | .selftestRun p => at_ 0x10 0 8 p.test.toNat + at_ 0x14 0 32 p.target.toNat
  | .fwLoadBegin n => at_ 0x10 0 32 n.toNat
  | .fwLoadBlock o => at_ 0x10 0 32 o.toNat
  | .domainRelay w => at_ 0x10 0 8 w.toNat
  | .roleSet m => at_ 0x10 0 1 m.toNat
  | _ => 0

/-- A field read back from the 512 bits of a command. -/
def rd (v byte bit n : Nat) : BitVec n := BitVec.ofNat n (v >>> (8 * byte + bit))
def rdB (v byte bit : Nat) : Bool := bitAt v (8 * byte + bit)

/-- The command that an opcode and its PARAMS spell (R699, R700); `none` for an unknown opcode. -/
def parseCmd (op v : Nat) : Option HostCmd :=
  match op with
  | 0x0101 => some .devIdentify
  | 0x0102 => some (.devAttest { tenant := rd v 0x10 0 4, nonce := rd v 0x20 0 256 })
  | 0x0103 => some (.devSessionOpen (rd v 0x10 0 4))
  | 0x0104 => some .devSessionClose
  | 0x0105 => some .devReset
  | 0x0201 => some (.tickSourceSet
      { period := rd v 0x10 0 3, nsrc := rd v 0x11 0 2, ptpDomain := rd v 0x12 0 8,
        frameOffset := rd v 0x14 0 32, src0 := rd v 0x18 0 16, src1 := rd v 0x1A 0 16, src2 := rd v 0x1C 0 16 })
  | 0x0202 => some (.tickPlanLoad
      { clusters := rd v 0x10 0 64, header := rd v 0x18 0 64, bufCount := rd v 0x20 0 7,
        planCap := rd v 0x22 0 13 })
  | 0x0203 => some (.tickPlanArm
      { clusters := rd v 0x10 0 64, named := rdB v 0x18 0, tick := rd v 0x19 0 8,
        frame := rd v 0x1A 0 10, armGen := rd v 0x1C 0 32 })
  | 0x0204 => some (.tickPlanDisarm (rd v 0x10 0 64))
  | 0x0205 => some .tickStatus
  | 0x0301 => some .partnerAttach
  | 0x0302 => some (.partnerModify { index := rd v 0x10 0 17, resume := rdB v 0x10 17 })
  | 0x0303 => some (.partnerDetach (rd v 0x10 0 17))
  | 0x0401 => some .modelDeclare
  | 0x0402 => some (.modelMapPages { model := rd v 0x10 0 16, count := rd v 0x12 0 13 })
  | 0x0403 => some (.slabDress
      { slab := rd v 0x10 0 14, seamThresh := rd v 0x12 0 16, redressAge := rd v 0x14 0 32,
        tileId := rd v 0x18 0 64, model := rd v 0x20 0 16 })
  | 0x0404 => some (.slabPin (rd v 0x10 0 14))
  | 0x0405 => some (.slabRelease (rd v 0x10 0 14))
  | 0x0501 => some .lightStatus
  | 0x0502 => some (.lineAssignSpare
      { cart := rdB v 0x10 0, switch := rdB v 0x10 1, policy := rd v 0x10 2 2,
        line := rd v 0x11 0 6, frame := rd v 0x12 0 10, tick := rd v 0x14 0 8 })
  | 0x0503 => some (.lockAcquire { first := rd v 0x10 0 13, count := rd v 0x12 0 13 })
  | 0x0504 => some (.engineCalibrate (rd v 0x10 0 6))
  | 0x0505 => some (.phaseMapLoad (rd v 0x10 0 5))
  | 0x0601 => some (.bankAssign
      { cluster := rd v 0x10 0 6, mem := rd v 0x11 0 8, mask := rd v 0x14 0 32,
        owner := rd v 0x18 0 3, ownerCore := rd v 0x19 0 6 })
  | 0x0602 => some (.bankPower
      { cluster := rd v 0x10 0 6, mem := rd v 0x11 0 8, mask := rd v 0x14 0 32,
        power := rd v 0x18 0 2 })
  | 0x0603 => some (.pageLoad
      { page := rd v 0x10 0 17, kind := rd v 0x14 0 2, source := rd v 0x14 2 2,
        pageOfs := rd v 0x18 0 23, length := rd v 0x1C 0 24, partner := rd v 0x20 0 17 })
  | 0x0604 => some (.pageRelease { page := rd v 0x10 0 17, count := rd v 0x14 0 17 })
  | 0x0701 => some (.tenantCreate (rd v 0x10 0 4))
  | 0x0702 => some (.tenantAssign (rd v 0x10 0 64) (rd v 0x18 0 4))
  | 0x0703 => some (.tenantStrip { clusters := rd v 0x10 0 64, tenant := rd v 0x18 0 4, delete := rdB v 0x18 4 })
  | 0x0704 => some (.keyRotate (rd v 0x10 0 4))
  | 0x0705 => some (.keyImport { ca := rd v 0x10 0 12, cknLen := rd v 0x12 0 6 })
  | 0x0801 => some (.powerStateSet (rd v 0x10 0 3))
  | 0x0802 => some (.powerLimitSet { pwr := rd v 0x10 0 16, iin := rd v 0x12 0 16 })
  | 0x0803 => some (.thermalLimitsSet ((List.range 7).map (fun k => rd v (0x10 + 2 * k) 0 16)))
  | 0x0901 => some (.monconvConfigure
      { mc := rd v 0x10 0 2, refmode := rdB v 0x10 2, continuous := rdB v 0x10 3,
        scanMask := rd v 0x14 0 32 })
  | 0x0902 => some (.monconvInject { mc := rd v 0x10 0 2, channel := rd v 0x11 0 5 })
  | 0x0A01 => some (.loopWrite { loop := rd v 0x10 0 13, offset := rd v 0x12 0 5, value := rd v 0x14 0 32 })
  | 0x0A02 => some (.loopFreeze { first := rd v 0x10 0 13, count := rd v 0x12 0 13 })
  | 0x0A03 => some (.loopRelease { first := rd v 0x10 0 13, count := rd v 0x12 0 13 })
  | 0x0A04 => some (.xtalkLoad
      { die := rdB v 0x10 0, commit := rdB v 0x10 1, first := rd v 0x12 0 12,
        count := rd v 0x14 0 12 })
  | 0x0B01 => some (.stateRead
      { cls := rd v 0x10 0 16, clear := rdB v 0x12 0, index := rd v 0x14 0 32,
        count := rd v 0x18 0 16, offset := rd v 0x1C 0 32, length := rd v 0x20 0 32 })
  | 0x0B02 => some (.stateList { cls := rd v 0x10 0 16, start := rd v 0x14 0 32, max := rd v 0x18 0 16 })
  | 0x0B03 => some (.eventRead (rd v 0x10 0 11))
  | 0x0C01 => some (.faultInject { kind := rd v 0x10 0 8, target := rd v 0x14 0 32, holdUs := rd v 0x18 0 32 })
  | 0x0C02 => some (.selftestRun { test := rd v 0x10 0 8, target := rd v 0x14 0 32 })
  | 0x0D01 => some (.fwLoadBegin (rd v 0x10 0 32))
  | 0x0D02 => some (.fwLoadBlock (rd v 0x10 0 32))
  | 0x0D03 => some .fwLoadEnd
  | 0x0E01 => some .domainJoin
  | 0x0E02 => some .domainLeave
  | 0x0E03 => some (.domainRelay (rd v 0x10 0 8))
  | 0x0E04 => some (.roleSet (rdB v 0x10 0))
  | _ => none

/-- Parameter fields of a command that are 'unchanged' or longer by themselves have no reserved bits beyond these. -/
def paramsReserved (c : HostCmd) (v : Nat) : Nat := (v >>> 128) ^^^ (paramBits c >>> 128)

/-- The 64 bytes of a command (11, Command). -/
def cmdBytes (h : CmdHdr) (c : HostCmd) : List Byte :=
  toLe 64 (opcodeOf c + (h.id.toNat <<< 32) + (h.bulk.length % 2 ^ 32) <<< 64 + paramBits c)

/-- Byte of the lowest bit set; the offset DETAIL gives for a reserved field (R694; assumption 12). -/
def lowByte : Nat → Nat → Nat
  | 0, _ => 0
  | n + 1, v => if v % 256 = 0 then 1 + lowByte n (v / 256) else 0

/-- Check 1 of R696 on a command's 64 bytes: unknown opcode or wrong ring, then reserved fields. Answers the command or
the byte offset at fault. -/
def checkBytes (r : Ring) (bytes : List Byte) : Except Nat HostCmd :=
  let v := leNat bytes
  let op := field v 0 16
  match parseCmd op v with
  | none => .error 0
  | some c =>
    if !(ringsOf op).contains r then .error 0
    else if field v 16 16 ≠ 0 then .error 2
    else if r ≠ .blk ∧ field v 64 32 ≠ 0 then .error 8
    else if field v 96 32 ≠ 0 then .error 12
    else if paramsReserved c v ≠ 0 then .error (0x10 + lowByte 48 (paramsReserved c v))
    else .ok c

/-- Completion in clear whatever the session (R699, R711, R716). -/
def clearCpl (op : Nat) : Bool := op == 0x0103 || op == 0x0105 || op == 0x0D01 || op == 0x0D03

/-! ## Authority (R635, R636) -/

/-- Commands accepted on any session and in clear. -/
def anySession (op : Nat) : Bool := op == 0x0101 || op == 0x0102 || op == 0x0103

/-- Commands accepted on every session. -/
def ownSession (op : Nat) : Bool := op == 0x0104 || op == 0x0205 || op == 0x0B01 || op == 0x0B02 || op == 0x0B03

/-- Commands of the owning tenant's session: plans, partners, models, memory and keys (R636). -/
def tenantCmd (op : Nat) : Bool :=
  op == 0x0202 || op == 0x0203 || op == 0x0204 || op / 256 == 3 || op / 256 == 4 || op / 256 == 6 || op == 0x0704
    || op == 0x0705

/-- Tenant of a loop's resource: the cluster of an optical engine's or router's ring, else the module's (tenant 0). -/
def loopCluster (k : Nat) : Option Nat :=
  let d := k / 2560
  let l := k % 2560
  if 5120 ≤ k then none
  else if l < 2112 then some (d * 32 + l / 66)
  else if l < 2368 then some (d * 32 + (l - 2112) / 8)
  else none

/-- Clusters named by a command's parameters or its bulk. -/
def namedClusters (h : CmdHdr) : HostCmd → List Nat
  | .tickPlanLoad p => maskBits p.clusters
  | .tickPlanArm p => maskBits p.clusters
  | .tickPlanDisarm c => maskBits c
  | .modelDeclare => maskBits (BitVec.ofNat 64 (leNat ((h.bulk.drop 8).take 8)))
  | .slabDress p => [slabCluster p.slab.toNat]
  | .slabPin k => [slabCluster k.toNat]
  | .slabRelease k => [slabCluster k.toNat]
  | .bankAssign p => [p.cluster.toNat]
  | .bankPower p => [p.cluster.toNat]
  | _ => []


/-- Injected faults and self-tests may name resources of tenant 0 only (R636). -/
def diagCluster (kind target : Nat) : Option Nat :=
  match kind with
  | 2 => loopCluster target
  | 3 => some (slabCluster (target / 272))
  | 4 => some (target / 64)
  | _ => none

def selftestCluster (test target : Nat) : Option Nat :=
  match test with
  | 1 => some (target / 544)
  | 2 => some (slabCluster target)
  | 3 => some target
  | 4 => if target < 294912 then some (slabCluster (target / 18))
    else if target < 299136 then some ((target - 294912) / 66) else none
  | _ => none

end Sys2Proof.Machine
end

