-- ==== Sys2Proof/Machine/TopRegion.lean ====
section
/-! DEFINITION. The reserved top of cluster memory (R463): the scale table from OWNER_TOP up (R422, R423) and the two plan buffers
above it (R68), whose words share the banks' power (R478, R480). -/

namespace Sys2Proof.Machine

/-- Scale table entry (R423). -/
def Scale.entry (x : Scale) : Nat :=
  fld 0 32 x.scale.toNat + fld 32 5 x.hist + fld 40 1 (b2n x.tgt) + fld 64 32 x.obs.toNat + fld 96 5 x.history.length

/-- The entry that 16 bytes give to one with this history. Every SCALE is positive and finite at every moment (R881). DESIGN CHOICE: one
whose words read otherwise, its bank having lost them, keeps its value (assumption 103). -/
def Scale.ofBytes (x : Scale) (l : List Byte) : Scale :=
  let v := leNat l
  { scale := if (fpDecode 9 (v % 2 ^ 32)).positive then BitVec.ofNat 32 v else x.scale, hist := field v 32 5, tgt := bitAt v 40
    obs := BitVec.ofNat 32 (field v 64 32), history := x.history.take (field v 96 5) }

/-- Offset in cluster memory of entry `n` of the scale table, and of a plan buffer. -/
def Cluster.scaleAt (x : Cluster) (n : Nat) : Nat := x.top - 0x100000 + 16 * n
def Cluster.bufferAt (x : Cluster) (second : Bool) : Nat := 0x100000 - 128 * x.planCap + (if second then 64 * x.planCap else 0)

def Plan.descBytes (p : Plan) : List Byte := p.tasks.flatMap (fun d => toLe 64 d.toNat)

/-- The descriptors of the shadow plan stand in the buffer that is not active. -/
def State.putPlan (s : State) (c : Nat) : State :=
  match (s.cluster c).shadow with
  | some p => s.store (cmKey c ((s.cluster c).bufferAt !(s.cluster c).activeBuf)) p.descBytes
  | none => s

/-- An entry of the scale table stands in cluster memory. -/
def State.putScale (s : State) (c n : Nat) : State :=
  s.store (cmKey c ((s.cluster c).scaleAt n)) (toLe 16 (tabGet Scale.init (s.cluster c).scales n).entry)

/-- The whole table stands at its OWNER_TOP. -/
def State.putScales (s : State) (c : Nat) : State := forEach (List.range (s.cluster c).scaleCount) s (fun s n => s.putScale c n)

/-- Plan with the descriptors that a buffer of `l` holds. -/
def Plan.reread (l : Nat → List Byte) (p : Plan) : Plan := { p with tasks := takeDescs p.tasks.length (l (64 * p.tasks.length)) }

/-- The plans and the scale table are what their words hold, once a bank has lost its own (R478, R480). -/
def State.rereadTop (s : State) (c : Nat) : State :=
  let x := s.cluster c
  let buf (b : Bool) (n : Nat) : List Byte := s.bytes (cmKey c (x.bufferAt b)) n
  s.modCluster c (fun x => { x with
    active := x.active.map (Plan.reread (buf x.activeBuf)), shadow := x.shadow.map (Plan.reread (buf !x.activeBuf))
    scales := (List.range x.scaleCount).foldl (fun t n =>
      tabSet Scale.init t n ((tabGet Scale.init t n).ofBytes (s.bytes (cmKey c (x.scaleAt n)) 16))) x.scales })

end Sys2Proof.Machine
end

