-- ==== Sys2Proof/Machine/CmdTick.lean ====
section
/-! DEFINITION. The tick commands of the mailbox: TICK_SOURCE_SET, TICK_PLAN_LOAD, TICK_PLAN_ARM, TICK_PLAN_DISARM and
TICK_STATUS (02, R699 to R702). -/

namespace Sys2Proof.Machine

/-- An active plan, or an armed one (R62, R69). The implicit zero-task plan is not an active plan (R81). -/
def Cluster.busy (c : Cluster) : Bool := c.active.isSome || c.armed.isSome

/-- An active or armed RT plan (R62). -/
def Cluster.busyRt (c : Cluster) : Bool :=
  (match c.active with | some p => !hdrBatch p.header | none => false)
    || (c.armed.isSome && (match c.shadow with | some p => !hdrBatch p.header | none => false))

def anyCluster (p : Nat → Bool) : Bool := (List.range 64).any p

/-! ## TICK_SOURCE_SET (R47, R50, R62, R554, R870) -/

def srcKind (v : Half) : Nat := field v.toNat 0 8
def srcPort (v : Half) : Nat := field v.toNat 8 4

def srcsOf (p : TickSourceParams) : List Half := [p.src0, p.src1, p.src2].take p.nsrc.toNat

/-- The same source: the same kind, and for PTP the same port (R50). -/
def sameSource (a b : Half) : Bool := srcKind a == srcKind b && (srcKind a != 0 || srcPort a == srcPort b)

/-- First listed source that the module refuses: a reserved kind, RELAY on a manager, or one named before (R50). -/
def badSource (manager : Bool) (l : List Half) : Option Nat :=
  ((indexed l).find? (fun x => decide (2 < srcKind x.2) || (manager && srcKind x.2 == 2)
    || (l.take x.1).any (fun y => sameSource y x.2))).map (fun x => x.1)

def mkSource (v : Half) : TickSource :=
  { kind := if srcKind v = 0 then .ptp else if srcKind v = 1 then .tickIn else .relay, port := srcPort v,
    dst := bitAt v.toNat 12, qualified := false, run := 0, since := 0, last := none, zero := none }

/-- An ACTIVE partner of kind FRONTHAUL exists (R554). -/
def State.fronthaulActive (s : State) : Bool :=
  s.fabric.partners.any (fun x => field x.2.toNat 0 2 == 1 && field x.2.toNat 4 2 == 0)

/-- Replace the source list and move the grids (R54, R870). DESIGN CHOICE: an arm or switch-in that names a FRAME and TICK keeps the
TIME_NS that this name had before the grid moved (assumption 33). -/
def State.setSources (s : State) (p : TickSourceParams) : State :=
  let t := s.time
  let ofs := p.frameOffset.toNat
  let moved := p.period.toNat ≠ t.period ∨ ofs ≠ t.frameOffset
  let oldEnd := t.tickEnd
  let oldEpoch := t.epochEnd s.timeNat
  let t1 := { t with
    period := p.period.toNat, frameOffset := ofs,
    ptpDomain := if p.ptpDomain = 0 then 24 else p.ptpDomain.toNat, sources := (srcsOf p).map mkSource,
    srcState := if t.srcState = .held then .held else .acquiring, srcIndex := 0, frame0 := false, slew := 0, lostAt := none
    epoch := s.epochNow }
  let s := s.modRelay (fun r => { r with heldFrom := .acquiring })
  if !moved then { s with time := t1 }
  else
    let newEnd := t1.nextGrid (periodNs t1.period) oldEnd
    let newEpoch := (-(-((oldEpoch : Int) - ofs) / 10000) * 10000 + ofs).toNat
    let s1 := { s with time := { t1 with tickNotBefore := newEnd, epochNotBefore := newEpoch } }
    if oldEnd < newEnd then s1.phaseJump ((newEnd : Int) - oldEnd) else s1

/-- Extend MR_CFG with the command and its bulk (R625). -/
def State.extendCfg (s : State) (h : CmdHdr) (c : HostCmd) : State :=
  { s with trust := { s.trust with mrCfg := extend s.trust.mrCfg (cmdBytes h c ++ h.bulk) } }

def cmdTickSourceSet (h : CmdHdr) (p : TickSourceParams) (s : State) : Answer :=
  if 4 < p.period.toNat then Answer.errD s stInvalid 0x10
  else if p.ptpDomain ≠ 0 ∧ (p.ptpDomain.toNat < 24 ∨ 43 < p.ptpDomain.toNat) then Answer.errD s stInvalid 0x12
  else if 9999999 < p.frameOffset.toNat then Answer.errD s stInvalid 0x14
  else match badSource s.mbx.manager (srcsOf p) with
  | some i => Answer.errD s stInvalid (0x18 + 2 * i)
  | none =>
    if p.period.toNat ≠ s.time.period ∧ (anyCluster (fun c => (s.cluster c).busyRt) || s.fronthaulActive) then
      Answer.err s stConflict
    else Answer.ok ((s.setSources p).extendCfg h (.tickSourceSet p))

/-! ## TICK_PLAN_LOAD -/

def planCapOk (p : PlanLoadParams) : Bool :=
  p.planCap = 0 || (p.planCap.toNat % 64 == 0 && decide (p.planCap.toNat ≤ 4096))

/-- PLAN_CAP of a cluster after the load (R70, R71). -/
def capAfter (p : PlanLoadParams) (c : Cluster) : Nat := if p.planCap = 0 then c.planCap else p.planCap.toNat

/-- Clusters for which a plan is checked: those named, or, of a load that names none, 64, which is no cluster: the plan's own
rules hold all the same (R74, R872), against a memory with no reserved top. -/
def checkedClusters (p : PlanLoadParams) : List Nat := if (maskBits p.clusters).isEmpty then [64] else maskBits p.clusters

/-- OWNER_TOP of a cluster after the load (R70, R463). -/
def State.loadTop (s : State) (p : PlanLoadParams) (c : Nat) : Nat :=
  let x := s.cluster c
  if c = 64 then 0x200000 else ownerTop (if (maskBits p.clusters).contains c then capAfter p x else x.planCap) x.scaleCount

/-- The first answer over the named clusters. -/
def firstOf (l : List Nat) (f : Nat → Option (Nat × Nat)) : Option (Nat × Nat) := l.findSome? f

/-- Write the shadow buffer of a cluster; a change of PLAN_CAP moves OWNER_TOP (R70), and the scale table with it. -/
def loadCluster (p : PlanLoadParams) (plan : Plan) (x : Cluster) : Cluster :=
  { x with planCap := capAfter p x, shadow := some plan }

def State.loadShadow (s : State) (p : PlanLoadParams) (plan : Plan) (c : Nat) : State :=
  let t := s.modCluster c (loadCluster p plan)
  (if capAfter p (s.cluster c) = (s.cluster c).planCap then t else t.putScales c).putPlan c

def cmdTickPlanLoad (h : CmdHdr) (p : PlanLoadParams) (s : State) : Answer :=
  let n := hdrCount p.header
  let cs := maskBits p.clusters
  let plan : Plan := { header := p.header, tasks := takeDescs n h.bulk, bufs := takeBufs p.bufCount.toNat (h.bulk.drop (64 * n)) }
  if 4096 < n then Answer.errD s stInvalidLength 0x1C
  else if 64 < p.bufCount.toNat then Answer.errD s stInvalidLength 0x20
  else if h.bulk.length ≠ 64 * n + 16 * p.bufCount.toNat then Answer.errD s stInvalidLength 0x08
  else match planReserved plan.tasks plan.bufs with
  | some o => Answer.errD s stInvalid o
  | none => match firstOf (checkedClusters p) (fun c => planLengths c (s.loadTop p) plan) with
  | some x => Answer.errD s x.1 x.2
  | none =>
    if !planCapOk p then Answer.errD s stInvalid 0x22
    else if cs.any (fun c => decide (capAfter p (s.cluster c) ≠ (s.cluster c).planCap) && (s.cluster c).busy) then
      Answer.err s stConflict
    else if cs.any (fun c => decide (capAfter p (s.cluster c) < n)) then Answer.err s stNoSpace
    else match firstOf (checkedClusters p) (fun c => planRules c plan) with
    | some x => Answer.errD s x.1 x.2
    | none =>
      if cs.any (fun c => (s.cluster c).armed.isSome) then Answer.err s stConflict
      else if cs.any (fun c => !s.banksUp c 0xFF 0x100000 (64 * n)) then Answer.err s stNotReady
      else Answer.ok (forEach cs s (fun s c => s.loadShadow p plan c))

/-! ## TICK_PLAN_ARM (R61, R75 to R78, R82, R172, R702, R860, R873) -/

/-- TIME_NS of the first occurrence of a frame and tick after a time (R702). -/
def TimeState.occurrence (t : TimeState) (frame tick now : Nat) : Nat :=
  let cycle : Nat := 1024 * frameNs
  let ofs := frame * frameNs + tick * periodNs t.period
  let base : Int := (t.frameOffset : Int) + ofs
  (base + (((now : Int) - base) / cycle + 1) * cycle).toNat

/-- Item of MR_PLAN for a cluster (R625). -/
def planItem (c : Nat) (p : Plan) : List Byte :=
  BitVec.ofNat 8 c :: toLe 8 p.header.toNat ++ p.tasks.flatMap (fun d => toLe 64 d.toNat)
    ++ p.bufs.flatMap (fun b => toLe 16 b.toNat)

/-- A slab is BLANK or not BOUND (R172, R173). -/
def Slab.noTile (x : Slab) : Bool := x.dress == .blank || !x.bound

/-- A SLAB_MVM of the plan names a slab that is BLANK or not BOUND (R172). -/
def State.planNoTile (s : State) (c : Nat) (p : Plan) : Bool :=
  p.tasks.any (fun d => dKind d == kSlab && (smSlabs d).any (fun i => (s.slab ((c * 64 + dLcore d) * 4 + i)).noTile))

/-- STANDBY_CORE names a hung core or a core that acts for one (R860). -/
def Cluster.standbyBad (c : Cluster) (p : Plan) : Bool :=
  let k := hdrStandby p.header
  c.hung.any (fun x => decide (x.1 = k) || x.2 == some k)

/-- First check that an arm fails on a cluster. -/
def State.armCheck (s : State) (c : Nat) : Option Nat :=
  let x := s.cluster c
  match x.shadow with
  | none => some stNotReady
  | some p =>
    if !hdrBatch p.header ∧ (s.time.srcState = .free ∨ s.time.srcState = .acquiring) then some stNotReady
    else if hdrPeriod p.header ≠ s.time.period then some stConflict
    else if x.armed.isSome then some stConflict
    else if x.standbyBad p then some stConflict
    else if s.planNoTile c p then some stNotReady
    else none

/-- The boundary an arm names, or `none` where it is too close or counts as passed (R77, R78, R82, R702). -/
def State.armTarget (s : State) (p : PlanArmParams) : Option ArmTarget :=
  let t := s.time.occurrence p.frame.toNat p.tick.toNat s.timeNat
  if p.named then
    if t < s.timeNat + Config.leadNs ∨ s.timeNat + 5120000000 < t then none
    else if p.armGen ≠ 0 ∧ !s.mbx.manager then some (.gen p.armGen) else some (.named t p.armGen)
  else if p.armGen ≠ 0 ∧ !s.mbx.manager then some (.gen p.armGen)
  else some (.next s.leadFrom p.armGen)

/-- Clock of the earliest boundary at which the arm may swap. DESIGN CHOICE: a worker's arm by domain generation counts from the next
boundary on (assumption 43). -/
def State.armClock (s : State) : ArmTarget → Nat
  | .next nb _ => s.boundaryAt nb
  | .named t _ => s.now + (t - s.timeNat)
  | .gen _ => s.nextBoundary

/-- Arm one cluster: mark the shadow buffer, cancel the fills of passes it takes over (R83, R529). -/
def State.armCluster (s : State) (t : ArmTarget) (c : Nat) : State :=
  let b := s.armClock t
  (s.cancelFrom c b).modCluster c (fun x => { x with armed := some t })

/-- Extend MR_PLAN of each tenant with its clusters' armed plans, in ascending cluster order (R625). -/
def State.extendPlans (s : State) (cs : List Nat) : State :=
  let ts := (cs.map (fun c => (s.cluster c).tenant)).dedup
  ts.foldl (fun (s : State) t =>
    let item := (cs.filter (fun c => (s.cluster c).tenant == t)).flatMap (fun c =>
      match (s.cluster c).shadow with
      | some p => planItem c p
      | none => [])
    { s with trust := { s.trust with mrPlan := tabSet 0 s.trust.mrPlan t (extend (tabGet 0 s.trust.mrPlan t) item) } }) s

def cmdTickPlanArm (_h : CmdHdr) (p : PlanArmParams) (s : State) : Answer :=
  let cs := maskBits p.clusters
  if p.named ∧ ticksPerFrame s.time.period ≤ p.tick.toNat then Answer.errD s stInvalid 0x19
  else match cs.findSome? s.armCheck with
  | some st => Answer.err s st
  | none => match s.armTarget p with
    | none => Answer.err s stTimeout
    | some t =>
      if cs.isEmpty then Answer.ok s
      else Answer.ok ((forEach cs s (fun s c => s.armCluster t c)).extendPlans cs)

/-! ## TICK_PLAN_DISARM (R80) -/

/-- The clock from which a disarm now ends the cluster's plan: that of a disarm that waits already stays. -/
def State.disarmFrom (s : State) (c : Nat) : Nat := (s.cluster c).disarm.getD s.leadFrom

/-- Cancel the swap of an armed cluster; otherwise the cluster runs the zero-task plan from a boundary on. -/
def State.disarmCluster (s : State) (c : Nat) : State :=
  let n := s.disarmFrom c
  if (s.cluster c).armed.isSome then s.modCluster c (fun x => { x with armed := none })
  else (s.cancelFrom c (s.boundaryAt n)).modCluster c (fun x => { x with disarm := some n })

def cmdTickPlanDisarm (_h : CmdHdr) (clusters : Dword) (s : State) : Answer :=
  Answer.ok (forEach (maskBits clusters) s (fun s c => s.disarmCluster c))

/-! ## TICK_STATUS -/

def cmdTickStatus (_h : CmdHdr) (s : State) : Answer := Answer.okR s s.tickResult

end Sys2Proof.Machine
end

