-- ==== Sys2Proof/Machine/FabricBase.lean ====
section
/-! DEFINITION. The partner table (R585 to R597), port assignment (R541), capacity and shedding (R591, R592), and frames
that leave the module (R575, R578, R610). -/

namespace Sys2Proof.Machine

/-! ## Partner context entry (R585) -/

abbrev Entry := BitVec 512

def peState (x : Entry) : Nat := field x.toNat 0 2
def peClass (x : Entry) : Nat := field x.toNat 2 2
def peKind (x : Entry) : Nat := field x.toNat 4 2
def peTenant (x : Entry) : Nat := field x.toNat 8 4
def peCluster (x : Entry) : Nat := field x.toNat 16 6
def pePort (x : Entry) : Nat := field x.toNat 24 5
def peBw (x : Entry) : Nat := field x.toNat 32 16
def peLoad (x : Entry) : Nat := field x.toNat 48 11
def peAdmit (x : Entry) : Nat := field x.toNat 64 64
def peMac (x : Entry) : Nat := field x.toNat 128 48
def peVlan (x : Entry) : Nat := field x.toNat 176 12
def peVlanOn (x : Entry) : Bool := bitAt x.toNat 188
def pePcp (x : Entry) : Nat := field x.toNat 189 3
def peCa (x : Entry) : Nat := field x.toNat 192 12
def peLandBase (x : Entry) : Nat := field x.toNat 224 32
/-- FRONTHAUL. -/
def peEaxc (x : Entry) : Nat := field x.toNat 256 16
def peStreams (x : Entry) : Nat := field x.toNat 272 5
def peLandSlots (x : Entry) : Nat := field x.toNat 280 4
def pePrbFirst (x : Entry) : Nat := field x.toNat 288 9
def pePrbCount (x : Entry) : Nat := field x.toNat 304 9
def peTensor (x : Entry) : Nat := field x.toNat 320 24
def peScale (x : Entry) : Nat := field x.toNat 352 16
def peCompHdr (x : Entry) : Bool := bitAt x.toNat 368
/-- SESSION and PEER. -/
def peRemoteModule (x : Entry) : Nat := field x.toNat 256 8
def peRemotePartner (x : Entry) : Nat := field x.toNat 288 17
def peLandBytes (x : Entry) : Nat := field x.toNat 320 32
def peReliable (x : Entry) : Bool := bitAt x.toNat 352
def peWindow (x : Entry) : Nat := field x.toNat 368 16

def psFree : Nat := 0
def psActive : Nat := 1
def psShed : Nat := 2
def pkFronthaul : Nat := 0
def pkSession : Nat := 1
def pkPeer : Nat := 2
def pkHost : Nat := 3

/-- Replace a field of an entry. -/
def putField (x : Entry) (lo n v : Nat) : Entry :=
  BitVec.ofNat 512 (x.toNat - field x.toNat lo n <<< lo + (v % 2 ^ n) <<< lo)

/-- Reserved bits of an entry by kind. -/
def peReserved (kind : Nat) : Nat :=
  let common : Nat := 0xC0 + 0xF0 <<< 8 + 0xC0 <<< 16 + 0xE0 <<< 24 + 0xF800 <<< 48 + 0xFFFFF000 <<< 192
  common + (match kind with
    | 0 => 0xE0 <<< 272 + 0xF0 <<< 280 + 0xFE00 <<< 288 + 0xFE00 <<< 304 + 0xFF000000 <<< 320 + 0xFFFE <<< 368
        + (2 ^ 128 - 1) <<< 384
    | 3 => (2 ^ 256 - 1) <<< 256
    | _ => 0xFFFFFF <<< 264 + 0xFFFE0000 <<< 288 + 0xFFFE <<< 352 + (2 ^ 128 - 1) <<< 384)

/-- The die stack, and the aggregation group, of a cluster (R539, R541). -/
def groupOf (cluster : Nat) : Nat := cluster / 32

/-- Bytes of one landing slot of a FRONTHAUL partner (R557). -/
def landTiles (x : Entry) : Nat := ceilDiv (peStreams x * pePrbCount x * 24) 2048
def landSlotBytes (x : Entry) : Nat := landTiles x * 4128

/-- Bytes of an entry's landing area. -/
def landBytes (x : Entry) : Nat :=
  if peKind x = pkFronthaul then peLandSlots x * landSlotBytes x else if peKind x = pkHost then 0 else peLandBytes x

/-! ## Port assignment (R541, R543) -/

/-- Total BW of the partners assigned to a port, but for one. -/
def State.portBw (s : State) (p except : Nat) : Nat :=
  ((s.fabric.partners.filter (fun x => decide (x.1 ≠ except) && decide (x.1 ≠ 0) && peState x.2 != psFree && pePort x.2 == p
    && groupOf (peCluster x.2) == p / 8)).map (fun x => peBw x.2)).sum

/-- LACP holds the port in its group (R539): the switch collects, and no more than three seconds have passed since its last LACPDU, the
timeout of the fast rate (IEEE 802.1AX, assumption 79). -/
def Port.collects (x : Port) (now : Nat) : Bool := x.lacp && x.lacpAt.all (fun t => decide (now < t + 3000000000))

/-- Members of a group in service. -/
def State.members (s : State) (g : Nat) : List Nat :=
  ((List.range 8).map (· + 8 * g)).filter (fun p => (s.port p).up && (s.port p).collects s.now)

/-- The member that a partner of the group is given; with no member in service the PORT field is a free value. -/
def State.pickPort (s : State) (g except : Nat) : Nat :=
  match (s.members g).foldl (fun (best : Option (Nat × Nat)) p =>
      let b := s.portBw p except
      match best with
      | none => some (b, p)
      | some x => if b < x.1 then some (b, p) else best) none with
  | some x => x.2
  | none => 8 * g + s.freeNat % 8

def State.assignPort (s : State) (i : Nat) : State :=
  let x := s.partner i
  let p := s.pickPort (groupOf (peCluster x)) i
  s.takeFree.setPartner i (putField x 24 5 p)

/-- Partners assigned to a port; the host's entry has none. -/
def State.onPort (s : State) (p : Nat) : List Nat :=
  (s.fabric.partners.filter (fun x => decide (x.1 ≠ 0) && peState x.2 != psFree && pePort x.2 == p && groupOf (peCluster x.2) == p / 8)).map (fun x => x.1)

/-- A partner is assigned to a member in service (R541), and its move is reported. -/
def State.movePartner (s : State) (i : Nat) (inj : Bool) : State :=
  let s := s.assignPort i
  let x := s.partner i
  s.fabricEv (peTenant x) (pePort x) faPartnerMove 0xFF i (pePort x) inj

/-! ## Capacity (R589, R591, R592) -/

/-- BW capacity of a group in 0.1 Gb/s: of its ports that have come up and not gone down by a fault since (R591). -/
def State.groupCapacity (s : State) (g : Nat) : Nat :=
  if s.fabric.groupLost.contains g then 0 else 8000 * (List.range 8).countP (fun k => (s.port (8 * g + k)).served)

/-- Class D or T, and ACTIVE. -/
def peCounted (x : Entry) : Bool := peState x == psActive && decide (peClass x < 2)

/-- The table as the pending changes leave it (R589: a change counts from its acceptance); an attach takes its ADMIT_SEQ after all that
were accepted before it (R587). -/
def State.partnersAfter (s : State) : Tab Entry :=
  (indexed s.fabric.changes).foldl (fun t y =>
    let ch := y.2
    match ch.kind with
    | 0 => tabPut t ch.index (putField (putField ch.entry 0 2 psActive) 64 64 (s.fabric.admitSeq + y.1))
    | 1 =>
      match tabFind t ch.index with
      | some old => tabPut t ch.index
          (putField (putField ch.entry 0 2 (if peState ch.entry = psActive then psActive else peState old)) 64 64 (peAdmit old))
      | none => t
    | 2 => tabDel t ch.index
    | _ => (match tabFind t ch.index with
      | some old => tabPut t ch.index (putField old 0 2 psShed)
      | none => t)) s.fabric.partners

/-- The change would make the LOAD of the cluster or the BW of the group exceed its capacity (R589, R597). -/
def State.exceeds (s : State) (i : Nat) (x : Entry) : Bool :=
  if 2 ≤ peClass x then false else
  let t := (tabDel s.partnersAfter i).filter (fun y => peCounted y.2)
  let load := ((t.filter (fun y => peCluster y.2 == peCluster x)).map (fun y => peLoad y.2)).sum + peLoad x
  let g := groupOf (peCluster x)
  let bw := ((t.filter (fun y => groupOf (peCluster y.2) == g)).map (fun y => peBw y.2)).sum + peBw x
  decide ((s.cluster (peCluster x)).capacity < load) || decide (s.groupCapacity g < bw)

/-- Order of keeping: class D before T, then ascending ADMIT_SEQ (R592). -/
def keepKey (x : Entry) : Nat := peClass x * 2 ^ 64 + peAdmit x

def insertBy {α : Type} (key : α → Nat) (a : α) : List α → List α
  | [] => [a]
  | b :: t => if key a ≤ key b then a :: b :: t else b :: insertBy key a t

/-- Sort by a key, keeping the order of equals. -/
def sortBy {α : Type} (key : α → Nat) : List α → List α
  | [] => []
  | a :: t => insertBy key a (sortBy key t)

/-- Partners past the first that does not fit, it included. -/
def shedFrom (size : Entry → Nat) (cap : Nat) : Nat → List (Nat × Entry) → List Nat
  | _, [] => []
  | used, x :: t =>
    if cap < used + size x.2 then (x :: t).map (fun y => y.1) else shedFrom size cap (used + size x.2) t

/-- Clock of the decision to shed: free within 100 us of the fault's event, or 25 ms while the firmware restarts (R593). -/
def State.decideAt (s : State) : Nat := s.now + s.freeNat % ((if s.mbx.fw = .restarting then 25000000 else 100000) + 1)

/-- The walk of R592 over the partners that a condition selects, as R589 counts them; sheds take effect under R593. -/
def State.walk (s : State) (sel : Entry → Bool) (size : Entry → Nat) (cap : Nat) : State :=
  let l := sortBy (fun x => keepKey x.2) (s.partnersAfter.filter (fun x => peCounted x.2 && sel x.2))
  if (l.map (fun x => size x.2)).sum ≤ cap then s else
  let from_ := s.decideAt + Config.leadNs
  (shedFrom size cap 0 l).foldl (fun (s : State) i =>
    { s with fabric := { s.fabric with
        changes := s.fabric.changes ++ [{ notBefore := from_, index := i, kind := 3, entry := 0 }] } }) s.takeFree

/-- A cluster's capacity falls or returns: CAPACITY, and where it falls the walk by LOAD (R591 to R593, R613). -/
def State.setCapacity (s : State) (c cap : Nat) (injected : Bool) : State :=
  let was := (s.cluster c).capacity
  if was = cap then s else
  let s := (s.modCluster c (fun x => { x with capacity := cap })).fabricEv (s.cluster c).tenant 0xFF faCapacity c
    noPartner cap injected
  if cap < was then s.walk (fun x => peCluster x == c) peLoad cap else s

/-- A group's capacity was `was` before: where it has changed CAPACITY for the port, and where it has fallen the walk by BW (R592). -/
def State.groupChanged (s : State) (g port was : Nat) (injected : Bool) : State :=
  let cap := s.groupCapacity g
  if cap = was then s else
  let s := s.fabricEv 0 port faCapacity 0xFF noPartner cap injected
  if cap < was then s.walk (fun x => groupOf (peCluster x) == g) peBw cap else s

/-- Capacity of a cluster in its present condition (R591): the lowest that its faults leave. -/
def capacityOf (x : Cluster) (noRow hbmGone dieGone : Bool) : Nat :=
  if dieGone || noRow then 0
  else
    let idle := (x.hung.filter (fun h => h.2.isNone && (match x.active with
      | some p => hdrStandby p.header != h.1
      | none => true))).length
    let a := if idle = 0 then 1024 else 1024 * (63 - idle) / 63
    if hbmGone then min a 853 else a

/-- The optical engine has no row to map (R266): one is unmapped and no row in CAL is to become STANDBY. -/
def State.rowless (s : State) (e : Nat) : Bool :=
  let x := s.engine e
  !x.unmapped.isEmpty && x.calRow.isNone

/-- The cluster's capacity follows its condition. -/
def State.updateCapacity (s : State) (c : Nat) : State :=
  s.setCapacity c (capacityOf (s.cluster c) (s.rowless c) (s.hbmLost.any (fun x => x.1 / 6 == c / 32))
    (s.fabric.groupLost.contains (c / 32)))
    ((s.cluster c).hung.any (fun h => s.isInjected 4 (64 * c + h.1)))

/-- The STANDBY_CORE of the plan in force, where it is free to act for core `k` (R859). -/
def Cluster.freeStandby (x : Cluster) (k : Nat) : Option Nat :=
  match x.active with
  | some p =>
    let b := hdrStandby p.header
    if b = k ∨ x.hung.any (fun h => h.1 == b || h.2 == some b) then none else some b
  | none => none

/-- A plan whose STANDBY_CORE is free serves the first hung core that has had none (R857, R859, assumption 84). -/
def State.standbyTakes (s : State) (c : Nat) : State :=
  let x := s.cluster c
  match x.hung.find? (fun h => h.2.isNone) with
  | none => s
  | some h => match x.freeStandby h.1 with
    | none => s
    | some b => (s.modCluster c (fun y => { y with
        hung := y.hung.map (fun (g : Nat × Option Nat) => if g.1 = h.1 then (g.1, some b) else g) })).updateCapacity c

/-! ## Frames sent (R575, R604, R610) -/

/-- Joryar frame types (R576). -/
def jtData : Nat := 0
def jtAck : Nat := 1
def jtRelay : Nat := 2
def jtRelayAck : Nat := 3
def jtDelayReq : Nat := 4
def jtDelayResp : Nat := 5
def jtCmd : Nat := 6
def jtCpl : Nat := 7
def jtShed : Nat := 8
def jtTakeover : Nat := 9
def jtBulk : Nat := 0xA
def jtOutput : Nat := 0xB

/-- Count on a partner's record, by its place in PARTNER_COUNTERS (R590). -/
def State.countPartner (s : State) (i k n : Nat) : State :=
  s.modDyn i (fun d => { d with counters := tabSet 0 d.counters k (tabGet 0 d.counters k + BitVec.ofNat 32 n) })

def pcRx : Nat := 0
def pcTx : Nat := 1
def pcLateDrop : Nat := 2
def pcEarly : Nat := 3
def pcLate : Nat := 4
def pcSeqGap : Nat := 5
def pcExpClamp : Nat := 6
def pcShedDrop : Nat := 7
def pcNoPartner : Nat := 8
def pcResent : Nat := 9
def pcRange : Nat := 10

/-- Count on a port's record: RX_FRAMES 0, RX_BYTES 1, TX_FRAMES 2, TX_BYTES 3, FEC_CORRECTED 4, FEC_UNCORRECTED 5,
RX_OVERSIZE 6, RX_PAUSE 7 (R610). -/
def State.countPort (s : State) (p k n : Nat) : State :=
  s.modPort p (fun x => { x with counters := tabSet 0 x.counters k (tabGet 0 x.counters k + BitVec.ofNat 64 n) })

/-- MAC address of a group (R540); a module without an identity reads the fingerprint as zero. -/
def State.groupMac (s : State) (g : Nat) : List Byte :=
  [(2 : Byte)] ++ (toLe 32 (match s.trust.identity with | some i => i.fingerprint.toNat | none => 0)).take 4 ++ [BitVec.ofNat 8 g]

/-- Frames pass under a CA: MKA has given it a SAK, whose packet number has not passed its limit (R546, R547, R550). -/
def Ca.ready (x : Ca) : Bool := x.sak.isSome && decide (x.txPn ≤ 2 ^ 62)
/-- Frames pass under the partner's CA. -/
def State.secured (s : State) (i : Nat) : Bool := peState (s.partner i) != psFree && (s.ca (peCa (s.partner i))).ready

/-- EtherType of a frame (R546, R551, 09 The Joryar transport). -/
def State.etherType (s : State) (kind : Nat) : Nat :=
  match kind with
  | 0 => if s.fabric.domain.joined then s.fabric.domain.ethertype else 0x88B5
  | 4 => 0x8809
  | 5 => 0x888E
  | 6 => 0x88F7
  | _ => 0xAEFE

/-- Destination of the frames that a port sends of its own: LACP and MKA as IEEE 802.1 gives them, PTP as TICK_SOURCE_SET selects (R561).
Byte i of an address is its bits 8 i + 7 to 8 i. -/
def State.linkMac (s : State) (p kind : Nat) : BitVec 48 :=
  match kind with
  | 4 => 0x020000C28001
  | 5 => 0x030000C28001
  | _ => if s.time.sources.any (fun x => x.kind == .ptp && x.port == p && x.dst) then 0x0E0000C28001 else 0x000000191B01

/-- Kinds of frame that belong to the link, not to a partner. -/
def linkKind (kind : Nat) : Bool := decide (4 ≤ kind)

/-- The CA that a frame leaves under: its partner's, of PTP the link's; none in clear (R546, R547, R562). -/
def State.frameCa (s : State) (f : TxFrame) : Option Nat :=
  if f.kind = 6 then some f.port
  else if linkKind f.kind || !s.secured f.partner then none
  else some (peCa (s.partner f.partner))

/-- The Ethernet and MACsec fields of a frame (R540, R546, R585). -/
def State.address (s : State) (f : TxFrame) : TxFrame :=
  let x := s.partner f.partner
  let c := s.frameCa f
  { f with
    dst := if linkKind f.kind then s.linkMac f.port f.kind
      else if Config.partners ≤ f.partner then Config.bareMac f.port else BitVec.ofNat 48 (peMac x)
    src := s.groupMac (f.port / 8)
    vlan := if !linkKind f.kind && peVlanOn x then some (pePcp x <<< 13 + peVlan x) else none
    ether := s.etherType f.kind, ca := c
    sak := (c.bind (fun k => (s.ca k).sak)).getD []
    pn := match c with
      | some k => (s.ca k).txPn
      | none => 0 }

/-- A number with its most significant byte first. -/
def bigEnd (n v : Nat) : List Byte := (toLe n v).reverse

/-- A frame on the line, its FCS and its fill left out. Under a CA it is sealed with GCM-AES-XPN-256 from its EtherType on, confidentiality
offset 0; the layout of the security tag and of the initialisation vector is that of IEEE 802.1AE (R546, assumption 109). -/
def TxFrame.wire (f : TxFrame) : List Byte :=
  let ends := toLe 6 f.dst.toNat ++ f.src
  let tag := match f.vlan with
    | some v => bigEnd 2 0x8100 ++ bigEnd 2 v
    | none => []
  let inner := tag ++ bigEnd 2 f.ether ++ f.header ++ f.payload
  match f.ca with
  | none => ends ++ inner
  | some _ =>
    let head := ends ++ bigEnd 2 0x88E5 ++ [0x2C, BitVec.ofNat 8 (if inner.length < 48 then inner.length else 0)] ++ bigEnd 4 (f.pn % 2 ^ 32)
      ++ f.src ++ bigEnd 2 (f.port + 1)
    let iv := bigEnd 12 (f.pn ^^^ (Config.xpnSalt f.sak).toNat)
    head ++ gcmSeal f.sak iv head inner

/-- Bytes on the line of a frame with `n` bytes of content, FCS included: what a tag and MACsec add to 18 bytes of Ethernet is not counted
by the manual (`Config.frameOverhead`). -/
def frameSize (n : Nat) : Nat := max 64 (n + 18 + Config.frameOverhead n % 37)
def TxFrame.size (f : TxFrame) : Nat := frameSize (f.header.length + f.payload.length)
/-- Clock at which its transmission ends, at 800 Gb/s (R535). -/
def TxFrame.ends (f : TxFrame) : Nat := f.at_ + ceilDiv f.size 100
/-- Largest frame that a port sends or accepts (R536). -/
def frameMax : Nat := 9216

/-- A frame may travel in clear where it has no SAK: LACP and MKA frames, and the frames of a relay (R546, R605). -/
def mayClear (f : TxFrame) : Bool := f.kind == 4 || f.kind == 5 || f.kind == 0 && (f.type == 6 || f.type == 7 || f.type == 0xA || f.type == 0xB)

/-- A frame can be sent: its port is up, and its CA has a SAK where it needs one. -/
def State.ready (s : State) (f : TxFrame) : Bool :=
  (s.port f.port).up && (mayClear f || (if f.kind = 6 then (s.ca f.port).ready else s.secured f.partner))

/-- Clock at which a port may begin another frame: it does not pause, and those before it are over (R545). -/
def State.portFree (s : State) (p : Nat) : Nat := max s.now (max (s.port p).pausedUntil (s.port p).busyUntil)

/-- A frame has its times and its protection, and goes out on its port. -/
def State.transmit (s : State) (f : TxFrame) (at_ : Nat) : State :=
  let g := { s.address f with at_ := at_ }
  let s := match g.ca with
    | some k => s.modCa k (fun c => { c with txPn := c.txPn + 1 })
    | none => s
  let s := s.modFabric (fun x => { x with sent := x.sent ++ [g] })
  (s.countPort g.port 2 1).countPort g.port 3 g.size

/-- A frame leaves on its port after those before it, or waits until it can (R541, R545). One above 9,216 bytes is not sent (R536). -/
def State.emit (s : State) (f : TxFrame) : State :=
  if s.jtag.inEffect || decide (frameMax < f.size) then s
  else if !s.ready f then s.modFabric (fun x => { x with waiting := x.waiting ++ [f] })
  else
    let t := s.portFree f.port
    (s.transmit f t).modPort f.port (fun x => { x with busyUntil := t + ceilDiv f.size 100 })

/-- A frame of a task that ends now has just been sent. -/
def State.emitDone (s : State) (f : TxFrame) : State :=
  if s.jtag.inEffect || decide (frameMax < f.size) then s else s.transmit f (s.now - ceilDiv f.size 100)

def prDropBuf : Nat := 9
def prUnknown : Nat := 10
def prUnprot : Nat := 11
def prIcv : Nat := 12
def prDropBank : Nat := 14

def State.portFlag (s : State) (p i : Nat) : State := s.modPort p (fun x => { x with status := x.status.hit i })

/-- The frames of a partner may leave: its port is up and does not pause, and its CA has a SAK (R541, R545, R546). -/
def State.canSend (s : State) (i : Nat) : Bool :=
  let p := s.port (pePort (s.partner i))
  p.up && decide (p.pausedUntil ≤ s.now) && s.secured i

/-- A sender without a partner entry, as a worker meets it before its session (R605): it is answered on its port, and numbered
under 131,072 + port. -/
def bareSender (port : Nat) : Nat := Config.partners + port
def State.replyPort (s : State) (i : Nat) : Nat := if Config.partners ≤ i then i - Config.partners else pePort (s.partner i)

/-! ## Frames received (R536, R546 to R549) -/

/-- A frame of `n` bytes of content is received (R610). -/
def State.countRx (s : State) (p n : Nat) : State := (s.countPort p 0 1).countPort p 1 (frameSize n)

/-- What MACsec finds wrong with a received frame that should come under CA `k`: it is in clear or under another CA, or it fails its ICV or
the replay check, whose window is 32 frames (R548, R549). -/
def State.rxFault (s : State) (k : Nat) (pr : Protection) : Option Nat :=
  let x := s.ca k
  if pr.ca.map BitVec.toNat ≠ some k || x.sak.isNone then some prUnprot
  else if !pr.intact || decide (pr.pn.toNat + 32 < x.rxPn) then some prIcv
  else none

/-- A received frame is checked: one that fails is dropped and counted, one that passes moves the replay window. -/
def State.checked (s : State) (p k : Nat) (pr : Protection) : State × Bool :=
  match s.rxFault k pr with
  | some f => (s.portFlag p f, false)
  | none => (s.modCa k (fun c => { c with rxPn := max c.rxPn (pr.pn.toNat + 1) }), true)

/-- A frame of `n` bytes from a partner: checked, and dropped where it is SHED (R548, R549, R594). -/
def State.fromPartner (s : State) (p i n : Nat) (pr : Protection) : State × Bool :=
  let x := s.partner i
  let r := (s.countRx p n).checked p (peCa x) pr
  if !r.2 then r
  else if peState x = psShed then (r.1.countPartner i pcShedDrop 1, false)
  else r

/-! ## What a port has not sent (R541, R543, R545, R578) -/

/-- Bytes that a port's transmit share holds: frames not yet sent, and those of its partners without an ACK (R538, R578). -/
def State.shareUsed (s : State) (p : Nat) : Nat :=
  ((s.fabric.sent.filter (fun f => f.port == p && decide (s.now < f.ends))).map TxFrame.size).sum
    + ((s.fabric.dyn.filter (fun x => s.replyPort x.1 == p)).map (fun x => (x.2.unacked.map TxFrame.size).sum)).sum

/-- Numbered frames that may leave to a partner before another ACK: up to WINDOW of a RELIABLE one without an ACK, or of a relay, as far
as the 512 KiB of the transmit share take them (R538, R578). A sender without an entry has no WINDOW. -/
def State.windowRoom (s : State) (i : Nat) : Nat :=
  let d := s.dyn i
  let left := if Config.partners ≤ i then 4096 else max 1 (peWindow (s.partner i)) - d.unacked.length
  min left ((524288 - s.shareUsed (s.replyPort i)) / frameMax)

/-- Frames of an egress. -/
def State.egressCount (s : State) (c i : Nat) : Nat :=
  let d := (s.cluster c).task i
  match egForm d with
  | 0 => ceilDiv (dLength d) 8256
  | 1 => peStreams (s.partner (dPartner d))
  | _ => 1

/-- Frames of an egress that may have left by now: as many as the window of a RELIABLE partner lets go. -/
def State.egressRoom (s : State) (c i : Nat) (r : TaskRun) : Nat :=
  let d := (s.cluster c).task i
  let n := s.egressCount c i
  if egForm d ≠ 0 ∨ !peReliable (s.partner (dPartner d)) then n
  else if !(s.dyn (dPartner d)).queued.isEmpty then r.sent else min n (r.sent + s.windowRoom (dPartner d))

/-- The frame that a running EGRESS is sending on a port that breaks off is lost; whether it is between two frames is free (R543, R545). -/
def State.breakEgress (s : State) (p c i : Nat) (r : TaskRun) : State :=
  let d := (s.cluster c).task i
  if dKind d ≠ kEgress ∨ r.phase ≠ .running ∨ pePort (s.partner (dPartner d)) ≠ p ∨ !s.canSend (dPartner d) then s
  else
    let n := s.freeNat % (s.egressRoom c i r + 1 - r.sent)
    let s := s.takeFree
    if n = 0 then s
    else (s.portFlag p 13).modCluster c (fun x => x.setRun i { r with broken := r.broken ++ [r.sent + n - 1] })

/-- A port's transmission breaks off: a frame that is being sent is lost and counted in TX_LOST (R543, R545). -/
def State.breakOff (s : State) (p : Nat) : State :=
  let cut (f : TxFrame) : Bool := f.port == p && decide (f.at_ ≤ s.now) && decide (s.now < f.ends)
  let t := if s.fabric.sent.any cut then
    (s.portFlag p 13).modFabric (fun x => { x with sent := x.sent.filter (fun f => !cut f) }) else s
  forEach (t.clusters.map (fun x => x.1)) t (fun t c =>
    forEach ((t.cluster c).runs.map (fun x => x.1)) t (fun t i => match (t.cluster c).run i with
      | some r => t.breakEgress p c i r
      | none => t))

/-- The frames that a port has not begun leave its order, to be sent again. -/
def State.withdraw (s : State) (p : Nat) : State :=
  let unsent (f : TxFrame) : Bool := f.port == p && decide (s.now < f.at_)
  let l := s.fabric.sent.filter unsent
  let s := s.modFabric (fun x => { x with sent := x.sent.filter (fun f => !unsent f), waiting := x.waiting ++ l })
  forEach l (s.modPort p (fun x => { x with busyUntil := s.now })) (fun s f =>
    (s.countPort p 2 (2 ^ 64 - 1)).countPort p 3 (2 ^ 64 - f.size))

/-- Frames that wait go out on their partner's port where it can send them, in order. -/
def State.release (s : State) : State :=
  forEach s.fabric.waiting (s.modFabric (fun x => { x with waiting := [] })) (fun s f =>
    s.emit (if linkKind f.kind then f else { f with port := s.replyPort f.partner }))

/-- Header of a Joryar frame to a partner (R575); a sender without an entry is answered at module 0xFF. -/
def State.joryarHeader (s : State) (i type tag offset seq ack : Nat) (last : Bool) (n : Nat) : List Byte :=
  let x := s.partner i
  let bare := decide (Config.partners ≤ i)
  toLe 1 (1 + type * 16) ++ toLe 1 (if last then 1 else 0) ++ toLe 1 (if s.fabric.domain.joined then s.fabric.domain.index else 0xFF)
    ++ toLe 1 (if bare then 0xFF else peRemoteModule x) ++ toLe 4 (if bare then 0 else peRemotePartner x) ++ toLe 4 seq ++ toLe 4 offset
    ++ toLe 2 n ++ toLe 2 tag ++ toLe 4 ack ++ toLe 8 0

/-- Frame types that carry the partner's sequence number (R578, R579, R604). -/
def numbered (type : Nat) : Bool := type == jtData || type == jtCmd || type == jtCpl || type == jtBulk || type == jtOutput

/-- A Joryar frame to a partner, without its number. -/
def State.joryarFrame (s : State) (i type tag offset : Nat) (last : Bool) (payload : List Byte) : TxFrame :=
  { port := s.replyPort i, kind := 0, type := type, partner := i, tag := tag, seq := 0, offset := offset, last := last, payload := payload }

/-- The frame with a number and its header (R575). -/
def State.numberFrame (s : State) (f : TxFrame) (seq : Nat) : TxFrame :=
  { f with port := s.replyPort f.partner, seq := seq
           header := s.joryarHeader f.partner f.type f.tag f.offset seq 0 f.last f.payload.length }

/-- A frame is kept until its ACK: of a RELIABLE partner, and of a relay (R578, R604). -/
def State.keptFrame (s : State) (f : TxFrame) : Bool := numbered f.type && (peReliable (s.partner f.partner) || f.type != jtData)

/-- A numbered frame takes the partner's next SEQ and leaves through `go`, kept until its ACK where it is to be; `since` is the clock from
which its ACK is waited for where none was. -/
def State.sendNumbered (s : State) (f : TxFrame) (since : Nat) (go : State → TxFrame → State) : State :=
  let i := f.partner
  let g := s.numberFrame f (s.dyn i).txSeq
  let keep := s.keptFrame f
  ((go s g).countPartner i pcTx 1).modDyn i (fun d => { d with
    txSeq := (d.txSeq + 1) % 2 ^ 32, unacked := if keep then d.unacked ++ [g] else d.unacked
    ackAt := if d.unacked.isEmpty then since else d.ackAt })

/-- A Joryar frame to a partner, on its port. Numbered frames that are kept until their ACK wait for room in the window (R578). SEQ of a
frame outside the sequence is free. Nothing else than the frames of a relay leaves without a SAK (R546). -/
def State.sendTo (s : State) (i type tag offset : Nat) (last : Bool) (payload : List Byte) : State :=
  let f := s.joryarFrame i type tag offset last payload
  if !s.secured i && !mayClear f then s
  else if !numbered type then
    ((s.takeFree.emit (s.numberFrame f (s.freeNat % 2 ^ 32))).countPartner i pcTx 1)
  else if s.keptFrame f && (!(s.dyn i).queued.isEmpty || decide (s.windowRoom i = 0)) then
    s.modDyn i (fun d => { d with queued := d.queued ++ [f] })
  else s.sendNumbered f s.now State.emit

/-- Queued frames leave while the window has room. -/
def State.drainQueue (s : State) (i : Nat) : State :=
  let l := (s.dyn i).queued.take (s.windowRoom i)
  forEach l (s.modDyn i (fun d => { d with queued := d.queued.drop l.length })) (fun s f => s.sendNumbered f s.now State.emit)

/-- Blocks with their byte offset and whether each is the last. -/
def blocks (n : Nat) (l : List Byte) : List (Nat × Bool × List Byte) :=
  let k := ceilDiv l.length n
  (List.range k).map (fun i => (i * n, decide (i + 1 = k), (l.drop (i * n)).take n))

/-! ## Frames of the link: LACP, MKA (R539, R550) -/

/-- Bytes of an LACPDU (IEEE 802.1AX). -/
def lacpBytes : Nat := 110

/-- A frame of a port's own; what the manual does not state of it is free. -/
def State.sendLink (s : State) (p kind : Nat) (payload : List Byte) : State :=
  s.emit { port := p, kind := kind, type := 0, partner := bareSender p, tag := 0, seq := 0, offset := 0, last := true, payload := payload }

/-- The port sends its LACPDU (R539). -/
def State.sendLacp (s : State) (p : Nat) : State :=
  (s.takeFree.sendLink p 4 (toLe lacpBytes s.freeNat)).modPort p (fun x => { x with lacpSent := s.now })

/-- The MKA frame of a CA by which the module distributes a SAK: on the link's port, or on that of a partner of the CA. -/
def State.sendMka (s : State) (k : Nat) : State :=
  let p := if k < 16 then some k else (s.fabric.partners.find? (fun x => peState x.2 != psFree && peCa x.2 == k)).map (fun x => pePort x.2)
  match p with
  | some p => s.takeFree.sendLink p 5 (toLe (s.freeNat % 1500) (s.freeNat / 1500))
  | none => s

/-! ## Changes at a boundary (R586, R587, R590, R593 to R595) -/

/-- PARTNER_APPLIED (R586, R613). -/
def State.partnerApplied (s : State) (x : Entry) (i detail : Nat) : State :=
  s.fabricEv (peTenant x) (pePort x) faPartnerApplied 0xFF i detail false

/-- Free an entry; the counters stay until the next attach (R590). -/
def State.detach (s : State) (i : Nat) : State :=
  let x := s.partner i
  if peState x = psFree then s
  else (((s.setPartner i 0).modDyn i (fun d => { PartnerDyn.init with counters := d.counters })).modFabric (fun f =>
    { f with waiting := f.waiting.filter (fun y => y.partner != i || linkKind y.kind) })).partnerApplied x i 2

/-- One partner change takes effect. -/
def State.applyPartner (s : State) (ch : PartnerChange) : State :=
  let old := s.partner ch.index
  match ch.kind with
  | 0 =>
    let x := putField (putField ch.entry 0 2 psActive) 64 64 s.fabric.admitSeq
    let s := (s.setPartner ch.index x).modFabric (fun f => { f with admitSeq := (f.admitSeq + 1) % 2 ^ 64 })
    let s := (s.modDyn ch.index (fun _ => PartnerDyn.init)).assignPort ch.index
    s.partnerApplied (s.partner ch.index) ch.index 0
  | 1 =>
    if peState old = psFree then s else
    let st := if peState ch.entry = psActive then psActive else peState old
    let x := putField (putField (putField ch.entry 0 2 st) 64 64 (peAdmit old)) 24 5 (pePort old)
    let s := s.setPartner ch.index x
    let s := if groupOf (peCluster x) = groupOf (peCluster old) then s else s.assignPort ch.index
    s.partnerApplied (s.partner ch.index) ch.index 1
  | 2 => s.detach ch.index
  | _ =>
    if peState old ≠ psActive then s else
    let s := (s.setPartner ch.index (putField old 0 2 psShed)).fabricEv (peTenant old) (pePort old) faShed 0xFF ch.index
      (peClass old) false
    if peKind old = pkSession ∨ peKind old = pkPeer then s.sendTo ch.index jtShed 0 0 false [] else s

/-- The changes that are due, in the order of their completion (R683). -/
def State.applyPartners (s : State) : State :=
  let ps0 := s.power.pstate == .ps0
  let due (c : PartnerChange) : Bool := decide (c.notBefore ≤ s.now) && (c.kind != 3 || ps0)
  let l := s.fabric.changes.filter due
  let s := { s with fabric := { s.fabric with changes := s.fabric.changes.filter (fun c => !due c) } }
  l.foldl State.applyPartner s

/-- Queue a change (R586). -/
def State.changePartner (s : State) (i kind : Nat) (x : Entry) : State :=
  { s with fabric := { s.fabric with
      changes := s.fabric.changes ++ [{ notBefore := s.leadFrom, index := i, kind := kind, entry := x }] } }

end Sys2Proof.Machine
end

