-- ==== Sys2Proof/Machine/CmdPartner.lean ====
section
/-! DEFINITION. The partner commands and the phase map: PARTNER_ATTACH, PARTNER_MODIFY, PARTNER_DETACH (R553, R585 to
R590, R596) and PHASE_MAP_LOAD (R567, R568). -/

namespace Sys2Proof.Machine

/-- Checks that an entry carried in a bulk payload fails, in the order of R696: its code and DETAIL. `i` is the index it
takes, `counted` whether R589 applies to it. -/
def State.entryCheck (s : State) (h : CmdHdr) (i : Nat) (x : Entry) (counted : Bool) : Option (Nat × Nat) :=
  let k := peKind x
  let top := (s.cluster (peCluster x)).top
  let ca := peCa x
  let owner := s.ca ca
  firstFail [
    (decide (landBytes x ≠ 0) && (decide (peLandBase x < 0x100000) || decide (top < peLandBase x + landBytes x)),
      stInvalidLength, bulkBit + 0x1C),
    (owner.cak.isSome && decide (owner.tenant ≠ sessionTenant h), stDenied, 0),
    (peClass x == 3, stInvalid, bulkBit),
    (decide (ca < 16), stInvalid, bulkBit + 0x18),
    (k == pkFronthaul && (peStreams x == 0 || decide (16 < peStreams x)), stInvalid, bulkBit + 0x22),
    (k == pkFronthaul && (peLandSlots x == 0 || decide (14 < peLandSlots x)), stInvalid, bulkBit + 0x23),
    (k == pkFronthaul && decide (272 < pePrbFirst x), stInvalid, bulkBit + 0x24),
    (k == pkFronthaul && (pePrbCount x == 0 || decide (273 < pePrbFirst x + pePrbCount x)), stInvalid, bulkBit + 0x26),
    ((k == pkSession || k == pkPeer) && (peWindow x == 0 || decide (4096 < peWindow x)), stInvalid, bulkBit + 0x2E),
    (k == pkFronthaul && decide (s.time.period = 0), stConflict, 0),
    (counted && s.exceeds i x, stNoSpace, 0)]

/-- Lowest FREE index from 257 on, pending attaches counted (R585, R699). -/
def State.freeIndex (s : State) : Option Nat :=
  let used := (s.fabric.partners.map (fun x => x.1)) ++ ((s.fabric.changes.filter (fun c => c.kind == 0)).map (fun c => c.index))
  let n := used.length
  let c := ((List.range (n + 1)).map (· + Config.firstPartner)).find? (fun i => !used.contains i)
  match c with
  | some i => if i < Config.partners then some i else none
  | none => none

def cmdPartnerAttach (h : CmdHdr) (s : State) : Answer :=
  let x := bytesToBv 512 h.bulk
  if h.bulk.length ≠ 64 then Answer.errD s stInvalidLength 0x08
  else match s.freeIndex with
  | none => (match s.entryCheck h Config.partners x false with
    | some e => Answer.errD s e.1 e.2
    | none => Answer.err s stNoSpace)
  | some i =>
    match s.entryCheck h i x true with
    | some e => Answer.errD s e.1 e.2
    | none => Answer.okR (s.changePartner i 0 x) i

def cmdPartnerModify (h : CmdHdr) (p : PartnerModifyParams) (s : State) : Answer :=
  let x := bytesToBv 512 h.bulk
  let i := p.index.toNat
  let old := s.partner i
  if h.bulk.length ≠ 64 then Answer.errD s stInvalidLength 0x08
  else if i < Config.firstPartner ∨ peState old = psFree then Answer.errD s stInvalid 0x10
  else if peKind x ≠ peKind old then Answer.errD s stInvalid bulkBit
  else if peTenant x ≠ peTenant old then Answer.errD s stInvalid (bulkBit + 1)
  else match s.entryCheck h i x (peState old == psActive || p.resume) with
  | some e => Answer.errD s e.1 e.2
  | none => Answer.ok (s.changePartner i 1 (putField x 0 2 (if p.resume then psActive else psFree)))

def cmdPartnerDetach (_h : CmdHdr) (index : BitVec 17) (s : State) : Answer :=
  let i := index.toNat
  if i < Config.firstPartner ∨ peState (s.partner i) = psFree then Answer.errD s stInvalid 0x10
  else Answer.ok (s.changePartner i 2 0)

/-! ## PHASE_MAP_LOAD (R566 to R568) -/

/-- A phase from its 264 bytes. -/
def phaseOf (l : List Byte) : Phase := { start := leNat (l.take 4), entries := (l.drop 8).take 256 }

def phasesOf : Nat → List Byte → List Phase
  | 0, _ => []
  | n + 1, l => phaseOf (l.take 264) :: phasesOf n (l.drop 264)

/-- Receiver entry of a cluster in a phase: its source, where it is valid. -/
def Phase.source (p : Phase) (d k : Nat) : Option Nat :=
  let e := (nth 0 p.entries (4 * d + k)).toNat
  if bitAt e 7 then some (e % 64) else none

/-- A phase breaks R567 in itself: an entry names its own cluster, or two of a cluster name one source. -/
def Phase.bad (p : Phase) : Bool :=
  (List.range 64).any (fun d =>
    let l := (List.range 4).filterMap (p.source d)
    l.contains d || l.dedup.length != l.length)

/-- Receiver entries of the current phase. -/
def State.phaseNow (s : State) : List Byte :=
  match s.fabric.phaseMap[s.fabric.curPhase]? with
  | some p => p.entries
  | none => []

/-- Router traffic passes from a cluster to another: one tenant holds both, and neither strips (R644, R656, R658). -/
def State.joins (s : State) (src dest : Nat) : Bool :=
  s.clusterTenant src == s.clusterTenant dest && (s.clusterTenant src).isSome

/-- Source that receiver `k` of cluster `d` listens to by a list of entries; an entry that names a source of another tenant is not valid
(R644). -/
def State.entrySource (s : State) (l : List Byte) (d k : Nat) : Option Nat :=
  match Phase.source { start := 0, entries := l } d k with
  | some src => if s.joins src d then some src else none
  | none => none
/-- The receiver takes another source than in the phase before. -/
def State.retunes (s : State) (d k : Nat) : Bool :=
  s.entrySource s.phaseNow d k != s.entrySource s.fabric.lastPhase d k

/-- A receiver is locked on its source: its ring serves, and one that retunes locks at a free time within 3 us (R569, R611). -/
def State.listens (s : State) (d k : Nat) : Bool :=
  (s.cluster d).locked.getLsbD k && (!s.retunes d k || decide (s.fabric.phaseAt + 3000 ≤ s.now) || Config.retuned d k s.now)

def phasesAscend : List Phase → Bool
  | a :: b :: t => decide (a.start < b.start) && phasesAscend (b :: t)
  | _ => true

/-- Reserved fields of the payload (R566): the first offset. -/
def phaseReserved (l : List Byte) : Option Nat :=
  (indexed l).findSome? (fun x =>
    let o := x.1 % 264
    if (4 ≤ o ∧ o < 8 ∧ x.2 ≠ 0) ∨ (8 ≤ o ∧ bitAt x.2.toNat 6) then some (bulkBit + x.1) else none)

def cmdPhaseMapLoad (h : CmdHdr) (phases : BitVec 5) (s : State) : Answer :=
  let n := phases.toNat
  let ps := phasesOf n h.bulk
  let limit := periodNs s.time.period
  if 16 < n then Answer.errD s stInvalidLength 0x10
  else if h.bulk.length ≠ 264 * n then Answer.errD s stInvalidLength 0x08
  else if n = 0 then Answer.ok s
  else if (ps.head?.map (fun p => p.start)) ≠ some 0 then Answer.errD s stInvalid bulkBit
  else if !phasesAscend ps ∨ ps.any (fun p => decide (limit ≤ p.start)) then Answer.errD s stInvalid bulkBit
  else if ps.any Phase.bad then Answer.errD s stInvalid bulkBit
  else Answer.ok ((s.modFabric (fun f => { f with mapChanges := f.mapChanges ++ [(s.leadFrom, ps)] })).extendCfg h (.phaseMapLoad phases))

end Sys2Proof.Machine
end

