-- ==== Sys2Proof/Machine/SlabBase.lean ====
section
/-! DEFINITION. Column maps (R101 to R104), columns and spares (R176 to R178), temperatures and age (R200, R208), tile
maps and binding (R171, R646), the dressing queue (R188, R189) and the unplanned detour (R199). -/

namespace Sys2Proof.Machine

/-! ## Column map (R102, R103) -/

def cmOut (e : Half) : Nat := field e.toNat 0 7
def cmDup (e : Half) : Bool := bitAt e.toNat 7
def cmSlice (e : Half) : Nat := field e.toNat 8 2
def cmFmt (e : Half) : Nat := field e.toNat 10 2
def cmUsed (e : Half) : Bool := cmFmt e != 3

/-- Slices and DUP settings that an output of a format has (R101). -/
def fmtSlices (f : Nat) : List (Nat × Bool) :=
  match f with
  | 0 => [(3, true), (3, true), (2, false), (1, false), (0, false)]
  | 1 => [(3, false), (2, false), (1, false), (0, false)]
  | _ => [(1, true), (1, true), (0, false)]

/-- Shift of a slice (R101). -/
def sliceShift (f slice : Nat) : Nat :=
  match f with
  | 0 => if slice = 3 then 5 else 2 * slice
  | 1 => 2 * slice
  | _ => if slice = 1 then 1 else 0
/-- The top slice, from which the offset is removed (R100). -/
def sliceTop (f slice : Nat) : Bool := if f = 2 then slice == 1 else slice == 3

/-- An entry that breaks R103 or R7 by itself. -/
def cmBad (e : Half) : Bool :=
  if e.toNat / 4096 ≠ 0 then true
  else if !cmUsed e then decide (e.toNat % 1024 ≠ 0)
  else decide (84 < cmOut e) || !(fmtSlices (cmFmt e)).contains (cmSlice e, cmDup e)

/-- The columns of one output have exactly the slices of one format. -/
def outputOk (cols : List Half) : Bool :=
  match cols with
  | [] => true
  | c :: _ =>
    let want := fmtSlices (cmFmt c)
    cols.all (fun e => cmFmt e == cmFmt c) && cols.length == want.length
      && want.all (fun w => (cols.filter (fun e => (cmSlice e, cmDup e) == w)).length == (want.filter (· == w)).length)

/-- The column charged for a map that breaks R103, or 0xFFFFFFFF for a gap in the numbering alone (R238). -/
def mapFault (m : List Half) : Option Nat :=
  let cols := indexed m
  let bad := cols.find? (fun x => cmBad x.2 || (cmUsed x.2
    && !outputOk (m.filter (fun e => cmUsed e && cmOut e == cmOut x.2))))
  match bad with
  | some x => some x.1
  | none =>
    let outs := ((m.filter cmUsed).map cmOut).dedup
    if outs.any (fun o => decide (outs.length ≤ o)) then some 0xFFFFFFFF else none

/-- Output count N of a map (R162). -/
def mapOutputs (m : List Half) : Nat := ((m.filter cmUsed).map cmOut).dedup.length

/-- A map from 512 bytes. -/
def mapOf : Nat → List Byte → List Half
  | 0, _ => []
  | n + 1, l => BitVec.ofNat 16 (leNat (l.take 2)) :: mapOf n (l.drop 2)

/-! ## Columns -/

/-- Physical column of a data or seam column (R178, R232). -/
def Slab.physOf (x : Slab) (j : Nat) : Nat :=
  match x.remap.find? (fun r => r.2 = j) with
  | some r => 264 + r.1
  | none => j

/-- Column that a physical column stands for, if it is active. -/
def Slab.columnOf (x : Slab) (p : Nat) : Option Nat := (List.range 264).find? (fun j => x.physOf j = p)

/-- Spares that may be taken: not remapped, not retired, not being dressed (R180, R225). -/
def Slab.freeSpares (x : Slab) : List Nat :=
  (List.range 8).filter (fun i => (tabFind x.remap i).isNone && !x.retired.contains (264 + i)
    && (match x.spare with | some d => d.spare != i | none => true))

/-- Seam group of a data or seam column. -/
def seamGroup (j : Nat) : Nat := if j < 256 then j / 32 else j - 256

def cellKey (row col : Nat) : Nat := row * 272 + col

/-! ## Column converters (R16, R117, R179, R797, R798) -/

/-- Position of the converter that serves a physical column, through its 16:1 multiplexer (R16, R117). -/
def colPosition (p : Nat) : Nat := p / 16

/-- Correction of the unit that serves a physical column of slab `k` (R796, R797). -/
def State.colCorr (s : State) (k p : Nat) : ConvCorr := s.convCorr (k * 18 + nth 17 (s.slab k).units (colPosition p))

/-- STEP of R798 in half cell units, and the limit, in the coarse and the fine range. -/
def coarseStep : Nat := 48
def coarseLimit : Nat := 2880
def fineStep : Nat := 3
def fineLimit : Nat := 180

/-- Value of a code in cell units before its limit (R798). -/
def codeValue (c : ConvCorr) (step : Nat) (code : Int) : Int := divRound ((16 * code - c.offset) * c.gain * step) 524288

/-- Code that a unit delivers for `num / den` cell units: the one whose value comes nearest, off by `noise` codes. -/
def codeOf (c : ConvCorr) (step : Nat) (num : Int) (den : Nat) (noise : Int) : Int :=
  let w := max 1 (c.gain * step * den)
  clampI (-128) 127 (divRound (num * 524288 + c.offset * w) (16 * w) + noise)

/-- A code that clips (R798). -/
def codeClips (c : ConvCorr) (step lim : Nat) (k : Int) : Bool := k == -128 || k == 127 || decide ((lim : Int) < (codeValue c step k).natAbs)

/-- The code nearest to the one a unit delivers that does not clip: the codes next to the ends of the range are the last to be within. -/
def codeWithin (c : ConvCorr) (step lim : Nat) (k : Int) : Int :=
  let hi := codeOf c step lim 1 0
  let lo := codeOf c step (-lim) 1 0
  clampI (if codeClips c step lim lo then lo + 1 else lo) (if codeClips c step lim hi then hi - 1 else hi) k

/-- A conversion of `num / den` cell units: its value, and whether it clips. A sum within the range converts without clipping; one
outside converts as the nearest end of it (R115, R798). -/
def convertColumn (c : ConvCorr) (step lim : Nat) (num : Int) (den : Nat) (noise : Int) : Int × Bool :=
  if num.natAbs ≤ lim * den then
    (clampI (-lim) lim (codeValue c step (codeWithin c step lim (codeOf c step num den noise))), false)
  else (if num < 0 then -(lim : Int) else lim, true)

/-- A read of one cell of data or seam column `j`: its row alone is driven, at amplitude 15, and its column converts in the fine
range (R179). -/
def State.fineRead (s : State) (k row j : Nat) : Int :=
  let p := (s.slab k).physOf j
  (convertColumn (s.colCorr k p) fineStep fineLimit (15 * ((tabGet 0 (s.slab k).cells (cellKey row p) : Nat) : Int)) (if j < 256 then 1 else 32) 0).1

/-- DR0 read minus DR1 read of a column (R176), and the most that two reads in the fine range differ by. -/
def State.refRead (s : State) (k j : Nat) : Int := s.fineRead k 256 j - s.fineRead k 257 j
def refLimit : Int := 2 * fineLimit

/-! ## Accumulators (R126, R127, R131) -/

def lim32 : Nat := 2147483647
def lim40 : Nat := 549755813887

/-- Data columns that carry an output (R102). -/
def Slab.outCols (x : Slab) (o : Nat) : List Nat :=
  (List.range 256).filter (fun j => cmUsed (nth 0 x.map j) && cmOut (nth 0 x.map j) == o)

/-- Result of an output, and whether sat40 limits it (R127, R133). -/
def Slab.resultOf (x : Slab) (a : AccSet) (o : Nat) : Int × Bool :=
  satI lim40 (tabGet 0 a.base o + sumI ((x.outCols o).map (fun j => tabGet 0 a.slice (x.physOf j))))

/-- A RESULT entry of a half of the accumulator window whose sat40 limits: SAT is set as it is read (R127, R133). -/
def Slab.markRead (x : Slab) (o n : Nat) : Slab :=
  let live := decide (o < 0x800)
  let a := if live then x.live else x.shadow
  let lo := o % 0x800
  let k := ((List.range 85).filter (fun j =>
    decide (lo < 0x448 + 8 * j) && decide (0x440 + 8 * j < lo + n) && (x.resultOf a j).2)).length
  if k = 0 then x
  else
    let a := { a with sat := true }
    let x := if live then { x with live := a } else { x with shadow := a }
    { x with status := x.status.hitN 0 k }

/-- The accumulator of one physical column passes to another. -/
def AccSet.moveColumn (a : AccSet) (p q : Nat) : AccSet :=
  { a with slice := tabSet 0 (tabDel a.slice p) q (tabGet 0 a.slice p) }

/-- Spare `i` takes the place of a column (R178, R227): its accumulators follow the column, and the physical column that
carried it is retired and at code 0 (R177). -/
def Slab.remapTo (x : Slab) (i j : Nat) : Slab :=
  let p := x.physOf j
  { x with
    remap := tabPut (x.remap.filter (fun r => r.2 ≠ j)) i j, retired := x.retired ++ [p], cells := x.cells.filter (fun c => c.1 % 272 ≠ p)
    unmet := x.unmet.filter (fun c => c.1 % 272 ≠ p)
    live := x.live.moveColumn p (264 + i), shadow := x.shadow.moveColumn p (264 + i) }

/-- Codes of a master copy's cells by row and data column, 0 where the column is unused (R104, R705). -/
def copyCode (m : List Half) (cells : List Byte) (r j : Nat) : Nat :=
  if cmUsed (nth 0 m j) then (nth 0 cells (256 * r + j)).toNat % 4 else 0

/-- Target of a data or seam column in a row of the slab (R174 to R176), seam cells in 1/32 cell units. -/
def cellTarget (m : List Half) (cells : List Byte) (r j : Nat) : Nat :=
  if r = 256 then (if j < 256 then 3 else 96)
  else if r = 257 then (if j < 256 then 1 else 32)
  else if j < 256 then copyCode m cells r j
  else ((List.range 32).map (fun k => copyCode m cells r (32 * (j - 256) + k))).sum

/-- The cells of a slab dressed with a tile (R174 to R178): every active column at its targets, all others at 0. -/
def Slab.dressed (x : Slab) (m : List Half) (cells : List Byte) : Tab Nat :=
  (List.range 258).flatMap (fun r => (List.range 272).filterMap (fun p =>
    match x.columnOf p with
    | some j => let t := cellTarget m cells r j; if t = 0 then none else some (cellKey r p, t)
    | none => none))

/-- A free code of a cell: one of 4 in a data column, one of 97 in a seam column (R175). -/
def Slab.freeCell (x : Slab) (free key : Nat) : Nat :=
  Config.freeNat (free + key) % (match x.columnOf (key % 272) with
    | some j => if j < 256 then 4 else 97
    | none => 4)

/-- Cells during the second pass (R180, R181): of the spares it dresses, the rows passed hold their targets, the row under way is free, and
the rows after it are at code 0; all others are as the first pass left them. -/
def Slab.secondPass (x : Slab) (r : RunningDress) (now : Nat) : Tab Nat :=
  let n := (now - r.startedAt - 4000000) / 15000
  r.spares.foldl (fun t p => if 258 ≤ n then t else tabSet 0 t (cellKey n p) (x.freeCell r.free (cellKey n p)))
    (r.goal.filter (fun c => !(r.spares.contains (c.1 % 272) && decide (n ≤ c.1 / 272))) ++
      if 258 ≤ n then r.goal.filter (fun c => r.spares.contains (c.1 % 272) && decide (n ≤ c.1 / 272)) else [])

/-- Cells of a slab now. Under dressing (R181) they are reset for 100 us, every one free; then the rows passed hold their targets, the
active columns of the row under way are free, and the rows after it are at code 0. -/
def Slab.cellsNow (x : Slab) (now : Nat) : Tab Nat :=
  match x.running with
  | none => x.cells
  | some r =>
    if r.doneAt.isSome then x.cells
    else if r.retired.isSome then x.secondPass r now
    else if now < r.startedAt + 100000 then (List.range (258 * 272)).filterMap (fun k =>
      let v := x.freeCell r.free k
      if v = 0 then none else some (k, v))
    else
      let n := (now - r.startedAt - 100000) / 15000
      r.goal.filter (fun c => decide (c.1 < 272 * n)) ++ (if 258 ≤ n then [] else
        (List.range 272).filterMap (fun p =>
          let v := x.freeCell r.free (cellKey n p)
          if v = 0 ∨ (x.columnOf p).isNone then none else some (cellKey n p, v)))

/-! ## Temperatures (R200) -/

/-- Zone sensors of a cluster's compute die: die * 64 + 2k and 2k + 1 (R753). -/
def clusterSensors (c : Nat) : List Nat := [c / 32 * 128 + 2 * (c % 32), c / 32 * 128 + 2 * (c % 32) + 1]

def meanI (l : List Int) : Int := if l.isEmpty then 0 else divRound (sumI l) l.length

/-- A sensor's reading: 150 degC once it has failed (R754). -/
def State.reading (s : State) (k : Nat) : Int := if (s.sensor k).failed then 600 else (s.sensor k).temp

/-- Temperature used for a cluster's slabs, as a sum and a count of readings in 0.25 degC. -/
def State.slabTemps (s : State) (c : Nat) : List Int :=
  let own := ((clusterSensors c).map s.reading).filter (· ≠ 600)
  if own.isEmpty then (((List.range 64).map (fun i => s.reading (c / 32 * 128 + i))).filter (· ≠ 600)) else own
/-- That temperature in 0.25 degC; a mean between two steps rounds to nearest. DESIGN CHOICE: of a die that has no valid sensor it is a
free value (assumption 64). -/
def State.slabTemp (s : State) (c : Nat) : Int :=
  if (s.slabTemps c).isEmpty then Config.blindTemp c else meanI (s.slabTemps c)

/-! ## Age (R207, R208) -/

def Slab.ageValid (x : Slab) (t : TimeState) : Bool :=
  ((!x.timebase && t.tai) || (x.timebase && x.thisPower)) && decide (x.dressTime.toNat ≤ t.timeNs.toNat)

/-- AGE in seconds (R208). -/
def Slab.age (x : Slab) (t : TimeState) : Nat :=
  if x.ageValid t then min ((t.timeNs.toNat - x.dressTime.toNat) / 1000000000) 0xFFFFFFFF else 0

/-! ## Master copies and binding (R170, R171, R646) -/

/-- Page and offset of the copy that carries a TILE_ID, mapped in force for a tenant. -/
def State.tileAt (s : State) (tenant : Nat) (id : Dword) : Option (Nat × Nat) :=
  (s.tiles.find? (fun t => t.notBefore.isNone && decide (t.tenant = tenant) && decide (t.tileId = id))).map
    (fun t => (t.page, t.ofs))

/-- TILE_DIGEST of a master copy (R705). -/
def State.copyDigest (s : State) (page ofs : Nat) : BitVec 256 := sha256Bv (s.hbmRead (hbmKey page ofs) 0x10200)

/-- The column map and the cells of a master copy. -/
def State.copyMap (s : State) (page ofs : Nat) : List Half := mapOf 256 (s.hbmRead (hbmKey page ofs) 512)
def State.copyCells (s : State) (page ofs : Nat) : List Byte := s.hbmRead (hbmKey page (ofs + 0x200)) 65536

/-! ## Dressing queue (R188, R189) -/

/-- Start order: class, oldest slab first among age re-dressings, then queue time. -/
def dressKey (x : Slab) (q : QueuedDress) : Nat :=
  (q.cls * 2 ^ 64 + (if q.cls = 3 then x.dressTime.toNat else 0)) * 2 ^ 128 + q.queuedAt * 2 ^ 64 + q.order

/-- Slabs with a queued dressing, in start order. -/
def State.dressQueue (s : State) : List Nat :=
  (sortQ (s.slabs.filterMap (fun x => x.2.queued.map (fun q => (dressKey x.2 q, x.1))))).map (fun x => x.2)
where
  insertQ (a : Nat × Nat) : List (Nat × Nat) → List (Nat × Nat)
    | [] => [a]
    | b :: t => if a.1 < b.1 then a :: b :: t else b :: insertQ a t
  sortQ : List (Nat × Nat) → List (Nat × Nat)
    | [] => []
    | a :: t => insertQ a (sortQ t)

/-- Parameters in force on a slab. -/
def Slab.paramsNow (x : Slab) : DressParams :=
  { tileId := x.tileId, seamThresh := x.seamThresh, redressAge := x.redressAge, model := x.model }

/-- Queue a dressing, or merge it with the one queued (R189). -/
def State.queueDress (s : State) (k cls : Nat) (p : Option DressParams) : State :=
  let order := (s.slabs.filterMap (fun x => x.2.queued)).foldl (fun n q => max n (q.order + 1)) 0
  s.modSlab k (fun x => { x with queued := match x.queued with
    | none => some { cls := cls, queuedAt := s.now, order := order, params := p }
    | some q =>
      let q := if cls < q.cls then { q with cls := cls, queuedAt := s.now, order := order } else q
      some { q with params := match p with | some y => some y | none => q.params } })

/-- An INCOMPLETE slab is queued as a seam repair once it is BOUND in PS0 (R193). -/
def State.queueCut (s : State) (k : Nat) : State :=
  if (s.slab k).dress = .incomplete ∧ (s.slab k).bound then s.queueDress k 0 none else s

/-- A mapped copy matches a slab of its tenant: the slab becomes BOUND (R171, R645, R646); an INCOMPLETE slab is then queued
as a seam repair (R193). -/
def State.bindSlab (s : State) (t : TileMap) (k : Nat) : State :=
  let x := s.slab k
  if x.dress ≠ .blank ∧ x.tileId = t.tileId ∧ s.clusterTenant (slabCluster k) = some t.tenant
      ∧ x.digest = s.copyDigest t.page t.ofs then
    let s := s.setSlab k { x with bound := true, sealed_ := false, master := some (t.page, t.ofs) }
    if s.power.pstate = .ps0 then s.queueCut k else s
  else s

/-- A tile map entry comes in force (R492). -/
def State.applyTile (s : State) (t : TileMap) : State :=
  let s := { s with tiles := s.tiles.filter (fun y => !(y.notBefore.isNone && decide (y.tenant = t.tenant)
      && decide (y.tileId = t.tileId))) ++ [{ t with notBefore := none }] }
  forEach ((s.slabs.filter (fun x => decide (x.2.tileId = t.tileId))).map (fun x => x.1)) s (fun s k => s.bindSlab t k)

/-- Injected seam faults mark the slab's events (R867). -/
def State.slabInjected (s : State) (k : Nat) : Bool :=
  s.faults.any (fun f => decide (f.kind = 3) && decide (f.target / 272 = k))

/-- SEAM_FAIL: the flag, unless the seam column alone is at fault, and the event (R216, R233). -/
def State.seamFail (s : State) (k g column row : Nat) (inj : Bool) : State :=
  (s.modSlab k (fun y => { y with status := y.status.hitIf (row != 1) 8 })).upkeep k upSeamFail g column row inj

/-- The unplanned detour: the slab leaves service and a seam repair is queued (R199, R216). The running task has reconstructed in `n`
bench-phases, and does so in no further one. -/
def State.unplannedDetour (s : State) (k n : Nat) : State :=
  (s.modSlab k (fun x => { x with
    dress := .detour, recon := [], kept := x.kept ++ x.recon.map (fun f => (f, n)), spare := none, mismatch := none
    detourReady := false })).queueDress k 0 none

/-- A slab whose tasks run as detour (R169). -/
def Slab.detours (x : Slab) : Bool :=
  x.dress == .dressing || x.dress == .detour || x.dress == .failed || x.dress == .incomplete

/-- In service on its own cells. -/
def Slab.inService (x : Slab) : Bool := x.dress == .ready || x.dress == .repair

/-- HBM answers: not in self-refresh, not off (R749). -/
def State.hbmOn (s : State) : Bool :=
  match s.power.pstate with
  | .ps0 => true
  | .ps1 => true
  | _ => false

end Sys2Proof.Machine
end

