-- ==== Sys2Proof/Machine/OptBase.lean ====
section
/-! DEFINITION. The optical engine's records as they stand (R248 to R251, R261), and what runs in a cluster: the tasks of
its passes, its slabs and engines. -/

namespace Sys2Proof.Machine

/-! ## Engine records -/

/-- Physical row that serves a logical row (R261). -/
def Engine.physRow (x : Engine) (k : Nat) : Nat := tabGet k x.rowMap k

/-- Row states as the module is delivered: rows 0 to 63 mapped, row 64 STANDBY, row 65 in CAL. -/
def rowStateInit (p : Nat) : RowState := if p < 64 then .service else if p = 64 then .standby else .cal
def Engine.rowState (x : Engine) (p : Nat) : RowState := tabGet (rowStateInit p) x.rows p
def Engine.setRow (x : Engine) (p : Nat) (r : RowState) : Engine :=
  { x with rows := tabSet (rowStateInit p) x.rows p r }
def Engine.mapRow (x : Engine) (k p : Nat) : Engine := { x with rowMap := tabSet k x.rowMap k p }
/-- Logical row that a physical row serves. -/
def Engine.logicalOf (x : Engine) (p : Nat) : Option Nat := (List.range 64).find? (fun k => x.physRow k = p)
def Engine.standby (x : Engine) : Option Nat := (List.range 66).find? (fun p => x.rowState p == .standby)

def RowState.code : RowState → Nat
  | .service => 0
  | .standby => 1
  | .cal => 2
  | .reacquire => 3
  | .failed => 4

/-- RING_CAL of ring `r` of a physical row (R248). -/
def Engine.ring (x : Engine) (row r : Nat) : RingCal := tabGet RingCal.init x.ringCal (64 * row + r)
/-- RING_TRIM of rings from a key on: pairs NV_TRIM, HOFS of a calibration (R370). A ring whose HOFS would leave 4,000 units has its
NV_TRIM rewritten, `force` for every one (R358); its HOFS under the new trim is then the pair's if that lies within the limit, else
free. -/
def State.putTrims (s : State) (force : Bool) (key : Nat) (l : List (Nat × Int)) : State :=
  forEach (indexed l) s (fun s x =>
    let far := decide (4000 < x.2.2.natAbs)
    let old := tabGet ((0, 0) : Nat × Int) s.ringTrim (key + x.1)
    let hofs : Int := if far then s.freeNat % 8001 - 4000 else x.2.2
    { (if far then s.takeFree else s) with
      ringTrim := tabSet (0, 0) s.ringTrim (key + x.1) (if far || force then x.2.1 % 4096 else old.1, hofs) })

/-- Engine and physical row of a ROW loop. -/
def rowOf (k : Nat) : Option (Nat × Nat) :=
  if k < 5120 ∧ k % 2560 < 2112 then some (k / 2560 * 32 + k % 2560 / 66, k % 2560 % 66) else none
/-- Loop of a physical row. -/
def rowLoop (e row : Nat) : Nat := e / 32 * 2560 + e % 32 * 66 + row

/-- A frozen loop that leaves service discards what is staged and is unfrozen (R389). -/
def State.thaw (s : State) (k detail : Nat) : State :=
  let y := s.modLoop k (fun x => { x with frozen := false, staged := none, freezeFrom := none, releaseFrom := none })
  if (s.loop k).frozen then y.light 0xFF liFreezeTimeout 0xFF 0xFF k detail false else y

/-- PRED, identity as the module is delivered (R249). -/
def Engine.predOf (x : Engine) (d : Nat) : Nat := tabGet d x.pred d
/-- NORM, 1.0 until the first control tick (R251). -/
def Engine.normOf (x : Engine) (n : Nat) : Nat := tabGet 0x8000 x.norm n
/-- Power of a line in the unit of `Measurements.linePower`, as calibrated and in force. -/
def Engine.nomOf (x : Engine) (n : Nat) : Nat := tabGet 0x8000 x.pNom n

/-- What an epoch has seen (R289), and a change of it. -/
def Engine.epochInfo (x : Engine) (ep : Nat) : EpochInfo := tabGet EpochInfo.init x.epochs ep
def Engine.modEpoch (x : Engine) (ep : Nat) (f : EpochInfo → EpochInfo) : Engine :=
  { x with epochs := tabSet EpochInfo.init x.epochs ep (f (x.epochInfo ep)) }
/-- The verdict of an epoch has not been published by `now` (R291). -/
def Engine.isOpen (x : Engine) (now ep : Nat) : Bool := !(x.anyVerdict && epLe ep x.lastVerdict && epLe x.lastVerdict now)
/-- Epoch numbers from one to another, both included. -/
def epochsFrom (a b : Nat) : List Nat := (List.range ((b + 4294967296 - a) % 4294967296 + 1)).map (fun i => (a + i) % 4294967296)

/-- A weight of a set. DESIGN CHOICE: the weights of a set that has never been loaded are zero (assumption 94). -/
def WeightSet.at_ (w : WeightSet) (row line : Nat) : Int := tabGet 0 w.q (64 * row + line)
/-- ROW_OFS of a logical row (R242). -/
def WeightSet.rowOfs (w : WeightSet) (row : Nat) : Int := 128 * sumI ((List.range 64).map (w.at_ row))

/-! ## What runs -/

def Cluster.runsAt (c : Cluster) (p : TaskRun → Bool) : List Nat := (c.runs.filter (fun x => p x.2)).map (fun x => x.1)

/-- A task of a kind is running. -/
def Cluster.kindRuns (c : Cluster) (kind : Nat) : Bool :=
  c.runs.any (fun x => x.2.phase == .running && dKind (c.task x.1) == kind)

/-- A SLAB_MVM that names a slab is running on it (R136, R161). -/
def State.slabRuns (s : State) (k : Nat) : Bool :=
  let c := s.cluster (slabCluster k)
  c.runs.any (fun x => x.2.phase == .running && dKind (c.task x.1) == kSlab && !x.2.detour
    && decide (dLcore (c.task x.1) = k / 4 % 64)
    && (smSlabs (c.task x.1)).contains (k % 4))

/-- Epoch in which a clock lies. -/
def State.epochOf (s : State) (clock : Nat) : Nat := s.time.epochAt (s.timeNat + clock - s.now)

/-! ## Symbols of an OPTICAL_MVM and of a detour batch (R244, R254, R279, R305, R879) -/

/-- Nanoseconds from the last symbol to the end of a task, by RATE (R279). -/
def tailNs (rate : Nat) : Nat := if rate = 0 then 12 else if rate = 1 then 18 else 42

/-- Swap guard in symbol periods (R254), and a symbol period in 1/1024 ns (R41, R244). -/
def guardSyms (rate : Nat) : Nat := if rate = 0 then 5 else if rate = 1 then 2 else 1
def symPeriod (rate : Nat) : Nat := 250 * 4 ^ rate

/-- From the start of an OPTICAL_MVM to its first symbol, in 1/1024 ns, and to its end, in whole ns (R279): a replay first loads its
weight set again (R305). -/
def omLead (d : Desc) (replayed : Bool) : Nat :=
  16 * 1024 + (if replayed then 64 * 1024 else 0) + (if omSwap d || replayed then guardSyms (omRate d) * symPeriod (omRate d) else 0)
def omNs (d : Desc) (replayed : Bool) : Nat := (omLead d replayed + (omVcount d + 8) * symPeriod (omRate d)) / 1024 + 10

/-- A detour batch of `n` tasks over `b` blocks, from its start to its first symbol and to its last result, in whole ns (R879). -/
def batchLead : Nat := (80 * 1024 + guardSyms 1 * symPeriod 1) / 1024
def batchNs (n b : Nat) : Nat := 26 + (b * (max 65536 (n * symPeriod 1) + guardSyms 1 * symPeriod 1) + (n + 8) * symPeriod 1) / 1024

/-- What an OPTICAL_MVM or a detour batch has run by now in issue time (R378), its pauses left out. -/
def State.ran (s : State) (r : TaskRun) : Nat :=
  r.delay + (if r.phase = .paused then 0 else s.now - r.applied - (s.time.lost - r.lost) / 256)
/-- What the time from the last symbol to the end of a task takes beyond issue time (R279, R378). -/
def State.tailRest (s : State) (rate : Nat) : Nat := tailNs rate - s.issueSpan (tailNs rate)
/-- Symbol periods that an OPTICAL_MVM has had. -/
def State.symbols (s : State) (d : Desc) (r : TaskRun) : Nat := (s.ran r * 1024 - omLead d r.replayed) / symPeriod (omRate d)
/-- Clock of its first symbol since it started or went on. -/
def TaskRun.firstSymbol (r : TaskRun) (d : Desc) : Nat := r.applied + (if r.delay = 0 then omLead d r.replayed / 1024 else 0)
/-- End of the output tile that it is producing, with `k` vectors over (R875), and the time that it still takes to get there, in ns. -/
def omTileEnd (d : Desc) (k : Nat) : Nat := min (omVcount d) ((k / omVecsOut d + 1) * omVecsOut d)
def State.toTileEnd (s : State) (d : Desc) (r : TaskRun) (k : Nat) : Nat :=
  ((omLead d r.replayed - s.ran r * 1024) + (omTileEnd d k - k) * symPeriod (omRate d)) / 1024 * 256 / (s.power.activity + 1)

/-- Epochs of an engine in which symbols were integrated, the first at one clock and the last at another, none of which has had its
verdict. -/
def State.integrate (s : State) (e from_ till symbols : Nat) : State :=
  let last := s.epochOf till
  let first := s.epochOf from_
  let l := if epLe first last then epochsFrom first last else [last]
  s.modEngine e (fun x =>
    { (l.filter (x.isOpen s.epochNow)).foldl (fun (x : Engine) ep => x.modEpoch ep (fun i => { i with integrated := true })) x with
      symbols := (x.symbols + symbols) % 2 ^ 32 })

/-- An OPTICAL_MVM at work, with a free number of vectors over, as many as it has had symbol periods for, pauses at the end of the output
tile that it is producing; in its last one it goes on to its end (R283, R875). The epochs in which it integrates until then are known
(R298). DESIGN CHOICE: from the start of the slot to that end no symbol stalls (assumption 106). -/
def State.pauseOptical (s : State) (c i : Nat) (r : TaskRun) : State :=
  let d := (s.cluster c).task i
  let k := max r.sent (s.freeNat % (min (s.symbols d r) (omVcount d) + 1))
  let n := omTileEnd d k
  let left := s.toTileEnd d r k
  let till := s.now + left
  let ran := s.ran r + s.issueSpan left
  let s := s.takeFree
  if n = omVcount d then s
  else (s.integrate c (r.firstSymbol d) till 0).modCluster c (fun x => x.setRun i
    { r with phase := .paused, stopped := some till, sent := n, delay := ran, applied := till })

/-- A running task pauses (R89, R767). -/
def State.pauseTask (s : State) (c i : Nat) (r : TaskRun) : State :=
  if dKind ((s.cluster c).task i) = kOptical ∧ r.begun then s.pauseOptical c i r
  else s.modCluster c (fun x => x.setRun i { r with phase := .paused, stopped := some s.now })

def State.pauseTasks (s : State) (c : Nat) (sel : Nat → Bool) : State :=
  forEach ((s.cluster c).runsAt (fun r => r.phase == .running)) s (fun s i => match (s.cluster c).run i with
    | some r => if sel i then s.pauseTask c i r else s
    | none => s)

/-- A paused task goes on: its clocks leave the pause out; with `anew` what it had done by then is counted, and the rest starts now. -/
def TaskRun.resume (r : TaskRun) (anew : Bool) (now lost : Nat) : TaskRun :=
  { r with phase := .running, stopped := none, lost := lost
           applied := if anew then max now (r.stopped.getD now) else r.applied + (now - r.stopped.getD now) }

/-- The engine is at work (R313). -/
def State.engineRuns (s : State) (e : Nat) : Bool :=
  (s.cluster e).kindRuns kOptical || !(s.engine e).batch.isEmpty

/-- A slab of the cluster is in detour (R313). -/
def State.clusterDetours (s : State) (c : Nat) : Bool :=
  s.slabs.any (fun x => decide (slabCluster x.1 = c) && x.2.detours)

end Sys2Proof.Machine
end

