-- ==== Sys2Proof/Machine/Rows.lean ====
section
/-! DEFINITION. Rows of an optical engine (R247, R251, R261 to R266, R359, R360): weight codes, the rows in service, the
rotation through calibration, and the row that takes over from one removed. -/

namespace Sys2Proof.Machine

/-! ## Weight codes (R247) -/

/-- d_lin of a weight, before its clamp; the DAC takes PRED of the clamped code. -/
def Engine.dLin (x : Engine) (row line : Nat) (q : Int) : Int :=
  let c := x.ring row line
  c.zero + shiftRound (q * c.gain * x.normOf line) 28

/-- The code of a weight of a logical row is clamped. -/
def Engine.clamped (x : Engine) (k line : Nat) (q : Int) : Bool :=
  let d := x.dLin (x.physRow k) line q
  decide (d < 0) || decide (1023 < d)

/-- Weights of a set, in the logical rows selected, whose code is clamped. -/
def Engine.clamps (x : Engine) (w : WeightSet) (rows : Nat → Bool) : Nat :=
  (w.q.filter (fun q => rows (q.1 / 64) && x.clamped (q.1 / 64) (q.1 % 64) q.2)).length

/-- DAC code of a weight: PRED of the clamped d_lin (R247, R249). -/
def Engine.code (x : Engine) (row line : Nat) (q : Int) : Nat := x.predOf (clampI 0 1023 (x.dLin row line q)).toNat

/-- The set's codes are formed for the rows selected: a clamp sets SAT (R247, R313). -/
def Engine.loadRows (x : Engine) (w : WeightSet) (rows : Nat → Bool) : WeightSet × Nat :=
  let n := x.clamps w rows
  ({ w with
    sat := w.sat || decide (0 < n)
    codes := w.q.map (fun q =>
      (q.1, if rows (q.1 / 64) then x.code (x.physRow (q.1 / 64)) (q.1 % 64) q.2 else tabGet 0 w.codes q.1)) }, n)

/-- The whole set is loaded under the NORM of now (R252, R253). -/
def Engine.loadSet (x : Engine) (w : WeightSet) : WeightSet × Nat :=
  let l := x.loadRows { w with sat := false } (fun _ => true)
  ({ l.1 with power := x.pNow }, l.2)

/-- The active set and a pending shadow set are loaded again from the weight store, and the active one swapped in (R252, R256, R287,
R326). -/
def Engine.reload (x : Engine) (now : Nat) : Engine :=
  let a := x.loadSet x.active
  let b := x.loadSet x.shadow
  { x with
    active := if x.active.loaded then { a.1 with since := now } else x.active
    shadow := if x.shadow.loaded then b.1 else x.shadow
    refreshDue := false, status := x.status.hitN 0 (a.2 + b.2) }

/-! ## Swaps and rows (R262, R264 to R266) -/

/-- A logical row passes to a physical row at a swap: its holds are loaded from the weight store (R262). DESIGN CHOICE: the event names no
epoch; of the optical kinds only EPOCH_DIRTY and SPOIL name one (R317, assumption 69). -/
def State.takeRow (s : State) (e q k cause : Nat) (old : Nat) (inj : Bool) : State :=
  let s := s.modEngine e (fun x =>
    let x := (x.mapRow k q).setRow q .service
    let a := x.loadRows x.active (fun r => r == k)
    let b := x.loadRows x.shadow (fun r => r == k)
    { x with active := a.1, shadow := b.1, status := x.status.hitN 0 (a.2 + b.2) })
  s.optical e opRowSwap q 0xFF 0 (old + cause * 2 ^ 8) inj

/-- Next row of the rotation, from row `p` on, that can be calibrated while `q` stands by: one in service, or another that is
STANDBY (R263). -/
def Engine.nextInRotation (x : Engine) (p q : Nat) : Option Nat :=
  ((List.range 66).map (fun i => (p + i) % 66)).find? (fun r =>
    (x.rowState r == .service && (x.logicalOf r).isSome) || (x.rowState r == .standby && r != q))

/-- At a swap the row that completed its calibration, or in a rotation that was abandoned the row that is STANDBY again,
takes the logical row of the next row in rotation order, which enters CAL (R264, R266); a next row that is STANDBY has none to give. -/
def State.rotateRows (s : State) (e : Nat) : State :=
  let x := s.engine e
  let q := match x.rotDue with
    | some p => some p
    | none => if x.calRow.isNone then x.standby else none
  match q, q.bind (x.nextInRotation x.rotationNext) with
  | some q, some old =>
    if x.rowState q ≠ .standby ∨ !x.unmapped.isEmpty then s
    else
      let s := match x.logicalOf old with
        | some k => ((s.takeRow e q k 0 old false).modEngine e (fun x => { x with left := x.left ++ [old] })).thaw (rowLoop e old) 1
        | none => s
      s.modEngine e (fun x => { x.setRow old .cal with
        rotDue := none, calRow := some old, calSlots := 0, rotationNext := (old + 1) % 66
        calSaved := (List.range 64).map (fun r => (64 * old + r, x.ring old r)) })
  | _, _ => s

/-- A weight set changes place: every swap applies the rows that wait for one (R262). -/
def State.swapSets (s : State) (e : Nat) (f : Engine → Engine) : State := (s.modEngine e f).rotateRows e

/-- The epoch in progress closes dirty, with the cause of a removal (R360). -/
def State.dirtyRow (s : State) (e p : Nat) (pilot inj : Bool) : State :=
  s.modEngine e (fun x => x.modEpoch s.epochNow (fun i =>
    { i with forced := true, inj := i.inj || inj, ring := i.ring || !pilot, pilot := i.pilot || pilot, row := some (i.row.getD p) }))

/-- An interrupted calibration: its records are restored, and the row keeps its place in the rotation (R266). -/
def Engine.abandonCal (x : Engine) : Engine :=
  match x.calRow with
  | some p => { x with
      ringCal := x.calSaved.foldl (fun t r => tabSet RingCal.init t r.1 r.2) x.ringCal
      calSaved := [], calSlots := 0, rotationNext := p }
  | none => x

/-- The row in CAL has abandoned its calibration: the rotation is to go on with that very row (R266). -/
def Engine.abandoned (x : Engine) : Bool := x.calRow == some x.rotationNext

/-- A row that is removed for a mislock (cause 1) or a lock loss (cause 2) enters REACQUIRE; the STANDBY row takes its
logical row by a forced swap (R265, R359), or the row in CAL is to become STANDBY (R266). DESIGN CHOICE: of several STANDBY rows the
lowest that is not due in the rotation takes over, the one due only where it is alone; NO_STANDBY names the row that left service
(assumption 106). -/
def State.removeRow (s : State) (e p cause : Nat) (pilot inj : Bool) : State :=
  let x := s.engine e
  match x.rowState p with
  | .service =>
    let k := (x.logicalOf p).getD 0
    let s := (s.modEngine e (fun x => x.setRow p .reacquire)).dirtyRow e p pilot inj
    let free := (List.range 66).filter (fun r => x.rowState r == .standby)
    (match free.find? (fun r => x.rotDue ≠ some r), free with
    | some q, _ => (s.takeRow e q k cause p inj).rotateRows e
    | none, q :: _ => (s.takeRow e q k cause p inj).modEngine e (fun x => { x with rotDue := none })
    | none, [] =>
      let s := (s.optical e opNoStandby p 0xFF 0 0 inj).modEngine e (fun x =>
        { x.abandonCal with status := x.status.hit 9, unmapped := x.unmapped ++
          [{ logical := k, row := p, cause := cause, pilot := pilot, inj := inj, since := s.epochNow }] })
      s.updateCapacity e)
  | .cal => (s.modEngine e (fun x => { x.abandonCal.setRow p .reacquire with calRow := none })).updateCapacity e
  | .standby => s.modEngine e (fun x => { x.setRow p .reacquire with rotDue := if x.rotDue = some p then none else x.rotDue })
  | _ => s

/-- What an epoch has seen, once a row's removal has made it dirty (R266, R360). -/
def EpochInfo.unmapped (i : EpochInfo) (u : Unmapped) : EpochInfo :=
  { i with
    forced := true, inj := i.inj || u.inj, ring := i.ring || !u.pilot, pilot := i.pilot || u.pilot, row := some (i.row.getD u.row) }

/-- The epoch holds a moment from the detection of a row's removal on, by the numbering of now or, where that has stepped back, by the old
one. -/
def Unmapped.covers (u : Unmapped) (ep now : Nat) : Bool := epLe u.since ep || !epLe u.since now

/-- Every epoch from the one in which a row's removal was detected to now, none of which has had its verdict, closes dirty (R266, R360). -/
def Engine.fillDirty (x : Engine) (u : Unmapped) (now : Nat) : Engine :=
  let n := (now + 4294967296 - u.since) % 4294967296
  let latest := (List.range (if n < 64 then n + 1 else 64)).map (fun i => (now + 4294967296 - i) % 4294967296)
  let seen := (x.epochs.map (fun y => y.1)).filter (fun ep => u.covers ep now)
  ((latest ++ seen).dedup.filter (x.isOpen now)).foldl (fun (g : Engine) ep => g.modEpoch ep (fun i => i.unmapped u)) x

/-- A row becomes STANDBY; a logical row that waits for one is mapped by a forced swap (R265, R266). -/
def State.rowStandby (s : State) (e p : Nat) : State :=
  let s := s.modEngine e (fun x => x.setRow p .standby)
  match (s.engine e).unmapped with
  | [] => s
  | u :: rest =>
    let s := s.modEngine e (fun x => x.fillDirty u s.epochNow)
    let s := s.takeRow e p u.logical u.cause u.row u.inj
    ((s.modEngine e (fun x => { x with unmapped := rest, rotDue := if x.rotDue = some p then none else x.rotDue })).updateCapacity e).rotateRows e

/-- CAL_ROW_STANDBY (R266). -/
def State.calRowStandby (s : State) (e : Nat) : State :=
  let x := s.engine e
  match x.calRow with
  | some p =>
    if !x.abandoned then s
    else (s.modEngine e (fun x => { x with calRow := none })).rowStandby e p
  | none => s

def execCalRowStandby (dt : Nat) (engine : EngineId) (s : State) : Host.Outcome State Fault Refusal :=
  .next ((s.elapse dt).calRowStandby engine)

end Sys2Proof.Machine
end

