-- ==== Sys2Proof/Machine/CmdDomain.lean ====
section
/-! DEFINITION. The domain commands: DOMAIN_JOIN, DOMAIN_LEAVE, DOMAIN_RELAY and ROLE_SET (R599 to R608, R708). -/

namespace Sys2Proof.Machine

/-- Reserved fields of a join payload (R708): the first offset. -/
def joinReserved (l : List Byte) : Option Nat :=
  (indexed l).findSome? (fun x =>
    let o := x.1
    let r := (o - 0xA0) % 64
    let bad :=
      if o < 0xA0 then
        if o = 1 ∨ (6 ≤ o ∧ o < 0x20) then x.2 ≠ 0 else if o = 5 then 2 ≤ x.2.toNat else false
      else if r = 1 then 64 ≤ x.2.toNat
      else if r = 3 then 16 ≤ x.2.toNat
      else if 0x16 ≤ r ∧ r < 0x20 then x.2 ≠ 0
      else false
    if bad then some (bulkBit + o) else none)

/-- A little-endian field of a payload. -/
def leAt (l : List Byte) (o n : Nat) : Nat := leNat ((l.drop o).take n)

/-- One member record: the member, its CAK, and the partner entry it gives (R599). Fields that the record does not carry
(LOAD, VLAN and RELIABLE) are free values. -/
def memberEntry (own free : Nat) (r : List Byte) : Entry :=
  BitVec.ofNat 512 (psActive + pkPeer <<< 4 + (leAt r 1 1 % 64) <<< 16 + leAt r 10 2 <<< 32 + (field free 0 11) <<< 48
    + leAt r 4 6 <<< 128 + (field free 11 16) <<< 176 + (leAt r 2 2 % 4096) <<< 192 + leAt r 12 4 <<< 224
    + leAt r 0 1 <<< 256 + (1 + own) <<< 288 + leAt r 16 4 <<< 320 + (field free 27 1) <<< 352
    + leAt r 20 2 <<< 368)

/-- Install one member: its CA with its CAK, and partner entry 1 + m (R599, R708). -/
def State.joinMember (s : State) (own : Nat) (ckn : List Byte) (r : List Byte) : State :=
  let i := 1 + leAt r 0 1
  let ca := leAt r 2 2 % 4096
  let x := putField (memberEntry own s.freeNat r) 64 64 s.fabric.admitSeq
  let s := s.takeFree.modCa ca (fun c => { c with cak := some ((r.drop 32).take 32), ckn := ckn, tenant := 0 })
  let s := (s.setPartner i x).modFabric (fun f => { f with admitSeq := (f.admitSeq + 1) % 2 ^ 64 })
  (s.modDyn i (fun _ => PartnerDyn.init)).assignPort i

/-- Member records of a join payload. -/
def memberRecords : Nat → List Byte → List (List Byte)
  | 0, _ => []
  | n + 1, l => l.take 64 :: memberRecords n (l.drop 64)

/-- The member that a fingerprint names: its MAC address holds bytes 0 to 3 of the fingerprint (R540, R600). Where no address does, the
first member (assumption 81). -/
def memberNamed (fp : BitVec 256) (rs : List (List Byte)) : Nat :=
  let r := (rs.find? (fun r => leAt r 5 4 = fp.toNat % 2 ^ 32)).orElse (fun _ => rs.head?)
  (r.map (fun r => leAt r 0 1)).getD 0xFF

def State.join (s : State) (b : List Byte) : State :=
  let n := leAt b 4 2
  let rs := memberRecords n (b.drop 160)
  let own := leAt b 0 1
  let fp (o : Nat) : BitVec 256 := bytesToBv 256 ((b.drop o).take 32)
  let s := s.modDomain (fun d => { d with
    joined := true, index := own, ethertype := if leAt b 2 2 = 0 then 0x88B5 else leAt b 2 2
    members := rs.map (fun r =>
      { index := leAt r 0 1, cluster := leAt r 1 1, ca := leAt r 2 2, fp := BitVec.ofNat 48 (leAt r 4 6) })
    managerFp := fp 0x20, succFps := [fp 0x40, fp 0x60, fp 0x80],
    managerIndex := if s.mbx.manager then own else memberNamed (fp 0x20) rs })
  rs.foldl (fun s r => s.joinMember own ((b.drop 0x20).take 16) r) s

/-- DOMAIN_JOIN; one that names a CA of another tenant is refused (R638, assumption 101). -/
def cmdDomainJoin (h : CmdHdr) (s : State) : Answer :=
  let b := h.bulk
  let n := leAt b 4 2
  let rs := memberRecords n (b.drop 160)
  if b.length < 160 then Answer.errD s stInvalidLength 0x08
  else if 256 < n then Answer.errD s stInvalidLength (bulkBit + 4)
  else if b.length ≠ 160 + 64 * n then Answer.errD s stInvalidLength 0x08
  else match (indexed rs).find? (fun x => leAt x.2 2 2 < 16) with
  | some x => Answer.errD s stInvalid (bulkBit + 0xA2 + 64 * x.1)
  | none =>
    if rs.any (fun r => (s.ca (leAt r 2 2 % 4096)).cak.isSome && decide ((s.ca (leAt r 2 2 % 4096)).tenant ≠ 0)) then Answer.err s stDenied
    else Answer.ok ((s.join b).extendCfg h .domainJoin)

/-- DOMAIN_LEAVE: entries 1 to 256 are detached and the domain forgotten; the role is unchanged (R699). -/
def cmdDomainLeave (h : CmdHdr) (s : State) : Answer :=
  let l := (s.fabric.partners.map (fun x => x.1)).filter (fun i => decide (1 ≤ i) && decide (i ≤ 256))
  Answer.ok (((forEach l s (fun s i => s.detach i)).modDomain (fun _ => Domain.init)).extendCfg h .domainLeave)

/-- Length of the relayed command: 64 bytes in clear, or a 96-byte envelope, whose byte 1 is zero where a clear command
has its class (R603, R631). -/
def relayedLen (b : List Byte) : Nat := if nth 0 b 1 = 0 then 96 else 64

def Domain.outstanding (d : Domain) (w : Nat) : Nat :=
  (d.relays.filter (fun r => decide (r.worker = w) && r.hdr.isSome)).length

/-- Time that a relayed command may take, from its last BULK frame (R603). What an envelope holds the manager does not know: its time is a
free one of those stated (assumption 100). -/
def relayLimit (cmd : List Byte) (free : Nat) : Nat :=
  let op := leAt cmd 0 2
  let l := [10000000, 20000000, 2000000000, 4000000000]
  if relayedLen cmd ≠ 64 then nth 0 l (free % 4)
  else if op = 0x0101 then nth 0 l 2
  else if op = 0x0D03 then nth 0 l 3
  else if op = 0x0102 then nth 0 l 1
  else nth 0 l 0

/-- DOMAIN_RELAY on the manager: the CMD frame, the BULK frames, and the wait for the CPL (R603, R604). -/
def cmdDomainRelay (h : CmdHdr) (worker : Byte) (s : State) : Answer :=
  let w := worker.toNat
  let b := h.bulk
  let tag := h.id.toNat % 65536
  let bulk := b.drop (relayedLen b)
  if b.length < relayedLen b then Answer.errD s stInvalidLength 0x08
  else if !s.mbx.manager ∨ !(s.fabric.domain.members.any (fun m => decide (m.index = w))) then Answer.err s stNotReady
  else if 8 ≤ s.fabric.domain.outstanding w then Answer.err s stBusy
  else
    let s := s.sendTo (1 + w) jtCmd tag 0 false (b.take (relayedLen b))
    let s := (blocks 8256 bulk).foldl (fun (s : State) x => s.sendTo (1 + w) jtBulk tag x.1 x.2.1 x.2.2) s
    Answer.wait (s.takeFree.modDomain (fun d => { d with relays := d.relays ++
      [{ worker := w, tag := tag, hdr := some h, cmd := b, data := [], cpl := none, since := s.now, limit := relayLimit b s.freeNat }] })) 0

/-- Pages of the domain tables (R601). -/
def managerPages : List Nat := (List.range 33).map (· + 98271)

/-- A page of the domain tables is not FREE, or a command accepted is to make it so (R601). -/
def State.managerPageTaken (s : State) : Bool :=
  managerPages.any (fun p => decide ((s.page p).kind ≠ 0) || s.pageChanges.any (fun c => decide (c.page = p) && decide (c.entry.kind ≠ 0)))

def cmdRoleSet (h : CmdHdr) (manager : Bool) (s : State) : Answer :=
  if manager ∧ s.time.sources.any (fun x => x.kind == .relay) then Answer.err s stConflict
  else if manager ∧ !s.mbx.manager ∧ s.managerPageTaken then Answer.err s stConflict
  else
    let promoted := manager && !s.mbx.manager
    let s := s.modMbx (fun m => { m with manager := manager })
    let s := if promoted ∧ s.fabric.domain.joined then
        forEach s.fabric.domain.members (s.modDomain (fun d => { d with managerIndex := d.index }))
          (fun s m => s.sendTo (1 + m.index) jtTakeover 0 0 false [])
      else s
    Answer.ok (s.extendCfg h (.roleSet manager))

end Sys2Proof.Machine
end

