-- ==== Sys2Proof/Machine/SlabTime.lean ====
section
/-! DEFINITION. When a SLAB_MVM does what on its slabs (03): its bench-phases (R105 to R107, R112 to R114, R164 to R166), its places
and its clocks (R117 to R123, R161), and what it drains (R148, R149). -/

namespace Sys2Proof.Machine

/-- Slab whose accumulator window an address of a core lies in. -/
def winSlab (c lcore i : Nat) : Nat := (c * 64 + lcore) * 4 + i

/-! ## Bench-phases (R105 to R107, R112 to R114, R164 to R166) -/

/-- One bench in one input phase: its number in the task, the phase shift, the driven rows with their amplitudes, and the
rows that it adds to KCOUNT (a bench counts once, with its first phase). -/
structure BenchPhase where
  no : Nat
  shift : Nat
  amps : List (Nat × Int)
  rows : Nat
deriving DecidableEq, Repr

/-- Rows of bench `b` that the task applies, with their inputs. -/
def benchRows (d : Desc) (xs : List Int) (b : Nat) : List (Nat × Int) :=
  let l := (xs.drop (b * smBench d)).take (smBench d)
  (indexed l).map (fun x => (smBase d + b * smBench d + x.1, x.2))

/-- A bench that zero-skip leaves out (R164). -/
def benchSkipped (d : Desc) (l : List (Nat × Int)) : Bool := smZskip d && l.all (fun x => x.2 == 0)

def driven (l : List (Nat × Int)) (f : Int → Int) : List (Nat × Int) :=
  (l.map (fun x => (x.1, f x.2))).filter (fun x => x.2 != 0)

/-- The phases of one bench: signed high nibbles, then unsigned low nibbles; an INT4 input has one (R105, R106, R113). -/
def benchPhases (d : Desc) (xs : List Int) (b : Nat) : List BenchPhase :=
  let l := benchRows d xs b
  if benchSkipped d l then []
  else if smInt4 d then [{ no := b, shift := 0, amps := driven l (fun x => x), rows := l.length }]
  else [{ no := 2 * b, shift := 4, amps := driven l (fun x => x / 16), rows := l.length },
        { no := 2 * b + 1, shift := 0, amps := driven l (fun x => x % 16), rows := 0 }]

def benchCount (d : Desc) : Nat := ceilDiv (smRows d) (smBench d)
/-- The bench-phases that a slab runs on its inputs. -/
def benchSeq (d : Desc) (xs : List Int) : List BenchPhase := (List.range (benchCount d)).flatMap (benchPhases d xs)
/-- Benches skipped. -/
def skipsOf (d : Desc) (xs : List Int) : List (List (Nat × Int)) :=
  ((List.range (benchCount d)).map (benchRows d xs)).filter (benchSkipped d)

/-- Position of a named slab in the task, its first input, and its inputs (R148, R149). -/
def segStart (d : Desc) (pos : Nat) : Nat := if smChain d then pos * smRows d else 0
def segOf (d : Desc) (pos : Nat) (xs : List Int) : List Int := (xs.drop (segStart d pos)).take (smRows d)

/-- Format of a drain's results. -/
def drainFmt (d : Desc) : Nat := if smDrain d = 1 then fmtInt40 else if smDrain d = 2 then fmtInt8 else fmtInt16

/-! ## Places and clocks (R119, R121, R123) -/

/-- Slabs that a task names. -/
def Cluster.slabsOf (x : Cluster) (c i : Nat) : List Nat := (smSlabs (x.task i)).map (winSlab c (dLcore (x.task i)))

/-- A SLAB_MVM running on cells. -/
def Cluster.onSlab (x : Cluster) (i : Nat) : Bool :=
  match x.run i with
  | some r => r.phase == .running && dKind (x.task i) == kSlab && !r.detour
  | none => false

/-- Slabs that a task drains, each with the outputs of its region (R148, R149). -/
def State.drains (s : State) (c i : Nat) : List (Nat × Nat) :=
  let d := (s.cluster c).task i
  let ks := (smSlabs d).map (winSlab c (dLcore d))
  if smChain d then (ks.take 1).map (fun k => (k, ks.foldl (fun m j => max m (s.slab j).outputs) 0))
  else ks.map (fun k => (k, (s.slab k).outputs))

/-- SLAB_MVM tasks that have a place on a slab, in the order of their first bench-phases (R123). -/
def Cluster.onSlabs (x : Cluster) (c k : Nat) : List Nat :=
  sortBy (fun i => match x.run i with
    | some r => r.applied
    | none => 0) ((x.runsAt (fun r => r.phase == .running && !r.detour)).filter (fun i => x.onSlab i && (x.slabsOf c i).contains k))

/-- Bench-phases of a task on a slab that it names. -/
def Cluster.phasesOn (x : Cluster) (c i k : Nat) (r : TaskRun) : Nat :=
  (benchSeq (x.task i) (segOf (x.task i) ((x.slabsOf c i).idxOf k) r.input)).length

/-- Clocks, in issue time (R378), of a task on one slab with `n` bench-phases: its first add, its drivers free, its last add (03, One INT8
tile). -/
def State.firstAdd (s : State) (r : TaskRun) : Nat := r.applied + s.issueSpan 76
def TaskRun.driversFree (r : TaskRun) (n : Nat) : Nat := r.applied + r.delay + 32 * n
def State.lastAdd (s : State) (r : TaskRun) (n : Nat) : Nat := r.driversFree n + s.issueSpan 44

/-- The task has made its first add by a clock. -/
def State.firstAddBy (s : State) (r : TaskRun) (by_ : Nat) : Bool := r.begun && decide (s.firstAdd r ≤ s.issueAt by_)

/-- Bench-phases that a task with `n` on a slab has applied by a clock of issue time. -/
def TaskRun.phasesBy (r : TaskRun) (n now : Nat) : Nat :=
  if now < r.applied then 0 else min n ((now - r.applied - r.delay) / 32 + 1)

/-- A SLAB_MVM is between its first and last add on a slab; the slab's shadow set drains (R161). -/
def State.slabAdds (s : State) (k : Nat) : Bool :=
  let c := slabCluster k
  let x := s.cluster c
  (x.onSlabs c k).any (fun i => (x.run i).any (fun r => s.firstAddBy r s.now && decide (s.issue < s.lastAdd r (x.phasesOn c i k r))))
def State.slabDrains (s : State) (k : Nat) : Bool :=
  let c := slabCluster k
  let x := s.cluster c
  (s.slab k).mismatch.isNone && ((x.onSlabs c k).take 1).any (fun i => (x.run i).any (fun r =>
    decide (smDrain (x.task i) ≠ 0) && (s.drains c i).any (fun y => y.1 == k)
      && (if smChain (x.task i) then x.slabsOf c i else [k]).all (fun j => decide (s.lastAdd r (x.phasesOn c i j r) ≤ s.issue))))

/-- While a set drains, the sets have exchanged already (R124): the offset in a slab's window that an access comes to. -/
def State.winOfs (s : State) (k o : Nat) : Nat := if s.slabDrains k then (o + 0x800) % 0x1000 else o

/-- The live half of a slab's window waits: a SLAB_MVM made its first add on the slab by a clock and has not made its last; the drain
that follows leaves the live half open and keeps the shadow half (R136). -/
def State.liveBusy (s : State) (k by_ : Nat) : Bool :=
  let c := slabCluster k
  let x := s.cluster c
  (if s.slabDrains k then (x.onSlabs c k).tail else x.onSlabs c k).any (fun j => (x.run j).any (fun r => s.firstAddBy r by_))

/-- Bench-phases that the task on a slab has applied on it by now. -/
def State.phasesNow (s : State) (k : Nat) : Nat :=
  let c := slabCluster k
  let x := s.cluster c
  match (x.onSlabs c k).head? with
  | some i => ((x.run i).map (fun r => if r.begun then r.phasesBy (x.phasesOn c i k r) s.issue else 0)).getD 0
  | none => 0

/-- A slab that is reconstructing is no longer pinned, or is found so: it is handled as an unpinned slab, and the task that runs on it
drains with SEAM_FAIL (R199, R216, R230). -/
def State.leaveRecon (s : State) (k g : Nat) : State :=
  let c := slabCluster k
  let s := s.unplannedDetour k (s.phasesNow k)
  if ((s.cluster c).onSlabs c k).isEmpty then s
  else s.modSlab k (fun y => { y with handled := y.handled ++ [(0, g, true)] })

/-- Clock of issue time at which a task dispatched now applies its first bench-phase: 8 ns from now, or when the drivers of its slabs are
freed. -/
def State.appliesAt (s : State) (c i : Nat) : Nat :=
  let x := s.cluster c
  (x.slabsOf c i).foldl (fun m k => ((x.onSlabs c k).filter (· ≠ i)).foldl (fun m j => match x.run j with
    | some q => max m (q.driversFree (x.phasesOn c j k q))
    | none => m) m) (s.issue + 8)

/-- The drain of a region of `n` outputs (R121). -/
def drainNs (d : Desc) (n : Nat) : Nat :=
  8 + (if 2 ≤ smDrain d then 4 else 0) + (if smChain d && decide (1 < (smSlabs d).length) then 4 else 0)
    + ceilDiv (32 + n * (fmtBits (drainFmt d) / 8)) 64

/-- Clock of issue time before which a task does not complete: P counts the bench-phases actually run (R121, R148, R167). -/
def State.slabEnd (s : State) (c i : Nat) (r : TaskRun) : Nat :=
  let x := s.cluster c
  let d := x.task i
  (x.slabsOf c i).foldl (fun m k => max m (s.lastAdd r (x.phasesOn c i k r))) 0
    + (if smDrain d = 0 then 0 else s.issueSpan ((s.drains c i).map (fun k => drainNs d k.2)).sum)

/-! ## Drift reads (R152, R201, R202) -/

/-- 2^20 + TCO * dT of a slab (R202, R205). -/
def State.tempFactor (s : State) (k : Nat) : Int :=
  let x := s.slab k
  1048576 + x.tco * (s.slabTemp (slabCluster k) - x.tDress)

/-- A quotient by that factor, rounded to nearest with ties away from zero. DESIGN CHOICE: by a factor of 0 it is a free value
(assumption 52). -/
def tempQuotient (n f : Int) : Int :=
  if f = 0 then Config.tempQuotient n else divRound (if f < 0 then -n else n) f.natAbs

/-- D of a slab as its cells give it: the sum of DR0 read minus DR1 read over the active columns (R202). -/
def State.driftOf (s : State) (k : Nat) : Int := sumI ((List.range 264).map (s.refRead k))

/-- One drift read pair: D, normalised in units of 2^-20. -/
def State.driftPair (s : State) (k : Nat) (d : Int) : State :=
  let d := clampI (-264 * refLimit) (264 * refLimit) d
  s.modSlab k (fun x => { x with
    driftPairs := x.driftPairs + 1, driftSum := x.driftSum + tempQuotient (d * 1099511627776) (s.tempFactor k), driftDue := none })

/-- The pair that waited for a SLAB_MVM, where the slot is not over. -/
def State.driftAfter (s : State) (k : Nat) : State :=
  match (s.slab k).driftDue with
  | some d => if s.time.inHk && !s.slabRuns k && (s.slab k).dress == .ready then s.driftPair k d else s
  | none => s

/-- Pairs that waited beyond their slot are not made. -/
def State.driftOver (s : State) : State :=
  { s with slabs := tabMap (fun _ => Slab.init) (fun _ x => { x with driftDue := none }) s.slabs }

end Sys2Proof.Machine
end

