-- ==== Sys2Proof/Machine/CmdModel.lean ====
section
/-! DEFINITION. The model and slab commands: MODEL_DECLARE (R422 to R427, R437, R704, R881), MODEL_MAP_PAGES (R492, R705),
SLAB_DRESS (R188 to R190), SLAB_PIN and SLAB_RELEASE (R218, R219, R230). -/

namespace Sys2Proof.Machine

/-! ## MODEL_DECLARE -/

/-- Reserved fields of a model descriptor (R704, R423): the first offset. -/
def modelReserved (b : List Byte) : Option Nat :=
  (indexed b).findSome? (fun x =>
    let o := x.1
    let r := (o - 32) % 16
    let bad :=
      if o < 32 then (if o = 2 ∨ o = 3 ∨ o = 6 ∨ o = 7 ∨ 16 ≤ o then x.2 ≠ 0 else if o = 5 then 8 ≤ x.2.toNat else false)
      else if r = 4 then 32 ≤ x.2.toNat
      else if r = 5 then 2 ≤ x.2.toNat
      else if r = 6 ∨ r = 7 ∨ 13 ≤ r then x.2 ≠ 0
      else if r = 12 then 32 ≤ x.2.toNat
      else false
    if bad then some (bulkBit + o) else none)

/-- A scale table entry as the descriptor gives it; one with HIST above zero starts at 1.0 without history (R427). -/
def scaleOf (l : List Byte) : Scale :=
  let hist := leAt l 4 1 % 32
  { scale := if hist = 0 then BitVec.ofNat 32 (leAt l 0 4) else 0x3F800000, hist := hist, tgt := leAt l 5 1 % 2 == 1,
    obs := if hist = 0 then BitVec.ofNat 32 (leAt l 8 4) else 0, history := [] }

def scaleRecords : Nat → List Byte → List (List Byte)
  | 0, _ => []
  | n + 1, l => l.take 16 :: scaleRecords n (l.drop 16)

/-- The field of an entry that breaks R881. -/
def scaleFault (l : List Byte) : Option Nat :=
  if !(fpDecode 9 (leAt l 0 4)).positive then some 0
  else if 16 < leAt l 4 1 % 32 then some 4
  else none

/-- Write the scale table of a cluster: SCALE_COUNT now, the entries from a boundary on (R426). -/
def State.declare (s : State) (n : Nat) (es : List Scale) (c : Nat) : State :=
  let t := s.modCluster c (fun x => { x with
    scaleCount := n
    scales := x.scales.filter (fun e => decide (e.1 < n))
    scaleWrites := x.scaleWrites.filter (fun w => decide (w.2.1 < n)) ++ (indexed es).map (fun e => (s.leadFrom, e.1, e.2)) })
  if (s.cluster c).scaleCount = n then t else t.putScales c

def cmdModelDeclare (h : CmdHdr) (s : State) : Answer :=
  let b := h.bulk
  let n := leAt b 4 2 % 2048
  let cs := maskBits (BitVec.ofNat 64 (leAt b 8 8))
  let rs := scaleRecords n (b.drop 32)
  if b.length < 32 then Answer.errD s stInvalidLength 0x08
  else if 1024 < n then Answer.errD s stInvalidLength (bulkBit + 4)
  else if b.length ≠ 32 + 16 * n then Answer.errD s stInvalidLength 0x08
  else if leAt b 0 2 = 0xFFFF then Answer.errD s stInvalid bulkBit
  else match (indexed rs).findSome? (fun x => (scaleFault x.2).map (fun o => bulkBit + 32 + 16 * x.1 + o)) with
  | some o => Answer.errD s stInvalid o
  | none =>
    if cs.any (fun c => decide ((s.cluster c).scaleCount ≠ n) && (s.cluster c).busy) then Answer.err s stConflict
    else if 64 < (rs.filter (fun r => decide (leAt r 4 1 % 32 ≠ 0))).length then Answer.err s stNoSpace
    else if cs.any (fun c => !s.banksUp c 0xFF 0x100000 (16 * n)) then Answer.err s stNotReady
    else
      let s := forEach cs s (fun s c => s.declare n (rs.map scaleOf) c)
      let t := sessionTenant h
      Answer.ok { s with trust := { s.trust with
        mrModel := tabSet 0 s.trust.mrModel t (extend (tabGet 0 s.trust.mrModel t) b) } }

/-! ## MODEL_MAP_PAGES -/

def tileRecords : Nat → List Byte → List (List Byte)
  | 0, _ => []
  | n + 1, l => l.take 16 :: tileRecords n (l.drop 16)

/-- Reserved fields of tile map entries (R705): the first offset. -/
def tileReserved (b : List Byte) : Option Nat :=
  (indexed b).findSome? (fun x =>
    let r := x.1 % 16
    if (r = 10 ∧ 2 ≤ x.2.toNat) ∨ (r = 11 ∧ x.2 ≠ 0) ∨ (r = 14 ∧ 128 ≤ x.2.toNat) ∨ (r = 15 ∧ x.2 ≠ 0)
    then some (bulkBit + x.1) else none)

def trPage (r : List Byte) : Nat := leAt r 8 4 % 131072
def trOfs (r : List Byte) : Nat := leAt r 12 4 % 8388608

/-- A page is refused to PAGE_LOAD and MODEL_MAP_PAGES while the role is manager (R601). -/
def State.managerPage (s : State) (p : Nat) : Bool := s.mbx.manager && decide (98271 ≤ p) && decide (p ≤ 98303)

def cmdModelMapPages (h : CmdHdr) (p : MapPagesParams) (s : State) : Answer :=
  let n := p.count.toNat
  let rs := tileRecords n h.bulk
  let t := sessionTenant h
  if 4096 < n then Answer.errD s stInvalidLength 0x12
  else if h.bulk.length ≠ 16 * n then Answer.errD s stInvalidLength 0x08
  else match (indexed rs).find? (fun x => decide (2 ^ 23 < trOfs x.2 + Config.masterBytes)) with
  | some x => Answer.errD s stInvalidLength (bulkBit + 16 * x.1 + 12)
  | none =>
    if n = 0 then Answer.ok s
    else match (indexed rs).find? (fun x => decide (Config.pages ≤ trPage x.2) || s.managerPage (trPage x.2)
        || decide ((s.page (trPage x.2)).kind ≠ 1) || decide ((s.page (trPage x.2)).tenant ≠ t)) with
    | some x => Answer.errD s stInvalid (bulkBit + 16 * x.1 + 8)
    | none => match (indexed rs).find? (fun x => decide (trOfs x.2 % 64 ≠ 0)) with
      | some x => Answer.errD s stInvalid (bulkBit + 16 * x.1 + 12)
      | none =>
        let ps := (rs.map trPage).dedup
        let s1 := { s with
          tiles := s.tiles ++ rs.map (fun r =>
            ({ tenant := t, tileId := BitVec.ofNat 64 (leAt r 0 8), page := trPage r, ofs := trOfs r,
               notBefore := some s.leadFrom } : TileMap))
          pageChanges := s.pageChanges ++ ps.map (fun q =>
            ({ notBefore := s.leadFrom, page := q, entry := { s.page q with model := p.model.toNat } } : PageChange)) }
        Answer.ok (s1.cancelPages (fun q => ps.contains q) (s.boundaryAt s.leadFrom))

/-! ## SLAB_DRESS, SLAB_PIN, SLAB_RELEASE -/

def cmdSlabDress (_h : CmdHdr) (p : SlabDressParams) (s : State) : Answer :=
  let k := p.slab.toNat
  let x := s.slab k
  let t := (s.cluster (slabCluster k)).tenant
  if x.pinned then Answer.err s stConflict
  else match s.tileAt t p.tileId with
  | none => Answer.err s stNotReady
  | some loc =>
    if !s.hbmOn then Answer.err s stNotReady
    else match mapFault (s.copyMap loc.1 loc.2) with
    | some col => { Answer.errD s stInvalid 0x18 with result := col }
    | none =>
      let thr := if p.seamThresh = 0 then Config.seamThresh else p.seamThresh.toNat
      let s := s.queueDress k 2 (some
        { tileId := p.tileId, seamThresh := thr, redressAge := p.redressAge.toNat, model := p.model.toNat })
      Answer.okR s ((s.dressQueue.takeWhile (· ≠ k)).length % 65536)

def cmdSlabPin (_h : CmdHdr) (slab : BitVec 14) (s : State) : Answer :=
  let k := slab.toNat
  let x := s.slab k
  if (List.range 4).any (fun i => decide (k / 4 * 4 + i ≠ k) && (s.slab (k / 4 * 4 + i)).pinned) then Answer.err s stNoSpace
  else if x.dress ≠ .ready ∨ !x.bound then Answer.err s stNotReady
  else Answer.ok (s.setSlab k { x with pinned := true })

def cmdSlabRelease (_h : CmdHdr) (slab : BitVec 14) (s : State) : Answer :=
  let k := slab.toNat
  let x := s.slab k
  if !x.pinned then Answer.ok s
  else
    let s := s.setSlab k { x with pinned := false }
    Answer.ok (match x.recon with
      | [] => s
      | j :: _ => (s.seamFail k (seamGroup j) (x.physOf j) 0 (s.slabInjected k)).leaveRecon k (seamGroup j))

end Sys2Proof.Machine
end

