-- ==== Sys2Proof/Machine/CmdMemory.lean ====
section
/-! DEFINITION. The memory commands: BANK_ASSIGN and BANK_POWER (R474 to R479), PAGE_LOAD and PAGE_RELEASE (R492, R601,
R707). -/

namespace Sys2Proof.Machine

/-- Bank indices that a cluster, a memory and a mask name (R474, R721). -/
def namedBanks (c mem : Nat) (mask : Word) : List Nat :=
  (maskBits (mask.zeroExtend 64)).map (fun b => if mem = 0xFF then c * 544 + b else c * 544 + 32 + 8 * mem + b)

/-- MEM is no memory, or the mask names a bank that does not exist: the field at fault. -/
def bankNames (mem : Nat) (mask : Word) : Option Nat :=
  if 64 ≤ mem ∧ mem ≠ 0xFF then some 0x11
  else if mem ≠ 0xFF ∧ 256 ≤ mask.toNat then some 0x14
  else none

/-- R477: a bank owned by WALKER, or with a change waiting. -/
def State.banksBusy (s : State) (l : List Nat) : Bool := l.any (fun k => (s.bank k).owner == 5 || (s.bank k).pending.isSome)

/-- Give named banks a change for their boundary, and cancel fills made ahead into them (R529). -/
def State.changeBanks (s : State) (c : Nat) (l : List Nat) (owner : Option (Nat × Nat)) (power : Option BankPower) : State :=
  (forEach l s (fun s k => s.modBank k (fun b => { b with
    pending := some { notBefore := s.leadFrom, owner := owner, power := power } }))).cancelBanks c l (s.boundaryAt s.leadFrom)

/-- An owner that R476 refuses for a memory. -/
def ownerRefused (mem owner core : Nat) : Bool :=
  decide (4 < owner) || (mem != 0xFF && (owner == 1 || owner == 3 || (owner == 2 && core != mem)))

def cmdBankAssign (_h : CmdHdr) (p : BankAssignParams) (s : State) : Answer :=
  let c := p.cluster.toNat
  let mem := p.mem.toNat
  let l := namedBanks c mem p.mask
  match bankNames mem p.mask with
  | some o => Answer.errD s stInvalid o
  | none =>
    if ownerRefused mem p.owner.toNat p.ownerCore.toNat then Answer.errD s stInvalid 0x18
    else if s.banksBusy l then Answer.err s stConflict
    else Answer.ok (s.changeBanks c l (some (p.owner.toNat, p.ownerCore.toNat)) none)

def bankPowerOf (n : Nat) : BankPower :=
  match n with
  | 0 => .on
  | 1 => .retention
  | _ => .off

def cmdBankPower (_h : CmdHdr) (p : BankPowerParams) (s : State) : Answer :=
  let c := p.cluster.toNat
  let mem := p.mem.toNat
  let l := namedBanks c mem p.mask
  match bankNames mem p.mask with
  | some o => Answer.errD s stInvalid o
  | none =>
    if p.power = 3 then Answer.errD s stInvalid 0x18
    else if s.banksBusy l then Answer.err s stConflict
    else Answer.ok (s.changeBanks c l none (some (bankPowerOf p.power.toNat)))

/-! ## Pages -/

/-- The kind a page has or is about to have: entries change at a boundary (R492). -/
def State.pageKind (s : State) (p : Nat) : Nat :=
  match (s.pageChanges.filter (fun c => decide (c.page = p))).getLast? with
  | some c => c.entry.kind
  | none => (s.page p).kind

/-- Clock that stands for no boundary, while a PAGE_LOAD from a partner runs. -/
def loadLater : Nat := 2 ^ 80

/-- Give a FREE page to a tenant, as a KIND, from a clock on (R492, R707). -/
def State.givePage (s : State) (p kind tenant from_ : Nat) : State :=
  let e : Page := { kind := kind, tenant := tenant, keyGen := (s.tenant tenant).genCur, model := 0xFFFF }
  { s with pageChanges := s.pageChanges ++ [{ notBefore := from_, page := p, entry := e }] }

/-- A PAGE_LOAD that ends without its data gives no page. -/
def State.dropLoad (s : State) : State := { s with pageChanges := s.pageChanges.filter (fun c => decide (c.notBefore ≠ loadLater)) }

def cmdPageLoad (h : CmdHdr) (p : PageLoadParams) (s : State) : Answer :=
  let page := p.page.toNat
  let kind := p.kind.toNat
  let ofs := p.pageOfs.toNat
  let len := p.length.toNat
  let cur := s.pageKind page
  if 2 ^ 23 < ofs + len then Answer.errD s stInvalidLength 0x1C
  else if p.source = 1 ∧ h.bulk.length ≠ len then Answer.errD s stInvalidLength 0x08
  else if Config.pages ≤ page then Answer.errD s stInvalid 0x10
  else if kind = 0 ∨ kind = 3 ∨ p.source = 3 then Answer.errD s stInvalid 0x14
  else if ofs % 64 ≠ 0 then Answer.errD s stInvalid 0x18
  else if s.managerPage page then Answer.err s stDenied
  else if cur ≠ 0 ∧ cur ≠ kind then Answer.err s stConflict
  else if !s.hbmOn then Answer.err s stNotReady
  else if len = 0 then Answer.ok s
  else
    let s := if cur = 0 then
        (s.givePage page kind (sessionTenant h) (if p.source = 2 then loadLater else s.leadFrom)).cancelPages (fun q => q == page)
          (s.boundaryAt s.leadFrom)
      else s
    if p.source = 0 then Answer.ok (s.hbmZero (hbmKey page ofs) len)
    else if p.source = 1 then Answer.ok (s.hbmWrite (hbmKey page ofs) h.bulk)
    else Answer.wait s len

def cmdPageRelease (_h : CmdHdr) (p : PageReleaseParams) (s : State) : Answer :=
  let a := p.page.toNat
  let n := p.count.toNat
  let within (q : Nat) : Bool := decide (a ≤ q) && decide (q < a + n)
  if Config.pages < a + n then Answer.errD s stInvalidLength 0x14
  else if s.slabs.any (fun x => x.2.bound && (match x.2.master with | some m => within m.1 | none => false)) then
    Answer.err s stConflict
  else
    let used := ((s.pages.map (fun x => x.1)) ++ s.pageChanges.map (fun c => c.page)).dedup.filter
      (fun q => within q && decide (s.pageKind q ≠ 0))
    let s1 := { s with pageChanges := s.pageChanges ++ used.map (fun q =>
      ({ notBefore := s.leadFrom, page := q, entry := Page.init } : PageChange)) }
    Answer.ok (s1.cancelPages within (s.boundaryAt s.leadFrom))

end Sys2Proof.Machine
end

