-- ==== Sys2Proof/Machine/CmdTrust.lean ====
section
/-! DEFINITION. The device and tenant commands: DEV_IDENTIFY, DEV_ATTEST, DEV_SESSION_OPEN, DEV_SESSION_CLOSE, DEV_RESET,
TENANT_CREATE, TENANT_ASSIGN, TENANT_STRIP, KEY_ROTATE and KEY_IMPORT (R614 to R643, R650, R716). -/

namespace Sys2Proof.Machine

/-! ## DEV_IDENTIFY (R615 to R619) -/

/-- Reserved fields of a helper-data record (R619). -/
def helperReserved (b : List Byte) : Option Nat :=
  (indexed (b.take 64)).findSome? (fun x =>
    if (x.1 = 2 ∨ x.1 = 3 ∨ 0x30 ≤ x.1) ∧ x.2 ≠ 0 then some (bulkBit + x.1) else none)

/-- Fingerprint, then identity modulus, and SERIAL as the RESULT. -/
def identityAnswer (s : State) (i : Identity) : Answer :=
  { Answer.okR s i.serial.toNat with out := toLe 32 i.fingerprint.toNat ++ toLe 384 (leNat i.modulus) }

def cmdDevIdentify (h : CmdHdr) (s : State) : Answer :=
  let b := h.bulk
  match s.trust.identity with
  | some i => identityAnswer s i
  | none =>
    if b.length = 0 then Answer.err s stNotReady
    else if b.length ≠ 3136 then Answer.errD s stInvalidLength 0x08
    else if leAt b 0 2 ≠ 1 then Answer.errD s stInvalid bulkBit
    else if leAt b 4 4 ≠ 3136 then Answer.errD s stInvalid (bulkBit + 4)
    else Answer.wait s 0

/-- The PUF response that the boot ROM has read (R614). -/
def State.pufResponse (s : State) : Option (List Byte) := s.trust.puf.map (fun n => (List.finRange 8192).map (Config.pufByte n))

/-- IDENTITY_FAIL of a derivation: 0 the correction failed, as it does where no response has been read, 1 the fingerprint differs (R617). -/
def State.identityFault (s : State) (h : CmdHdr) (si : Silicon) : Option Nat :=
  if !si.ok || s.pufResponse.isNone then some 0
  else if rsaFingerprint si.key1 ≠ bytesToBv 256 ((h.bulk.drop 8).take 32) then some 1
  else none

/-- The end of a derivation (R615 to R617). What the PUF response, corrected, gives comes with the end of the command (assumption 3). -/
def endDevIdentify (h : CmdHdr) (si : Silicon) (s : State) : Answer :=
  match s.identityFault h si with
  | some d => Answer.errWith (s.trustEv 0 trIdentityFail 0xFF d) stDenied
  | none =>
    let i : Identity := { fingerprint := rsaFingerprint si.key1, modulus := si.key1, serial := BitVec.ofNat 64 (leAt h.bulk 0x28 8) }
    identityAnswer { s with trust := { s.trust with identity := some i } } i

/-! ## DEV_ATTEST (R626) -/

def cmdDevAttest (_h : CmdHdr) (p : AttestParams) (s : State) : Answer :=
  if s.trust.ak.isNone then Answer.err s stNotReady
  else if !(s.tenant p.tenant.toNat).exist then Answer.errD s stInvalid 0x10
  else Answer.wait s 0

/-- Clusters that belong to a tenant, as a mask. -/
def State.tenantClusters (s : State) (t : Nat) : Nat :=
  ((List.range 64).filter (fun c => s.clusterTenant c == some t)).foldl (fun m c => m + 2 ^ c) 0

/-- The re-encryption pass of a tenant is running: an older generation is live, in PS0 (R654). -/
def State.rekeying (s : State) (t : Nat) : Bool := (s.tenant t).genOld.isSome && s.power.pstate == .ps0

/-- Bytes 0x000 to 0x0DF of a quote. -/
def State.quote (s : State) (p : AttestParams) : List Byte :=
  let t := p.tenant.toNat
  let x := s.tenant t
  let old := x.genOld.isSome
  toLe 2 1 ++ toLe 2 t ++ toLe 4 s.trust.nextSerial ++ toLe 32 p.nonce.toNat ++ toLe 8 s.timeNat
    ++ toLe 32 s.trust.mrFw.toNat ++ toLe 32 s.trust.mrCfg.toNat ++ toLe 32 (tabGet 0 s.trust.mrPlan t).toNat
    ++ toLe 32 (tabGet 0 s.trust.mrModel t).toNat ++ toLe 8 (s.tenantClusters t) ++ toLe 1 x.genCur
    ++ toLe 1 (x.genOld.getD 0)
    ++ toLe 2 ((if old then 1 else 0) + (if s.rekeying t then 2 else 0) + (if x.session.isSome then 4 else 0)
      + (if s.mbx.manager then 8 else 0))
    ++ toLe 4 0 ++ toLe 32 s.trust.akFp.toNat

def endDevAttest (p : AttestParams) (si : Silicon) (s : State) : Answer :=
  { Answer.ok s with out := s.quote p ++ toLe 384 (leNat si.sig) }

/-! ## Sessions (R627 to R630) -/

def cmdDevSessionOpen (h : CmdHdr) (tenant : BitVec 4) (s : State) : Answer :=
  let t := tenant.toNat
  if h.bulk.length ≠ (if t = 0 then 384 else 768) then Answer.errD s stInvalidLength 0x08
  else if s.trust.xk.isNone then Answer.err s stNotReady
  else if (s.tenant t).session.isSome then Answer.err s stConflict
  else if !(s.tenant t).exist then Answer.err s stDenied
  else Answer.wait s 0

/-- Entry 0, the host, which the opening of the operator session creates (R585). -/
def hostEntry : Entry := BitVec.ofNat 512 (psActive + pkHost <<< 4)

def endDevSessionOpen (tenant : BitVec 4) (si : Silicon) (s : State) : Answer :=
  let t := tenant.toNat
  match si.plain with
  | none => Answer.err s stDenied
  | some p =>
    let secret := p.take 32
    let serial := leAt p 0x24 4
    if p.length ≠ 40 then Answer.err s stDenied
    else if leAt p 0x20 1 / 16 ≠ 0 ∨ leAt p 0x21 3 ≠ 0 then Answer.err s stInvalid
    else if leAt p 0x20 1 ≠ t ∨ serial ≠ s.trust.nextSerial ∨ (t ≠ 0 ∧ !si.ok) then Answer.err s stDenied
    else
      let ses : Session :=
        { Session.init with keyIn := sessionKey s.trust.akFp 1 secret serial t, keyOut := sessionKey s.trust.akFp 2 secret serial t }
      let s := s.modTrust (fun x => { x with nextSerial := (x.nextSerial + 1) % 2 ^ 32 })
      let s := s.modTenant t (fun x => { x with session := some ses })
      let s := if t = 0 then s.setPartner 0 hostEntry else s
      Answer.okR (s.trustEv t trSessionOpen 0xFF serial) serial

/-- DEV_SESSION_CLOSE: the session closes after its completion is posted (`afterFinish`). -/
def cmdDevSessionClose (_h : CmdHdr) (s : State) : Answer := Answer.ok s

/-! ## Keys and tenants (R638 to R643) -/

/-- Destroy a tenant's page keys: what they encrypted can no longer be read (R642; assumption 10). -/
def State.dropPageKeys (s : State) (t : Nat) : State :=
  s.modTenant t (fun x => { x with keys := [], rotate := none, rekey := [], holdUntil := [], genOld := none })

/-- Make pages FREE, with what the module holds about them (R492); they are not overwritten (R642). -/
def State.freePages (s : State) (p : Nat → Page → Bool) : State :=
  let ps := (s.pages.filter (fun x => p x.1 x.2)).map (fun x => x.1)
  if ps.isEmpty then s else
  { s with pages := s.pages.filter (fun x => !p x.1 x.2), tiles := s.tiles.filter (fun t => !ps.contains t.page) }

/-- Deletion of a tenant (R642): `reason` is that of its session's close. -/
def State.deleteTenant (s : State) (t reason : Nat) : State :=
  let ps := (s.fabric.partners.filter (fun x => decide (peTenant x.2 = t) && decide (x.1 ≠ 0))).map (fun x => x.1)
  let s := forEach ps s (fun s i => s.detach i)
  let cas := (s.trust.cas.filter (fun x => decide (x.2.tenant = t))).map (fun x => x.1)
  let s := forEach cas s (fun s k => s.modCa k (fun _ => Ca.init))
  let s := (s.dropPageKeys t).freePages (fun _ x => decide (x.tenant = t))
  let s := s.closeSession t reason
  let s := s.modTenant t (fun x => { Tenant.init t with pos := x.pos, lost := x.lost, badTag := x.badTag, badSeq := x.badSeq })
  s.trustEv t trTenantDeleted 0xFF 0

/-- Take a fresh page key (R639, R650). -/
def State.newPageKey (s : State) (t gen : Nat) : State :=
  s.takeFree.modTenant t (fun x => { x with keys := tabPut x.keys gen s.free })

/-- The keys that R622 destroys: AK, XK, session and page keys. -/
def State.dropKeys (s : State) (reason : Nat) : State :=
  let s := s.closeAll reason
  let s := forEach (List.range 16) s (fun s t => if (s.tenant t).keys.isEmpty then s else s.dropPageKeys t)
  s.modTrust (fun x => { x with ak := none, xk := none, akFp := 0 })

/-- Have a cluster stripped and given to a tenant (R655). -/
def State.scheduleStrip (s : State) (c target : Nat) (delete : Bool) : State :=
  s.modCluster c (fun x => { x with strip := match x.strip with
    | some y => some { y with target := target, delete := y.delete || delete }
    | none => some { target := target, notBefore := s.leadFrom, running := false, startedAt := 0, delete := delete } })

def cmdTenantCreate (h : CmdHdr) (tenant : BitVec 4) (s : State) : Answer :=
  let t := tenant.toNat
  if h.bulk.length ≠ 384 then Answer.errD s stInvalidLength 0x08
  else if t = 0 then Answer.errD s stInvalid 0x10
  else if (s.tenant t).exist then Answer.err s stConflict
  else
    let s := s.modTenant t (fun x => { x with exist := true, modulus := h.bulk, genCur := 0, genOld := none })
    let s := (s.newPageKey t 0).trustEv t trTenantCreated 0xFF 0
    Answer.ok (s.extendCfg h (.tenantCreate tenant))

def cmdTenantAssign (h : CmdHdr) (clusters : Dword) (tenant : BitVec 4) (s : State) : Answer :=
  let t := tenant.toNat
  let cs := maskBits clusters
  if !(s.tenant t).exist ∨ (s.tenant t).deleting then Answer.err s stNotReady
  else if cs.any (fun c => (s.cluster c).strip.isSome) then Answer.err s stConflict
  else
    let move := cs.filter (fun c => decide ((s.cluster c).tenant ≠ t))
    Answer.ok ((forEach move s (fun s c => s.scheduleStrip c t false)).extendCfg h (.tenantAssign clusters tenant))

def cmdTenantStrip (h : CmdHdr) (p : TenantStripParams) (s : State) : Answer :=
  let t := p.tenant.toNat
  let own := (List.range 64).filter (fun c => decide ((s.cluster c).tenant = t))
  let cs := (maskBits p.clusters).filter (fun c => own.contains c)
  if p.delete ∧ t = 0 then Answer.errD s stInvalid 0x18
  else if !(s.tenant t).exist then Answer.err s stNotReady
  else if !p.delete ∧ cs.any (fun c => (s.cluster c).strip.isSome) then Answer.err s stConflict
  else if !p.delete then
    Answer.ok ((forEach cs s (fun s c => s.scheduleStrip c t false)).extendCfg h (.tenantStrip p))
  else
    let s := s.extendCfg h (.tenantStrip p)
    if own.isEmpty then Answer.ok (s.deleteTenant t 3)
    else Answer.ok ((forEach own s (fun s c => s.scheduleStrip c 0 true)).modTenant t (fun x => { x with deleting := true }))

def cmdKeyRotate (_h : CmdHdr) (tenant : BitVec 4) (s : State) : Answer :=
  let t := tenant.toNat
  let x := s.tenant t
  if x.genOld.isSome ∨ x.rotate.isSome then Answer.err s stRekeyPending
  else
    let g := (x.genCur + 1) % 256
    Answer.ok ((s.newPageKey t g).modTenant t (fun x => { x with rotate := some s.leadFrom }))

def cmdKeyImport (h : CmdHdr) (p : KeyImportParams) (s : State) : Answer :=
  let n := p.cknLen.toNat
  let k := p.ca.toNat
  let t := sessionTenant h
  let x := s.ca k
  if 32 < n then Answer.errD s stInvalidLength 0x12
  else if h.bulk.length ≠ 32 + n then Answer.errD s stInvalidLength 0x08
  else if n = 0 then Answer.errD s stInvalid 0x12
  else if (k < 16 ∧ t ≠ 0) ∨ (x.cak.isSome ∧ x.tenant ≠ t) then Answer.err s stDenied
  else Answer.ok (s.modCa k (fun _ => { cak := some (h.bulk.take 32), ckn := h.bulk.drop 32, tenant := t, sak := none, txPn := 1, rxPn := 1 }))

/-! ## DEV_RESET (R716) -/

/-- A running dressing is cut short: the slab is INCOMPLETE (R193). -/
def State.cutDressing (s : State) (k : Nat) (report : Bool) : State :=
  let x := s.slab k
  match x.running with
  | none => s
  | some r =>
    if r.doneAt.isSome then s
    else
      let s := s.setSlab k { x with
        cells := x.cellsNow s.now, dress := .incomplete, running := none, spare := none, recon := [], kept := [], incompleteDue := !report }
      if report then s.upkeep k upIncomplete 0xFF 0x1FF 0 (s.slabInjected k) else s

def State.cutDressings (s : State) (report : Bool) : State :=
  forEach ((s.slabs.filter (fun x => x.2.running.isSome)).map (fun x => x.1)) s (fun s k => s.cutDressing k report)

/-- Everything that DEV_RESET does before its completion. -/
def State.devReset (s : State) : State :=
  let s := forEach (List.range 64) s (fun s c =>
    if (s.cluster c).active.isSome then
      let n := s.disarmFrom c
      (s.cancelFrom c (s.boundaryAt n)).modCluster c (fun x => { x with armed := none, shadow := none, disarm := some n, forget := true })
    else s.modCluster c (fun x => { x with armed := none, shadow := none }))
  let s := s.cutDressings false
  let s := forEach (s.slabs.map (fun x => x.1)) s (fun s k => s.modSlab k (fun x => { x with queued := none, pinned := false }))
  let s := forEach (List.range 64) s (fun s c => s.scheduleStrip c 0 false)
  let s := forEach ((List.range 15).map (· + 1)) s (fun s t => if (s.tenant t).exist then s.deleteTenant t 4 else s)
  let s := forEach (s.fabric.partners.map (fun x => x.1)) s (fun s i => s.detach i)
  let s := s.modFabric (fun f => { f with changes := [] })
  let s := s.dropKeys 4
  (s.setFw .waitImage).modMbx (fun m => { m with image := [], imageLen := 0 })

def cmdDevReset (_h : CmdHdr) (s : State) : Answer := Answer.ok s.devReset

end Sys2Proof.Machine
end

