-- ==== Sys2Proof/Machine/LoopBase.lean ====
section
/-! DEFINITION. Loop coefficients and their fields (R368, R383, R384), staged and pending writes (R381, R386 to R389),
crosstalk terms (R371), and loop numbering (R365). -/

namespace Sys2Proof.Machine

/-- Width in bits of the LOOP_COEF field that starts at an offset; none starts elsewhere (R368). -/
def loopField (o : Nat) : Option Nat :=
  if o = 0x00 ∨ o = 0x04 ∨ o = 0x08 then some 32
  else if o = 0x1A then some 4
  else if o % 2 = 0 ∧ 0x0C ≤ o ∧ o ≤ 0x1C then some 16
  else none

abbrev Coef := BitVec 256

def coKp (c : Coef) : Int := signed 32 (field c.toNat 0 32)
def coKi (c : Coef) : Int := signed 32 (field c.toNat 32 32)
def coKd (c : Coef) : Int := signed 32 (field c.toNat 64 32)
def coAlpha (c : Coef) : Nat := field c.toNat 96 16
def coSet (c : Coef) : Int := signed 16 (field c.toNat 112 16)
def coIMin (c : Coef) : Int := signed 16 (field c.toNat 128 16)
def coIMax (c : Coef) : Int := signed 16 (field c.toNat 144 16)
def coOutMin (c : Coef) : Int := field c.toNat 160 16
def coOutMax (c : Coef) : Int := field c.toNat 176 16
def coFfGain (c : Coef) : Int := signed 16 (field c.toNat 192 16)
def coTone (c : Coef) : Nat := field c.toNat 208 2
/-- Control ticks of LOCKIN_WIN. -/
def coWindow (c : Coef) : Nat :=
  match field c.toNat 210 2 with
  | 0 => 10
  | 2 => 50
  | _ => 20
def coDither (c : Coef) : Nat := field c.toNat 224 16

/-- Write the field at an offset. -/
def coPut (c : Coef) (o v : Nat) : Coef :=
  match loopField o with
  | some n => BitVec.ofNat 256 (c.toNat - field c.toNat (8 * o) n <<< (8 * o) + (v % 2 ^ n) <<< (8 * o))
  | none => c

/-- I_MIN above I_MAX, or OUT_MIN above OUT_MAX (R384). -/
def coBad (c : Coef) : Bool := decide (coIMax c < coIMin c) || decide (coOutMax c < coOutMin c)

def isLock (k : Nat) : Bool := decide (k < 5120)

/-- The fields a write to a loop acts on: the staged ones of a frozen loop (R384, R386). -/
def Loop.base (x : Loop) : Coef := if x.frozen then x.staged.getD x.coef else x.coef

/-- A write: staged on a frozen loop, else due from the first control tick at least 1 us later (R381). -/
def State.writeLoop (s : State) (k o v : Nat) : State :=
  s.modLoop k (fun x =>
    if x.frozen then { x with staged := some (coPut x.base o v) }
    else { x with writes := x.writes ++ [(s.now + 1000, o, BitVec.ofNat 32 v)] })


/-- Cluster and k of a ROUTER loop: 0 to 3 transmitters, 4 to 7 receivers. -/
def routerOf (k : Nat) : Option (Nat × Nat) :=
  if k < 5120 ∧ 2112 ≤ k % 2560 ∧ k % 2560 < 2368 then some (k / 2560 * 32 + (k % 2560 - 2112) / 8, (k % 2560 - 2112) % 8)
  else none
/-- Port, lane and m of a PORT loop. -/
def portOf (k : Nat) : Option (Nat × Nat × Nat) :=
  if k < 5120 ∧ 2368 ≤ k % 2560 then
    some (k / 2560 * 8 + (k % 2560 - 2368) / 24, (k % 2560 - 2368) % 24 / 3, (k % 2560 - 2368) % 3)
  else none

/-! ## Stack feed (R393) -/

def feedOwn : Nat := 0
def feedTwin : Nat := 1
def feedNone : Nat := 6

/-- A router or port ring serves while its loop is locked: its light is on, and it is not being re-acquired (R361, R364). -/
def State.ringServes (s : State) (k : Nat) : Bool := (s.loop k).phase == .locked
/-- Loop of router ring `k` of a cluster: 0 to 3 transmitters, 4 to 7 receivers. -/
def routerLoop (c k : Nat) : Nat := c / 32 * 2560 + 2112 + c % 32 * 8 + k
/-- Loops of a port. -/
def portLoops (p : Nat) : List Nat := (List.range 24).map (fun j => p / 8 * 2560 + 2368 + p % 8 * 24 + j)

/-! ## Crosstalk (R371 to R374) -/

def xtNbr (e : BitVec 256) (t : Nat) : Nat := field e.toNat (32 * t) 12
def xtValid (e : BitVec 256) (t : Nat) : Bool := bitAt e.toNat (32 * t + 15)
def xtCoef (e : BitVec 256) (t : Nat) : Int := signed 16 (field e.toNat (32 * t + 16) 16)
/-- Valid terms of an entry: neighbour and coefficient. -/
def xtTerms (e : BitVec 256) : List (Nat × Int) :=
  (List.range 8).filterMap (fun t => if xtValid e t then some (xtNbr e t, xtCoef e t) else none)
/-- A reserved bit is set. -/
def xtReserved (e : BitVec 256) : Bool := (List.range 8).any (fun t => decide (field e.toNat (32 * t + 12) 3 ≠ 0))
/-- R373: own loop, a neighbour twice, or a coefficient beyond 0.25 in any term. -/
def xtBad (own : Nat) (e : BitVec 256) : Bool :=
  let l := xtTerms e
  l.any (fun x => decide (x.1 = own) || decide (2559 < x.1)) || (List.range 8).any (fun t => decide (0x2000 < (xtCoef e t).natAbs))
    || (l.map (fun x => x.1)).dedup.length != l.length

def State.xtActive (s : State) (k : Nat) : BitVec 256 := tabGet 0 s.xtalk k
def State.xtStaged (s : State) (k : Nat) : BitVec 256 := tabGet 0 s.xstage k

/-- TONEs that a loop may come to run on: the one in force once its pending writes apply, and the one staged while it is frozen. -/
def Loop.tones (x : Loop) : List Nat :=
  coTone (x.writes.foldl (fun c w => coPut c w.2.1 w.2.2.toNat) x.coef) ::
    (match x.staged with
    | some c => [coTone c]
    | none => [])

/-- Loop `k` with one of its TONEs meets, in a table, a loop of the same tone with which it is mutually named (R354). -/
def State.toneClash (s : State) (table : Nat → BitVec 256) (k : Nat) (tones : List Nat) : Bool :=
  let die := k / 2560
  (xtTerms (table k)).any (fun x =>
    let n := die * 2560 + x.1
    (xtTerms (table n)).any (fun y => decide (y.1 = k % 2560)) && (s.loop n).tones.any tones.contains)

/-- The staging table of a die breaks R354 somewhere: tones may have changed since its entries were loaded. -/
def State.stageClash (s : State) (die : Nat) : Bool :=
  (s.xstage.filter (fun x => x.1 / 2560 == die)).any (fun x => s.toneClash s.xtStaged x.1 (s.loop x.1).tones)

end Sys2Proof.Machine
end

