-- ==== Sys2Proof/Machine/CmdControl.lean ====
section
/-! DEFINITION. The power, converter and control commands: POWER_STATE_SET (R745, R752), POWER_LIMIT_SET,
THERMAL_LIMITS_SET (R706), MONCONV_CONFIGURE and MONCONV_INJECT (13), LOOP_WRITE, LOOP_FREEZE, LOOP_RELEASE and
XTALK_LOAD (R354, R373, R374, R381 to R390, R703, R764). -/

namespace Sys2Proof.Machine

/-! ## Loops -/

def cmdLoopWrite (_h : CmdHdr) (p : LoopWriteParams) (s : State) : Answer :=
  let k := p.loop.toNat
  let o := p.offset.toNat
  let v := p.value.toNat
  let x := s.loop k
  if 5128 < k then Answer.errD s stInvalid 0x10
  else match loopField o with
  | none => Answer.errD s stInvalid 0x12
  | some n =>
    if 2 ^ n ≤ v then Answer.errD s stInvalid 0x14
    else if o = 0x1A ∧ v / 4 = 3 then Answer.errD s stInvalid 0x14
    else if !isLock k ∧ 0x18 ≤ o ∧ v ≠ 0 then Answer.errD s stInvalid 0x14
    else if coBad (coPut x.base o v) then Answer.err s stConflict
    else if isLock k ∧ o = 0x1A ∧ (s.toneClash s.xtActive k [v % 4] ∨ s.xcommit.contains (k / 2560) ∧ s.toneClash s.xtStaged k [v % 4])
      then Answer.err s stConflict
    else Answer.ok (s.writeLoop k o v)

def loopRange (p : LoopRange) : List Nat := (List.range p.count.toNat).map (· + p.first.toNat)

def cmdLoopFreeze (_h : CmdHdr) (p : LoopRange) (s : State) : Answer :=
  let l := loopRange p
  if 5129 < p.first.toNat + p.count.toNat then Answer.errD s stInvalidLength 0x12
  else if l.any (fun k => (s.loop k).phase == .sweep) then Answer.err s stConflict
  else if l.contains 5120 ∧ s.power.tl < 14000 then Answer.err s stConflict
  else Answer.ok (forEach l s (fun s k => s.modLoop k (fun x =>
    if x.frozen ∧ x.releaseFrom.isNone then x else { x with freezeFrom := some (s.now + 1) })))

def cmdLoopRelease (_h : CmdHdr) (p : LoopRange) (s : State) : Answer :=
  let l := loopRange p
  if 5129 < p.first.toNat + p.count.toNat then Answer.errD s stInvalidLength 0x12
  else if l.any (fun k => (s.loop k).frozen && coBad (s.loop k).base) then Answer.err s stConflict
  else Answer.ok (forEach l s (fun s k => s.modLoop k (fun x => { x with
    releaseFrom := if x.frozen || x.freezeFrom.isSome then some (s.now + 1) else none })))

def xtRecords : Nat → List Byte → List (BitVec 256)
  | 0, _ => []
  | n + 1, l => bytesToBv 256 (l.take 32) :: xtRecords n (l.drop 32)

/-- The staging table of a die with entries written. -/
def State.stageXtalk (s : State) (base : Nat) (es : List (Nat × BitVec 256)) : State :=
  { s with xstage := es.foldl (fun t e => tabSet 0 t (base + e.1) e.2) s.xstage }

/-- Reserved bits of the payload (R371): the first entry at fault. -/
def xtPayloadReserved (b : List Byte) : Option Nat :=
  (indexed (xtRecords (b.length / 32) b)).findSome? (fun x => if xtReserved x.2 then some (bulkBit + 32 * x.1) else none)

def cmdXtalkLoad (h : CmdHdr) (p : XtalkParams) (s : State) : Answer :=
  let n := p.count.toNat
  let die := if p.die then 1 else 0
  let base := die * 2560 + p.first.toNat
  let es := indexed (xtRecords n h.bulk)
  if 2560 < p.first.toNat + n then Answer.errD s stInvalidLength 0x14
  else if h.bulk.length ≠ 32 * n then Answer.errD s stInvalidLength 0x08
  else match es.find? (fun e => xtBad (p.first.toNat + e.1) e.2) with
  | some e => Answer.errD s stInvalid (bulkBit + 32 * e.1)
  | none =>
    let s1 := s.stageXtalk base es
    if es.any (fun e => s1.toneClash s1.xtStaged (base + e.1) (s1.loop (base + e.1)).tones) ∨ p.commit ∧ s1.stageClash die then
      Answer.err s stConflict
    else Answer.ok (if p.commit then { s1 with xcommit := (s1.xcommit ++ [die]).dedup } else s1)

/-! ## Limits (R381, R699, R706, R763) -/

def cmdPowerLimitSet (_h : CmdHdr) (p : PowerLimitParams) (s : State) : Answer :=
  if p.pwr.toNat < 4000 ∨ 14000 < p.pwr.toNat then Answer.errD s stInvalid 0x10
  else if p.iin.toNat < 1000 ∨ 3600 < p.iin.toNat then Answer.errD s stInvalid 0x12
  else Answer.ok ((s.writeLoop 5120 0x0E p.pwr.toNat).writeLoop 5121 0x0E p.iin.toNat)

/-- Highest SETPOINT of temperature loop 5,122 + k (R706). -/
def setpointMax (k : Nat) : Nat := if k < 4 then 376 else if k = 4 then 360 else 280

def cmdThermalLimitsSet (_h : CmdHdr) (l : List Half) (s : State) : Answer :=
  match (indexed l).find? (fun x => decide (x.2 ≠ 0xFFFF) && (decide (x.2.toNat < 80) || decide (setpointMax x.1 < x.2.toNat))) with
  | some x => Answer.errD s stInvalid (0x10 + 2 * x.1)
  | none => Answer.ok (forEach (indexed l) s (fun s x =>
      if x.2 = 0xFFFF then s else s.writeLoop (5122 + x.1) 0x0E x.2.toNat))

/-! ## POWER_STATE_SET (R745, R752) -/

def pstateOf (n : Nat) : PState :=
  match n with
  | 0 => .ps0
  | 1 => .ps1
  | 2 => .ps2
  | 3 => .ps3
  | 4 => .ps4
  | _ => .ps5

def PState.code : PState → Nat
  | .ps0 => 0
  | .ps1 => 1
  | .ps2 => 2
  | .ps3 => 3
  | .ps4 => 4
  | .ps5 => 5

/-- Protection temperature of zone `k` of a die (R756). -/
def State.zoneTemp (s : State) (die k : Nat) : Int :=
  let a := s.sensor (die * 64 + 2 * k)
  let b := s.sensor (die * 64 + 2 * k + 1)
  if a.failed ∧ b.failed then 600
  else if a.failed then b.temp + 40
  else if b.failed then a.temp + 40
  else max a.temp b.temp

/-- Protection temperature of a die (R757). -/
def State.dieTemp (s : State) (die : Nat) : Int :=
  (List.range 32).foldl (fun m k => max m (s.zoneTemp die k)) (s.zoneTemp die 0)

def State.hbmTemp (s : State) : Int := s.power.hbm.foldl max (s.power.hbm.headD 0)

def State.cartTemp (s : State) (k : Nat) : Int := (s.cart k).temp

/-- The release column of Protection thresholds (R760). -/
def State.released (s : State) : Bool :=
  (List.range 4).all (fun d => decide (s.dieTemp d < 360)) && decide (s.hbmTemp < 380)
    && decide (s.cartTemp 0 < 280) && decide (s.cartTemp 1 < 280)

def cmdPowerStateSet (_h : CmdHdr) (st : BitVec 3) (s : State) : Answer :=
  let n := st.toNat
  if 5 < n then Answer.errD s stInvalid 0x10
  else if n ≠ 0 ∧ s.power.stop then Answer.err s stConflict
  else if n = 0 ∧ !s.released then Answer.err s stConflict
  else if pstateOf n = s.power.pstate then Answer.ok s
  else if n = 0 then Answer.wait s 0
  else Answer.wait (s.modPower (fun p => { p with target := some (pstateOf n, s.leadFrom) })) 0

/-! ## Monitor converters (R780 to R792) -/

/-- Monitor converters run in PS0 and PS1 (R784). -/
def State.convertersOn (s : State) : Bool := s.power.pstate == .ps0 || s.power.pstate == .ps1

/-- The configuration a MONCONV_CONFIGURE leaves at once; `wait`: START comes when the reference has settled (R791).
Samples taken already still deliver their results, the rest of a pass is abandoned (R783). -/
def Monconv.configured (x : Monconv) (p : MonconvParams) (wait : Bool) (now : Nat) : Monconv :=
  { x with
    scanMask := p.scanMask, refmode := p.refmode, continuous := p.continuous, start := p.scanMask != 0 && !wait,
    busy := false, refReady := !p.refmode && x.refReady, refFrom := now, todo := x.todo.filter (fun y => decide (y.2 ≤ now)) }

def cmdMonconvConfigure (_h : CmdHdr) (p : MonconvParams) (s : State) : Answer :=
  let k := p.mc.toNat
  let wait := !p.refmode && !(s.mc k).refReady
  if !s.convertersOn then Answer.err s stNotReady
  else
    let s := s.modMc k (fun x => x.configured p wait s.now)
    if wait then Answer.wait s 0 else Answer.ok s

/-- The clock of an injected sample: the next sample clock, after the injected samples before it; in REFMODE 1 a converter that has
powered down starts up first (R789, R792). -/
def Monconv.injectAt (x : Monconv) (now : Nat) : Nat :=
  match (x.todo.filter (fun y => decide (now < y.2))).head?, x.inj.getLast? with
  | some y, _ => y.2
  | none, some i => max (i.2.2 + 25) (now + 25)
  | none, none => now + 25 + (if x.refmode then 2000 else 0)

/-- R788, R789: the entry joins the queue; the samples not yet taken come one clock later. -/
def cmdMonconvInject (h : CmdHdr) (p : InjectParams) (s : State) : Answer :=
  let k := p.mc.toNat
  if !s.convertersOn then Answer.err s stNotReady
  else if 4 ≤ (s.mc k).inj.length then Answer.err s stBusy
  else Answer.wait (s.modMc k (fun x => { x with
    inj := x.inj ++ [(p.channel.toNat, h.ring, x.injectAt s.now)],
    todo := x.todo.map (fun y => if s.now < y.2 then (y.1, y.2 + 25) else y) })) 0

end Sys2Proof.Machine
end

