-- ==== Sys2Proof/Machine/Complete.lean ====
section
/-! DEFINITION. Completing a command (R680, R682): on its ring, or for a relayed command by OUTPUT and CPL frames to the
manager (R604), and what follows a completion. -/

namespace Sys2Proof.Machine

/-- Send a relayed command's output and completion to the module that relayed it (R603, R604). -/
def State.finishRelayed (s : State) (i tag : Nat) (h : CmdHdr) (op : Nat) (clear : Bool) (a : Answer) : State :=
  let s1 := a.after s
  let c : Cpl :=
    { status := a.status, applied := a.applied, inF3 := a.f3 && !a.out.isEmpty, opcode := op, id := h.id,
      outLen := a.out.length, detail := a.detail, result := BitVec.ofNat 128 a.result, session := none, wire := [] }
  let o : List Byte × State := match h.session, a.out.isEmpty with
    | some t, false =>
      if a.f3 then s1.sealOn t.val 4 a.out
      else (chunks 32768 (ceilDiv a.out.length 32768) a.out).foldl (fun (x : List Byte × State) b =>
        let e := x.2.sealOn t.val 3 b
        (x.1 ++ e.1, e.2)) ([], s1)
    | _, _ => (a.out, s1)
  let w : List Byte × State := match h.session, clear with
    | some t, false => o.2.sealOn t.val 1 c.bytes
    | _, _ => (c.bytes, o.2)
  let s := (blocks 8256 o.1).foldl (fun (s : State) x => s.sendTo i jtOutput tag x.1 x.2.1 x.2.2) w.2
  s.sendTo i jtCpl tag 0 true w.1

/-- What follows the completion of a command: DEV_SESSION_CLOSE closes its session (R699). -/
def afterFinish (c : HostCmd) (h : CmdHdr) (status : Nat) (s : State) : State :=
  match c with
  | .devSessionClose => if status = stOk then s.closeSession (sessionTenant h) 0 else s
  | _ => s

/-- Complete a command where its answer goes. -/
def State.deliver (s : State) (relay : Option (Nat × Nat)) (h : CmdHdr) (c : HostCmd) (a : Answer) : State :=
  let op := opcodeOf c
  let s := match relay with
    | some x =>
      let t := s.finishRelayed x.1 x.2 h op (clearCpl op) a
      t.modRing (ringNo h.ring) (fun y => { y with completed := y.completed + 1 })
    | none => s.finish h op (clearCpl op) a
  afterFinish c h a.status s

/-- The output of an answer fits where it goes (R691, R692). -/
def State.answerFits (s : State) (relay : Option (Nat × Nat)) (h : CmdHdr) (a : Answer) : Bool :=
  relay.isSome || s.fits h.session a.f3 a.out.length

/-- The first command of a queue becomes the head of its ring (R690). -/
def headNow (now : Nat) : List Accepted → List Accepted
  | [] => []
  | a :: t => { a with headAt := now } :: t

/-- Complete the command in execution on a ring with an answer; without room for its output it waits. -/
def State.completeRing (s : State) (r : Nat) (a : Answer) : State :=
  match (s.ring r).exec with
  | none => s
  | some x =>
    let clr (s : State) : State := s.modRing r (fun y => { y with exec := none, cmds := headNow s.now y.cmds })
    if s.answerFits x.relay x.hdr a then (clr s).deliver x.relay x.hdr x.cmd { a with s := clr a.s } else s

/-- Ring, if any, whose command in execution satisfies a condition. -/
def State.ringExecuting (s : State) (p : HostCmd → Bool) : Option Nat :=
  (List.range 4).find? (fun r => match (s.ring r).exec with
    | some x => p x.cmd
    | none => false)

end Sys2Proof.Machine
end

