-- ==== Sys2Proof/Machine/Converters.lean ====
section
/-! DEFINITION. Monitor converter steps: scan passes, results, the loop unit's read of DATA, injected conversions and the
settling of the reference (R781 to R793, R805), and the calibration of the converters (R799 to R804). -/

namespace Sys2Proof.Machine

/-- CONV_CORR index of a monitor converter (R796). -/
def mcIndex (k : Nat) : Nat := 299136 + k

/-- R805: code = round((16 * raw - OFFSET) * GAIN / 2^18), limited to 0 to 4,095. -/
def mcCorrect (c : ConvCorr) (raw : Nat) : Nat := (clampI 0 4095 (shiftRound ((16 * raw - c.offset) * c.gain) 18)).toNat

def State.mcCode (s : State) (k raw : Nat) : Nat := mcCorrect (s.convCorr (mcIndex k)) raw

/-- Bits of the MONCONV record that are W1C (R794). -/
def mcOverrun : Nat := 37
def mcXcheck : Nat := 38
def mcCalFail : Nat := 39

/-- One OVERRUN event for the results a pass has lost (R787). -/
def State.reportLost (s : State) (k : Nat) : State :=
  let n := (s.mc k).lost
  if n = 0 then s else (s.modMc k (fun x => { x with lost := 0 })).converter (mcIndex k) coOverrun n

/-- Sample clocks of a pass from its first on. -/
def samplesFrom : Nat → List Nat → List (Nat × Nat)
  | _, [] => []
  | t, c :: cs => (c, t) :: samplesFrom (t + 25) cs

/-- Time since the last control tick boundary. -/
def State.sinceControl (s : State) : Int := ((s.timeNat : Int) - s.time.frameOffset) % 10000

/-- MONCONV_PASS: a scan pass begins (R781, R782): a continuous one 2 us after a control tick boundary. In REFMODE 1 the converter
first starts up for 2 us (R792). -/
def State.beginPass (s : State) (k : Nat) : State :=
  let x := s.mc k
  if !s.convertersOn || !x.start || x.busy || x.continuous && !(decide (2000 ≤ s.sinceControl) && decide (s.sinceControl ≤ 2050)) then s
  else
    let t := s.now + (if x.refmode then 2000 else 0)
    let l := samplesFrom t (maskBits (x.scanMask.zeroExtend 64))
    (s.reportLost k).modMc k (fun x => { x with busy := true, todo := x.todo ++ l })

/-- The first 2 us after each control tick boundary, in which the loop unit reads nothing (R786). -/
def State.inLoopWindow (s : State) : Bool := decide (s.sinceControl < 2000)

/-- LAST of the channel takes the code, and DATA_VALID clears (R786). -/
def Monconv.taken (x : Monconv) : Monconv := { x with last := tabSet 0 x.last x.dataCh x.data, dataValid := false }

/-- The loop unit has read DATA by now: it does so in the cycle after the write, or at the end of a window in which it was written. -/
def State.dataTaken (s : State) (x : Monconv) : Bool :=
  x.dataValid && decide (x.dataAt < s.timeNat) && !(s.inLoopWindow && decide ((s.timeNat : Int) - s.sinceControl ≤ x.dataAt))

/-- A monitor converter as it stands now. -/
def State.mcNow (s : State) (k : Nat) : Monconv := if s.dataTaken (s.mc k) then (s.mc k).taken else s.mc k

/-- MONCONV_RESULT: a result, eight sample clocks after its sample (R778), in DATA, over an unread one if there is one (R785, R787),
and the end of the pass. -/
def State.deliverResult (s : State) (k raw : Nat) : State :=
  let x := s.mcNow k
  match x.todo with
  | [] => s
  | y :: rest =>
    if s.now < y.2 + 200 then s else
    let lost := x.dataValid
    let x := { x with
      todo := rest, data := s.mcCode k raw, dataCh := y.1, dataValid := true, dataAt := s.timeNat
      status := x.status.hitIf lost mcOverrun, lost := if lost then x.lost + 1 else x.lost }
    if rest.isEmpty then
      (s.modMc k (fun _ => { x with busy := false, start := if x.busy && !x.continuous then false else x.start })).reportLost k
    else s.modMc k (fun _ => x)

/-- MONCONV_DATA_READ (R786). -/
def State.readData (s : State) (k : Nat) : State :=
  if (s.mc k).dataValid && !s.inLoopWindow then s.modMc k Monconv.taken else s

/-- INJECTED_CONVERSION: the front entry's result, and the completion of its MONCONV_INJECT with the TIME_NS of its
sample, eight sample clocks before (R778, R790). -/
def State.injectedResult (s : State) (k raw : Nat) : State :=
  match (s.mc k).inj with
  | [] => s
  | y :: rest =>
    if s.now < y.2.2 + 200 then s else
    let code := s.mcCode k raw
    let s := s.modMc k (fun x => { x with inj := rest, injCode := code, injCh := y.1 })
    s.completeRing (ringNo y.2.1) (Answer.okR s (code + (s.time.timeNs - BitVec.ofNat 64 (s.now - y.2.2)).toNat <<< 64))

/-- REF_READY: the reference has settled, 20 us after it was switched on; START and REF_READY are set, and MONCONV_CONFIGURE completes
(R791). -/
def State.refSettled (s : State) (k : Nat) : State :=
  let x := s.mc k
  if x.refmode || x.refReady || decide (s.now < x.refFrom + 20000) then s
  else
    let s := s.modMc k (fun x => { x with refReady := true, start := x.scanMask != 0 })
    match s.ringExecuting (fun c => match c with
      | .monconvConfigure p => p.mc.toNat == k
      | _ => false) with
    | some r => s.completeRing r (Answer.ok s)
    | none => s

def execMonconvPass (dt : Nat) (mc : McId) (s : State) : Host.Outcome State Fault Refusal :=
  .next ((s.elapse dt).beginPass mc)

def execMonconvResult (dt : Nat) (mc : McId) (raw : BitVec 12) (s : State) : Host.Outcome State Fault Refusal :=
  .next ((s.elapse dt).deliverResult mc raw.toNat)

def execMonconvDataRead (dt : Nat) (mc : McId) (s : State) : Host.Outcome State Fault Refusal :=
  .next ((s.elapse dt).readData mc)

def execInjectedConversion (dt : Nat) (mc : McId) (raw : BitVec 12) (s : State) : Host.Outcome State Fault Refusal :=
  .next ((s.elapse dt).injectedResult mc raw.toNat)

def execRefReady (dt : Nat) (mc : McId) (s : State) : Host.Outcome State Fault Refusal :=
  .next ((s.elapse dt).refSettled mc)

/-! ## Calibration in the housekeeping slot (R793, R795 to R804) -/

/-- Limits of a calibration: the DETAIL of CONV_FAIL where they are exceeded (R795, R813). OFFSET is in 1/16 LSB. -/
def corrFault (maxOfs : Int) (lo hi : Nat) (ofs : Int) (gain : Nat) : Option Nat :=
  if ofs < -maxOfs ∨ maxOfs < ofs then some 0 else if gain < lo ∨ hi < gain then some 1 else none

/-- Write a CONV_CORR record after a calibration; outside its limits the correction stays and FAILED is set (R802, R804). -/
def State.calibrated (s : State) (i : Nat) (ofs : Int) (gain : Nat) (fault : Option Nat) : State :=
  let s := s.modCorr i (fun c => { c with
    offset := if fault.isNone then ofs else c.offset, gain := if fault.isNone then gain else c.gain,
    failed := fault.isSome, calCount := (c.calCount + 1) % 256, calEpoch := s.epochNow % 65536 })
  match fault with
  | some d => s.converter i coFail d
  | none => s

/-- The cross-check of one stack's two converters (R793). -/
def State.crossCheck (s : State) (a b rawA rawB : Nat) : State :=
  let ca := s.mcCode a rawA
  let cb := s.mcCode b rawB
  let s := (s.modMc a (fun x => { x with injCode := ca, injCh := 31 })).modMc b (fun x => { x with injCode := cb, injCh := 31 })
  if 8 < ca - cb + (cb - ca) then
    ((s.modMc a (fun x => { x with status := x.status.hit mcXcheck })).modMc b (fun x => { x with
      status := x.status.hit mcXcheck })).converter (mcIndex a) coXcheck (ca + cb * 2 ^ 16)
  else s

/-- Cross-checks of both stacks in PS0 and PS1 (R793): raw codes of channel 31; where the operand does not bring four they are free.
What the slot measures of the monitor converters is kept for its end (R804). -/
def State.calibrateMonitors (s : State) (bandgap : List Nat) (cal : List (Nat × Int × Nat)) (stage : List Nat) : State :=
  if !s.convertersOn then s else
  let f (i : Nat) : Nat := Config.freeNat (s.free + i) % 4096
  let s := match bandgap with
    | [a, b, c, d] => (s.crossCheck 0 1 a b).crossCheck 2 3 c d
    | _ => (s.takeFree.takeFree.takeFree.takeFree.crossCheck 0 1 (f 0) (f 1)).crossCheck 2 3 (f 2) (f 3)
  forEach (cal.filter (fun x => decide (x.1 < 4))) s (fun s x =>
    s.modMc x.1 (fun y => { y with measured := some (x.2.1, x.2.2, stage.contains (mcIndex x.1)) }))

/-- The end of the slot writes the corrections that it measured; one outside the limits leaves the old one in force (R804). -/
def State.monitorsMeasured (s : State) : State :=
  forEach (List.range 4) s (fun s k => match (s.mc k).measured with
    | none => s
    | some m =>
      let fault := if m.2.2 then some 2 else corrFault 128 0x3E00 0x4200 m.1 m.2.1
      (s.calibrated (mcIndex k) m.1 m.2.1 fault).modMc k (fun y => { y with
        measured := none, status := y.status.hitIf fault.isSome mcCalFail }))

/-- Rotation of a slab's column converters (R799): the spare unit takes the next position, the freed unit is spare. -/
def Slab.rotate (x : Slab) : Slab :=
  let p := x.rotNext
  let spare := nth 17 x.units 17
  let freed := nth 0 x.units p
  { x with units := (x.units.set p spare).set 17 freed, rotNext := (p + 1) % 17 }

/-- Correction of the spare unit of a slab, as the last calibration found it. -/
def State.spareCorr (s : State) (k : Nat) : Int × Nat :=
  let c := s.convCorr (k * 18 + nth 17 (if (s.slab k).rotAgain then s.slab k else (s.slab k).rotate).units 17)
  (c.offset, c.gain)

/-- One slab's slot: a rotation unless the last calibration was cut, then the calibration of the freed unit if it was
completed (R799 to R802). -/
def State.calibrateColumn (s : State) (k : Nat) (result : Option (Int × Nat)) : State :=
  let x := s.slab k
  if x.rotStopped then s
  else
    let x := if x.rotAgain then x else x.rotate
    match result with
    | none => s.setSlab k { x with rotAgain := true }
    | some r =>
      let unit := nth 17 x.units 17
      let fault := corrFault 64 0x3F00 0x4100 r.1 r.2
      (s.setSlab k { x with rotAgain := false, rotStopped := fault.isSome }).calibrated (k * 18 + unit) r.1 r.2 fault

end Sys2Proof.Machine
end

