-- ==== Sys2Proof/Machine/ReadBack.lean ====
section
/-! DEFINITION. Read-back (R721 to R731): the object classes, the bytes of each object, STATE_READ, STATE_LIST, EVENT_READ,
who may read what (R660, R869), and the W1C flags of each class (R8, R9, R698). -/

namespace Sys2Proof.Machine

/-! ## The catalogue (R721) -/

/-- Who reads a class (R660). -/
inductive Vis where
  | module | metadata | data | secret
deriving DecidableEq, Repr

/-- A class: objects, bytes per object (of a byte-addressed class the most), byte-addressed, visibility, W1C bits. -/
structure ObjClass where
  count : Nat
  size : Nat
  bytes : Bool
  vis : Vis
  w1c : List Nat
deriving DecidableEq, Repr

def fixedClass (count size : Nat) (vis : Vis) (w1c : List Nat) : Option ObjClass :=
  some { count := count, size := size, bytes := false, vis := vis, w1c := w1c }
def byteClass (count size : Nat) (vis : Vis) : Option ObjClass :=
  some { count := count, size := size, bytes := true, vis := vis, w1c := [] }

/-- The classes but the counters. W1C bits are numbered as the model's flag words number them. -/
def baseClass (c : Nat) : Option ObjClass :=
  match c with
  | 0x0001 => fixedClass 64 4 .module [8, 9, 10, 11]
  | 0x0002 => byteClass 128 264200 .data
  | 0x0003 => fixedClass 1 16 .module []
  | 0x0010 => fixedClass 16384 4 .metadata [0, 1, 2, 8, 9, 10, 11]
  | 0x0011 => fixedClass 16384 16 .metadata []
  | 0x0012 => fixedClass 16384 40 .metadata []
  | 0x0013 => fixedClass 16384 16 .metadata []
  | 0x0014 => fixedClass 16384 544 .metadata []
  | 0x0015 => fixedClass 16384 512 .data []
  | 0x0016 => fixedClass 16384 36 .metadata []
  | 0x0017 => byteClass 16384 70176 .data
  | 0x0018 => fixedClass 16384 4096 .data []
  | 0x0020 => fixedClass 64 4 .metadata [0, 1, 2, 3, 4, 5, 6, 7, 8, 9]
  | 0x0021 => fixedClass 64 24 .metadata []
  | 0x0022 => fixedClass 64 130 .metadata []
  | 0x0023 => fixedClass 64 512 .metadata []
  | 0x0024 => fixedClass 4224 512 .metadata []
  | 0x0025 => fixedClass 64 2048 .metadata []
  | 0x0026 => fixedClass 64 128 .module []
  | 0x0027 => byteClass 64 8704 .data
  | 0x0030 => fixedClass 5129 32 .module []
  | 0x0031 => fixedClass 5129 20 .module [6, 7, 8, 9]
  | 0x0032 => fixedClass 5120 8 .module []
  | 0x0033 => fixedClass 278528 4 .module []
  | 0x0034 => fixedClass 13312 32 .module []
  | 0x0035 => fixedClass 1 4 .module []
  | 0x0036 => fixedClass 2 4 .module [4, 5, 6]
  | 0x0037 => fixedClass 128 4 .module []
  | 0x0038 => fixedClass 128 1 .module []
  | 0x0040 => fixedClass 34816 4 .metadata [12, 13, 14]
  | 0x0041 => fixedClass 4160 16 .metadata [0, 1]
  | 0x0042 => byteClass 4096 65536 .data
  | 0x0043 => byteClass 64 1048576 .data
  | 0x0044 => byteClass 64 327680 .metadata
  | 0x0045 => fixedClass 98304 8 .metadata []
  | 0x0046 => byteClass 98304 8388608 .data
  | 0x0047 => byteClass 64 16384 .data
  | 0x0048 => fixedClass 4096 4 .metadata [0, 1, 2, 3]
  | 0x0050 => fixedClass 16 4 .module [8, 9, 10, 11, 12, 13, 14]
  | 0x0051 => fixedClass 16 64 .module []
  | 0x0052 => fixedClass 64 4 .module [8, 9]
  | 0x0053 => byteClass 1 4224 .module
  | 0x0054 => fixedClass 131072 64 .metadata []
  | 0x0055 => fixedClass 131072 44 .metadata []
  | 0x0060 => fixedClass 16 32 .metadata []
  | 0x0061 => fixedClass 64 4 .module []
  | 0x0062 => fixedClass 34 32 .module []
  | 0x0063 => fixedClass 16384 32 .secret []
  | 0x0070 => fixedClass 4 16 .module [22]
  | 0x0080 => fixedClass 299140 8 .module []
  | 0x0081 => fixedClass 4 64 .module [37, 38, 39]
  | 0x0090 => fixedClass 256 2 .module []
  | _ => none

/-- Every class: a class with W1C bits has its counters at 0x8000 above (R9, R721). -/
def classOf (c : Nat) : Option ObjClass :=
  if c < 0x8000 then baseClass c
  else match baseClass (c - 0x8000) with
    | some x => if x.w1c.isEmpty then none else some { x with size := 4 * x.w1c.length, w1c := [] }
    | none => none

/-- The classes in ascending order (R729). -/
def classList : List Nat :=
  let l := (List.range 0x91).filter (fun c => (classOf c).isSome)
  l ++ (l.map (· + 0x8000)).filter (fun c => (classOf c).isSome)

/-! ## Flag words -/

/-- The flag word of an object of a class with W1C bits. -/
def State.flagWord (s : State) (c i : Nat) : W1c :=
  match c with
  | 0x0001 => (s.cluster i).tseq
  | 0x0010 => (s.slab i).status
  | 0x0020 => (s.engine i).status
  | 0x0031 => (s.loop i).status
  | 0x0036 => (s.cart i).status
  | 0x0040 => (s.bank i).status
  | 0x0041 => (s.haul i).status
  | 0x0048 => s.vecStatus i
  | 0x0050 => (s.port i).status
  | 0x0052 => (s.cluster i).router
  | 0x0070 => (s.ring i).status
  | 0x0081 => (s.mc i).status
  | _ => W1c.init

def State.setFlagWord (s : State) (c i : Nat) (w : W1c) : State :=
  match c with
  | 0x0001 => s.modCluster i (fun x => { x with tseq := w })
  | 0x0010 => s.modSlab i (fun x => { x with status := w })
  | 0x0020 => s.modEngine i (fun x => { x with status := w })
  | 0x0031 => s.modLoop i (fun x => { x with status := w })
  | 0x0036 => s.modCart i (fun x => { x with status := w })
  | 0x0040 => s.modBank i (fun x => { x with status := w })
  | 0x0041 => s.modHaul i (fun x => { x with status := w })
  | 0x0048 => s.modVec i (fun _ => w)
  | 0x0050 => s.modPort i (fun x => { x with status := w })
  | 0x0052 => s.modCluster i (fun x => { x with router := w })
  | 0x0070 => s.modRing i (fun x => { x with status := w })
  | 0x0081 => s.modMc i (fun x => { x with status := w })
  | _ => s

/-- STATE_READ with CLEAR clears exactly the flags the read returned as 1 (R698). -/
def State.clearFlags (s : State) (c i : Nat) : State :=
  let w := s.flagWord c i
  s.setFlagWord c i (w.clear w.flags)

/-- The flags of a word as bits of a register. -/
def W1c.bits (w : W1c) : Nat := w.flags.toNat

/-! ## Owners (R660) -/

/-- Tenant that an object of a metadata or data class belongs to; `none` where no tenant owns it now. -/
def State.ownerOf (s : State) (c i : Nat) : Option Nat :=
  let cluster (k : Nat) : Option Nat := s.clusterTenant k
  match c % 0x8000 with
  | 0x0002 => cluster (i / 2)
  | 0x0020 => cluster i
  | 0x0021 => cluster i
  | 0x0022 => cluster i
  | 0x0023 => cluster i
  | 0x0024 => cluster (i / 66)
  | 0x0025 => cluster i
  | 0x0027 => cluster i
  | 0x0040 => cluster (i / 544)
  | 0x0041 => cluster (i / 65)
  | 0x0042 => cluster (i / 64)
  | 0x0043 => cluster i
  | 0x0044 => cluster i
  | 0x0045 => if (s.page i).kind = 0 then none else some (s.page i).tenant
  | 0x0046 => if (s.page i).kind = 0 then none else some (s.page i).tenant
  | 0x0047 => cluster i
  | 0x0048 => cluster (i / 64)
  | 0x0054 => if peState (s.partner i) = psFree then none else some (peTenant (s.partner i))
  | 0x0055 => if peState (s.partner i) = psFree then none else some (peTenant (s.partner i))
  | 0x0060 => some i
  | _ => cluster (slabCluster i)

/-- A session may read an object of a visibility with an owner (R660). -/
def mayRead (vis : Vis) (session : Nat) (owner : Option Nat) : Bool :=
  match vis with
  | .module => true
  | .secret => true
  | .metadata => session == 0 || owner == some session
  | .data => owner == some session

/-- Cluster of a data object of a cluster, for R728. -/
def dataCluster (c i : Nat) : Option Nat :=
  match c with
  | 0x0002 => some (i / 2)
  | 0x0015 => some (slabCluster i)
  | 0x0017 => some (slabCluster i)
  | 0x0018 => some (slabCluster i)
  | 0x0027 => some i
  | 0x0042 => some (i / 64)
  | 0x0043 => some i
  | 0x0047 => some i
  | _ => none

/-! ## Registers -/

/-- TSEQ_STATUS (02). -/
def State.tseqStatus (s : State) (c : Nat) : Nat :=
  let x := s.cluster c
  b2n x.activeBuf + fld 1 1 (b2n x.armed.isSome) + fld 2 1 (b2n x.batch) + fld 3 3 s.time.srcState.code
    + fld 6 2 s.time.srcIndex + x.tseq.bits + fld 12 1 (b2n x.active.isNone)

def AccSet.tagged (a : AccSet) : Bool := a.unconf || a.spoiled

/-- SLAB_STATUS (R161, R163, R233). -/
def State.slabStatus (s : State) (k : Nat) : Nat :=
  let x := s.slab k
  x.status.bits + fld 3 1 (b2n (s.slabAdds k)) + fld 4 1 (b2n (s.slabDrains k)) + fld 5 1 (b2n x.live.tagged) + fld 6 2 x.rowgrpLast
    + fld 12 1 (b2n x.detours) + fld 13 1 (b2n (!x.recon.isEmpty)) + fld 14 1 (b2n x.pinned)
    + fld 15 1 (b2n (!x.seamOff.isEmpty))

/-- SLAB_INFO (R162). -/
def Slab.info (x : Slab) : Nat := fld 0 16 x.driftTrim + fld 16 7 x.outputs + fld 32 32 x.live.kcount + fld 64 32 x.zskip

/-- DRESS_STATE values (R168). -/
def DressState.code : DressState → Nat
  | .blank => 0
  | .dressing => 1
  | .ready => 2
  | .repair => 3
  | .failed => 4
  | .incomplete => 5
  | .detour => 6

/-- SLAB_UPKEEP (R234). -/
def Slab.upkeepRecord (x : Slab) (t : TimeState) : Nat :=
  x.dress.code + fld 3 1 (b2n x.timebase) + fld 4 1 (b2n (x.ageValid t)) + fld 5 1 (b2n x.bound)
    + fld 8 10 (unsigned 10 x.tDress) + fld 32 16 x.ageTrim + fld 48 16 (unsigned 16 x.tco)
    + fld 64 16 (unsigned 16 x.driftBase) + fld 80 16 x.seamThresh + fld 96 64 x.dressTime.toNat
    + fld 160 32 x.redressAge + fld 192 32 (x.age t) + ((x.remap.map (fun r => 2 ^ r.1)).sum % 256) <<< 224
    + fld 232 8 x.dressCount + fld 256 64 x.tileId.toNat

/-- SLAB_REMAP (R235). -/
def Slab.remapRecord (x : Slab) : List Byte :=
  (List.range 8).flatMap (fun i => toLe 2 (match tabFind x.remap i with
    | some j => fld 0 9 j + 0x8000
    | none => 0))

/-- One half of the accumulator window of a slab (R132, R133). -/
def Slab.accBytes (x : Slab) (a : AccSet) : List Byte :=
  (List.range 272).flatMap (fun p => toLe 4 (unsigned 32 (tabGet 0 a.slice p)))
    ++ (List.range 85).flatMap (fun o => toLe 8 (unsigned 64 (x.resultOf a o).1)) ++ List.replicate 0x118 0

/-- OPT_STATUS (R313). -/
def State.optStatus (s : State) (e : Nat) : Nat :=
  let x := s.engine e
  x.status.bits + fld 10 1 (b2n (s.engineRuns e)) + fld 11 1 (b2n x.shadow.loaded)
    + fld 12 1 (b2n (s.clusterDetours e)) + fld 13 1 (b2n (decide (s.now < x.refreshUntil))) + fld 14 2 x.rateLast

/-- OPT_INFO (R314). -/
def State.optInfo (s : State) (e : Nat) : Nat :=
  let x := s.engine e
  fld 0 32 x.lastVerdict + fld 32 32 x.lastDirty + fld 64 32 x.symbols + fld 96 32 x.stallNs
    + fld 128 10 (((s.cluster e).log.filter (fun l => !l.hold)).length) + fld 144 7 (x.calRow.getD 0x7F)
    + fld 152 7 x.rotationNext

/-- ROW_SERVICE (R315). -/
def Engine.rowService (x : Engine) : List Byte :=
  (List.range 64).map (fun k => BitVec.ofNat 8 (x.physRow k)) ++ (List.range 66).map (fun p => BitVec.ofNat 8 (x.rowState p).code)

/-- Verdict history entry (R316). -/
def Verdict.record (v : Verdict) : Nat :=
  fld 0 32 v.epoch + fld 32 1 (b2n v.clean) + fld 33 1 (b2n v.ring) + fld 34 1 (b2n v.power) + fld 35 1 (b2n v.pilot)
    + fld 36 1 (b2n v.late) + fld 37 1 (b2n v.integrated) + fld 40 7 v.row + fld 48 6 (v.line.getD 0)
    + fld 54 1 (b2n v.line.isSome)

def RingCal.record (c : RingCal) : Nat := fld 0 10 c.zero + fld 16 16 c.gain + fld 32 16 c.epoch

def WeightSet.storeBytes (w : WeightSet) : List Byte :=
  if w.loaded then (List.range 4096).map (fun i => BitVec.ofNat 8 (unsigned 8 (tabGet 0 w.q i))) else List.replicate 4096 0
def WeightSet.ofsBytes (w : WeightSet) : List Byte :=
  if w.loaded then (List.range 64).flatMap (fun k => toLe 4 (unsigned 32 (w.rowOfs k))) else List.replicate 256 0
/-- WEIGHT_STORE (R255, R721). -/
def Engine.weightStore (x : Engine) : List Byte :=
  x.active.storeBytes ++ x.shadow.storeBytes ++ x.active.ofsBytes ++ x.shadow.ofsBytes

/-- LOOP_STATE values of STATE (R369). -/
def LoopPhase.code : LoopPhase → Nat
  | .off => 0
  | .sweep => 1
  | .pilotWait => 2
  | .locked => 3
  | .failed => 4

def sat16 (x : Int) : Nat := (clampI 0 65535 x).toNat

/-- LOOP_STATE (R369); its W1C bits 134 to 137 are bits 6 to 9 of the flag word. -/
def Loop.stateRecord (x : Loop) : Nat :=
  unsigned 16 (clampI (-32768) 32767 x.e) + fld 16 16 (sat16 x.u) + fld 32 32 (unsigned 32 x.i)
    + fld 64 32 (unsigned 32 x.d) + fld 96 16 (sat16 x.ff) + fld 112 16 (sat16 x.applied) + fld 128 3 x.phase.code
    + fld 131 1 (b2n x.frozen) + fld 132 1 (b2n x.staged.isSome) + fld 133 1 (b2n x.clamped) + x.status.bits <<< 128

/-- LOOP_CAL (R370). -/
def Loop.calRecord (x : Loop) : Nat :=
  fld 0 16 (unsigned 16 x.heatOp) + fld 16 10 (unsigned 10 x.tCal) + fld 32 16 (unsigned 16 x.heatPlaus)

/-- RING_TRIM of a lock loop's own ring, or of a weight ring at 8,192 on (R370, R721). -/
def State.ringTrimRecord (s : State) (i : Nat) : Nat :=
  let v : Nat × Int := if i < 8192 then ((s.loop i).nvTrim, (s.loop i).hofs) else tabGet (0, 0) s.ringTrim (i - 8192)
  fld 0 12 v.1 + fld 16 16 (unsigned 16 v.2)

/-- POWER_CTL (R394). -/
def Power.ctl (p : Power) : Nat := fld 0 8 p.activity + fld 8 4 (if p.activity = 255 then 15 else p.limiter)

def Spare.free (x : Spare) : Bool := x.line.isNone

/-- CART_STATUS (R391). -/
def State.cartStatus (s : State) (k : Nat) : Nat :=
  let x := s.cart k
  b2n x.present + fld 1 1 (b2n x.intlk) + fld 2 1 (b2n x.returnOk) + fld 3 1 (b2n (x.lit && s.power.pstate != .ps2)) + x.status.bits
    + (if x.present then ((indexed x.spares).map (fun y => if y.2.free then 2 ^ (8 + y.1) else 0)).sum else 0)
    + fld 16 10 (unsigned 10 x.temp)

def LaserState.code : LaserState → Nat
  | .off => 0
  | .probe => 1
  | .on => 2
  | .failed => 3
  | .donor => 4

def Cart.laser (x : Cart) (n : Nat) : LaserState := tabGet .off x.lasers n
def Cart.setLaser (x : Cart) (n : Nat) (l : LaserState) : Cart := { x with lasers := tabSet .off x.lasers n l }

/-- Measured output power of line `n` of cartridge `k` (R321, R392): of a dark or probing line, and at the pilot level of PS2, a free
value. -/
def State.linePower (s : State) (k n : Nat) : Nat :=
  match tabFind (s.cart k).powerOut n with
  | some p => if s.power.pstate = .ps2 then Config.pilotPower (64 * k + n) else unsigned 16 p
  | none => Config.darkPower (64 * k + n)

/-- LINE_STATUS (R392). -/
def State.lineStatus (s : State) (k n : Nat) : Nat := ((s.cart k).laser n).code + fld 8 16 (s.linePower k n)

/-- BANK_STATUS (R531). -/
def Bank.register (b : Bank) : Nat :=
  fld 0 3 b.owner + fld 3 6 b.ownerCore
    + fld 9 2 (if b.moving then 3 else match b.power with | .on => 0 | .retention => 1 | .off => 2)
    + fld 11 1 (b2n b.pending.isSome) + b.status.bits

/-- HAUL_STATUS (R532). -/
def Haul.register (h : Haul) : Nat :=
  h.status.bits + fld 2 1 (b2n (decide (0 < h.outstanding))) + fld 3 4 h.outstanding + fld 32 32 h.aheadIssued
    + fld 64 32 h.aheadCancelled + fld 96 32 (h.bytes / 64)

/-- Page map entry (R489). -/
def Page.entry (p : Page) : Nat := fld 0 2 p.kind + fld 2 4 p.tenant + fld 8 8 p.keyGen + fld 16 16 p.model

/-- PORT_STATUS (R609). -/
def Port.register (p : Port) : Nat :=
  b2n p.up + fld 1 1 (b2n p.lacp) + fld 2 1 (b2n (p.dark != 0)) + fld 3 2 p.light + fld 5 1 (b2n p.ptpLock)
    + fld 6 1 (b2n (p.synceLock && !p.dnu)) + p.status.bits

/-- ROUTER_STATUS (R611). -/
def State.routerStatus (s : State) (c : Nat) : Nat :=
  fld 0 4 s.fabric.curPhase + fld 4 4 ((List.range 4).map (fun k => b2n (s.listens c k) <<< k)).sum + (s.cluster c).router.bits

/-- One phase of a phase map (R566). -/
def Phase.bytes (p : Phase) : List Byte := toLe 4 p.start ++ toLe 4 0 ++ p.entries

/-- TENANT_STATUS (R662). -/
def State.tenantStatus (s : State) (t : Nat) : Nat :=
  let x := s.tenant t
  let own := s.pages.filter (fun p => decide (p.2.tenant = t) && decide (p.2.kind ≠ 0))
  let old := match x.genOld with
    | some g => (own.filter (fun p => decide (p.2.keyGen = g))).length
    | none => 0
  (if x.deleting then 2 else if x.exist then 1 else 0) + fld 2 1 (b2n x.session.isSome) + fld 3 1 (b2n x.genOld.isSome)
    + fld 4 1 (b2n (s.rekeying t)) + fld 8 8 x.genCur + fld 16 8 (x.genOld.getD 0) + fld 32 32 old
    + fld 64 64 (s.tenantClusters t) + fld 128 32 own.length + fld 160 32 x.badTag + fld 192 32 x.badSeq

/-- STEP of a running strip by the time since its start (R656, R663). -/
def stripStep (ns : Nat) : Nat :=
  if ns < 7000 then 1 else if ns < 20000 then 2 else min (3 + (ns - 20000) / 3970000) 6

/-- CLUSTER_OWNER (R663). -/
def State.clusterOwner (s : State) (c : Nat) : Nat :=
  let x := s.cluster c
  match x.strip with
  | some y => y.target + 16 + fld 8 8 (if y.running then stripStep (s.now - y.startedAt) else 0)
  | none => x.tenant

/-- Key bytes of a KEY object, if the key is present: the fingerprint of a private key is the model's own (R661). -/
def State.keyFingerprint (s : State) (i : Nat) : BitVec 256 :=
  let digest (k : Option (List Byte)) : BitVec 256 := match k with
    | some b => sha256Bv b
    | none => 0
  if i = 0 then (match s.trust.ak with | some m => Config.privateDigest m | none => 0)
  else if i = 1 then (match s.trust.xk with | some m => Config.privateDigest m | none => 0)
  else if i < 34 then
    match (s.tenant ((i - 2) / 2)).session with
    | some x => sha256Bv (toLe 32 (if i % 2 = 0 then x.keyIn else x.keyOut).toNat)
    | none => 0
  else if 256 ≤ i ∧ i < 4352 then digest ((tabFind (s.tenant ((i - 256) / 256)).keys ((i - 256) % 256)).map (fun k => toLe 64 (Config.randomKey k).toNat))
  else if 8192 ≤ i ∧ i < 12288 then digest (s.ca (i - 8192)).cak
  else if 12288 ≤ i then digest (s.ca (i - 12288)).sak
  else 0

/-- RING_STATUS (11). -/
def RingState.register (x : RingState) : Nat :=
  fld 0 9 x.free + fld 9 9 x.cpls.length + fld 18 4 x.pushResult + fld 22 1 (b2n (x.status.has 22))
    + fld 23 1 (b2n x.exec.isSome)

/-- CONV_CORR (R796); POSITION of a column unit is its place among the slab's units, 31 for the spare. -/
def State.corrRecord (s : State) (i : Nat) : Nat :=
  let c := s.convCorr i
  let pos := if i < 294912 then
      match (List.range 17).find? (fun p => nth 0 (s.slab (i / 18)).units p = i % 18) with
      | some p => p
      | none => 31
    else 0
  fld 0 16 (unsigned 16 c.offset) + fld 16 16 c.gain + fld 32 5 pos + fld 37 1 (b2n c.failed) + fld 40 8 c.calCount
    + fld 48 16 c.calEpoch

/-- MONCONV (R794). -/
def Monconv.record (x : Monconv) : Nat :=
  x.scanMask.toNat + fld 32 1 (b2n x.refmode) + fld 33 1 (b2n x.continuous) + fld 34 1 (b2n x.start)
    + fld 35 1 (b2n x.busy) + fld 36 1 (b2n x.refReady) + x.status.bits + fld 40 3 x.inj.length + fld 48 5 x.dataCh
    + fld 53 1 (b2n x.dataValid) + fld 64 12 x.data + fld 80 12 x.injCode + fld 92 5 x.injCh
    + ((List.range 32).map (fun n => fld (128 + 12 * n) 12 (tabGet 0 x.last n))).sum

/-- MEASUREMENT objects (R721). -/
def State.measurement (s : State) (i : Nat) : BitVec 256 :=
  if i = 0 then s.trust.mrFw else if i = 1 then s.trust.mrCfg
  else if i < 18 then tabGet 0 s.trust.mrPlan (i - 2) else tabGet 0 s.trust.mrModel (i - 18)

/-! ## Objects -/

/-- The bytes of an object of a fixed-size class. -/
def State.object (s : State) (c i : Nat) : List Byte :=
  match c with
  | 0x0001 => toLe 4 (s.tseqStatus i)
  | 0x0003 => toLe 16 s.tickResult
  | 0x0010 => toLe 4 (s.slabStatus i)
  | 0x0011 => toLe 16 (s.slab i).info
  | 0x0012 => toLe 40 ((s.slab i).upkeepRecord s.time)
  | 0x0013 => (s.slab i).remapRecord
  | 0x0014 => (List.range 272).flatMap (fun p => toLe 2 (unsigned 16 (tabGet 0 (s.slab i).baseline p)))
  | 0x0015 => (s.slab i).map.flatMap (fun e => toLe 2 e.toNat)
  | 0x0016 => toLe 4 (b2n (s.slab i).sealed_) ++ toLe 32 (s.slab i).digest.toNat
  | 0x0018 => (s.slab i).accBytes (s.slab i).live ++ (s.slab i).accBytes (s.slab i).shadow
  | 0x0020 => toLe 4 (s.optStatus i)
  | 0x0021 => toLe 24 (s.optInfo i)
  | 0x0022 => (s.engine i).rowService
  | 0x0023 => (s.engine i).history.flatMap (fun v => toLe 8 v.record)
      ++ List.replicate (512 - 8 * (s.engine i).history.length) 0
  | 0x0024 => (List.range 64).flatMap (fun r => toLe 8 ((s.engine (i / 66)).ring (i % 66) r).record)
  | 0x0025 => (List.range 1024).flatMap (fun d => toLe 2 ((s.engine i).predOf d))
  | 0x0026 => (List.range 64).flatMap (fun n => toLe 2 ((s.engine i).normOf n))
  | 0x0030 => toLe 32 (s.loop i).coef.toNat
  | 0x0031 => toLe 20 (s.loop i).stateRecord
  | 0x0032 => toLe 8 (s.loop i).calRecord
  | 0x0033 => toLe 4 (s.ringTrimRecord i)
  | 0x0034 => toLe 32 (if i < 8192 then s.xtActive i else s.xtStaged (i - 8192)).toNat
  | 0x0035 => toLe 4 s.power.ctl
  | 0x0036 => toLe 4 (s.cartStatus i)
  | 0x0037 => toLe 4 (s.lineStatus (i / 64) (i % 64))
  | 0x0038 => toLe 1 (s.feedOf i)
  | 0x0040 => toLe 4 (s.bankNow i).register
  | 0x0041 => toLe 16 (s.haul i).register
  | 0x0045 => toLe 8 (s.page i).entry
  | 0x0048 => toLe 4 ((s.vecStatus i).bits + fld 4 1 (b2n ((s.cluster (i / 64)).runs.any (fun x =>
      x.2.phase == .running && dKind ((s.cluster (i / 64)).task x.1) == kVector
        && (s.cluster (i / 64)).actingCore (dLcore ((s.cluster (i / 64)).task x.1)) == i % 64))))
  | 0x0050 => toLe 4 (s.port i).register
  | 0x0051 => (List.range 8).flatMap (fun k => toLe 8 (tabGet 0 (s.port i).counters k).toNat)
  | 0x0052 => toLe 4 (s.routerStatus i)
  | 0x0054 => toLe 64 (s.partner i).toNat
  | 0x0055 => (List.range 11).flatMap (fun k => toLe 4 (tabGet 0 (s.dyn i).counters k).toNat)
  | 0x0060 => toLe 32 (s.tenantStatus i)
  | 0x0061 => toLe 4 (s.clusterOwner i)
  | 0x0062 => toLe 32 (s.measurement i).toNat
  | 0x0063 => toLe 32 (s.keyFingerprint i).toNat
  | 0x0070 => toLe 16 ((s.ring i).register + fld 32 32 (s.ring i).accepted + fld 64 32 (s.ring i).completed
      + fld 96 32 ((s.ring i).status.count 22).toNat)
  | 0x0080 => toLe 8 (s.corrRecord i)
  | 0x0081 => toLe 64 (s.mcNow i).record
  | 0x0090 => toLe 2 (unsigned 16 (s.reading i))
  | _ => match baseClass (c - 0x8000) with
    | some x => x.w1c.flatMap (fun b => toLe 4 ((s.flagWord (c - 0x8000) i).count b).toNat)
    | none => []

/-- The bytes of a plan buffer: header, descriptors, buffer table. -/
def Plan.image (p : Plan) : List Byte :=
  toLe 8 p.header.toNat ++ p.tasks.flatMap (fun d => toLe 64 d.toNat) ++ p.bufs.flatMap (fun b => toLe 16 b.toNat)

def State.planBytes (s : State) (i : Nat) : List Byte :=
  match (if i % 2 = 0 then (s.cluster (i / 2)).active else (s.cluster (i / 2)).shadow) with
  | some p => p.image
  | none => []

/-- Line `n` of TAGS of a cluster (R294, R721). -/
def tagLine (c n : Nat) : Nat :=
  if n < 16384 then lineOf (cmKey c 0) + n else lineOf (scKey (c * 64) 0) + (n - 16384)

/-- Size of an object of a byte-addressed class. -/
def State.objectSize (s : State) (c i : Nat) : Nat :=
  match c with
  | 0x0002 => (s.planBytes i).length
  | 0x0047 => 16 * (s.cluster i).scaleCount
  | 0x0053 => 264 * s.fabric.phaseMap.length
  | _ => match baseClass c with
    | some x => x.size
    | none => 0

/-- Bytes of an object of a byte-addressed class. -/
def State.objectBytes (s : State) (c i ofs n : Nat) : List Byte :=
  let part (l : List Byte) : List Byte := (l.drop ofs).take n
  match c with
  | 0x0002 => part (s.planBytes i)
  | 0x0017 => (List.range n).map (fun k => BitVec.ofNat 8 (tabGet 0 ((s.slab i).cellsNow s.now) (ofs + k)))
  | 0x0027 => part (s.engine i).weightStore
  | 0x0042 => s.bytes (scKey i ofs) n
  | 0x0043 => s.bytes (cmKey i ofs) n
  | 0x0044 => (List.range (n / 4)).flatMap (fun k => toLe 4 (match tabFind s.tags (tagLine i (ofs / 4 + k)) with
      | some t => 1 + fld 16 16 t.epoch
      | none => 0))
  | 0x0046 => s.hbmRead (hbmKey i ofs) n
  | 0x0047 => part ((List.range (s.cluster i).scaleCount).flatMap (fun k => toLe 16 (tabGet Scale.init (s.cluster i).scales k).entry))
  | 0x0053 => part (s.fabric.phaseMap.flatMap Phase.bytes)
  | _ => []

/-- Unconfirmed data that a read of a data class holds: its latest epoch (R726). -/
def State.readTag (s : State) (c i ofs n : Nat) : Option Tag :=
  match c with
  | 0x0018 => joinTag (if (s.slab i).live.tagged then some { epoch := (s.slab i).live.epoch, spoiled := false } else none)
      (if (s.slab i).shadow.tagged then some { epoch := (s.slab i).shadow.epoch, spoiled := false } else none)
  | 0x0027 =>
    let f (w : WeightSet) : Option Tag := if w.loaded && (w.unconf || w.spoiled) then some { epoch := w.epoch, spoiled := w.spoiled } else none
    joinTag (f (s.engine i).active) (f (s.engine i).shadow)
  | 0x0042 => s.tagOf (scKey i ofs) n
  | 0x0043 => s.tagOf (cmKey i ofs) n
  | _ => none

/-! ## STATE_READ (R722 to R728) -/

/-- RESULT of a read (R726). -/
def tagResult (t : Option Tag) : Nat :=
  match t with
  | some x => 1 + fld 16 16 x.epoch
  | none => 0

/-- Objects a fixed-size read returns, in ascending index, each with its flags cleared in the same access (R698, R724). -/
def State.readObjects (s : State) (c : Nat) (clear : Bool) : Nat → Nat → List Byte × State
  | _, 0 => ([], s)
  | i, n + 1 =>
    let b := s.object c i
    let s' := if clear then s.clearFlags c i else s
    let r := State.readObjects s' c clear (i + 1) n
    (b ++ r.1, r.2)

/-- The banks that an object's bytes lie in are ON (R481): scratch, cluster memory, and the plans and the scale table in
its reserved top, whose buffers start at multiples of 256 bytes (R68, R463). -/
def State.readBanks (s : State) (c i ofs n : Nat) : Bool :=
  match c with
  | 0x0002 => s.banksUp (i / 2) 0xFF (0x100000 + (ofs - 8)) n
  | 0x0042 => s.banksUp (i / 64) (i % 64) ofs n
  | 0x0043 => s.banksUp i 0xFF (0x100000 + ofs) n
  | 0x0047 => s.banksUp i 0xFF (0x100000 + ofs) n
  | _ => true

/-- Checks of a STATE_READ after its range checks: authority, then the state it needs. -/
def State.readDenied (s : State) (h : CmdHdr) (x : ObjClass) (c i ofs n : Nat) : Option Nat :=
  let stripping := x.vis == .data && (match dataCluster c i with
    | some k => (s.clusterTenant k).isNone
    | none => false)
  if stripping then some stNotReady
  else if !mayRead x.vis (sessionTenant h) (s.ownerOf c i) then some stDenied
  else if (c = 0x0015 ∨ c = 0x0017) ∧ (s.slab i).sealed_ then some stDenied
  else if c = 0x0017 ∧ (s.slab i).dress ≠ .ready then some stNotReady
  else if c = 0x0046 ∧ !s.hbmOn then some stNotReady
  else if !s.readBanks c i ofs n then some stNotReady
  else none

/-- Something on port B may be writing a word of a cluster's memory while port A reads it: a task of the optical engine or a cluster haul,
delivery from the fabric for an INGRESS, or a packet from the router (R465). -/
def State.portBWrites (s : State) (c w : Nat) : Bool :=
  let x := s.cluster c
  let a := clashAddr w
  x.runs.any (fun r => r.2.phase == .running && (let k := dKind (x.task r.1); k == kOptical || k == kClusterHaul || k == kIngress)
      && s.accesses c r.1 r.2.pass w true)
    || x.ahead.any (fun y => !y.done && dKind (x.task y.task) == kClusterHaul && s.accesses c y.task y.pass w true)
    || s.fabric.packets.any (fun p => p.dest == c && decide (p.addr < a + 8) && decide (a < p.addr + p.data.length))
    || s.clusters.any (fun y => y.2.runs.any (fun r => r.2.phase == .running && (let d := y.2.task r.1
      dKind d == kRouter && roDest d == c && decide (dDst d < a + 8) && decide (a < dDst d + dLength d))))

/-- Words of cluster memory that the management complex reads on port A, from word `w` on: whether one that port B may be writing meets
that write in its cycle is free; one that does reads as undefined data, and its bank takes the busy signal (R466, R467, R725). -/
def State.readPortA (s : State) (c w : Nat) : List (List Byte) → State × List Byte
  | [] => (s, [])
  | b :: l =>
    let hit := s.freeNat % 2 = 1 && s.portBWrites c w
    let bad := toLe 8 (Config.collision (s.free + 1)).toNat
    let s1 := s.takeFree.takeFree
    let s2 := if hit then s1.modBank (c * 544 + w % 32) (fun x => { x with status := x.status.hit 12 }) else s1
    let r := s2.readPortA c (w + 1) l
    (r.1, (if hit then bad else b) ++ r.2)

/-- Accumulators were read: SAT is set where a RESULT limits (R127, R133). -/
def State.markAccums (s : State) (c i n : Nat) : State :=
  if c = 0x0018 then forEach (List.range n) s (fun s j => s.modSlab (i + j) (fun y => (y.markRead 0 0x800).markRead 0x800 0x800)) else s

/-- What a STATE_READ answers once it may: the read itself. -/
def State.readNow (s : State) (p : StateReadParams) (x : ObjClass) : Answer :=
  let c := p.cls.toNat
  let i := p.index.toNat
  if x.bytes then
    let data := s.objectBytes c i p.offset.toNat p.length.toNat
    let r := if c = 0x0043 then
      s.readPortA i (p.offset.toNat / 8) ((List.range (data.length / 8)).map (fun k => (data.drop (8 * k)).take 8)) else (s, data)
    { Answer.okR r.1 (if x.vis = .data then tagResult (s.readTag c i p.offset.toNat p.length.toNat) else 0) with out := r.2, f3 := true }
  else
    let r := s.readObjects c p.clear i p.count.toNat
    let tag := (List.range p.count.toNat).foldl (fun t k => joinTag t (s.readTag c (i + k) 0 0)) none
    { Answer.okR (r.2.markAccums c i p.count.toNat) (if x.vis = .data then tagResult tag else 0) with out := r.1, f3 := true }

/-- A read that must wait: cells are read in housekeeping slots, 16 rows in each (R727); accumulators while a SLAB_MVM
runs (R136). The number of slots still needed. -/
def State.readWait (s : State) (p : StateReadParams) : Option Nat :=
  let o := p.offset.toNat
  let n := p.length.toNat
  if p.cls.toNat = 0x0017 then some (ceilDiv ((o + n - 1) / 272 - o / 272 + 1) 16)
  else if p.cls.toNat = 0x0018 ∧ (List.range p.count.toNat).any (fun k => s.slabRuns (p.index.toNat + k)) then some 0
  else none

def cmdStateRead (h : CmdHdr) (p : StateReadParams) (s : State) : Answer :=
  let c := p.cls.toNat
  let i := p.index.toNat
  match classOf c with
  | none => Answer.errD s stInvalid 0x10
  | some x =>
    let o := p.offset.toNat
    let n := p.length.toNat
    let k := p.count.toNat
    if x.bytes then
      if x.count ≤ i then Answer.errD s stInvalidLength 0x14
      else if o % 8 ≠ 0 then Answer.errD s stInvalidLength 0x1C
      else if n % 8 ≠ 0 ∨ 32768 < n ∨ s.objectSize c i < o + n then Answer.errD s stInvalidLength 0x20
      else if p.clear then Answer.errD s stInvalid 0x12
      else if n = 0 then Answer.ok s
      else match s.readDenied h x c i o n with
        | some st => Answer.err s st
        | none => match s.readWait p with
          | some w => Answer.wait s w
          | none => s.readNow p x
    else if 32768 < k * x.size ∨ x.count < i + k then Answer.errD s stInvalidLength 0x18
    else if p.clear ∧ x.w1c.isEmpty then Answer.errD s stInvalid 0x12
    else if k = 0 then Answer.ok s
    else match ((List.range k).findSome? (fun j => s.readDenied h x c (i + j) 0 0)) with
      | some st => Answer.err s st
      | none => match s.readWait p with
        | some w => Answer.wait s w
        | none => s.readNow p x

/-- The end of a STATE_READ that waited. -/
def endStateRead (h : CmdHdr) (p : StateReadParams) (s : State) : Answer :=
  match classOf p.cls.toNat with
  | none => Answer.err s stInvalid
  | some x =>
    match s.readDenied h x p.cls.toNat p.index.toNat p.offset.toNat p.length.toNat with
    | some st => Answer.err s st
    | none => s.readNow p x

/-! ## STATE_LIST (R729) -/

def classRow (c : Nat) : List Byte :=
  match classOf c with
  | some x => toLe 2 c ++ toLe 2 (b2n x.bytes + 2 * b2n (!x.w1c.isEmpty)) ++ toLe 4 x.count ++ toLe 4 x.size ++ toLe 4 0
  | none => []

/-- Indices of a class from START on, at most MAX: those in use for PARTNER, PAGE_MAP and TENANT_STATUS. -/
def State.listIndices (s : State) (c : Nat) (x : ObjClass) (start max : Nat) : List Nat :=
  let used (l : List Nat) : List Nat := (l.filter (fun i => decide (start ≤ i))).take max
  match c with
  | 0x0045 => used ((s.pages.filter (fun p => decide (p.2.kind ≠ 0))).map (fun p => p.1))
  | 0x0054 => used ((s.fabric.partners.filter (fun p => peState p.2 != psFree)).map (fun p => p.1))
  | 0x0060 => used ((List.range 16).filter (fun t => (s.tenant t).exist))
  | _ => (List.range (min max (x.count - start))).map (· + start)

def cmdStateList (_h : CmdHdr) (p : StateListParams) (s : State) : Answer :=
  if 8192 < p.max.toNat then Answer.errD s stInvalidLength 0x18
  else if p.cls.toNat = 0xFFFF then { Answer.ok s with out := classList.flatMap classRow, f3 := true }
  else match classOf p.cls.toNat with
    | none => Answer.errD s stInvalid 0x10
    | some x => { Answer.ok s with
        out := (s.listIndices p.cls.toNat x p.start.toNat p.max.toNat).flatMap (fun i => toLe 4 i), f3 := true }

/-! ## EVENT_READ (R730, R731, R869) -/

/-- A session may read a record (R869). -/
def Event.readable (e : Event) (t : Nat) : Bool := e.module || t == 0 || e.tenant == t

/-- Records of the log from a position on. -/
def Mailbox.since (m : Mailbox) (pos : Nat) : List (Nat × Event) := m.log.filter (fun x => decide (pos ≤ x.1))

/-- Read records from a position on: those returned, and the position after them. -/
def takeRecords (t : Nat) : Nat → Nat → List (Nat × Event) → List (Nat × Event) × Nat
  | _, pos, [] => ([], pos)
  | 0, pos, x :: l => if x.2.readable t then ([], pos) else takeRecords t 0 (x.1 + 1) l
  | n + 1, _, x :: l =>
    if x.2.readable t then let r := takeRecords t n (x.1 + 1) l; (x :: r.1, r.2) else takeRecords t (n + 1) (x.1 + 1) l

def cmdEventRead (h : CmdHdr) (max : BitVec 11) (s : State) : Answer :=
  let t := sessionTenant h
  let x := s.tenant t
  if 1024 < max.toNat then Answer.errD s stInvalidLength 0x10
  else if max = 0 then Answer.ok s
  else
    let r := takeRecords t max.toNat x.pos (s.mbx.since x.pos)
    let left := ((s.mbx.since r.2).filter (fun y => y.2.readable t)).length
    { Answer.okR (s.modTenant t (fun y => { y with pos := r.2, lost := 0 }))
        (fld 0 32 r.1.length + fld 32 32 left + fld 64 32 x.lost) with
      out := r.1.flatMap (fun y => y.2.bytes y.1), f3 := true }

end Sys2Proof.Machine
end

