-- ==== Sys2Proof/Machine/CmdLight.lean ====
section
/-! DEFINITION. The light commands: LIGHT_STATUS, LINE_ASSIGN_SPARE (R331, R334, R702), LOCK_ACQUIRE (R361 to R363, R703)
and ENGINE_CALIBRATE (R249 to R251, R370, R699). -/

namespace Sys2Proof.Machine

/-- Lasers are on: full power or pilot level (12, What each state keeps). -/
def State.lasersOn (s : State) : Bool :=
  match s.power.pstate with
  | .ps0 => true
  | .ps1 => true
  | .ps2 => true
  | _ => false

def cmdLightStatus (_h : CmdHdr) (s : State) : Answer :=
  let other := ((List.range 128).filter (fun k => s.feedOf k ≠ 0)).length
  Answer.okR s (s.cartStatus 0 + (s.cartStatus 1) <<< 32 + s.power.ctl <<< 64 + other <<< 96)

/-! ## LINE_ASSIGN_SPARE -/

/-- A verified spare, or a verified relit line, waits for a line (R331, R334, R339). -/
def Cart.waits (x : Cart) (line : Nat) : Bool :=
  x.spares.any (fun y => y.line == some line && y.verified && !y.inService) || tabGet false x.relit line

/-- A spare or relit line that waits without a boundary gets the first one at least 5 us from now on, where AUTO is in force
(R331). -/
def State.autoName (s : State) (k : Nat) : State :=
  s.modCart k (fun x =>
    if x.hold then x
    else
      let at_ := s.timeNat + (s.boundaryAt s.leadFrom - s.now)
      let ns := (List.range 64).filter (fun n => x.waits n && (tabFind x.named n).isNone)
      { x with named := ns.foldl (fun t n => tabPut t n at_) x.named, autoNamed := x.autoNamed ++ ns })

/-- A new SPARE_POLICY (R331). DEDUCED: it holds for every switch-in that has not begun: HOLD takes back a boundary that AUTO has set and
that is still to come, AUTO sets one for what waits (assumption 96). -/
def State.sparePolicy (s : State) (k : Nat) (hold : Bool) : State :=
  let late := (s.cart k).autoNamed.filter (fun n => match tabFind (s.cart k).named n with
    | some t => decide (s.timeNat < t)
    | none => false)
  (s.modCart k (fun x => { x with
    hold := hold
    named := if hold then late.foldl tabDel x.named else x.named
    autoNamed := if hold then x.autoNamed.filter (fun n => !late.contains n) else x.autoNamed })).autoName k

def cmdLineAssignSpare (_h : CmdHdr) (p : AssignSpareParams) (s : State) : Answer :=
  let k := if p.cart then 1 else 0
  let n := p.line.toNat
  let t := s.time.occurrence p.frame.toNat p.tick.toNat s.timeNat
  if p.policy = 3 then Answer.errD s stInvalid 0x10
  else if p.switch ∧ ticksPerFrame s.time.period ≤ p.tick.toNat then Answer.errD s stInvalid 0x14
  else if p.switch ∧ !(s.cart k).waits n then Answer.err s stNotReady
  else if p.switch ∧ (t < s.timeNat + Config.leadNs ∨ s.timeNat + 5120000000 < t) then Answer.err s stTimeout
  else
    let s := if p.switch then s.modCart k (fun x => { x with
      named := tabPut x.named n t, autoNamed := x.autoNamed.filter (· ≠ n) }) else s
    Answer.ok (if p.policy = 2 then s else s.sparePolicy k (p.policy == 1))

/-! ## LOCK_ACQUIRE -/

/-- State of the physical row of a ROW loop. -/
def State.loopRowState (s : State) (k : Nat) : Option RowState :=
  (rowOf k).map (fun x => (s.engine x.1).rowState x.2)

/-- The loop begins a sweep (R361). -/
def State.beginSweep (s : State) (k : Nat) : State :=
  s.modLoop k (fun x => { x with phase := .sweep, queued := false, outTicks := 0, sweepFrom := s.now })

/-- Sweeps of a die that wait begin, lowest loop first, while fewer than 256 run (R362). -/
def State.startSweeps (s : State) : State :=
  forEach [0, 1] s (fun s die =>
    let mine := s.loops.filter (fun x => x.1 / 2560 == die)
    let waits := mine.filter (fun x => x.2.queued)
    if waits.isEmpty then s
    else forEach ((waits.map (fun x => x.1)).take (256 - (mine.filter (fun x => x.2.phase == .sweep)).length)) s State.beginSweep)

/-- The loop leaves what it was doing and waits for its sweep (R362); a STANDBY or FAILED row is then being re-acquired. -/
def State.queueSweep (s : State) (k : Nat) : State :=
  let s := s.modLoop k (fun x => { x with phase := .off, queued := true, outTicks := 0, fails := 0, lostLight := false })
  match rowOf k with
  | some x =>
    if (s.engine x.1).rowState x.2 = .standby ∨ (s.engine x.1).rowState x.2 = .failed then
      s.modEngine x.1 (fun e => e.setRow x.2 .reacquire)
    else s
  | none => s

/-- Acquisition of loops by the sweep and pilot check of R361. -/
def State.acquireLoops (s : State) (l : List Nat) : State := (forEach l s State.queueSweep).startSweeps

/-- Those of the loops listed that are off are acquired (R364, R837). -/
def State.acquireOff (s : State) (l : List Nat) : State :=
  s.acquireLoops (l.filter (fun k => (s.loop k).phase == .off && !(s.loop k).queued))

def cmdLockAcquire (_h : CmdHdr) (p : LoopRange) (s : State) : Answer :=
  let l := loopRange p
  if 5120 < p.first.toNat + p.count.toNat then Answer.errD s stInvalidLength 0x12
  else if l.isEmpty then Answer.okR s (0xFFFF <<< 16)
  else if l.any (fun k => s.loopRowState k == some .service || (s.loop k).frozen) then Answer.err s stConflict
  else if !s.lasersOn then Answer.err s stNotReady
  else Answer.wait (s.acquireLoops l) 0

/-- A loop fails three re-acquisitions: its row is FAILED (R261, REACQ_FAIL and ROW_FAILED). A row still in SERVICE, after a return
to light (R364), is removed. -/
def State.lockFailed (s : State) (k : Nat) : State :=
  let s := (s.modLoop k (fun x => { x with phase := .failed, fails := 3 })).light 0xFF liReacqFail 0xFF 0xFF k 0 (s.loop k).byFault
  match rowOf k with
  | some x =>
    let s := if (s.engine x.1).rowState x.2 = .service then s.removeRow x.1 x.2 2 false (s.loop k).byFault else s
    if (s.engine x.1).rowState x.2 = .reacquire then
      (s.modEngine x.1 (fun e => e.setRow x.2 .failed)).optical x.1 opRowFailed x.2 0xFF 0 0 (s.loop k).byFault
    else s
  | none => s

/-- A loop is locked and its pilot window passed: a row in REACQUIRE becomes STANDBY (R265, R361). -/
def State.lockDone (s : State) (k : Nat) : State :=
  let s := s.modLoop k (fun x => { x with phase := .locked, fails := 0, outTicks := 0, byFault := false })
  match rowOf k with
  | some x => if (s.engine x.1).rowState x.2 = .reacquire then s.rowStandby x.1 x.2 else s
  | none => s

/-- The records of a loop that LOCK_ACQUIRE rewrites: HEAT_OP, T_CAL, NV_TRIM (R370). -/
def State.acquired (s : State) (k : Nat) (o : List Int) : State :=
  match o with
  | [op, tcal, trim] =>
    if (s.loop k).phase = .locked then s.modLoop k (fun x => { x with heatOp := op, tCal := tcal, nvTrim := (trim % 4096).toNat }) else s
  | _ => s

def codesOf (l : List Int) (n i : Nat) : List Int := (l.drop (n * i)).take n

/-- LOCK_ACQUIRE completes when every named loop is locked or has failed three times (R362), or when the lasers have gone off
(R749). -/
def endLockAcquire (p : LoopRange) (si : Silicon) (s : State) : Option Answer :=
  let l := loopRange p
  if !s.lasersOn then some (Answer.err s stNotReady)
  else if !l.all (fun k => (s.loop k).phase == .locked || (s.loop k).phase == .failed) then none
  else
    let failed := l.filter (fun k => (s.loop k).phase == .failed)
    let s := forEach (indexed l) s (fun s x => s.acquired x.2 (codesOf si.codes 3 x.1))
    let r := failed.length % 65536 + (failed.headD 0xFFFF) <<< 16
    some (if failed.isEmpty then Answer.okR s r else { Answer.okR s r with status := stFault })

/-! ## ENGINE_CALIBRATE -/

def cmdEngineCalibrate (_h : CmdHdr) (engine : BitVec 6) (s : State) : Answer :=
  let e := engine.toNat
  if (s.cluster e).busy ∨ s.clusterDetours e then Answer.err s stConflict
  else if !s.lasersOn ∨ s.power.pstate = .ps2 then Answer.err s stNotReady
  else Answer.wait s 0

/-- Put measured values in a table from a key on; a short list leaves the rest as it was (assumption 4). -/
def putAll {α : Type} (t : Tab α) (k : Nat) (l : List α) : Tab α := (indexed l).foldl (fun t x => tabPut t (k + x.1) x.2) t

/-- Pairs ZERO, GAIN of rings in row order. -/
def ringPairs (epoch : Nat) : List Int → List RingCal
  | z :: g :: l => { zero := (z % 1024).toNat, gain := (g % 65536).toNat, epoch := epoch } :: ringPairs epoch l
  | _ => []

def trimPairs : List Int → List (Nat × Int)
  | n :: h :: l => ((n % 4096).toNat, h) :: trimPairs l
  | _ => []

/-- The records that ENGINE_CALIBRATE rewrites: 64 P_nom, 1,024 PRED, 4,224 (ZERO, GAIN) pairs by row and ring, then for
each of the 66 rows HEAT_OP, T_CAL and HEAT_PLAUS, then 4,224 pairs NV_TRIM, HOFS by row and ring (R370). -/
def endEngineCalibrate (engine : BitVec 6) (si : Silicon) (s : State) : Answer :=
  let e := engine.toNat
  let nom := (si.codes.take 64).map Int.toNat
  let pred := ((si.codes.drop 64).take 1024).map (fun x => (x % 1024).toNat)
  let rings := ringPairs (s.epochNow % 65536) ((si.codes.drop 1088).take 8448)
  let loops := (si.codes.drop 9536).take 198
  let s := s.putTrims false (4224 * e) (trimPairs (si.codes.drop 9734))
  let s := s.modEngine e (fun x => { x with
    pNom := putAll x.pNom 0 nom, pred := putAll x.pred 0 pred, ringCal := putAll x.ringCal 0 rings })
  Answer.ok (forEach (List.range (loops.length / 3)) s (fun s r =>
    s.modLoop (rowLoop e r) (fun x => { x with
      heatOp := nth 0 loops (3 * r), tCal := nth 0 loops (3 * r + 1), heatPlaus := nth 0 loops (3 * r + 2) })))

end Sys2Proof.Machine
end

