-- ==== Sys2Proof/Machine/CmdFirmware.lean ====
section
/-! DEFINITION. FAULT_INJECT (R867), SELFTEST_RUN (R699), and the firmware commands FW_LOAD_BEGIN, FW_LOAD_BLOCK and
FW_LOAD_END (R620 to R624, R709 to R715). -/

namespace Sys2Proof.Machine

/-! ## FAULT_INJECT -/

def injLine : Nat := 1
def injMislock : Nat := 2
def injSeam : Nat := 3
def injHang : Nat := 4
def injPort : Nat := 5
def injSensor : Nat := 6
def injCrash : Nat := 7

/-- Targets of a kind (R700). -/
def injTargets (kind : Nat) : Nat :=
  match kind with
  | 1 => 128
  | 2 => 5120
  | 3 => 4456448
  | 4 => 4096
  | 5 => 16
  | 6 => 256
  | _ => 1

/-- The fault comes in force: a DFB is driven off, the firmware stops its watchdog, others act at their detection. -/
def State.inject (s : State) (kind target : Nat) (hold : Option Nat) : State :=
  let s := { s with faults := s.faults.filter (fun f => !(decide (f.kind = kind) && decide (f.target = target)))
      ++ [{ kind := kind, target := target, until_ := hold.map (fun us => s.now + 1000 * us) }] }
  if kind = injLine then s.modCart (target / 64) (fun x => x.setLaser (target % 64) .off)
  else if kind = injCrash then s.modMbx (fun m => { m with crashed := true })
  else s

def cmdFaultInject (_h : CmdHdr) (p : FaultInjectParams) (s : State) : Answer :=
  let kind := p.kind.toNat
  let target := p.target.toNat
  let timed := kind == injMislock || kind == injPort || kind == injSensor
  if kind = 0 ∨ 7 < kind then Answer.errD s stInvalid 0x10
  else if injTargets kind ≤ target then Answer.errD s stInvalid 0x14
  else if kind = injSeam ∧ ((s.slab (target / 272)).columnOf (target % 272)).isNone then Answer.errD s stInvalid 0x14
  else if timed ∧ p.holdUs = 0 then Answer.ok s
  else Answer.ok (s.inject kind target (if timed then some p.holdUs.toNat else none))

/-! ## SELFTEST_RUN -/

/-- Units of a test (R699, R700). -/
def selftestUnits (test : Nat) : Nat :=
  match test with
  | 1 => 34816
  | 2 => 16384
  | 3 => 64
  | _ => 299140

/-- Memory keys of the words of a bank. -/
def bankWords (k : Nat) : List Nat :=
  let c := k / 544
  let b := k % 544
  if b < 32 then (List.range 4096).map (fun i => cmKey c ((32 * i + b) * 8))
  else (List.range 1024).map (fun i => scKey (c * 64 + (b - 32) / 8) ((8 * i + (b - 32) % 8) * 8))

def cmdSelftestRun (_h : CmdHdr) (p : SelftestParams) (s : State) : Answer :=
  let test := p.test.toNat
  let u := p.target.toNat
  if test = 0 ∨ 4 < test then Answer.errD s stInvalid 0x10
  else if selftestUnits test ≤ u then Answer.errD s stInvalid 0x14
  else if test = 1 then
    let b := s.bank u
    if b.owner = 5 ∨ b.pending.isSome then Answer.err s stConflict
    else if !s.bankUp u then Answer.err s stNotReady
    else Answer.wait (s.modBank u (fun b => { b with owner := 5 })) (b.owner + 8 * b.ownerCore)
  else if (test = 3 ∧ !s.lasersOn) ∨ (test ≠ 3 ∧ !s.convertersOn) then Answer.err s stNotReady
  else Answer.wait s 0

/-- A march over a whole bank writes each of its words, and leaves contents that the manual does not state: held lines lose their hold
(R301), and what lies in the reserved top is what its words then hold (R68, R463, R881). -/
def State.marchBank (s : State) (k : Nat) : State :=
  let ws := indexed (bankWords k)
  let s1 := ((ws.map (fun x => x.2 / 64)).dedup).foldl (fun (s : State) l => s.breakHolds (64 * l) 64) s
  let s2 := ws.foldl (fun (t : State) x => t.storeTagged x.2 (toLe 8 (Config.collision (s.free + x.1)).toNat) none) s1
  let s3 := { s2 with free := s.free + ws.length }
  if k % 544 < 32 then (s3.rereadTop (k / 544)).putScales (k / 544) else s3

/-- The test ends: a march gives its bank back. -/
def endSelftestRun (p : SelftestParams) (left : Nat) (si : Silicon) (s : State) : Answer :=
  let u := p.target.toNat
  let s := if p.test = 1 then (s.marchBank u).modBank u (fun b => { b with owner := left % 8, ownerCore := left / 8 }) else s
  Answer.okR s (fld 0 32 si.count)

/-! ## Firmware -/

def fwMagic : Nat := 0x50465731

/-- Discard the image; FW_STATE returns to WAIT_IMAGE (R713). -/
def State.discardImage (s : State) : State := (s.setFw .waitImage).modMbx (fun m => { m with image := [], imageLen := 0 })

def cmdFwLoadBegin (_h : CmdHdr) (imageLen : Word) (s : State) : Answer :=
  let n := imageLen.toNat
  if 4194304 < n then Answer.errD s stInvalidLength 0x10
  else if n % 512 ≠ 0 ∨ n < 1024 then Answer.errD s stInvalid 0x10
  else if s.trust.identity.isNone then Answer.err s stNotReady
  else
    let s := if s.mbx.fw = .running then s.devReset else s.dropKeys 4
    let s := s.modTrust (fun t => { t with mrFw := 0, mrCfg := 0, mrPlan := [], mrModel := [] })
    Answer.ok ((s.modMbx (fun m => { m with image := [], imageLen := n })).setFw .loading)

def cmdFwLoadBlock (h : CmdHdr) (offset : Word) (s : State) : Answer :=
  let n := h.bulk.length
  if 262144 < n then Answer.errD s stInvalidLength 0x08
  else if s.mbx.fw ≠ .loading then Answer.err s stNotReady
  else if s.mbx.imageLen < offset.toNat + n then Answer.errD s stInvalidLength 0x10
  else if offset.toNat ≠ s.mbx.image.length then Answer.errD s stInvalid 0x10
  else Answer.ok (s.modMbx (fun m => { m with image := m.image ++ h.bulk }))

/-- Header fields of an image (R709). -/
def imageHeaderOk (m : Mailbox) : Bool :=
  leAt m.image 0 4 == fwMagic && leAt m.image 4 2 == 1 && leAt m.image 8 4 == m.imageLen

def cmdFwLoadEnd (_h : CmdHdr) (s : State) : Answer :=
  if s.mbx.fw ≠ .loading then Answer.err s stNotReady
  else if s.mbx.image.length ≠ s.mbx.imageLen then Answer.errWith s.discardImage stInvalidLength
  else if !imageHeaderOk s.mbx then Answer.errWith s.discardImage stInvalid
  else Answer.wait (s.setFw .verifying) 0

/-- The load certificate (R623). -/
def State.loadCertificate (s : State) (si : Silicon) : List Byte :=
  toLe 2 1 ++ toLe 6 0 ++ toLe 8 s.timeNat ++ toLe 32 s.trust.mrFw.toNat
    ++ toLe 32 (match s.trust.identity with | some i => i.fingerprint.toNat | none => 0) ++ toLe 384 (leNat si.key1)
    ++ toLe 384 (leNat si.key2) ++ toLe 384 (leNat si.sig)

/-- The latched trip is the first record after a load (R772). -/
def State.reportTrip (s : State) : State :=
  if !s.power.tripDue then s
  else match s.power.trip with
    | some t => ((s.modPower (fun p => { p with tripDue := false })).append
        { time := s.time.timeNs, cls := 10, tenant := 0, module := true, injected := false,
          payload := BitVec.ofNat 160 (t.die + poTrip * 2 ^ 8 + t.sensor * 2 ^ 16 + unsigned 16 t.reading * 2 ^ 32
            + b2n t.overcurrent * 2 ^ 64) })
    | none => s

/-- What the firmware finds on the slabs when it starts: INCOMPLETE is reported once (R193), and a slab in REPAIR is handled
as an unpinned slab with a faulty column (R231). -/
def State.findSlabs (s : State) : State :=
  forEach (s.slabs.map (fun x => x.1)) s (fun s k =>
    let x := s.slab k
    let s := if x.dress = .incomplete ∧ x.incompleteDue then
        (s.modSlab k (fun y => { y with incompleteDue := false })).upkeep k upIncomplete 0xFF 0x1FF 0 false
      else s
    if x.dress = .detour then s.queueDress k 0 none
    else if x.dress = .repair then
      ((s.modSlab k (fun y => { y with status := y.status.hit 8 })).upkeep k upSeamFail 0xFF 0x1FF 0 false).unplannedDetour k 0
    else s)

/-- Tenant 0 always exists, so its page key generation 0 is made where it holds no key (R637, R648, assumption 102). -/
def State.tenant0Key (s : State) : State :=
  if (s.tenant 0).keys.isEmpty then (s.modTenant 0 (fun x => { x with genCur := 0 })).newPageKey 0 0 else s

/-- The firmware starts: lock loops that are off are acquired, and the crosstalk table of manufacture, taken as empty, is
loaded (R374, R837). -/
def State.startFirmware (s : State) : State :=
  let s := (s.setFw .running).tenant0Key.reportTrip.resumeEvents.findSlabs
  let s := { s with xtalk := [], xstage := [], xcommit := [], faults := s.faults.filter (fun f => f.kind != injCrash) }
  if !s.lasersOn then s
  else s.acquireOff (List.range 5120)

/-- The end of FW_LOAD_END (R620, R624, R713, R715). -/
def endFwLoadEnd (si : Silicon) (s : State) : Answer :=
  if !si.ok then Answer.errWith s.discardImage stDenied
  else
    let image := s.mbx.image
    let s := s.modTrust (fun t => { t with
      ak := some si.key1, xk := some si.key2, akFp := rsaFingerprint si.key1, mrFw := extend 0 image
      identity := t.identity.map (fun (i : Identity) => { i with priv := false }) })
    let s := s.modMbx (fun m => { m with digest := sha256Bv image, crashed := false })
    { Answer.ok s.startFirmware with out := s.loadCertificate si }

end Sys2Proof.Machine
end

