-- ==== Sys2Proof/Machine/Light.lean ====
section
/-! DEFINITION. Light supply and eye safety (R319 to R343, R842 to R844): lines and their feeds, twin-line takeover, tunable
spares, cartridges in their sockets, fabric lanes. -/

namespace Sys2Proof.Machine

/-! ## Feeds (R322, R323, R393) -/


/-- The stack is fed by its own cartridge: DFB or spare. -/
def fedOwn (f : Nat) : Bool := f != feedTwin && f != feedNone

/-- A cartridge has light on a line: its DFB, or a spare in service. -/
def Cart.gives (x : Cart) (n : Nat) : Bool :=
  x.laser n == .on || x.laser n == .donor || x.spares.any (fun y => y.line == some n && y.inService)

/-- Line `n` is split between the stacks (R325, R327). -/
def State.split (s : State) (n : Nat) : Bool := s.feedOf n == feedTwin || s.feedOf (64 + n) == feedTwin

/-- PORT_STATUS LIGHT of a stack's ports (R323, R609). -/
def State.portLight (s : State) (stack : Nat) : Nat :=
  if fedOwn (s.feedOf (stack * 64 + 31)) then 0
  else if fedOwn (s.feedOf (stack * 64 + 32)) then 1
  else if s.feedOf (stack * 64 + 31) = feedTwin then 2
  else 3

/-- The transmit lanes of a port pause for a free time of at most 30 us: the frame being sent is lost, those not begun wait (R545). -/
def State.pausePort (s : State) (p : Nat) : State :=
  let s := s.breakOff p
  let t := s.now + s.freeNat % 30001
  ((s.takeFree.withdraw p).modPort p (fun x => { x with pausedUntil := t })).release

/-- The ports of both stacks take their source (R329), and pause where it changes (R545). -/
def State.feedPorts (s : State) : State :=
  forEach (List.range 16) s (fun s p =>
    let n := s.portLight (p / 8)
    let s := if (s.port p).up && (s.port p).light != n then s.pausePort p else s
    s.modPort p (fun x => { x with light := n }))

/-- A change of a line's feed on every engine of both stacks (R326): the epochs from its start to now close dirty, the sets
are loaded again by a swap and a row calibration starts over (R335). Of a change that began long ago, the last 64 epochs are marked:
earlier ones have their verdicts. -/
def State.feedChanged (s : State) (n first : Nat) : State :=
  let first := if 64 < (s.epochNow + 4294967296 - first) % 4294967296 then (s.epochNow + 4294967296 - 64) % 4294967296 else first
  let inj := s.isInjected 1 n || s.isInjected 1 (64 + n)
  forEach (List.range 64) s (fun s e => s.swapSets e (fun x =>
    { ((epochsFrom first s.epochNow).filter (x.isOpen s.epochNow)).foldl (fun (x : Engine) ep => x.modEpoch ep (fun i =>
        { i with forced := true, inj := i.inj || inj, line := some (i.line.getD n) })) (x.reload s.now) with calSlots := 0 }))

/-- NORM of a line is 1.0 again: P_nom has been re-based to the line's power, or the line is back at its nominal power
(R251, R325, R332). -/
def State.rebase (s : State) (n : Nat) : State :=
  forEach (List.range 64) s (fun s e => s.modEngine e (fun x => { x with
    norm := tabDel x.norm n, pNow := tabDel x.pNow n, pBase := tabDel x.pBase n }))


/-! ## Failure, takeover and spares -/

/-- Line `n` of cartridge `k` gives no more light: what it fed has no source until a takeover (R325). -/
def State.loseLine (s : State) (k n : Nat) (l : LaserState) : State :=
  let own := k * 64 + n
  let other := (1 - k) * 64 + n
  let s := if fedOwn (s.feedOf own) then s.setFeed own feedNone else s
  let s := if s.feedOf other = feedTwin then s.setFeed other feedNone else s
  s.modCart k (fun x => { x.setLaser n l with
    spares := x.spares.map (fun y => if y.line = some n ∧ y.inService then { y with inService := false, verified := false, failed := true } else y)
    relit := tabDel x.relit n, named := tabDel x.named n, autoNamed := x.autoNamed.filter (· ≠ n), powerOut := tabDel x.powerOut n
    failedAt := tabPut x.failedAt n s.now })

/-- The lowest-numbered free spare is tuned to a failed line, or none is free (R330, R333). DEDUCED: a cartridge that is dark, whose
spares are dark with it, tunes none and reports neither (assumption 59); nor does one that has a spare on the line already that has not
failed in service. -/
def State.tuneSpare (s : State) (k n : Nat) (inj : Bool) : State :=
  let x := s.cart k
  if !x.lit || x.spares.any (fun y => y.line == some n && !y.failed) then s
  else match (List.range 4).find? (fun i => (nth Spare.init x.spares i).free) with
    | some i =>
      (s.modCart k (fun x => { x with
        spares := x.spares.set i { line := some n, verified := false, inService := false, tunedAt := s.now, failed := false } })).light k liSpareTuning n i
        0xFFFF 0 inj
    | none =>
      (s.light k liSpareExhausted n 0xFF 0xFFFF 0 inj).modCart k (fun x => { x with status := x.status.hit 6 })

/-- LINE_FAIL (R324): the failed laser is driven off. A line that the twin does not give either waits for a spare (06, Line failure):
DEDUCED, its spare is tuned at once (assumption 59). -/
def State.failLine (s : State) (k n : Nat) (driver : Bool) : State :=
  if !(s.cart k).gives n && !fedOwn (s.feedOf (k * 64 + n)) then s
  else
    let inj := s.isInjected 1 (k * 64 + n)
    let s := (s.loseLine k n .failed).light k liLineFail n 0xFF 0xFFFF (if driver then 1 else 0) inj
    let s := (s.modCart k (fun x => { x with status := x.status.hit 5 })).feedPorts
    if (s.cart (1 - k)).gives n then s else s.tuneSpare k n inj

/-- TAKEOVER (R325, R326, R330): the healthy line of the twin cartridge feeds both stacks, 40 us after the failure. -/
def State.takeOver (s : State) (k n : Nat) : State :=
  match tabFind (s.cart k).failedAt n with
  | none => s
  | some t =>
    if !(s.cart (1 - k)).gives n || decide (s.now < t + 39000) then s
    else
      let inj := s.isInjected 1 (k * 64 + n)
      let first := s.epochOf (t - 1000)
      let own := s.feedOf ((1 - k) * 64 + n) == feedNone
      let s := (s.setFeed (k * 64 + n) feedTwin).modCart (1 - k) (fun x =>
        { (if x.laser n = .on then x.setLaser n .donor else x) with
          relit := if own then tabDel x.relit n else x.relit, named := if own then tabDel x.named n else x.named
          autoNamed := if own then x.autoNamed.filter (· ≠ n) else x.autoNamed
          failedAt := if own then tabDel x.failedAt n else x.failedAt })
      let s := if own then s.setFeed ((1 - k) * 64 + n) feedOwn else s
      let s := s.modCart k (fun x => { x with failedAt := tabDel x.failedAt n })
      let s := ((s.rebase n).feedChanged n first).feedPorts
      (s.light k liTakeover n 0xFF 0xFFFF ((s.now + 1000 - t) / 1000) inj).tuneSpare k n inj

/-- SPARE_VERIFIED (R330, R331, R339): a spare, or a relit line, is verified over 1 ms; under AUTO the switch-in boundary is the first at
least 5 us later. -/
def State.verifySpare (s : State) (k n : Nat) : State :=
  let x := s.cart k
  let relit := (tabFind x.relit n) == some false && decide (x.litAt + 1000000 ≤ s.now)
  let ready (y : Spare) : Bool := y.line == some n && !y.verified && !y.failed && decide (y.tunedAt + 1000000 ≤ s.now)
  if !relit && !x.spares.any ready then s
  else (s.modCart k (fun x => { x with
      spares := x.spares.map (fun y => if ready y then { y with verified := true } else y)
      relit := if relit then tabPut x.relit n true else x.relit })).autoName k

/-- The switch-in of line `n` of cartridge `k` may start: its boundary has come (R331, R334). DESIGN CHOICE: a change of SPARE_POLICY after
verification acts on a spare that waits: AUTO names it a boundary, HOLD takes back one that AUTO named (assumption 96). -/
def Cart.due (x : Cart) (n now : Nat) : Bool :=
  match tabFind x.named n with
  | some t => decide (t ≤ now)
  | none => false

/-- End of the split of line `n`: the twin's laser feeds its own stack again (R332). -/
def State.endSplit (s : State) (k n : Nat) : State :=
  s.modCart (1 - k) (fun x => if x.laser n = .donor ∧ s.feedOf (k * 64 + n) ≠ feedTwin then x.setLaser n .on else x)

/-- Power of a lit line at its cartridge's output, in 0.01 dBm: +17 dBm, with a free part of at most 0.5 dB (R321). -/
def nominalPower (free : Nat) : Nat := 1650 + free % 101

/-- SPARE_IN (R332, R339): a verified spare, or a verified relit line, feeds its stack. -/
def State.switchIn (s : State) (k n : Nat) : State :=
  let x := s.cart k
  if !x.due n s.timeNat then s
  else
    let inj := s.isInjected 1 (k * 64 + n)
    let first := (match tabFind x.named n with
      | some t => s.time.epochAt t
      | none => s.epochNow)
    let done (s : State) (src : Nat) : State :=
      let s := (s.setFeed (k * 64 + n) src).modCart k (fun x => { x with
        named := tabDel x.named n, autoNamed := x.autoNamed.filter (· ≠ n), relit := tabDel x.relit n, failedAt := tabDel x.failedAt n })
      (((s.endSplit k n).rebase n).feedChanged n first).feedPorts
    if (tabFind x.relit n) = some true then done s feedOwn
    else match (List.range 4).find? (fun i =>
        let y := nth Spare.init x.spares i
        y.line == some n && y.verified && !y.inService) with
      | some i =>
        let s := s.takeFree.modCart k (fun x => { x with
          spares := x.spares.set i { nth Spare.init x.spares i with inService := true }, powerOut := tabPut x.powerOut n (nominalPower s.freeNat) })
        (done s (2 + i)).light k liSpareIn n i 0xFFFF 0 inj
      | none => s

/-! ## Cartridges and sockets (R336 to R339, R842 to R844) -/

/-- All 68 lasers go off; every line it fed waits for a takeover. -/
def State.darkCart (s : State) (k : Nat) : State :=
  let ns := (List.range 64).filter (fun n => (s.cart k).gives n || fedOwn (s.feedOf (k * 64 + n)))
  let s := forEach ns s (fun s n => s.loseLine k n (if (s.cart k).laser n = .failed then .failed else .off))
  (s.modCart k (fun x => { x with
    lit := false, returnOk := false, spares := Cart.init.spares, relit := [], named := [], autoNamed := [], probes := 0
    probedAt := none, ramp := none, powerOut := [] })).feedPorts

/-- An eye-safety shutdown, with its EYE_OFF (R336, R844). -/
def State.eyeOff (s : State) (k detail : Nat) : State :=
  (s.darkCart k).light k liEyeOff 0xFF 0xFF 0xFFFF detail false |>.modCart k (fun x => { x with status := x.status.hit 4 })

/-- A socket may be powered (R842 to R844): in PS0 to PS2, its cartridge present, its interlock closed for 100 ms, and not
cut by its current limit. -/
def State.mayPower (s : State) (k : Nat) : Bool :=
  let x := s.cart k
  s.power.boot == .serving && s.lasersOn && x.present && x.intlk && !x.limited && decide (x.closedAt + 100000000 ≤ s.now)

/-- Power a socket: a failed DFB is forgotten when its cartridge is powered up (R328). -/
def State.powerSocket (s : State) (k : Nat) : State :=
  s.modCart k (fun x => if x.powered then x else { x with
    powered := true, lasers := x.lasers.filter (fun l => l.2 != .failed) })

/-- Lock loops of a stack's ports that are off are acquired when light comes (R364, R837). -/
def State.sweepPorts (s : State) (stack : Nat) : State :=
  s.acquireOff ((List.range 192).map (· + (stack * 2560 + 2368)))

/-- The lines ramp to nominal. At start-up they feed their stack at once; later they return like spares (R339). Lines whose
DFB has failed have a spare tuned. -/
def State.lightCart (s : State) (k : Nat) (returnPower : Int) : State :=
  let good := (List.range 64).filter (fun n => (s.cart k).laser n != .failed)
  let starting := (s.cart k).starting
  let s := s.modCart k (fun x => { good.foldl (fun (x : Cart) n => x.setLaser n .on) x with
    lit := true, returnOk := true, litPower := returnPower, litAt := s.now, probes := 0, probedAt := none, starting := false
    relit := if starting then [] else good.map (fun n => (n, false)) })
  let s := forEach good s (fun s n => s.takeFree.modCart k (fun x => { x with powerOut := tabPut x.powerOut n (nominalPower s.freeNat) }))
  let s := if starting then forEach good s (fun s n => s.setFeed (k * 64 + n) feedOwn) else s
  let s := if starting then s.modCart k (fun x => { x with failedAt := [] }) else s
  let s := forEach ((List.range 64).filter (fun n => !good.contains n)) s (fun s n => s.tuneSpare k n (s.isInjected 1 (k * 64 + n)))
  (s.feedPorts).sweepPorts k

/-- The lasers of a cartridge that is not lit are probing or off (R338, R392). -/
def Cart.setDark (x : Cart) (l : LaserState) : Cart :=
  (List.range 64).foldl (fun (x : Cart) n => if x.laser n = .failed then x else x.setLaser n l) x

/-- The two probes of start-up lighting may be over, and with `ramp` its ramp too: 7 ms and 17 ms after the cartridge step, or after the
socket is powered (R836, R843; 14, Start-up). -/
def State.lightingTime (s : State) (k : Nat) (ramp : Bool) : Bool :=
  let from_ := if (s.cart k).starting then s.power.refAt + 22000000 else (s.cart k).closedAt + 100000000
  decide (from_ + (if ramp then 17000000 else 7000000) ≤ s.now)

/-- STARTUP_LIGHTING (R836): two probes, then the ramp; a path that shows no return light is probed under R338. A cartridge that was shut
down with its socket powered is not lit so. -/
def State.startLighting (s : State) (k : Nat) (probe1 probe2 : Bool) (returnPower : Int) : State :=
  let x := s.cart k
  if !s.mayPower k || x.lit || x.probedAt.isSome || x.powered && !x.starting || !s.lightingTime k (probe1 && probe2) then s
  else
    let s := s.powerSocket k
    if probe1 && probe2 then s.lightCart k returnPower
    else s.modCart k (fun x => { x.setDark .probe with probes := if probe2 then 1 else 0, probedAt := some s.now })

/-- A ramp that is over: the lines are at nominal, and the cartridge is lit (R338). -/
def State.rampDone (s : State) (k : Nat) : State :=
  match (s.cart k).ramp with
  | none => s
  | some r =>
    if s.now < r.1 ∨ !s.mayPower k then s
    else (((s.modCart k (fun x => { x with ramp := none })).lightCart k r.2).modCart k (fun x => { x with litAt := r.1 })).light k liRelit
      0xFF 0xFF 0xFFFF 0 false

/-- CARTRIDGE_PROBE, once per second; the second one in a row that has seen return light begins the ramp of 10 ms (R338). The
return-tap power at lighting is a free value. DESIGN CHOICE: a ramp that is over shows at the next control tick, probe or verification;
until then the lasers read as probing (assumption 96). -/
def State.probeCart (s : State) (k : Nat) (seen : Bool) : State :=
  let s := s.rampDone k
  if !s.mayPower k || (s.cart k).lit || (s.cart k).ramp.isSome || !(s.cart k).probedAt.all (fun t => decide (t + 1000000000 ≤ s.now)) then s
  else
    let s := s.powerSocket k
    let n := if seen then (s.cart k).probes + 1 else 0
    if n < 2 then s.modCart k (fun x => { x.setDark .probe with probes := n, probedAt := some s.now })
    else s.takeFree.modCart k (fun x => { x.setDark .probe with ramp := some (s.now + 10000000, (s.freeNat : Int)) })

def State.insertCart (s : State) (k : Nat) (closed : Bool) : State :=
  if (s.cart k).present then s
  else s.modCart k (fun x => { x with
    present := true, intlk := closed, closedAt := s.now, limited := false, powered := false, lasers := [], probes := 0
    probedAt := none })

def State.openInterlock (s : State) (k : Nat) : State :=
  let lit := (s.cart k).lit || (s.cart k).ramp.isSome || (s.cart k).lasers.any (fun l => l.2 == .on || l.2 == .donor)
  let s := if lit then s.eyeOff k 2 else s
  s.modCart k (fun x => { x.setDark .off with
    intlk := false, powered := false, limited := false, starting := false, probes := 0, probedAt := none, ramp := none })

def State.closeInterlock (s : State) (k : Nat) : State :=
  if !(s.cart k).present || (s.cart k).intlk then s
  else s.modCart k (fun x => { x with intlk := true, closedAt := s.now })

def State.returnLost (s : State) (k : Nat) : State :=
  if !(s.cart k).lit then s else s.eyeOff k 1

def State.socketCut (s : State) (k : Nat) : State :=
  if !(s.cart k).powered then s
  else (s.eyeOff k 4).modCart k (fun x => { x.setDark .off with powered := false, limited := true })

/-- CART_LOST (R861): 0 removed, 1 eye-safety shutdown, 2 line failures; every line is taken over as R325 states. -/
def State.cartLost (s : State) (k detail : Nat) : State :=
  let s := if detail = 2 then s else s.darkCart k
  let s := if detail = 0 then s.modCart k (fun x => { x.setDark .off with
      present := false, intlk := false, powered := false, starting := false })
    else s
  let ns := (List.range 64).filter (fun n => s.feedOf (k * 64 + n) == feedNone && (tabFind (s.cart k).failedAt n).isNone)
  let s := s.modCart k (fun x => { x with failedAt := ns.foldl (fun t n => tabPut t n s.now) x.failedAt })
  s.faultEv k ftCart detail 0 false

/-! ## Fabric lanes (R340, R341) -/

/-- Fabric transmitters work: PS0 and PS1, after start-up's rails (12, What each state keeps). -/
def State.linksOn (s : State) : Bool := s.power.boot == .serving && (s.power.pstate == .ps0 || s.power.pstate == .ps1)

def State.laneRelight (s : State) (p lane : Nat) : State :=
  if !s.linksOn || !(s.port p).dark.getLsbD lane then s
  else (s.modPort p (fun x => { x with dark := x.dark &&& ~~~(1#8 <<< lane) })).light 0xFF liPortRelit 0xFF 0xFF 0xFFFF
    (p * 8 + lane) (s.isInjected 5 p)

/-! ## The rows -/

def execLineFail (dt : Nat) (cart : CartId) (line : LineId) (driver : Bool) (s : State) : Host.Outcome State Fault Refusal :=
  .next ((s.elapse dt).failLine cart line driver)

def execTakeover (dt : Nat) (cart : CartId) (line : LineId) (s : State) : Host.Outcome State Fault Refusal :=
  .next ((s.elapse dt).takeOver cart line)

def execSpareVerified (dt : Nat) (cart : CartId) (line : LineId) (s : State) : Host.Outcome State Fault Refusal :=
  .next (((s.elapse dt).rampDone cart).verifySpare cart line)

def execSpareIn (dt : Nat) (cart : CartId) (line : LineId) (s : State) : Host.Outcome State Fault Refusal :=
  .next ((s.elapse dt).switchIn cart line)

def execStartupLighting (dt : Nat) (cart : CartId) (probe1 probe2 : Bool) (returnPower : Int) (s : State) :
    Host.Outcome State Fault Refusal :=
  .next ((s.elapse dt).startLighting cart probe1 probe2 returnPower)

def execCartridgeProbe (dt : Nat) (cart : CartId) (seen : Bool) (s : State) : Host.Outcome State Fault Refusal :=
  .next ((s.elapse dt).probeCart cart seen)

def execCartridgeInsert (dt : Nat) (cart : CartId) (closed : Bool) (s : State) : Host.Outcome State Fault Refusal :=
  .next ((s.elapse dt).insertCart cart closed)

def execInterlockOpen (dt : Nat) (cart : CartId) (s : State) : Host.Outcome State Fault Refusal :=
  .next ((s.elapse dt).openInterlock cart)

def execInterlockClosed (dt : Nat) (cart : CartId) (s : State) : Host.Outcome State Fault Refusal :=
  .next ((s.elapse dt).closeInterlock cart)

def execReturnLoss (dt : Nat) (cart : CartId) (s : State) : Host.Outcome State Fault Refusal :=
  .next ((s.elapse dt).returnLost cart)

def execSocketOvercurrent (dt : Nat) (cart : CartId) (s : State) : Host.Outcome State Fault Refusal :=
  .next ((s.elapse dt).socketCut cart)

def execCartLost (dt : Nat) (cart : CartId) (detail : Fin 3) (s : State) : Host.Outcome State Fault Refusal :=
  .next ((s.elapse dt).cartLost cart detail)


def execLaneRelight (dt : Nat) (port : PortId) (lane : Fin 8) (s : State) : Host.Outcome State Fault Refusal :=
  .next ((s.elapse dt).laneRelight port lane)

/-- LANE_PROBE: a dark lane emits its 2 ms probe and stays dark (R340); the light is no state of the module. -/
def execLaneProbe (dt : Nat) (_port : PortId) (_lane : Fin 8) (s : State) : Host.Outcome State Fault Refusal :=
  .next (s.elapse dt)

end Sys2Proof.Machine
end

