-- ==== Sys2Proof/Machine/Power.lean ====
section
/-! DEFINITION. Power states (R744 to R752), the loss of every domain (R733, R829), throttling, orderly stop and trip (R760
to R772). -/

namespace Sys2Proof.Machine

/-! ## PMBus status (R738, R741) -/

/-- A status bit is set: ALERT_N is asserted. -/
def State.pmSet (s : State) (f : Pmbus → Pmbus) : State := { s with pmbus := { f s.pmbus with alertN := false } }

def pmInput (b : Nat) (p : Pmbus) : Pmbus := { p with input := p.input ||| (1#8 <<< b) }
def pmTemp (b : Nat) (p : Pmbus) : Pmbus := { p with temperature := p.temperature ||| (1#8 <<< b) }

/-- READ_TEMPERATURE_1 to 3 (R738): compute dies, photonic dies, HBM, in 0.25 degC. -/
def State.pmTemps (s : State) : List Int := [max (s.dieTemp 0) (s.dieTemp 2), max (s.dieTemp 1) (s.dieTemp 3), s.hbmTemp]

/-! ## Loss of power (R733, R744, R829) -/

/-- What a slab keeps without power (R18, R168, R744): its cells and records. DESIGN CHOICE: one whose dressing was complete but not yet
returned is found READY, with no DETOUR_END (assumption 53). -/
def Slab.unpowered (x : Slab) (now : Nat) : Slab :=
  let cut := match x.running with
    | some r => r.doneAt.isNone
    | none => false
  { x with
    cells := x.cellsNow now
    dress := if cut then .incomplete else if x.dress = .dressing then .ready else x.dress
    incompleteDue := cut || x.incompleteDue
    thisPower := false, sealed_ := decide (x.dress ≠ .blank), bound := false, master := none, pinned := false,
    status := W1c.init, rowgrpLast := 1, live := AccSet.init, shadow := AccSet.init, zskip := 0, recon := [],
    seamOff := [], mismatch := none, handled := [], kept := [], transients := [], queued := none, running := none, spare := none,
    driftDue := none, detourReady := false }

/-- What an engine keeps without power (R250, R261): calibration records and its rows. -/
def Engine.unpowered (x : Engine) : Engine :=
  { Engine.init with
    rowMap := x.rowMap, rows := x.rows, calRow := x.calRow, rotationNext := x.rotationNext, ringCal := x.ringCal,
    pred := x.pred, pNom := x.pNom }

/-- What a loop keeps without power (R370). -/
def Loop.unpowered (k : Nat) (x : Loop) : Loop :=
  { Loop.init k with heatOp := x.heatOp, tCal := x.tCal, heatPlaus := x.heatPlaus, nvTrim := x.nvTrim, hofs := x.hofs }

def Cart.unpowered (x : Cart) : Cart := { Cart.init with present := x.present, intlk := x.intlk, closedAt := x.closedAt }

/-- Every domain loses power: what is not non-volatile returns to its reset value. `boot` says where the module then
stands; the trip latch is kept by a reset (R829) and lost below the lockout (R772). -/
def State.powerLoss (s : State) (boot : Boot) (keepTrip : Bool) : State :=
  { State.reset with
    pending := s.pending, free := s.free, time := { TimeState.init with clock := s.time.clock }
    slabs := tabMap (fun _ => Slab.init) (fun _ x => x.unpowered s.now) s.slabs
    engines := tabMap (fun _ => Engine.init) (fun _ x => x.unpowered) s.engines
    loops := tabMap Loop.init Loop.unpowered s.loops
    carts := tabMap (fun _ => Cart.init) (fun _ x => x.unpowered) s.carts
    ringTrim := s.ringTrim, pilotRef := s.pilotRef, corr := s.corr
    power := { Power.init with
      boot := boot, trip := if keepTrip then s.power.trip else none, tripDue := keepTrip && s.power.tripDue,
      rolePin := s.power.rolePin, pmAddr := s.power.pmAddr, resetLow := s.power.resetLow }
    trust := Trust.init, sdio := { Sdio.init with vdd := s.sdio.vdd, ioReady := false }
    mbx := { Mailbox.init with manager := s.mbx.manager } }

/-- PS5, and the state after a trip: only the wake logic runs (R751, R770); the role and the PMBus status are kept. -/
def State.dormant (s : State) : State :=
  let p := s.pmbus
  { (s.powerLoss .serving true).modPower (fun x => { x with pstate := .ps5 }) with pmbus := p }

/-! ## Stop conditions (R756, R757, R760) -/

/-- The sensor of the hottest zone of a die. -/
def State.hotSensor (s : State) (die : Nat) : Nat :=
  match (List.range 32).find? (fun k => s.zoneTemp die k = s.dieTemp die) with
  | some k =>
    let a := s.sensor (die * 64 + 2 * k)
    let b := s.sensor (die * 64 + 2 * k + 1)
    if a.failed ∧ !b.failed then 2 * k + 1
    else if !a.failed ∧ !b.failed ∧ a.temp < b.temp then 2 * k + 1
    else 2 * k
  | none => 0

/-- The stop condition that holds, if any: source, sensor, temperature, DETAIL (R760, R777). -/
def State.stopCause (s : State) : Option (Nat × Nat × Int × Nat) :=
  match (List.range 4).find? (fun d => decide (420 ≤ s.dieTemp d)) with
  | some d => some (d, s.hotSensor d, s.dieTemp d, 0)
  | none =>
    if 400 ≤ s.hbmTemp ∧ !s.power.hbm.isEmpty then some (4, s.power.hbm.findIdx (fun x => decide (x = s.hbmTemp)), s.hbmTemp, 1)
    else match (List.range 2).find? (fun k => decide (300 ≤ s.cartTemp k)) with
      | some k => some (5 + k, 0xFF, s.cartTemp k, 2)
      | none => none

/-- The module as its sensors would show it without the injected failures (R867). -/
def State.uninjected (s : State) : State :=
  s.modPower (fun p => { p with
    sensors := p.sensors.map (fun (x : Nat × Sensor) => if x.2.injected then (x.1, { x.2 with failed := false }) else x) })

/-- Any die is at or above a protection temperature. -/
def State.hotter (s : State) (t : Int) : Bool := (List.range 4).any (fun d => decide (t ≤ s.dieTemp d))

/-! ## Going down -/

/-- Running tasks of BATCH plans pause (R767). -/
def State.pauseBatch (s : State) : State :=
  forEach (s.clusters.map (fun x => x.1)) s (fun s c => if (s.cluster c).batch then s.pauseTasks c (fun _ => true) else s)

/-- A ring's command that waits on a converter completes with NOT_READY when the converters stop (R749, R784). -/
def State.stopConverters (s : State) : State :=
  let waits (c : HostCmd) : Bool := match c with
    | .monconvInject _ => true
    | .monconvConfigure _ => true
    | _ => false
  let s := forEach (List.range 4) s (fun s r => match (s.ring r).exec with
    | some x => if waits x.cmd then s.completeRing r (Answer.err s stNotReady) else s
    | none => s)
  forEach (List.range 4) s (fun s k => s.modMc k (fun x => { x with todo := [], busy := false, inj := [], measured := none }))

/-- Links down, converters stopped, time in holdover (12, What each state keeps; R784). -/
def State.banked (s : State) : State :=
  let s := forEach (List.range 16) s (fun s p => (s.withdraw p).modPort p (fun x => { x with
    up := false, lacp := false, ptpLock := false, synceLock := false, busyUntil := 0, master := none }))
  s.stopConverters.modTime (fun t => { t with
    srcState := if t.srcState = .locked then .holdover else t.srcState, lostAt := none
    sources := t.sources.map (fun x => { x with qualified := false, run := 0, last := none }) }) |>.modRelay (fun r => { r with
      valid := 0, asked := false })

/-- What a cluster loses from PS3 on (R744, R747): plans, buffers, the scale table, the replay log. -/
def Cluster.cold (x : Cluster) : Cluster :=
  { Cluster.init with
    planCap := x.planCap, tseq := x.tseq, pass := x.pass, walker := x.walker, tenant := x.tenant, strip := x.strip,
    hung := x.hung, router := x.router, capacity := x.capacity }

/-- The domain tables are lost with the HBM pages that hold them (R601). -/
def State.loseTables (s : State) : State := s.modDomain (fun d => { d with pageMap := [], directory := [] })

/-- What is lost from PS3 on: on-chip memory, HBM and its page map (R494), light, lock loops, converter settings. -/
def State.cold (s : State) : State :=
  let s := { s with
    mem := [], tags := [], seals := [], pages := [], pageChanges := [], tiles := []
    clusters := tabMap (fun _ => Cluster.init) (fun _ x => x.cold) s.clusters
    slabs := tabMap (fun _ => Slab.init) (fun _ x => { x with
      bound := false, master := none, live := AccSet.init, shadow := AccSet.init, mismatch := none, handled := [], kept := [] }) s.slabs
    engines := tabMap (fun _ => Engine.init) (fun _ x => { x with
      active := WeightSet.init, shadow := WeightSet.init, refreshDue := false, refreshUntil := 0, left := [], epochs := []
      anyVerdict := false, spoilDue := none, batch := [] })
      s.engines
    monconv := tabMap (fun _ => Monconv.init) (fun _ x => { x with
      scanMask := 0, refmode := true, continuous := false, start := false, refReady := false }) s.monconv
    heaters := []
    loops := tabMap Loop.init (fun k x => if k < 5120 then { x with
      phase := .off, queued := false, lostLight := false, frozen := false, freezeFrom := none, releaseFrom := none, staged := none
      outTicks := 0, fails := 0, demod := [] }
      else x) s.loops
    carts := tabMap (fun _ => Cart.init) (fun _ x => { x with
      powered := false, lit := false, returnOk := false, lasers := [], spares := Cart.init.spares, ramp := none, relit := [], named := []
      autoNamed := [], failedAt := [], probes := 0, probedAt := none, powerOut := [] }) s.carts
    feed := [] }
  s.loseTables.feedPorts

/-! ## Coming up -/

/-- Cartridges that may be powered are lit, and their lines feed at once (R743: an exit takes at most 3 ms). -/
def State.relightAll (s : State) : State :=
  forEach (List.range 2) s (fun s k =>
    if (s.cart k).present && (s.cart k).intlk && !(s.cart k).limited then
      let s := (s.powerSocket k).modCart k (fun x => { x with starting := true })
      s.lightCart k (s.cart k).litPower
    else s.modCart k (fun x => { x with failedAt := (List.range 64).map (fun n => (n, s.now)) }))

/-- Every lock loop is acquired again (R364; 12, after the Return from PS2). -/
def State.sweepAll (s : State) : State :=
  s.acquireOff (List.range 5120)

/-- Lines at nominal power after PS2: P_nom is re-based, NORM recomputed, and the epochs so far close dirty (R326). DESIGN CHOICE: it is
the power of the last ENGINE_CALIBRATE again, or on a split line the first power measured from here on (assumption 94). -/
def State.linesNominal (s : State) : State :=
  forEach (List.range 64) s (fun s e => s.swapSets e (fun x =>
    ({ x.modEpoch s.epochNow (fun i => { i with forced := true }) with norm := [], pNow := [], pBase := [] }).reload s.now))

/-- The module passes from its power state to another (R744 to R747); `thermal` for the entry by an orderly stop. -/
def State.enterState (s : State) (p : PState) (thermal : Bool) : State :=
  let old := s.power.pstate
  let detail := p.code + old.code * 2 ^ 8 + (if thermal then 2 ^ 16 else 0)
  let inj := thermal && s.uninjected.stopCause.isNone
  if p = .ps5 then (s.powerEv 0xFF poPstate 0xFF 0 detail false).closeAll 4 |>.dormant
  else
    let s := if old = .ps0 then s.pauseBatch else s
    let s := if old.code < 2 ∧ 2 ≤ p.code then s.banked else s
    let s := if old.code < 3 ∧ 3 ≤ p.code then s.cold else s
    let s := s.modPower (fun x => { x with pstate := p })
    let s := if 3 ≤ old.code ∧ p.code < 3 then s.relightAll.sweepAll else s
    let s := if old = .ps2 ∧ p.code < 2 then s.linesNominal else s
    let s := s.modPower (fun x => { x with
      target := none, stop := x.stop && p != .ps0,
      resumeFrom := if p = .ps0 then some s.leadFrom else none })
    let s := if p = .ps0 then forEach (s.slabs.map (fun x => x.1)) s State.queueCut else s
    s.powerEv 0xFF poPstate 0xFF 0 detail inj

/-- Dressings and strips that a change of state waits for (R745). -/
def State.mustFinish (s : State) : Bool :=
  s.slabs.any (fun x => match x.2.running with
    | some r => r.doneAt.isNone
    | none => false) || s.clusters.any (fun x => x.2.strip.isSome)

/-- The ring whose command waits for a state. -/
def State.stateRing (s : State) : Option Nat :=
  s.ringExecuting (fun c => match c with
    | .powerStateSet _ => true
    | _ => false)

/-- At a tick boundary: the thermal stop that is due (R767), then the state that was asked for (R745). PS4 and PS5 are
completed just before entry (R699). -/
def State.statesAtBoundary (s : State) : State :=
  if s.power.stopDue then
    let s := s.modPower (fun p => { p with stopDue := false })
    if 2 ≤ s.power.pstate.code then s
    else
      let s := (s.cutDressings true).enterState .ps2 true
      match s.stateRing with
      | some r => s.completeRing r (Answer.err s stConflict)
      | none => s
  else match s.power.target with
    | some (p, nb) =>
      if s.now < nb ∨ s.mustFinish then s
      else
        let finish (s : State) : State := match s.stateRing with
          | some r => s.completeRing r (Answer.ok s)
          | none => s
        if 4 ≤ p.code then (finish s).enterState p false else finish (s.enterState p false)
    | none => s

/-- Plans run again at the first boundary at least 5 us after the return to PS0 (R746). -/
def State.resumeAtBoundary (s : State) : State :=
  match s.power.resumeFrom with
  | some t => if t ≤ s.now then s.modPower (fun p => { p with resumeFrom := none }) else s
  | none => s

/-- Tasks may be dispatched (R746, R748). -/
def State.runsPlans (s : State) : Bool :=
  s.power.boot == .serving && s.power.pstate == .ps0 && s.power.resumeFrom.isNone

/-- The end of POWER_STATE_SET PS0 (R743, R752). -/
def endPowerStateSet (st : BitVec 3) (s : State) : Answer :=
  if st ≠ 0 then Answer.ok s
  else if !s.released then Answer.err s stConflict
  else Answer.ok (s.enterState .ps0 false)

/-! ## Throttling (R761 to R765) -/

/-- Sensors run (R765, R742). -/
def State.sensorsOn (s : State) : Bool :=
  s.power.boot == .serving && (s.power.pstate == .ps0 || s.power.pstate == .ps1 || s.power.pstate == .ps2)

/-- The SETPOINT of the PWR loop in force is the lower of the host's limit and TL; a step that lowers it ends a freeze of
that loop (R763, R764). -/
def State.setPower (s : State) : State :=
  let v : Int := min s.power.hostLimit s.power.tl
  let x := s.loop 5120
  let old := coSet x.coef
  let s := s.setLoop 5120 { x with coef := coPut x.coef 0x0E (unsigned 16 v) }
  if x.frozen ∧ v < old then
    (s.modLoop 5120 (fun y => { y with frozen := false, staged := none, releaseFrom := none })).light 0xFF liFreezeTimeout 0xFF
      0xFF 5120 0 false
  else s

/-- TIME_NS of the last millisecond of the frame grid, and whether its throttle step may come now. -/
def State.throttlePoint (s : State) : Nat := (s.time.gridPos s.timeNat / 1000000 * 1000000 + s.time.frameOffset).toNat
def State.throttleDue (s : State) : Bool :=
  s.sensorsOn && decide (s.timeNat ≤ s.throttlePoint + 50) && s.time.throttleAt.all (fun q => decide (q < s.throttlePoint))

def State.throttle (s : State) : State :=
  if !s.throttleDue then s
  else
    let s := s.modTime (fun t => { t with throttleAt := some s.throttlePoint })
    let t := (List.range 4).map s.dieTemp
    let tl := s.power.tl
    let new := if t.any (fun x => decide (380 ≤ x)) then max (tl - 500) 4000
      else if t.all (fun x => decide (x < 360)) then min (tl + 500) 14000 else tl
    let s := (s.modPower (fun p => { p with tl := new })).setPower
    let s := if new < 14000 then s.pmSet (pmTemp 6) else s
    if tl = 14000 ∧ new < 14000 then s.powerEv 0xFF poThrottle 0xFF 0 new (!s.uninjected.hotter 380)
    else if tl < 14000 ∧ new = 14000 then s.powerEv 0xFF poThrottleEnd 0xFF 0 0 false
    else s

/-! ## Orderly stop and trip (R766 to R772) -/

/-- THERMAL_STOP: every arm is cancelled, and the tick's end enters PS2 (R766, R767). -/
def State.thermalStop (s : State) : State :=
  if s.power.stop then s
  else match s.stopCause with
    | none => s
    | some x =>
      let s := (s.powerEv x.1 poThermalStop x.2.1 x.2.2.1 x.2.2.2 s.uninjected.stopCause.isNone).pmSet (pmTemp 6)
      let s := forEach (s.clusters.map (fun y => y.1)) s (fun s c => s.modCluster c (fun y => { y with armed := none }))
      s.modPower (fun p => { p with stop := true, stopDue := true })

/-- The hardware trip (R735, R769 to R772): its cause is latched, and the module behaves as in PS5. -/
def State.tripNow (s : State) (t : Trip) : State :=
  let s := (s.pmSet (if t.overcurrent then pmInput 2 else pmTemp 7)).dormant
  s.modPower (fun p => { p with trip := some t, tripped := true, tripDue := true })

/-- A die at 115 degC trips the module (R769). -/
def State.tripCheck (s : State) : State :=
  match (List.range 4).find? (fun d => decide (460 ≤ s.dieTemp d)) with
  | some d =>
    let k := s.hotSensor d
    s.tripNow { overcurrent := false, die := d, sensor := k, reading := s.reading (d * 64 + k) }
  | none => s

def execThrottleStep (dt : Nat) (s : State) : Host.Outcome State Fault Refusal := .next (s.elapse dt).throttle

end Sys2Proof.Machine
end

