-- ==== Sys2Proof/Machine/TaskBase.lean ====
section
/-! DEFINITION. What the tasks of every engine share: memory as engines see it with its tags
(R292, R294, R295), holds (R300), the end of a task (R84, R94, R517, R518), tasks that are not run (R93, R97). -/

namespace Sys2Proof.Machine

/-! ## Memory as an engine sees it -/

/-- Contribution of an accumulator set to what is read from it. -/
def AccSet.tag (a : AccSet) : Option Tag := if a.unconf then some { epoch := a.epoch, spoiled := a.spoiled } else none

/-- Tag of `n` bytes at a cluster address. -/
def State.tagAt (s : State) (c core addr n : Nat) : Option Tag :=
  match placeOf core addr with
  | .window k i o =>
    let y := s.slab (winSlab c k i)
    if s.winOfs (winSlab c k i) o < 0x800 then y.live.tag else y.shadow.tag
  | _ => match keyOf c core addr with
    | some k => s.tagOf k n
    | none => none

/-- Tag of a region in the copy of a pass. -/
def State.tagRegion (s : State) (c : Nat) (r : Region) : Option Tag :=
  r.starts.foldl (fun t a => joinTag t (s.tagAt c r.core a r.len)) none

/-- Bytes at an address of scratch or cluster memory. -/
def State.readAt (s : State) (c core addr n : Nat) : List Byte :=
  match keyOf c core addr with
  | some k => s.bytes k n
  | none => List.replicate n 0


/-! ## Collisions (R465 to R468) -/

/-- Bytes of a free value that a collision leaves. -/
def clashBytes (value : Nat) : List Byte := toLe 8 (Config.collision value).toNat

/-- Cluster memory as a task read it: a word of which its read collided is undefined (R466). -/
def State.clashed (s : State) (c : Nat) (l : List Clashed) : State :=
  forEach (l.filter (fun k => !k.wrote)) s (fun s k =>
    s.writeAt c 0xFF (clashAddr k.word) (clashBytes k.value) (s.tagAt c 0xFF (clashAddr k.word) 8))

/-- What a task's own collisions leave once it has written: an undefined value in each word that it wrote, and in its line the later of
the two states (R466, R468). -/
def State.clashWrites (s : State) (c : Nat) (l : List Clashed) : State :=
  forEach (l.filter (fun k => k.wrote)) s (fun s k =>
    s.writeAt c 0xFF (clashAddr k.word) (clashBytes k.value) (joinTag (s.tagAt c 0xFF (clashAddr k.word) 8) k.tag))

/-- Keys and lengths of the regions in the copy of a pass. -/
def Cluster.keysOf (x : Cluster) (c pass : Nat) (rs : List Region) : List (Nat × Nat) :=
  rs.flatMap (fun r =>
    let r := x.place pass r
    r.starts.filterMap (fun a => (keyOf c r.core a).map (fun k => (k, r.len))))

/-! ## Tailings blocks (R413 to R416) -/

/-- The memory that holds a place, as the address of its first byte and its length: the tailings address wraps in it
(R414). -/
def memSpan (addr : Nat) : Nat × Nat := if addr < 0x10000 then (0, 0x10000) else (0x100000, 0x100000)

/-- Address of the tailings block of a tile (R414). -/
def tailAddr (addr ofs : Nat) : Nat := let m := memSpan addr; m.1 + (addr - m.1 + 32 * ofs) % m.2

/-- The 256 bytes of a tailings block as address and length: they wrap within the memory (R414). -/
def tailParts (addr ofs : Nat) : List (Nat × Nat) :=
  let m := memSpan addr
  let a := tailAddr addr ofs
  let n := min 256 (m.1 + m.2 - a)
  [(a, n), (m.1, 256 - n)]

/-- Addresses of the tiles that a task reads as data with escapes (R416). -/
def Cluster.escapeTiles (x : Cluster) (i pass : Nat) : List Nat :=
  let d := x.task i
  let run (core a n : Nat) : List Nat := (List.range n).map (fun k => x.addrOf pass core a + 4128 * k)
  match dKind d with
  | 1 => if smInt4 d then [] else run (dLcore d) (dSrc d) 1
  | 2 => if omInt4 d then [] else run 0xFF (dSrc d) (omInTiles d)
  | 4 => run (dLcore d) (dSrc d) (veTiles d) ++ (if veBinary d then run (dLcore d) (veSrc2 d) (veTiles d) else [])
  | _ => []

/-- Tailings blocks that a task reads (R415, R416), as address and length. -/
def State.tailRanges (s : State) (c i pass : Nat) : List (Nat × Nat) :=
  let x := s.cluster c
  if dEmpty (x.task i) then [] else
  (x.escapeTiles i pass).flatMap (fun a =>
    let h := leNat (s.readAt c (dLcore (x.task i)) a 32)
    if hdFmt h ≠ fmtInt8 ∨ hdTailCount h = 0 then [] else tailParts a (hdTailOfs h))

/-- Tag of what a task reads (R292, R410). -/
def State.inputTag (s : State) (c i pass : Nat) : Option Tag :=
  let x := s.cluster c
  let t := (readRegions (x.task i)).foldl (fun t r => joinTag t (s.tagRegion c (x.place pass r))) none
  (s.tailRanges c i pass).foldl (fun t p => joinTag t (s.tagAt c (dLcore (x.task i)) p.1 p.2)) t

/-- Keys and lengths of what a task reads, the tailings blocks included (R300). -/
def State.readKeys (s : State) (c i pass : Nat) : List (Nat × Nat) :=
  let x := s.cluster c
  let d := x.task i
  x.keysOf c pass (readRegions d) ++ (s.tailRanges c i pass).filterMap (fun p => (keyOf c (dLcore d) p.1).map (fun k => (k, p.2)))

/-! ## Holds (R300, R301, R306) -/

/-- A line that the task writes is held by another (R300). A replayed task does not wait for the holds of those that wait for their
replay with it: theirs begin anew with their dispatch. -/
def State.heldBack (s : State) (c i : Nat) (r : TaskRun) : Bool :=
  let x := s.cluster c
  x.isHeld (x.keysOf c r.pass (writeRegions (x.task i))) (fun t => t == i || (match x.run t with
    | some q => r.replayed && q.phase == .replay
    | none => false))

/-- The task of a pass has its own log entry (R299). -/
def Cluster.logged (x : Cluster) (i pass : Nat) : Bool := x.log.any (fun e => decide (e.task = i) && decide (e.pass = pass) && !e.hold)

/-- The replay log has no free entry (R299). -/
def Cluster.logFull (x : Cluster) : Bool := decide (Config.replayLog ≤ (x.log.filter (fun e => !e.hold)).length)

/-! ## Which words meet (R465 to R468) -/


/-- Port A of cluster memory serves a task of this kind; `none`: its engine reaches no cluster memory (R465). -/
def portA (kind : Nat) : Option Bool :=
  if kind = kCoreHaul then some true
  else if kind = kOptical ∨ kind = kWeight ∨ kind = kClusterHaul ∨ kind = kRouter ∨ kind = kEgress then some false else none

/-- The pass of a task under way that accesses a word so, or of a fill of it made ahead, and whether it is such a fill. -/
def State.accessing (s : State) (c j word : Nat) (write : Bool) : Option (Nat × Bool) :=
  let x := s.cluster c
  match (x.run j).filter (fun r => (r.phase == .running || r.phase == .paused) && s.accesses c j r.pass word write) with
  | some r => some (r.pass, false)
  | none => (x.ahead.find? (fun a => a.task == j && !a.done && s.accesses c j a.pass word write)).map (fun a => (a.pass, true))

/-- What a task's write carries (R292, R468): an optical result is unconfirmed. -/
def State.clashTag (s : State) (c j pass : Nat) : Option Tag :=
  joinTag (s.inputTag c j pass) (if dKind ((s.cluster c).task j) = kOptical then some { epoch := s.epochNow, spoiled := false } else none)

/-- The other task, or the fill made ahead of it, has a collision to feel at its end. -/
def Cluster.addClash (x : Cluster) (j : Nat) (at_ : Nat × Bool) (k : Clashed) : Cluster :=
  if at_.2 then { x with ahead := x.ahead.map (fun a => if a.task = j ∧ a.pass = at_.1 ∧ !a.done then { a with clashes := a.clashes ++ [k] } else a) }
  else match x.run j with
  | some r => x.setRun j { r with clashes := r.clashes ++ [k] }
  | none => x

/-- A word of a task that ends met the other port in its cycle, one of the two writing: port B takes the busy signal, and the other access
feels the collision at its own end (R466, R467). Gives what the task itself feels: a read returned undefined data, two writes leave an
undefined value. -/
def State.meet (s : State) (c i pass : Nat) (k : Clash) : State × List Clashed :=
  let x := s.cluster c
  let reads := s.accesses c i pass k.word false
  let writes := s.accesses c i pass k.word true
  let fabric := decide (k.other.val = 4096)
  let port := if fabric then some false else portA (dKind (x.task k.other))
  let other := if fabric then (if k.writes then some (pass, false) else none) else s.accessing c k.other k.word k.writes
  match other with
  | none => (s, [])
  | some at_ =>
    if (!reads && !writes) || (!writes && !k.writes) || port.isNone || port == portA (dKind (x.task i)) then (s, [])
    else
      let v := s.free
      let theirs := if fabric then none else s.clashTag c k.other at_.1
      let mine := s.clashTag c i pass
      let s := s.takeFree.modBank (c * 544 + k.word % 32) (fun b => { b with status := b.status.hit 12 })
      let own : List Clashed := if !k.writes then [] else
        (if reads then [{ word := k.word, wrote := false, value := v, tag := none }] else [])
          ++ (if writes then [{ word := k.word, wrote := true, value := v, tag := theirs }] else [])
      (if fabric || !writes then s
        else s.modCluster c (fun x => x.addClash k.other at_ { word := k.word, wrote := k.writes, value := v, tag := mine }), own)

/-- All of them. -/
def State.meets (s : State) (c i pass : Nat) (ws : List Clash) : State × List Clashed :=
  ws.foldl (fun (acc : State × List Clashed) k => let r := acc.1.meet c i pass k; (r.1, acc.2 ++ r.2)) (s, [])

/-! ## Where a task stands -/

def TaskRun.active (r : TaskRun) : Bool := r.phase == .running || r.phase == .paused || r.phase == .waitConfirm

/-- The run of a task that is executing now. A task that pauses for the housekeeping slot in its last output tile still
completes in it (R875); an OPTICAL_MVM in its last one has not paused. -/
def State.running (s : State) (c i : Nat) : Option TaskRun :=
  match (s.cluster c).run i with
  | some r =>
    if r.phase = .running ∨ (r.phase = .paused ∧ s.time.inHk ∧ dKind ((s.cluster c).task i) ≠ kOptical) then some r else none
  | none => none

/-- Key of the run that a completion of a task ends: that of the pass, or a replay of the pass before it. -/
def State.taskKey (s : State) (c i : Nat) : Nat :=
  if (s.running c i).isSome || (s.running c (oldKey i)).isNone then i else oldKey i

/-- Time past a task's DEADLINE_NS in RT mode; none in BATCH, or before it (R94, R96). -/
def State.lateBy (s : State) (c i : Nat) : Option Nat :=
  let x := s.cluster c
  if x.batch ∨ s.inTick ≤ dDeadline (x.task i) then none else some (s.inTick - dDeadline (x.task i))

/-- A task that has its predecessors, none of them stopped short of completion (R84, R85). -/
def Cluster.predsDone (x : Cluster) (i : Nat) : Bool :=
  (dPreds (x.task i)).all (fun p => match x.run (passKey i p) with
    | some r => r.phase == .done
    | none => decide (4096 ≤ i))

/-- Tasks not yet dispatched that depend on a task, directly or through others (R93). -/
def Cluster.dependants (x : Cluster) (i : Nat) : List Nat :=
  (List.range x.taskCount).foldl (fun (l : List Nat) j =>
    let k := passKey i j
    let waits := match x.run k with
      | none => decide (i < 4096)
      | some r => r.phase == .held || r.phase == .waitLog || r.phase == .waitSlots || r.phase == .replay
    if waits && (dPreds (x.task j)).any (fun p => decide (passKey i p = i) || l.contains (passKey i p)) then l ++ [k] else l) []

/-- A task's own log entry is released. -/
def Cluster.unlog (x : Cluster) (i pass : Nat) : Cluster :=
  { x with log := x.log.filter (fun e => !(decide (e.task = i) && decide (e.pass = pass))) }

/-- A task is not run; its readers' credit goes back (R518). -/
def Cluster.notRun (x : Cluster) (i : Nat) : Cluster :=
  let r := (x.run i).getD { TaskRun.init with pass := x.pass }
  ((x.setRun i { r with phase := .notRun }).unlog i r.pass).readDone i r.pass

/-- A task and every task that depends on it are not run; how many depend on it (R93). -/
def State.skip (s : State) (c i : Nat) : State × Nat :=
  let ds := (s.cluster c).dependants i
  (s.modCluster c (fun x => ds.foldl Cluster.notRun (x.notRun i)), ds.length)

/-- A task that its deadline finds not dispatched is not run, and is reported: DATA_LATE while it waits for an input slot, else START_LATE
(R93, R521). -/
def State.skipLate (s : State) (c i : Nat) (r : TaskRun) : State :=
  let x := s.cluster c
  let d := x.task i
  let k := s.skip c i
  if x.batch then k.1
  else if !r.replayed && r.phase != .replay && x.predsDone i && !x.inputsFull i r.pass then
    k.1.miss c missDataLate (dTag d) (s.inTick - dDeadline d) k.2
  else k.1.miss c missStartLate (dTag d) 0 k.2

/-! ## The end of a task -/

/-- The slot is TAKEN for a pass: by the first run of a task that is replayed (R303). -/
def Cluster.tookSlot (x : Cluster) (pass k : Nat) : Bool := (x.slot k).phase == .taken && (x.slot k).pass == pass

/-- Slots that a task leaves FREE when it is stopped short: all that it writes; of a replay those that its first run took (R519). -/
def Cluster.slotsLeft (x : Cluster) (i : Nat) (r : TaskRun) : List Nat :=
  (x.writeSlots i r.pass).filter (fun k => !(r.replayed || r.phase == .replay) || x.tookSlot r.pass k)

/-- Its slots after completion: what it wrote is FULL, what it read goes on (R517, R518); a replayed task's slots that have
become FREE, or that its first run took, are FULL again, the others stay (R304). -/
def Cluster.finishSlots (x : Cluster) (i : Nat) (r : TaskRun) : Cluster :=
  let ks := x.writeSlots i r.pass
  let ks := if r.replayed then ks.filter (fun k => (x.slot k).phase == .free || x.tookSlot r.pass k) else ks
  (x.fillSlots r.pass ks).readDone i r.pass

/-- The log entry of a task takes its output epoch, or is released where the output is confirmed (R299, R303). -/
def Cluster.logOutput (x : Cluster) (i pass : Nat) (t : Option Tag) : Cluster :=
  { x with log := x.log.filterMap (fun (e : LogEntry) =>
      if e.task = i ∧ e.pass = pass ∧ !e.hold then t.map (fun (y : Tag) => { e with epoch := y.epoch }) else some e) }

/-- The run of a task that is over, with the state of its output. -/
def TaskRun.over (r : TaskRun) (t : Option Tag) : TaskRun :=
  { r with
    phase := .done, unconf := t.isSome, epoch := (t.map (fun (y : Tag) => y.epoch)).getD 0
    spoiled := (t.map (fun (y : Tag) => y.spoiled)).getD false }

/-- A task completes (R94, R517, R518). `t`: state of its output. -/
def State.complete (s : State) (c i : Nat) (r : TaskRun) (t : Option Tag) : State :=
  let late := s.lateBy c i
  let kind := dKind ((s.cluster c).task i)
  let s := s.modCluster c (fun x => ((x.logOutput i r.pass t).setRun i (r.over t)).finishSlots i r)
  match late with
  | some n =>
    if kind = kIngress ∨ kind = kEgress ∨ r.stopped.isSome then s
    else s.miss c missRunLate (dTag ((s.cluster c).task i)) n 0
  | none => s

/-- A task completes at its dispatch with no effect (R142, R173, R472, R490). -/
def State.completeEmpty (s : State) (c i : Nat) (r : TaskRun) : State :=
  s.modCluster c (fun x => ((x.unlog i r.pass).setRun i { r with phase := .done }).finishSlots i r)

/-- A task is stopped short: its writer leaves its slots FREE (R519), and its readers' credit goes back. -/
def State.stopped (s : State) (c i : Nat) (r : TaskRun) (t : Option Tag) : State :=
  s.modCluster c (fun x =>
    let x := (x.logOutput i r.pass t).setRun i { r.over t with stopped := some s.now }
    (x.freeSlots (x.slotsLeft i r)).readDone i r.pass)

/-- A task comes to the end of an output tile at which it was to stop: with its last tile it completes (R875). -/
def State.endShort (s : State) (c i : Nat) (r : TaskRun) (t : Option Tag) (whole : Bool) : State :=
  if whole then s.complete c i r t else s.stopped c i r t

/-- LATE of the tiles that a task writes when it is to stop, where it completes and where it stops short (R88, R94). -/
def State.lateAtStop (s : State) (c i : Nat) (r : TaskRun) (late whole : Bool) : Bool :=
  r.late || (if whole then (s.lateBy c i).isSome else late)

/-- How many of `n` units, tiles or rows, are over at the end of the one under way, a free number (R875). -/
def State.unitsDone (s : State) (n : Nat) : Nat := if n = 0 then 0 else s.freeNat % n + 1

/-- A write over: its data is unconfirmed where its input was, or where it is optical (R292). -/
def TaskRun.tag (r : TaskRun) : Option Tag := if r.unconf then some { epoch := r.epoch, spoiled := r.spoiled } else none

end Sys2Proof.Machine
end

