-- ==== Sys2Proof/Machine/SlabArith.lean ====
section
/-! DEFINITION. SLAB_MVM on the slab (03): bench-phases, column sums and their conversion (R112 to R116), seam check and
reconstruction (R211 to R214, R221), edge arithmetic (R125 to R130), chains (R149), exchange and drain (R143 to R148),
the stop (R151). -/

namespace Sys2Proof.Machine

/-! ## Conversion (R99, R115, R221) -/

/-- `n` values from a key on, from a list with rising keys. -/
def denseFrom : Nat → Nat → Tab Nat → List Nat
  | 0, _, _ => []
  | n + 1, k, [] => 0 :: denseFrom n (k + 1) []
  | n + 1, k, (j, v) :: t => if j = k then v :: denseFrom n (k + 1) t else 0 :: denseFrom n (k + 1) ((j, v) :: t)

/-- The cells of a row, by physical column. -/
def Slab.rowCells (x : Slab) (r : Nat) : List Nat :=
  let k := cellKey r 0
  denseFrom 272 k ((x.cells.dropWhile (fun c => decide (c.1 < k))).takeWhile (fun c => decide (c.1 < k + 272)))

/-- Column sums of the driven rows, by physical column. -/
def Slab.colSums (x : Slab) (amps : List (Nat × Int)) : List Int :=
  amps.foldl (fun acc ra => acc.zipWith (fun s (c : Nat) => s + ra.2 * (c : Int)) (x.rowCells ra.1)) (List.replicate 272 0)

/-- How a physical column's sum, a numerator over a denominator in cell units, converts. -/
abbrev Conversion := Nat → Int → Nat → Int × Bool

/-- Corrected codes of the 264 data and seam columns, and whether each clipped (R115). Seam cells count in 1/32 cell units
(R175). -/
def Slab.reads (x : Slab) (amps : List (Nat × Int)) (conv : Conversion) : List (Int × Bool) :=
  let sums := x.colSums amps
  (List.range 264).map (fun j =>
    let p := x.physOf j
    conv p (nth 0 sums p) (if j < 256 then 1 else 32))

/-- The conversions of a bench-phase on slab `k` in the coarse range, each off by a number of codes (R798; assumption 6). -/
def State.coarse (s : State) (k : Nat) (noise : Nat → Nat → Int) (no : Nat) : Conversion :=
  fun p num den => convertColumn (s.colCorr k p) coarseStep coarseLimit num den (noise no p)

def readVal (rs : List (Int × Bool)) (j : Nat) : Int := (nth (0, false) rs j).1
def readClip (rs : List (Int × Bool)) (j : Nat) : Bool := (nth (0, false) rs j).2

/-- Data columns of a seam group. -/
def groupCols (g : Nat) : List Nat := (List.range 32).map (· + 32 * g)

/-- m of R211. -/
def seamDiff (rs : List (Int × Bool)) (g : Nat) : Int :=
  32 * readVal rs (256 + g) - sumI ((groupCols g).map (readVal rs))

/-- Value of a reconstructed column (R221). -/
def seamValue (rs : List (Int × Bool)) (f : Nat) : Int :=
  32 * readVal rs (256 + f / 32) - sumI (((groupCols (f / 32)).filter (· ≠ f)).map (readVal rs))

/-! ## Seam check (R212 to R214) -/

/-- A group is checked: none of its 33 columns clipped, its seam column neither reconstructs nor is marked failed. An injected fault
shows whatever the codes (R867), also beside a reconstructed column (R228). -/
def Slab.checked (x : Slab) (rs : List (Int × Bool)) (g : Nat) (forced : Bool) : Bool :=
  !x.seamOff.contains g
    && (forced || (!x.recon.any (fun f => f / 32 == g) && !((256 + g) :: groupCols g).any (readClip rs)))

/-- The lowest group that mismatches in bench-phase `k` and has not been localised there. -/
def Slab.mismatchAt (x : Slab) (forced : Nat → Bool) (k : Nat) (rs : List (Int × Bool)) : Option Nat :=
  (List.range 8).find? (fun g =>
    x.checked rs g (forced g) && !x.handled.any (fun h => decide (h.1 = k) && decide (h.2.1 = g))
      && (forced g || decide (x.seamThresh < (seamDiff rs g).natAbs)))

/-- First mismatch of a task on a slab: bench-phase and group. A slab in detour is not checked (R199). -/
def Slab.firstMismatch (x : Slab) (forced : Nat → Bool) (phs : List BenchPhase) (conv : Nat → Conversion) : Option (Nat × Nat) :=
  if !x.inService then none
  else (indexed phs).findSome? (fun k => (x.mismatchAt forced k.1 (x.reads k.2.amps (conv k.2.no))).map (fun g => (k.1, g)))

/-- Columns of a group with an injected SEAM fault (R867). -/
def State.seamFaults (s : State) (k g : Nat) : List Nat :=
  (s.faults.filter (fun f => decide (f.kind = 3) && decide (f.target / 272 = k))).filterMap (fun f =>
    ((s.slab k).columnOf (f.target % 272)).filter (fun j => seamGroup j == g))

/-- An injected SEAM fault makes a group mismatch whatever the codes, until its column is reconstructed (R867). -/
def State.seamForced (s : State) (k g : Nat) : Bool := (s.seamFaults k g).any (fun j => !(s.slab k).recon.contains j)

/-! ## Edge arithmetic (R125 to R130) -/

/-- What column `j` adds in a bench-phase. -/
def edgeStep (e : Half) (trim shift : Nat) (suma v : Int) : Int :=
  let f := cmFmt e
  let v := if sliceTop f (cmSlice e) then v - 2 * suma else v
  shiftRound (v * (2 ^ (sliceShift f (cmSlice e) + shift) : Nat) * trim) 14

/-- Columns reconstructed in bench-phase `k`: from the mismatching one on where it was in this task, and up to the one at which it
ended (R216, R221, R227). -/
def Slab.reconAt (x : Slab) (k : Nat) : List Nat :=
  (x.recon ++ (x.kept.filter (fun e => decide (k < e.2))).map (fun e => e.1)).filter (fun f =>
    !x.handled.any (fun h => decide (h.2.1 = f / 32) && decide (k < h.1)))

def Slab.hit (x : Slab) (c : Bool) (i : Nat) : Slab := { x with status := x.status.hitIf c i }

/-- KCOUNT counts rows; past 16,384 BOUND_VOID is set (R150, R159). -/
def Slab.countRows (x : Slab) (n : Nat) : Slab :=
  let k := min (x.live.kcount + n) 0xFFFFFFFF
  let void := decide (x.live.kcount ≤ 16384) && decide (16384 < k)
  { x with live := { x.live with kcount := k, boundVoid := x.live.boundVoid || void } }.hit void 2

/-- One bench-phase added to the live set (R116, R125, R126, R222). -/
def Slab.addPhase (x : Slab) (trim k : Nat) (ph : BenchPhase) (conv : Conversion) : Slab :=
  let rs := x.reads ph.amps conv
  let rec_ := x.reconAt k
  let suma := sumI (ph.amps.map (fun a => a.2))
  let cols := (indexed x.map).filter (fun e => cmUsed e.2)
  let out := cols.foldl (fun (acc : Tab Int × Bool) e =>
    let v := if rec_.contains e.1 then seamValue rs e.1 else readVal rs e.1
    let p := x.physOf e.1
    let r := satI lim32 (tabGet 0 acc.1 p + edgeStep e.2 trim ph.shift suma v)
    (tabSet 0 acc.1 p r.1, acc.2 || r.2)) (x.live.slice, false)
  let clip := cols.any (fun e => readClip rs e.1)
  let seam := !rec_.isEmpty || x.handled.any (fun h => decide (h.1 = k) && h.2.2)
  let x := { x with live := { x.live with
    slice := out.1, sat := x.live.sat || out.2, clip := x.live.clip || clip, seamFail := x.live.seamFail || seam } }
  ((x.hit clip 1).hit out.2 0).countRows ph.rows

/-- The first add of a task: the live set is cleared unless it is kept, and takes the state of its input (R138, R109, R110,
R877). -/
def Slab.firstAdd (x : Slab) (keep esc : Bool) (t : Option Tag) (task : Nat) : Slab :=
  let a := if keep then x.live else AccSet.init
  let u := joinTag a.tag t
  let a := { a with
    sat := a.sat || esc, unconf := u.isSome, spoiled := (u.map (fun (y : Tag) => y.spoiled)).getD false
    epoch := (u.map (fun (y : Tag) => y.epoch)).getD 0
    chain := if a.chain.contains task then a.chain else a.chain ++ [task] }
  { x with live := a }.hit esc 0

/-- Benches that zero-skip leaves out before the task has applied `n` of its bench-phases: all of them where it applies its last,
else those before its last bench (R151, R165). -/
def skipsBefore (d : Desc) (xs : List Int) (n : Nat) : List (List (Nat × Int)) :=
  let per (b : Nat) : Nat := (benchPhases d xs b).length
  if (benchSeq d xs).length ≤ n then skipsOf d xs
  else
    let reached (b : Nat) : Bool := decide (((List.range b).map per).sum < n)
    (((List.range (benchCount d)).filter (fun b => reached b && (List.range (benchCount d)).any (fun e => decide (b < e) && reached e && decide (per e ≠ 0)))).map
      (benchRows d xs)).filter (benchSkipped d)

/-- The task's part on one slab up to `n` bench-phases. -/
def Slab.runPhases (x : Slab) (d : Desc) (pos n : Nat) (r : TaskRun) (task : Nat) (t : Option Tag) (conv : Nat → Conversion) : Slab :=
  let xs := segOf d pos r.input
  let lo := segStart d pos
  let esc := r.escapes.any (fun i => decide (lo ≤ i) && decide (i < lo + smRows d))
  let skips := skipsBefore d xs n
  let x := x.firstAdd (smKeep d && (pos == 0 || !smChain d)) esc t task
  let x := { x with zskip := (x.zskip + skips.length) % 2 ^ 32, rowgrpLast := smRowgrp d }.countRows (skips.map List.length).sum
  ((indexed (benchSeq d xs)).take n).foldl (fun x k => x.addPhase (nth 0x4000 r.trims pos) k.1 k.2 (conv k.2.no)) x

/-! ## Chains (R149, R150) -/

/-- One chained slab's results added into BASE of the lowest slab, with its flags and KCOUNT. -/
def Slab.join (x y : Slab) : Slab :=
  let out := (List.range 85).foldl (fun (acc : Tab Int × Bool) o =>
    let v := y.resultOf y.live o
    let r := satI lim40 (tabGet 0 acc.1 o + v.1)
    (tabSet 0 acc.1 o r.1, acc.2 || v.2 || r.2)) (x.live.base, false)
  let u := joinTag x.live.tag y.live.tag
  let a := { x.live with
    base := out.1, sat := x.live.sat || y.live.sat || out.2, clip := x.live.clip || y.live.clip
    boundVoid := x.live.boundVoid || y.live.boundVoid, seamFail := x.live.seamFail || y.live.seamFail
    unconf := u.isSome, spoiled := (u.map (fun (z : Tag) => z.spoiled)).getD false
    epoch := (u.map (fun (z : Tag) => z.epoch)).getD 0 }
  ({ x with live := a }.hit out.2 0).countRows y.live.kcount

/-! ## Drain (R143 to R148) -/

/-- Payload element of a result (R144, R145). -/
def drainElem (d : Desc) (v : Int) : List Byte :=
  let f := drainFmt d
  toLe (fmtBits f / 8) (intBits f (if smDrain d = 1 then v else rescale f v (smM d) (smS d)))

/-- One region: the header with the live set's flags, and the results of `n` outputs (R146, R148). -/
def Slab.region (x : Slab) (d : Desc) (a : AccSet) (n : Nat) (late : Bool) : List Byte :=
  let rs := (List.range n).map (x.resultOf a)
  let fl : HFlags := { sat := a.sat || rs.any (fun r => r.2), clip := a.clip, boundVoid := a.boundVoid, seamFail := a.seamFail, late := late }
  mkHeader (dTensor d) (drainFmt d) (dScale d) fl a.tag 0 0 ++ rs.flatMap (fun r => drainElem d r.1)

/-- Live and shadow sets exchange (R124); a result that sat40 limits sets SAT in the set and on the slab (R127, R128). -/
def Slab.exchange (x : Slab) (n : Nat) : Slab :=
  let sat := (List.range n).any (fun o => (x.resultOf x.live o).2)
  { x with live := x.shadow, shadow := { x.live with sat := x.live.sat || sat } }.hit sat 0

/-- Cut at LENGTH (R147). -/
def cutAt (len : Nat) : List (List Byte × Option Tag) → List (List Byte × Option Tag)
  | [] => []
  | x :: t => (x.1.take len, x.2) :: cutAt (len - x.1.length) t

/-- Pieces written one after another, each line with the states of all that lie in it. -/
def State.writePieces (s : State) (c core : Nat) : Nat → List (List Byte × Option Tag) → State
  | _, [] => s
  | addr, x :: t =>
    let n := if addr % 64 = 0 then 0 else min x.1.length (64 - addr % 64)
    let s := if n = 0 then s else s.writeAt c core addr (x.1.take n) (joinTag (s.tagAt c core addr n) x.2)
    let s := if x.1.length ≤ n then s else s.writeAt c core (addr + n) (x.1.drop n) x.2
    State.writePieces s c core (addr + x.1.length) t

/-- The regions of a drain: from DST_ADDR on, each with its live set's state (R877), cut at LENGTH, zeros up to it (R147). -/
def State.writeRegionsOf (s : State) (c core addr len : Nat) (rs : List (List Byte × Option Tag)) : State :=
  let total := (rs.map (fun r => r.1.length)).sum
  let all := (cutAt len rs ++ [(List.replicate (len - total) 0, none)]).filter (fun (r : List Byte × Option Tag) => !r.1.isEmpty)
  match all with
  | [] => s
  | r :: t =>
    let n := min r.1.length (64 - addr % 64)
    let s := s.writeAt c core addr (r.1.take n) r.2
    let s := if r.1.length ≤ n then s else s.writeAt c core (addr + n) (r.1.drop n) r.2
    s.writePieces c core (addr + r.1.length) t

/-- The drain of a task: the sets of its draining slabs exchange and their regions are written at DST_ADDR. -/
def State.drainTask (s : State) (c i : Nat) (r : TaskRun) (late : Bool) : State × Option Tag :=
  let x := s.cluster c
  let d := x.task i
  let ks := s.drains c i
  let t := ks.foldl (fun t k => joinTag t (s.slab k.1).live.tag) none
  if smDrain d = 0 then (s, t)
  else
    let rs := ks.map (fun k => ((s.slab k.1).region d (s.slab k.1).live k.2 late, (s.slab k.1).live.tag))
    let s := forEach ks s (fun s k => s.modSlab k.1 (fun y => y.exchange k.2))
    (s.writeRegionsOf c (dCore d) (x.addrOf r.pass (dCore d) (dDst d)) (dLength d) rs, t)

/-! ## Start and end (R119, R121, R123) -/

/-- A task with a place on its slabs begins: it applies its first bench-phase when the drivers are free (R123), with the trims in
force (R129). -/
def State.beginSlab (s : State) (c i : Nat) : State :=
  let ks := (s.cluster c).slabsOf c i
  let at_ := s.appliesAt c i
  s.modCluster c (fun x => match x.run i with
    | some r => x.setRun i { r with begun := true, applied := at_, trims := ks.map (fun k => (s.slab k).driftTrim) }
    | none => x)

/-- Trims latched anew: those of the tasks on cells that have not made their first add (R129). -/
def State.latchTrims (s : State) : State :=
  { s with clusters := s.clusters.map (fun (c : Nat × Cluster) => (c.1, { c.2 with runs := c.2.runs.map (fun (q : Nat × TaskRun) =>
      if q.2.phase = .running ∧ c.2.onSlab q.1 ∧ !s.firstAddBy q.2 s.now then
        (q.1, { q.2 with trims := (c.2.slabsOf c.1 q.1).map (fun k => (s.slab k).driftTrim) })
      else q) })) }

/-- A task on the slab's cells goes on as a detour (R169, R181, R199), with its replay log entry; with none free it waits for one, as
before its dispatch (R299). -/
def State.toDetour (s : State) (c i : Nat) : State :=
  let x := s.cluster c
  match x.run i with
  | some r =>
    if r.phase ≠ .running ∨ r.detour ∨ dKind (x.task i) ≠ kSlab then s
    else if x.logFull && !x.logged i r.pass then
      (s.modCluster c (fun x => (x.freeSlots (x.slotsLeft i r)).setRun i
        { r with phase := if r.replayed then .replay else .waitLog, begun := false, trims := [] })).opticalFlag
        c opLogFull 7 0x7F 0xFF 0 (dTag (x.task i))
    else
      let keys := s.readKeys c i r.pass
      s.modCluster c (fun x => { x.setRun i { r with detour := true, begun := false, trims := [] } with
        log := if x.logged i r.pass then x.log else x.log ++ [(
          { task := i, pass := r.pass, epoch := s.epochNow, reads := keys, weight := none, hold := false, past := false } : LogEntry)] })
  | none => s

/-- Tasks that name one of the slabs and run on cells. -/
def Cluster.onAny (x : Cluster) (c : Nat) (ks : List Nat) : List Nat := (ks.flatMap (x.onSlabs c)).dedup

/-- Tasks whose slab has left service go on as detours. -/
def State.turnDetours (s : State) (c : Nat) (ks : List Nat) : State :=
  forEach ((s.cluster c).onAny c ks) s (fun s i =>
    if ((s.cluster c).slabsOf c i).any (fun k => !(s.slab k).inService) then s.toDetour c i else s)

/-- The adds of a task up to `n k` bench-phases on each slab `k`, the join of its chain and its drain. -/
def State.slabResult (s : State) (c i : Nat) (n : Nat → Nat) (r : TaskRun) (late : Bool) (noise : Nat → Nat → Nat → Int) : State × Option Tag :=
  let x := s.cluster c
  let d := x.task i
  let ks := x.slabsOf c i
  let s := forEach (indexed ks) s (fun s k => s.modSlab k.2 (fun y => y.runPhases d k.1 (n k.2) r i r.tag (s.coarse k.2 (noise k.1))))
  let s := match smChain d, ks with
    | true, k0 :: rest => forEach rest s (fun s k =>
        (s.modSlab k0 (fun y => y.join (s.slab k))).modSlab k (fun y => { y with live := AccSet.init }))
    | _, _ => s
  s.drainTask c i r late

/-- The task leaves its slabs: what was localised in it is forgotten, and a task queued behind it runs as a detour where its slab has
left service; a drift read pair that waited for it is made (R152). -/
def State.leaveSlabs (s : State) (c i : Nat) : State :=
  let ks := (s.cluster c).slabsOf c i
  forEach ks ((forEach ks s (fun s k => s.modSlab k (fun y => { y with handled := [], kept := [] }))).turnDetours c ks) State.driftAfter

/-- Number of the conversion of physical column `p` in bench-phase `no` of the slab at `pos` (assumption 6). -/
def noiseIndex (d : Desc) (pos no p : Nat) : Nat := (pos * (benchCount d * (if smInt4 d then 1 else 2)) + no) * 272 + p

/-- SLAB_MVM_COMPLETE: a mismatch that has not been localised starts its localisation read and holds the task (R214); with
none, the task completes (R121). -/
def State.slabComplete (s : State) (c i : Nat) (noise : List Int) : State :=
  let x := s.cluster c
  let d := x.task i
  match s.running c i with
  | none => s
  | some r =>
    let ks := x.slabsOf c i
    if dKind d ≠ kSlab ∨ r.detour ∨ !r.begun ∨ s.issue < s.slabEnd c i r ∨ s.heldBack c i r
        ∨ ks.any (fun k => (s.slab k).mismatch.isSome || (x.onSlabs c k).head? != some i) then s
    else
      let f (pos no p : Nat) : Int := nth 0 noise (noiseIndex d pos no p)
      let found := (indexed ks).filterMap (fun k =>
        ((s.slab k.2).firstMismatch (s.seamForced k.2) (benchSeq d (segOf d k.1 r.input)) (s.coarse k.2 (f k.1))).map (fun m => (k.2, m)))
      if !found.isEmpty then forEach found s (fun s k => s.modSlab k.1 (fun y => { y with mismatch := some k.2 }))
      else
        let late := r.late || (s.lateBy c i).isSome
        let out := s.slabResult c i (fun _ => smRows d * 2) r late f
        (out.1.complete c i r out.2).leaveSlabs c i

end Sys2Proof.Machine
end

