-- ==== Sys2Proof/Machine/Optical.lean ====
section
/-! DEFINITION. The optical engine's work (05): row products (R239 to R246), weight sets and swaps (R253 to R256, R267 to
R269, R306), OPTICAL_MVM (R274 to R283), detour batches (R284 to R288). -/

namespace Sys2Proof.Machine

/-! ## Row products (R241, R242, R245) -/

/-- One row of one vector: V = sum of m_n q_n and what the light shows beyond it, as the 12-bit code of the converter in steps of 1,024
product units (R245); then the offset removed (R242). The flag is CLIP. DESIGN CHOICE: the nearest code, ties away from zero
(assumption 6). -/
def opticalRow (int4 : Bool) (xs qs : List Int) (noise : Int) : Int × Bool :=
  let m (x : Int) : Int := if int4 then 16 * x + 128 else x + 128
  let v := sumI (xs.zipWith (fun x q => m x * q) qs) + noise
  let code := clampI (-2048) 2047 (divRound v 1024)
  let r := code * 1024 - 128 * sumI qs
  (if int4 then divRound r 16 else r, decide (code = -2048) || decide (code = 2047))

/-- The weights of a logical row, by line. -/
def WeightSet.row (w : WeightSet) (k : Nat) : List Int := (List.range 64).map (w.at_ k)

/-! ## Input elements with escapes (R109, R243, R414 to R417) -/

/-- The payload elements of a tile as signed numbers. -/
def tileInputs (int4 : Bool) (n : Nat) (payload : List Byte) : List Int :=
  if int4 then ((bytesElems 0 payload).take n).map (signed 4) else (payload.take n).map (fun b => signed 8 b.toNat)

/-- Entries of a tailings block: INDEX and VALUE of the first `n` (R413, R415). -/
def tailEntries (n : Nat) (block : List Byte) : List (Nat × Nat) :=
  (List.range n).map (fun t => (field (leNat ((block.drop (8 * t + 4)).take 4)) 0 12, leNat ((block.drop (8 * t)).take 4)))

/-- The 256 bytes of the tailings block. -/
def State.tailBlock (s : State) (c core addr ofs : Nat) : List Byte := (tailParts addr ofs).flatMap (fun p => s.readAt c core p.1 p.2)

/-- Valid tailings of a tile: none where TAIL_COUNT is 0 or the tile is not INT8 (R416). -/
def State.tails (s : State) (c core addr : Nat) : List (Nat × Nat) :=
  let h := leNat (s.readAt c core addr 32)
  if hdFmt h ≠ fmtInt8 ∨ hdTailCount h = 0 then [] else tailEntries (hdTailCount h) (s.tailBlock c core addr (hdTailOfs h))

/-- A tile's elements with its escapes applied as +127 or -127 (R109, R243), and the indexes that are escapes and those
without an entry (R417). -/
def State.inputTile (s : State) (c core addr n : Nat) (int4 : Bool) : List Int × List Nat × List Nat :=
  let h := leNat (s.readAt c core addr 32)
  let xs := tileInputs int4 n (s.readAt c core (addr + 32) (if int4 then ceilDiv n 2 else n))
  if int4 ∨ hdFmt h ≠ fmtInt8 then (xs, [], [])
  else
    let ts := s.tails c core addr
    let esc := ((indexed xs).filter (fun x => x.2 == -128)).map (fun x => x.1)
    let val (i : Nat) : Int := match ts.find? (fun t => t.1 = i) with
      | some t => if bitAt t.2 31 then -127 else 127
      | none => -127
    (if esc.isEmpty then xs else (indexed xs).map (fun x => if x.2 = -128 then val x.1 else x.2),
      esc, esc.filter (fun i => !ts.any (fun t => t.1 == i)))

/-- ORPHAN_ESCAPE of the elements without an entry (R417, R461). -/
def State.orphans (s : State) (c core tag addr : Nat) (l : List Nat) (t : Option Tag) : State :=
  forEach l s (fun s i => s.raiseHeld c t (fun s => s.number core nuOrphan tag i addr))

/-! ## Confirmation state of an optical result (R292, R293) -/

/-- Tag of data whose last symbol fell in an epoch: none once its verdict is clean; spoiled where it was dirty. -/
def State.opticalTag (s : State) (e ep : Nat) : Option Tag :=
  match (s.engine e).history.find? (fun v => v.epoch = ep) with
  | some v => if v.clean then none else some { epoch := ep, spoiled := true }
  | none => some { epoch := ep, spoiled := false }

def WeightSet.tag (w : WeightSet) : Option Tag := if w.unconf then some { epoch := w.epoch, spoiled := w.spoiled } else none


/-! ## Weight sets (R255, R267, R269, R306) -/

/-- Weight bytes of a tile's payload, by 64 * row + line. -/
def weightTab (payload : List Byte) : Tab Int :=
  (indexed payload).filterMap (fun x => if x.2 = 0 then none else some (x.1, signed 8 x.2.toNat))

/-- The set that a WEIGHT_LOAD of a pass forms from its tile (R267, R416). -/
def State.weightSet (s : State) (c i pass : Nat) : WeightSet :=
  let x := s.cluster c
  let a := x.addrOf pass 0xFF (dSrc (x.task i))
  let t := s.tagAt c 0xFF a 4128
  { loaded := true, q := weightTab (s.readAt c 0xFF (a + 32) 4096), unconf := t.isSome
    spoiled := (t.map (fun (y : Tag) => y.spoiled)).getD false, epoch := (t.map (fun (y : Tag) => y.epoch)).getD 0
    codes := [], power := [], sat := false, since := s.now, task := i, pass := pass }

/-- The set is the one that a WEIGHT_LOAD of a pass loaded. -/
def WeightSet.isOf (w : WeightSet) (i pass : Nat) : Bool := w.loaded && w.task == i && w.pass == pass

/-- Holds of weight tiles that have ended (R306). -/
def State.releaseHolds (s : State) (c : Nat) : State :=
  let x := s.cluster c
  if !x.log.any (fun e => e.hold) then s else
  let g := s.engine c
  let keep (e : LogEntry) : Bool := !e.hold || (match e.weight with
    | some w => x.log.any (fun f => !f.hold && f.weight == some w)
    | none => g.active.isOf e.task e.pass || g.shadow.isOf e.task e.pass
        || (match x.run e.task with
          | some r => r.active && r.pass == e.pass
          | none => false))
  s.modCluster c (fun x => { x with log := x.log.filter keep })

/-- WEIGHT_LOAD_COMPLETE: the shadow holds carry the set, 64 ns on; it waits while a refresh or a detour batch uses them (R253, R256,
R267, R269). -/
def State.weightComplete (s : State) (c i : Nat) (ws : List Clash) : State :=
  match s.running c i with
  | none => s
  | some r =>
    if dKind ((s.cluster c).task i) ≠ kWeight ∨ !(s.engine c).batch.isEmpty ∨ s.now < max r.at_ (s.engine c).refreshUntil + 64 then s
    else
      let m := s.meets c i r.pass ws
      let s := m.1
      let w := (s.clashed c (r.clashes ++ m.2)).weightSet c i r.pass
      let s := s.modEngine c (fun x =>
        let l := x.loadSet w
        { x with shadow := l.1, status := x.status.hitN 0 l.2 })
      let s := if r.stopped.isSome then s.stopped c i r none else s.complete c i r none
      s.releaseHolds c


/-! ## The engine's order of tasks (R284, R287) -/

/-- Detour image of an unplanned detour has been fetched (R199); a planned one needs no wait. -/
def Slab.imageReady (x : Slab) : Bool := x.dress != .detour || x.detourReady

/-- A task that waits for the engine. -/
def State.waitsEngine (s : State) (c i : Nat) : Bool :=
  let x := s.cluster c
  match x.run i with
  | some r => r.phase == .running && !r.begun && (dKind (x.task i) == kOptical
      || (r.detour && (x.slabsOf c i).all (fun k => (s.slab k).imageReady)))
  | none => false

/-- Tasks that wait, in dispatch order. -/
def State.engineQueue (s : State) (c : Nat) : List Nat :=
  let x := s.cluster c
  sortBy (fun i => match x.run i with
    | some r => r.at_
    | none => 0) ((x.runs.map (fun r => r.1)).filter (s.waitsEngine c))

/-- The engine has a task under way. -/
def State.engineBusy (s : State) (c : Nat) : Bool :=
  let x := s.cluster c
  !(s.engine c).batch.isEmpty || x.runs.any (fun r => (r.2.phase == .running || r.2.phase == .paused) && r.2.begun
    && dKind (x.task r.1) == kOptical)

/-- WEIGHT_REFRESH: the active set in force for 100 us, or whose lines' powers have moved, is loaded again under the NORM of now and
swapped, in a gap between tasks, in the housekeeping slot or, from 150 us on, between two symbols of a task (R252, R256). It ends once
the swap and the reload of a pending shadow set are over. DESIGN CHOICE: in a gap, where no task gives a rate, the swap guard is that of
the last OPTICAL_MVM's rate (assumption 106). -/
def State.refreshWeights (s : State) (e : Nat) : State :=
  let x := s.engine e
  let at150 := decide (x.active.since + 150000 ≤ s.now)
  if !x.active.loaded || (decide (s.now < x.active.since + 100000) && !x.refreshDue) || !x.batch.isEmpty || decide (s.now < x.refreshUntil)
      || (s.engineBusy e && !s.inSlot && !at150) then s
  else
    let ns := 64 + ceilDiv (guardSyms x.rateLast * symPeriod x.rateLast) 1024 + (if x.shadow.loaded then 64 else 0)
    s.swapSets e (fun x => { x.reload s.now with refreshUntil := s.now + ns })

/-- The set that an OPTICAL_MVM runs on: a replay loads its own into the shadow holds again, in place of a set that waits there, and
swaps (R269, R305); a SWAP takes the loaded shadow set (R254, R270). DEDUCED: the former active set leaves the weight store with the
swap, so that the shadow is empty after it (assumption 42). -/
def State.takeSet (s : State) (c i : Nat) (r : TaskRun) : State :=
  let x := s.cluster c
  let d := x.task i
  let mine := (x.log.find? (fun e => decide (e.task = i) && decide (e.pass = r.pass) && !e.hold)).bind (fun (e : LogEntry) => e.weight)
  match r.replayed, mine with
  | true, some w =>
    s.swapSets c (fun g =>
      let l := g.loadSet (s.weightSet c w.1 w.2)
      { g with active := l.1, shadow := WeightSet.init, status := g.status.hitN 0 l.2 })
  | _, _ =>
    if !omSwap d then s
    else if !(s.engine c).shadow.loaded then s.opticalFlag c opSwapEmpty 8 0x7F 0xFF 0 (dTag d)
    else s.swapSets c (fun g => { g with active := { g.shadow with since := s.now }, shadow := WeightSet.init })

/-- An OPTICAL_MVM starts on the engine, at the end of a refresh under way. -/
def State.beginOptical (s : State) (c i start : Nat) (r : TaskRun) : State :=
  let s := s.takeSet c i r
  let w := (s.engine c).active
  let mark := if w.loaded then some (w.task, w.pass) else none
  let s := s.modCluster c (fun x => { x.setRun i { r with begun := true, applied := start, lost := s.time.lost, delay := 0 } with
    log := x.log.map (fun (e : LogEntry) =>
      if e.task = i ∧ e.pass = r.pass ∧ !e.hold then { e with weight := mark }
      else if e.hold ∧ mark = some (e.task, e.pass) then { e with weight := mark } else e) })
  (s.modEngine c (fun g => { g with rateLast := omRate ((s.cluster c).task i) })).releaseHolds c

/-- Of waiting tasks in dispatch order, those on slab `k` that no earlier one left out shares a slab with (R284, R285): `left` holds the
slabs of those left out. -/
def Cluster.gather (x : Cluster) (c k : Nat) : List Nat → List Nat → List Nat
  | [], _ => []
  | j :: l, left =>
    let ks := x.slabsOf c j
    if dKind (x.task j) = kSlab ∧ ks.contains k ∧ !ks.any left.contains then j :: x.gather c k l left
    else x.gather c k l (if dKind (x.task j) = kSlab then ks ++ left else left)

/-- A batch takes up to 64 waiting tasks of one slab, in dispatch order (R284). -/
def State.beginBatch (s : State) (c i start : Nat) : State :=
  let x := s.cluster c
  let k := (x.slabsOf c i).headD 0
  let l := (x.gather c k (s.engineQueue c) []).take 64
  let s := s.modCluster c (fun x => l.foldl (fun x j => match x.run j with
    | some r => x.setRun j { r with begun := true, applied := start, lost := s.time.lost, delay := 0 }
    | none => x) x)
  s.modEngine c (fun g => { g with batch := l.map (fun j => (k, j)) })

/-- STALL_NS grows (R256, R281). -/
def Engine.addStall (x : Engine) (ns : Nat) : Engine := { x with stallNs := min (x.stallNs + ns) 0xFFFFFFFF }
/-- Symbols were delayed (R281). -/
def Engine.stall (x : Engine) (ns : Nat) : Engine := let y := x.addStall ns; { y with status := y.status.hitIf (decide (0 < ns)) 4 }

/-- A row in SERVICE whose loop is being acquired after its light was off does not serve (R364). -/
def State.rowsServe (s : State) (e : Nat) : Bool :=
  (List.range 66).all (fun p =>
    let x := s.loop (rowLoop e p)
    (s.engine e).rowState p != .service || !(x.queued || x.phase == .sweep || x.phase == .pilotWait || x.phase == .failed))

/-- The free engine takes its next task (R287), outside the housekeeping slot (R89, R880), once the restore of a batch is over (R879).
One that comes during a refresh waits for its end (R256), one that comes while its rings are being acquired for them (R364). -/
def State.engineNext (s : State) (c : Nat) : State :=
  if s.engineBusy c || s.inSlot || !s.runsPlans || !s.rowsServe c then s
  else match s.engineQueue c with
  | [] => s
  | i :: _ =>
    match (s.cluster c).run i with
    | some r =>
      let free := max s.now (s.engine c).freeAt
      let start := max free (s.engine c).refreshUntil
      let s := s.modEngine c (fun g => g.addStall (start - free))
      if r.detour then s.beginBatch c i start else s.beginOptical c i start r
    | none => s

/-! ## OPTICAL_MVM (R275 to R279, R282) -/

/-- The vectors of a task: elements, and whether an escape is among them. -/
def State.omVectors (s : State) (c i : Nat) (r : TaskRun) : List (List Int × Bool) × List (Nat × List Nat) :=
  let x := s.cluster c
  let d := x.task i
  let a := x.addrOf r.pass 0xFF (dSrc d)
  let per := omVecsIn d
  let tiles := (List.range (omInTiles d)).map (fun k => (k, s.inputTile c 0xFF (a + 4128 * k) (64 * min per (omVcount d - k * per)) (omInt4 d)))
  let vecs := tiles.flatMap (fun t => (List.range (min per (omVcount d - t.1 * per))).map (fun v =>
    ((t.2.1.drop (64 * v)).take 64, t.2.2.1.any (fun j => j / 64 == v))))
  (vecs, (tiles.filter (fun t => !t.2.2.2.isEmpty)).map (fun t => (a + 4128 * t.1, t.2.2.2)))

/-- Bytes of a result (R277). -/
def omElem (d : Desc) (v : Int) : List Byte :=
  match omOut d with
  | 0 => toLe 8 (unsigned 64 v)
  | 1 => toLe 1 (intBits fmtInt8 (rescale fmtInt8 v (omM d) (omS d)))
  | _ => toLe 2 (intBits fmtInt16 (rescale fmtInt16 v (omM d) (omS d)))

def omFmt (d : Desc) : Nat := match omOut d with
  | 0 => fmtInt40
  | 1 => fmtInt8
  | _ => fmtInt16

/-- One output tile from its vectors' results (R276, R278). -/
def omTile (d : Desc) (res : List (List (Int × Bool) × Bool)) (setSat late : Bool) (t : Option Tag) : List Byte :=
  let fl : HFlags := { HFlags.none with
    sat := setSat || res.any (fun v => v.2), clip := res.any (fun v => v.1.any (fun r => r.2)), late := late }
  let body := res.flatMap (fun v => v.1.flatMap (fun r => omElem d r.1) ++ List.replicate ((64 - v.1.length) * omE d) (0 : Byte))
  mkHeader (dTensor d) (omFmt d) (dScale d) fl t 0 0 ++ body ++ List.replicate (4096 - body.length) 0

/-- The results of the first `n` vectors, the last of them at clock `till`, are written (R276, R282); gives the tag of the output. -/
def State.omWrite (s : State) (c i n till : Nat) (r : TaskRun) (late : Bool) (noise : Nat → Int) : State × Option Tag :=
  let x := s.cluster c
  let d := x.task i
  let g := s.engine c
  let vs := (s.clashed c r.clashes).omVectors c i r
  let vecs := vs.1.take n
  let qs := (List.range (omRows d)).map (fun k => g.active.row k)
  let res := (indexed vecs).map (fun v => ((indexed qs).map (fun q => opticalRow (omInt4 d) v.2.1 q.2 (noise (64 * v.1 + q.1))), v.2.2))
  let ep := s.epochOf till
  let t := joinTag (s.inputTag c i r.pass) (joinTag (s.opticalTag c ep) g.active.tag)
  let per := omVecsOut d
  let dst := x.addrOf r.pass 0xFF (dDst d)
  let s := vs.2.foldl (fun s o => s.orphans c (64 * c) (dTag d) o.1 o.2 (s.inputTag c i r.pass)) s
  let s := forEach (List.range (ceilDiv n per)) s (fun s k =>
    s.writeAt c 0xFF (dst + 4128 * k) (omTile d ((res.drop (k * per)).take per) g.active.sat late t) t)
  let s := if n = 0 then s else s.clashWrites c r.clashes
  let clips := (res.map (fun v => (v.1.filter (fun q => q.2)).length)).sum
  let escs := (res.filter (fun v => v.2)).length
  let s := s.modEngine c (fun g => { g with status := (g.status.hitN 1 clips).hitN 0 escs })
  (if n = 0 then s else s.integrate c (r.firstSymbol d) till n, t)

/-- OPTICAL_MVM_COMPLETE: `stallNs` is the delay of its symbols (R281). It comes no sooner than R279 gives, and waits while a line that it
writes is held (R300). -/
def State.opticalComplete (s : State) (c i stallNs : Nat) (ws : List Clash) (noise : List Int) : State :=
  match s.running c i with
  | none => s
  | some r =>
    let d := (s.cluster c).task i
    if dKind d ≠ kOptical ∨ !r.begun ∨ s.ran r + s.tailRest (omRate d) < omNs d r.replayed + stallNs ∨ s.heldBack c i r then s
    else
      let m := s.meets c i r.pass ws
      let r := { r with clashes := r.clashes ++ m.2 }
      let s := m.1.modEngine c (fun g => g.stall stallNs)
      let out := s.omWrite c i (omVcount d) (s.now - tailNs (omRate d)) r (r.late || (s.lateBy c i).isSome) (fun j => nth 0 noise j)
      (((out.1.complete c i r out.2).releaseHolds c).engineNext c)

/-- An OPTICAL_MVM stopped, with a free number of vectors integrated, as many as it has had symbol periods for (R282): the periods
without one were stalls (R281). `tile`: it stops at the end of the output tile that it is producing, and with its last one it completes
(R303, R875); a paused one is at the end of a tile. It writes nothing into a line that is held (R300). -/
def State.stopOptical (s : State) (c i : Nat) (r : TaskRun) (tile late : Bool) : State :=
  let d := (s.cluster c).task i
  if !r.begun ∨ s.heldBack c i r then s.stopped c i r none
  else
    let paused := r.phase == .paused
    let m := s.symbols d r
    let k := if paused then r.sent else max r.sent (s.freeNat % (min m (omVcount d) + 1))
    let n := if tile && !paused then omTileEnd d k else k
    let whole := tile && decide (n = omVcount d)
    let till := if paused then r.applied else if tile then s.now + s.toTileEnd d r k else s.now
    let base := s.free + 1
    let s := { s with free := base + 64 * omVcount d }.modEngine c (fun g =>
      g.stall (if paused || k == omVcount d then 0 else (m - k) * symPeriod (omRate d) / 1024))
    let out := s.omWrite c i n till r (s.lateAtStop c i r late whole) (fun j => signed 22 (Config.freeNat (base + j)))
    (out.1.endShort c i r out.2 whole).releaseHolds c

/-! ## Detour batches (R285 to R288, R198) -/

/-- Byte q of a detour image for an output and an input row (R195). -/
def imageQ (img : List Byte) (o row : Nat) : Int :=
  signed 8 (nth (0 : Byte) img (4096 * (4 * (o / 64) + row / 64) + 64 * (o % 64) + row % 64)).toNat

/-- The total of one output over the blocks that share it, and whether a row clipped (R285, R286). -/
def detourTotal (int4 : Bool) (fmt4 : Bool) (img : List Byte) (xs : List Int) (o : Nat) (noise : Nat → Int) : Int × Bool :=
  let rs := (List.range 4).map (fun ib =>
    opticalRow int4 ((xs.drop (64 * ib)).take 64) ((List.range 64).map (fun n => imageQ img o (64 * ib + n))) (noise ib))
  let v := sumI (rs.map (fun r => r.1))
  (if fmt4 then divRound v 16 else v, rs.any (fun r => r.2))

/-- The inputs of a segment in their rows, all 256 (R114). -/
def rowInputs (d : Desc) (seg : List Int) : List Int :=
  List.replicate (smBase d) 0 ++ seg ++ List.replicate (256 - smBase d - seg.length) 0

/-- The detour image of a slab (R195). -/
def State.image (s : State) (k : Nat) : List Byte :=
  let x := s.slab k
  match x.master with
  | some m => s.haulRead (slabCluster k) (hbmKey m.1 (m.2 + Config.detourOfs)) (ceilDiv x.outputs 64 * 16384)
  | none => []

/-- Weights of a slab's detour image whose DAC code is clamped as its blocks are loaded (R247). -/
def State.imageClamps (s : State) (k : Nat) : Nat :=
  let g := s.engine (slabCluster k)
  let img := s.image k
  ((List.range (s.slab k).outputs).map (fun o => (List.range 256).countP (fun row =>
    imageQ img o row != 0 && g.clamped (o % 64) (row % 64) (imageQ img o row)))).sum

/-- Format of an output in a slab's map. -/
def Slab.outFmt (x : Slab) (o : Nat) : Nat := match x.outCols o with
  | j :: _ => cmFmt (nth 0 x.map j)
  | [] => 3

/-- Totals of a task on one slab. -/
def State.detourTotals (s : State) (d : Desc) (k pos : Nat) (input : List Int) (noise : Nat → Int) : List (Int × Bool) :=
  let x := s.slab k
  let img := s.image k
  let xs := rowInputs d (segOf d pos input)
  (List.range x.outputs).map (fun o => detourTotal (smInt4 d) (x.outFmt o == 2) img xs o (fun ib => noise (4 * o + ib)))

/-- Totals added exactly into BASE of a live set (R198). `sat`: a weight of their blocks was clamped (R247). -/
def Slab.addTotals (x : Slab) (d : Desc) (i rows : Nat) (esc sat : Bool) (t : Option Tag) (tot : List (Int × Bool)) : Slab :=
  let x := x.firstAdd (smKeep d) esc t i
  let out := (indexed tot).foldl (fun (acc : Tab Int × Bool) o =>
    let r := satI lim40 (tabGet 0 acc.1 o.1 + o.2.1)
    (tabSet 0 acc.1 o.1 r.1, acc.2 || r.2)) (x.live.base, false)
  let clip := tot.any (fun o => o.2)
  let x := { x with live := { x.live with base := out.1, sat := x.live.sat || out.2 || sat, clip := x.live.clip || clip }, rowgrpLast := smRowgrp d }
  ((x.hit out.2 0).hit clip 1).countRows rows

/-- Element-wise sum of totals. -/
def sumTotals : List (Int × Bool) → List (Int × Bool) → List (Int × Bool)
  | a :: s, b :: t => (a.1 + b.1, a.2 || b.2) :: sumTotals s t
  | [], t => t
  | s, [] => s

/-- One task of a batch of `size` (R285, R288): its totals into its slabs' live sets, then its drain. `n` is its place, and so of its
last symbol in the last block. -/
def State.detourTask (s : State) (c n size i : Nat) (noise : List Int) : State :=
  match s.running c i with
  | none => s
  | some r =>
    if !r.detour ∨ !r.begun then s
    else
      let d := (s.cluster c).task i
      let ks := (s.cluster c).slabsOf c i
      let tots := (indexed ks).map (fun k => s.detourTotals d k.2 k.1 r.input (fun j => nth 0 noise ((4 * n + k.1) * 340 + j)))
      let t := joinTag r.tag (s.opticalTag c (s.time.epochAt (s.timeNat - tailNs 1 - (size - 1 - n) * symPeriod 1 / 1024)))
      let sat (k : Nat) : Bool := decide (0 < s.imageClamps k)
      let esc (pos : Nat) : Bool := r.escapes.any (fun j => smChain d == false || (decide (segStart d pos ≤ j) && decide (j < segStart d pos + smRows d)))
      let s := if smChain d then
          (match ks with
          | k0 :: rest =>
            let s := s.modSlab k0 (fun y => y.addTotals d i (smRows d * ks.length) (!r.escapes.isEmpty) (ks.any sat) t (tots.foldl sumTotals []))
            forEach rest s (fun s k => s.modSlab k (fun y => { y with live := AccSet.init }))
          | [] => s)
        else forEach (indexed ks) s (fun s k => s.modSlab k.2 (fun y => y.addTotals d i (smRows d) (esc k.1) (sat k.2) t (nth [] tots k.1)))
      let clips := (tots.flatMap (fun l => l.filter (fun o => o.2))).length
      let s := s.modEngine c (fun g => { g with status := (g.status.hitN 1 clips).hitN 0 r.escapes.length })
      let late := r.late || (s.lateBy c i).isSome
      let out := s.drainTask c i r late
      if r.stopped.isSome then out.1.stopped c i r out.2 else out.1.complete c i r out.2

/-- Slabs that the tasks of a batch name, and the blocks of their images that it passes. -/
def State.batchSlabs (s : State) (c : Nat) (b : List (Nat × Nat)) : List Nat := (b.flatMap (fun x => (s.cluster c).slabsOf c x.2)).dedup
def State.batchBlocks (s : State) (c : Nat) (b : List (Nat × Nat)) : Nat :=
  ((s.batchSlabs c b).map (fun k => 4 * ceilDiv (s.slab k).outputs 64)).sum

/-- Clock at which the restore of a batch is over that began at a clock and has passed `b` blocks (R879): the active set is loaded from
the end of the last block's load, swapped in with a guard once the last symbol has ended, and a pending shadow set loaded again. -/
def State.restoreEnd (s : State) (c start b : Nat) : Nat :=
  max (start + 16 + 64 * (b + 1)) (s.now - tailNs 1) + ceilDiv (guardSyms 1 * symPeriod 1) 1024
    + (if (s.engine c).shadow.loaded then 64 else 0)

/-- DETOUR_BATCH_COMPLETE, no sooner than R879 gives and while no line that a task drains to is held (R300): what it takes longer is
stall (R281). The restore loads the weight store's sets under the NORM of now and swaps (R287). What the conversions show beyond the
ideal is listed by task, slab, output and block of its four, 340 to a slab (assumption 6). -/
def State.batchComplete (s : State) (c : Nat) (noise : List Int) : State :=
  let b := (s.engine c).batch
  match b with
  | [] => s
  | first :: _ =>
    let start := match (s.cluster c).run first.2 with
      | some r => r.applied
      | none => s.now
    let ran := (match (s.cluster c).run first.2 with
      | some r => s.ran r
      | none => 0) + s.tailRest 1
    let blocks := s.batchBlocks c b
    let ns := batchNs b.length blocks
    if ran < ns ∨ b.any (fun x => ((s.cluster c).run x.2).any (s.heldBack c x.2)) then s
    else
      let stall := ran - ns
      let clamps := ((s.batchSlabs c b).map s.imageClamps).sum
      let done := s.restoreEnd c start blocks
      let s := forEach (indexed b) s (fun s x => s.detourTask c x.1 b.length x.2.2 noise)
      let s := (s.integrate c (start + batchLead) (s.now - tailNs 1) (blocks * b.length)).swapSets c (fun g =>
        { (g.reload s.now).stall stall with batch := [], freeAt := done, status := ((g.reload s.now).stall stall).status.hitN 0 clamps })
      s.engineNext c

/-! ## The rows -/

def execOpticalMvmComplete (dt : Nat) (cluster : ClusterId) (task : Fin 4096) (stallNs : Nat) (collisions : List Clash) (noise : List Int)
    (s : State) : Host.Outcome State Fault Refusal :=
  let s := s.elapse dt
  .next (s.opticalComplete cluster (s.taskKey cluster task) stallNs collisions noise)


def execWeightRefresh (dt : Nat) (engine : EngineId) (s : State) : Host.Outcome State Fault Refusal :=
  .next ((s.elapse dt).refreshWeights engine)

end Sys2Proof.Machine
end

