-- ==== Sys2Proof/Machine/Vector.lean ====
section
/-! DEFINITION. The vector engine (07, R440 to R461): the checks at dispatch, its operations, the scale tracker's reports
(R432), its completion and its stop; and the tile checks that every engine shares (R418, R425, R876). -/

namespace Sys2Proof.Machine

/-! ## Scales (R424) -/

/-- SCALE of an index as an FP32 code: 1.0 for 0xFFFF. -/
def State.scaleCode (s : State) (c idx : Nat) : Nat :=
  if idx = 0xFFFF then 0x3F800000 else (tabGet Scale.init (s.cluster c).scales idx).scale.toNat

/-- The index is neither 0xFFFF nor below SCALE_COUNT (R425). -/
def State.scaleBad (s : State) (c idx : Nat) : Bool := idx != 0xFFFF && decide ((s.cluster c).scaleCount ≤ idx)

/-! ## Tile checks (R418, R425) -/

/-- A tile that a task reads: address and header. -/
abbrev Tile := Nat × Hdr

/-- Headers of a run of tiles at a stride of 4,128 bytes (R406). -/
def State.tilesAt (s : State) (c core base n : Nat) : List Tile :=
  (List.range n).map (fun k => (base + 4128 * k, leNat (s.readAt c core (base + 4128 * k) 32)))

/-- INDEX values that repeat or are not in ascending order (R415). -/
def tailsBad : List (Nat × Nat) → Bool
  | a :: b :: t => decide (b.1 ≤ a.1) || tailsBad (b :: t)
  | _ => false

/-- First tile whose tailings list keeps the task from running (R418): `data` tiles are also checked for R415. -/
def State.tailFault (s : State) (c core : Nat) (data other : List Tile) : Option Nat :=
  match (data ++ other).find? (fun t => decide (32 < hdTailCount t.2)) with
  | some t => some t.1
  | none => (data.find? (fun t => tailsBad (s.tails c core t.1))).map (fun t => t.1)

/-- The tailings and scale checks of R876: cause and ADDR of FORMAT_FAULT. -/
def State.tileFault (s : State) (c core dscale : Nat) (data other : List Tile) : Option (Nat × Nat) :=
  match s.tailFault c core data other with
  | some a => some (0, a)
  | none =>
    match (data ++ other).find? (fun t => s.scaleBad c (hdScale t.2)) with
    | some t => some (1, t.1)
    | none => if s.scaleBad c dscale then some (1, 0) else none

/-! ## VECTOR: operands and formats (R443, R445, R447) -/

/-- Base addresses of the operands in the copy of a pass: a, then b, then the mask. -/
def vecBases (x : Cluster) (d : Desc) (pass : Nat) : List Nat :=
  ([dSrc d] ++ (if veBinary d then [veSrc2 d] else []) ++ (if veOp d = vSel then [veM d] else [])).map
    (x.addrOf pass (dLcore d))

/-- Tiles of each operand. -/
def State.vecTiles (s : State) (c i pass : Nat) : List (List Tile) :=
  let x := s.cluster c
  let d := x.task i
  (vecBases x d pass).map (fun b => s.tilesAt c (dLcore d) b (veTiles d))

/-- Format of operand a. -/
def fmtOf (ops : List (List Tile)) : Nat := hdFmt (((ops.headD []).headD (0, 0)).2)
/-- Address of the first tile of operand `k`. -/
def addrOfOp (ops : List (List Tile)) (k : Nat) : Nat := ((nth [] ops k).headD (0, 0)).1

/-- Output format: INT8 of a CMP, OFMT otherwise (R445). -/
def vecFmt (d : Desc) : Nat := if veOp d = vCmp then fmtInt8 else veOfmt d
/-- Output elements (R445). -/
def vecOut (d : Desc) (fa : Nat) : Nat :=
  if veOp d = vSum then fmtElems fa
  else if veOp d = vRsum then veTiles d * fmtElems fa / 2 ^ veSub d else veTiles d * fmtElems fa
/-- Output tiles. -/
def vecOutTiles (d : Desc) (fa : Nat) : Nat := ceilDiv (vecOut d fa) (fmtElems (vecFmt d))

/-- The operation accepts the input format (R447). -/
def vecAccepts (op fa : Nat) : Bool :=
  if op = vAct then fa == fmtBf16 || fa == fmtFp32
  else if op = vRescale then fmtIsInt fa
  else if op = vAdd ∨ op = vSub ∨ op = vMul ∨ op = vSum ∨ op = vRsum then fa != fmtE4M3 && fa != fmtE5M2
  else true

/-- OFMT goes with the input format (R447). -/
def vecOfmtOk (d : Desc) (fa : Nat) : Bool :=
  let op := veOp d
  let f := veOfmt d
  if op = vAdd ∨ op = vSub ∨ op = vMul ∨ op = vSel then
    if fmtIsInt fa then fmtIsInt f && decide (fmtWidth fa ≤ fmtWidth f) else f == fa
  else if op = vSum ∨ op = vRsum then (if fmtIsInt fa then f == fmtInt64 else f == fa)
  else true

/-- Format checks of R447, R456 and R457 in order: cause and ADDR. -/
def vecFormatFault (d : Desc) (ops : List (List Tile)) : Option (Nat × Nat) :=
  let fa := fmtOf ops
  let odd := ops.findSome? (fun op => op.find? (fun t => !fmtValid (hdFmt t.2) || hdFmt t.2 != hdFmt ((op.headD (0, 0)).2)))
  match odd with
  | some t => some (2, t.1)
  | none =>
    if veBinary d && hdFmt (((nth [] ops 1).headD (0, 0)).2) != fa then some (2, addrOfOp ops 1)
    else if veOp d = vSel ∧ hdFmt (((nth [] ops 2).headD (0, 0)).2) ≠ fmtInt8 then some (2, addrOfOp ops 2)
    else if !vecAccepts (veOp d) fa then some (2, addrOfOp ops 0)
    else if !vecOfmtOk d fa then some (2, 0)
    else
      let a := ops.headD []
      let differs := a.find? (fun t => hdScale t.2 != hdScale ((a.headD (0, 0)).2))
      match (if veOp d = vSum then differs else none) with
      | some t => some (3, t.1)
      | none =>
        if veOp d = vRsum ∧ fmtElems fa < 2 ^ veSub d then some (4, addrOfOp ops 0)
        else if dLength d < 4128 * vecOutTiles d fa then some (5, 0)
        else none

/-! ## The rescale ratio (R431, R449) -/

/-- Ratio of an input scale to the output scale, as an FP32 code. -/
def scaleRatio (sin sout : Nat) : Nat := fpEncode 9 ((fpDecode 9 sin).divFp32 (fpDecode 9 sout))

/-- DETAIL of SCALE_RANGE where the task is not run: `sin` the scales of the input tiles, `sout` that of the output. -/
def vecRangeFault (d : Desc) (fa : Nat) (sin : List Nat) (sout : Nat) : Option Nat :=
  if veOp d = vRescale then (if veM d = 0 then some 0 else none)
  else if veOp d = vQuant ∧ fmtIsInt fa then
    (sin.map (fun a => scaleRatio a sout)).find? (fun q => (toMs (fpDecode 9 q)).isNone)
  else none

/-- What the task reads of the scale table at its dispatch (R426, R453): the scales of operand a's tiles, then that of its own
SCALE_INDEX. -/
def State.vecScales (s : State) (c i pass : Nat) : List Nat :=
  (((s.vecTiles c i pass).headD []).map (fun t => s.scaleCode c (hdScale t.2))) ++ [s.scaleCode c (dScale ((s.cluster c).task i))]

/-! ## Elements (R416, R417, R448) -/

/-- The elements of a tile as the operation reads them: `exact` for those that read VALUE (R448). Gives the elements, whether
an escape was read as +127 or -127, and the elements without an entry. -/
def State.vecElems (s : State) (c core : Nat) (t : Tile) (exact : Bool) : List Num × Bool × List Nat :=
  let f := hdFmt t.2
  let l := (bytesElems f (s.readAt c core (t.1 + 32) 4096)).map (elemNum f)
  let esc := if f = fmtInt8 then ((indexed l).filter (fun x => x.2 == Num.int (-128))).map (fun x => x.1) else []
  if esc.isEmpty then (l, false, [])
  else
    let ts := s.tails c core t.1
    let ent (i : Nat) : Option (Nat × Nat) := ts.find? (fun e => e.1 = i)
    let val (i : Nat) : Num := match ent i with
      | some e => if exact then .fp (fpDecode 9 e.2) else .int (if bitAt e.2 31 then -127 else 127)
      | none => .int (-127)
    ((indexed l).map (fun x => if esc.contains x.1 then val x.1 else x.2),
      !exact || esc.any (fun i => (ent i).isNone), esc.filter (fun i => (ent i).isNone))

/-! ## Operations -/

/-- Exact integer of an element (integer formats). -/
def Num.toInt : Num → Int
  | .int x => x
  | .fp _ => 0

def bothInt : Num → Num → Bool
  | .int _, .int _ => true
  | _, _ => false

/-- ADD, SUB, MUL of two elements, written in a format (R405, R440). -/
def vecArith (op f : Nat) (a b : Num) : Nat × Bool :=
  if bothInt a b then
    satWrite f (.int (if op = vAdd then a.toInt + b.toInt else if op = vSub then a.toInt - b.toInt else a.toInt * b.toInt))
  else
    let x := a.toF
    let y := b.toF
    satWrite f (.fp (if op = vAdd then x.add y else if op = vSub then x.add y.neg else x.mul y))

/-- CMP (R443): a NaN is unequal to everything and stands in no order. -/
def vecCmp (sub : Nat) (a b : Num) : Bool :=
  match a.toF.cmp b.toF, sub with
  | some o, 0 => o == .eq
  | some o, 1 => o != .eq
  | some o, 2 => o == .lt
  | some o, 3 => o != .gt
  | some o, 4 => o == .gt
  | some o, _ => o != .lt
  | none, k => k == 1

/-- Sum of floating-point values in FP32, first to last (R455). -/
def sumFp32 : List FVal → FVal
  | [] => .fin false 0 0
  | a :: t => t.foldl (fun x y => fp32Round (x.add y)) a

/-- One level of the pairwise tree. -/
def pairUp : List FVal → List FVal
  | a :: b :: t => fp32Round (a.add b) :: pairUp t
  | l => l

/-- Pairwise sum of a group of 2^k values (R455). -/
def treeFp32 : Nat → List FVal → FVal
  | 0, l => l.headD (.fin false 0 0)
  | k + 1, l => treeFp32 k (pairUp l)

/-- SUM of one element over the tiles (R405, R454, R455): where the exact sum lies beyond the range, its nearest end. -/
def vecSum (f : Nat) (int : Bool) (l : List Num) : Nat × Bool :=
  if int then satWrite f (.int (sumI (l.map Num.toInt)))
  else
    let vs := l.map Num.toF
    match vs.foldl FVal.add (.fin false 0 0) with
    | .fin neg m e =>
      let x := fpFrac m e
      if fpBeyond f x.1 x.2 then satWrite f (.fp (.fin neg m e)) else (fpEncode f (sumFp32 vs), false)
    | _ => (fpEncode f (sumFp32 vs), false)

/-- RSUM of one group (R454, R455, R457). -/
def vecRsum (f k : Nat) (int : Bool) (l : List Num) : Nat × Bool :=
  if int then satWrite f (.int (sumI (l.map Num.toInt))) else (fpEncode f (treeFp32 k (l.map Num.toF)), false)

/-- Consecutive groups of `n` elements. -/
def groupsOf (n : Nat) : Nat → List Num → List (List Num)
  | 0, _ => []
  | k + 1, l => l.take n :: groupsOf n k (l.drop n)

/-- What QUANT makes of one element: its real value in FP32, the exact value in code units of the output, its bits (R449).
`ms`: M and S where the input is an integer. -/
structure Quant where
  real : FVal
  code : FVal
  bits : Nat
deriving DecidableEq, Repr

/-- An exact value times M / 2^(31+S). -/
def FVal.scaleMs (v : FVal) (m s : Nat) : FVal := v.mul (.fin false m (-(31 + s : Nat)))

def quantOf (f sin sout : Nat) (ms : Option (Nat × Nat)) (x : Num) : Quant :=
  let real := fp32Round (x.toF.mul (fpDecode 9 sin))
  match ms with
  | some (m, sh) =>
    let v := x.toF.scaleMs m sh
    { real := real, code := v, bits := match x with
      | .int n => rescaleTo f n m sh
      | .fp w => rescaleFp f w m sh }
  | none =>
    let v := real.divFp32 (fpDecode 9 sout)
    { real := real, code := v, bits := cvt f (.fp v) }

/-- The rounded code lies outside +127 or -127 (R419). -/
def Quant.outlier (q : Quant) : Bool :=
  match q.code with
  | .nan => false
  | .inf _ => true
  | .fin neg m e => decide (127 < (fpToInt neg m e).natAbs)

/-- Escapes of one output tile (R419): the elements' bits with the first 32 outliers as -128, and the entries. -/
def escapeTile (l : List Quant) : List Nat × List (Nat × Nat) :=
  let out := ((indexed l).filter (fun q => q.2.outlier)).take 32
  let at_ := out.map (fun q => q.1)
  ((indexed l).map (fun q => if at_.contains q.1 then 0x80 else q.2.bits), out.map (fun q => (q.1, fpEncode 9 q.2.code)))

/-- A tailings block in full (R413, R420). -/
def tailBytes (l : List (Nat × Nat)) : List Byte :=
  let bs := l.flatMap (fun e => toLe 4 e.2 ++ toLe 4 e.1)
  bs ++ List.replicate (256 - bs.length) 0

/-- The larger of two magnitudes, as FP32 codes (R432). -/
def maxMag (l : List FVal) : Nat :=
  l.foldl (fun m v => if v.isFinite then max m (fpEncode 9 v.abs % 2 ^ 31) else m) 0

/-! ## A whole task -/

/-- The result of a VECTOR: output elements by tile with their tailings, SAT of its own, elements without an entry by tile, its
observation for the tracker. -/
structure VecResult where
  tiles : List (List Nat × List (Nat × Nat))
  sat : Bool
  orphans : List (Nat × List Nat)
  obs : Nat
deriving DecidableEq, Repr

/-- `k` lists of up to `n` elements. -/
def tilesOf {α : Type} (n : Nat) : Nat → List α → List (List α)
  | 0, _ => []
  | k + 1, l => l.take n :: tilesOf n k (l.drop n)

/-- Sums of the elements at the same place of several tiles. -/
def columnsOf (ts : List (List Num)) (n : Nat) : List (List Num) := (List.range n).map (fun k => ts.map (fun t => nth (.int 0) t k))

/-- The operation on its operands (R443). -/
def State.vecCompute (s : State) (c i : Nat) (r : TaskRun) : VecResult :=
  let d := (s.cluster c).task i
  let core := dLcore d
  let op := veOp d
  let ops := s.vecTiles c i r.pass
  let fa := fmtOf ops
  let f := vecFmt d
  let exact := op == vCvt || op == vQuant
  let rd (t : Tile) := s.vecElems c core t exact
  let as := (nth [] ops 0).map rd
  let bs := (nth [] ops 1).map rd
  let a := as.flatMap (fun x => x.1)
  let b := bs.flatMap (fun x => x.1)
  let read := ((nth [] ops 0).zip as) ++ ((nth [] ops 1).zip bs)
  let esc := read.any (fun x => x.2.2.1)
  let orphans := (read.filter (fun x => !x.2.2.2.isEmpty)).map (fun x => (x.1.1, x.2.2.2))
  let int := fmtIsInt fa
  let per := fmtElems f
  let k := vecOutTiles d fa
  let mk (l : List (Nat × Bool)) (obs : Nat) : VecResult :=
    { tiles := (tilesOf per k (l.map (fun x => x.1))).map (fun t => (t, [])), sat := esc || l.any (fun x => x.2)
      orphans := orphans, obs := obs }
  if op = vAdd ∨ op = vSub ∨ op = vMul then mk (a.zipWith (vecArith op f) b) 0
  else if op = vCmp then mk (a.zipWith (fun x y => (if vecCmp (veSub d) x y then 1 else 0, false)) b) 0
  else if op = vSel then
    let mask := (nth [] ops 2).flatMap (fun t => (bytesElems fmtInt8 (s.readAt c core (t.1 + 32) 4096)))
    mk (((a.zip b).zip mask).map (fun x => (cvt f (if x.2 ≠ 0 then x.1.1 else x.1.2), false))) 0
  else if op = vCvt then mk (a.map (fun x => (cvt f x, false))) 0
  else if op = vRescale then mk (a.map (fun x => (rescaleTo f x.toInt (veM d) (veS d), false))) 0
  else if op = vSum then mk ((columnsOf (as.map (fun x => x.1)) (fmtElems fa)).map (vecSum f int)) 0
  else if op = vRsum then mk ((groupsOf (2 ^ veSub d) (vecOut d fa) a).map (vecRsum f (veSub d) int)) 0
  else if op = vAct then
    mk (a.map (fun x => (cvt f (.fp (fpDecode 9 (actFp32 (veSub d) (fpEncode 9 x.toF)))), false))) 0
  else
    let sout := (nth 0 r.input (veTiles d)).toNat
    let qs := (indexed as).flatMap (fun x =>
      let sin := (nth 0 r.input x.1).toNat
      let ms := if int then toMs (fpDecode 9 (scaleRatio sin sout)) else none
      x.2.1.map (quantOf f sin sout ms))
    { tiles := (tilesOf per k qs).map (fun t => if veEsc d then escapeTile t else (t.map (fun q => q.bits), []))
      sat := esc, orphans := orphans, obs := maxMag (qs.map (fun q => q.real)) }

/-- SCALE_INDEX of output tile `k`: the task's own; of a CVT that of the input tile its first element comes from (R443). -/
def vecScaleIdx (d : Desc) (ops : List (List Tile)) (k : Nat) : Nat :=
  if veOp d = vCvt then hdScale (nth (0, 0) (ops.headD []) (k * fmtElems (vecFmt d) / fmtElems (fmtOf ops))).2 else dScale d

/-- The first `n` output tiles are written (R412, R420); gives the tag of the output. -/
def State.vecWrite (s : State) (c i n : Nat) (r : TaskRun) (late : Bool) : State × Option Tag × Nat :=
  let x := s.cluster c
  let d := x.task i
  let core := dLcore d
  let unit := 64 * c + x.actingCore core
  let ops := s.vecTiles c i r.pass
  let v := s.vecCompute c i r
  let t := s.inputTag c i r.pass
  let fl := ops.flatten.foldl (fun (h : HFlags) t => h.join (hdFlags t.2)) { HFlags.none with sat := v.sat, late := late }

  let dst := x.addrOf r.pass core (dDst d)
  let t2 := x.addrOf r.pass core (veSrc2 d)
  let s := v.orphans.foldl (fun s o => s.orphans c unit (dTag d) o.1 o.2 t) s
  let s := forEach ((indexed v.tiles).take n) s (fun s k =>
    let a := dst + 4128 * k.1
    let b := t2 + 256 * k.1
    let ofs := if veEsc d then (b + 0x10000 - a % 0x10000) % 0x10000 / 32 else 0
    let s := s.writeAt c core a (mkHeader (dTensor d) (vecFmt d) (vecScaleIdx d ops k.1) fl t k.2.2.length ofs ++ packElems (vecFmt d) k.2.1) t
    if veEsc d then s.writeAt c core b (tailBytes k.2.2) t else s)
  (s.modVec unit (fun w => w.hitIf v.sat 0), t, v.obs)

/-- The task's report to the tracker (R432, R433, R438), with the confirmation state `t` and the lines of its output. -/
def State.vecReport (s : State) (c i obs : Nat) (r : TaskRun) (t : Option Tag) : State :=
  let x := s.cluster c
  let d := x.task i
  let tracked := veOp d = vQuant ∧ veTrack d = true ∧ dScale d ≠ 0xFFFF ∧ 0 < (tabGet Scale.init x.scales (dScale d)).hist
  if !decide tracked then s
  else
    let n := vecOutTiles d (fmtOf (s.vecTiles c i r.pass))
    let run (a len : Nat) : List (Nat × Nat) := match keyOf c (dLcore d) (x.addrOf r.pass (dLcore d) a) with
      | some k => [(lineOf k, (linesOf k len).length)]
      | none => []
    s.modCluster c (fun x => { x with reports := x.reports ++
      [{ entry := dScale d, obs := BitVec.ofNat 32 obs, task := i, tag := t
         lines := run (dDst d) (4128 * n) ++ (if veEsc d then run (veSrc2 d) (256 * n) else []) }] })

/-- VECTOR_COMPLETE; it waits while a line that it writes is held (R300). -/
def State.vectorDone (s : State) (c i : Nat) : State :=
  match s.running c i with
  | none => s
  | some r =>
    let d := (s.cluster c).task i
    if dKind d ≠ kVector ∨ s.heldBack c i r then s
    else
      let n := vecOutTiles d (fmtOf (s.vecTiles c i r.pass))
      let out := s.vecWrite c i n r (r.late || (s.lateBy c i).isSome)
      (out.1.vecReport c i out.2.2 r out.2.1).complete c i r out.2.1

/-- A VECTOR stopped (R88, R875): a free number of its tiles is finished, none where a line that it writes is held (R300). -/
def State.stopVector (s : State) (c i : Nat) (r : TaskRun) (late : Bool) : State :=
  let d := (s.cluster c).task i
  let total := vecOutTiles d (fmtOf (s.vecTiles c i r.pass))
  let n := if s.heldBack c i r then 0 else s.unitsDone total
  let whole := decide (n = total)
  let out := s.takeFree.vecWrite c i n r (s.lateAtStop c i r late whole)
  (if whole then out.1.vecReport c i out.2.2 r out.2.1 else out.1).endShort c i r out.2.1 whole

def execVectorComplete (dt : Nat) (cluster : ClusterId) (task : Fin 4096) (s : State) : Host.Outcome State Fault Refusal :=
  let s := s.elapse dt
  .next (s.vectorDone cluster (s.taskKey cluster task))

end Sys2Proof.Machine
end

