-- ==== Sys2Proof/Machine/Haul.lean ====
section
/-! DEFINITION. CORE_HAUL and CLUSTER_HAUL (08, R495 to R507): rows and strides, tiles, the accumulator window (R131 to
R137), collisions (R466 to R468), completion, the stop, fills made ahead (R525, R526). -/

namespace Sys2Proof.Machine

/-! ## The accumulator window (R132 to R137) -/

/-- The 4,096 bytes of a slab's window. -/
def Slab.window (x : Slab) (exchanged : Bool) : List Byte :=
  if exchanged then x.accBytes x.shadow ++ x.accBytes x.live else x.accBytes x.live ++ x.accBytes x.shadow

/-- Write 8 bytes of one half of the window into its set. Gives the set and whether a RESULT was limited (R134, R135). -/
def Slab.putWord (x : Slab) (a : AccSet) (o : Nat) (w : List Byte) : AccSet × Bool :=
  if o < 0x440 then
    let p := o / 4
    ({ a with slice := tabSet 0 (tabSet 0 a.slice p (signed 32 (leNat (w.take 4)))) (p + 1) (signed 32 (leNat ((w.drop 4).take 4))) },
      false)
  else if o < 0x6E8 then
    let j := (o - 0x440) / 8
    let v := satI lim40 (signed 64 (leNat w))
    ({ a with
      base := tabSet 0 a.base j v.1, sat := a.sat || v.2
      slice := (x.outCols j).foldl (fun t k => tabSet 0 t (x.physOf k) 0) a.slice }, v.2)
  else (a, false)

/-- Write one word of a window; KCOUNT is unchanged (R137), unconfirmed data marks the set (R296). -/
def Slab.putWindow (x : Slab) (o : Nat) (w : List Byte) (t : Option Tag) : Slab :=
  let live := decide (o < 0x800)
  let r := x.putWord (if live then x.live else x.shadow) (o % 0x800) w
  let u := joinTag r.1.tag t
  let a := { r.1 with
    unconf := u.isSome, spoiled := (u.map (fun (y : Tag) => y.spoiled)).getD false
    epoch := (u.map (fun (y : Tag) => y.epoch)).getD 0 }
  (if live then { x with live := a } else { x with shadow := a }).hit r.2 0

/-- `n` bytes of a side reach a half of a slab's window that waits (R136). -/
def State.windowBusy (s : State) (c core : Nat) (x : Side) (n by_ : Nat) : Bool :=
  match x with
  | .at_ a => (match placeOf core a with
    | .window k i o =>
      let w := winSlab c k i
      decide (0 < n) && ((decide (o < 0x800) && s.liveBusy w by_) || (decide (0x800 < o + n) && s.slabDrains w))
    | _ => false)
  | _ => false

/-! ## Reading and writing a side -/

def State.sideRead (s : State) (c core : Nat) (x : Side) (n : Nat) : List Byte :=
  match x with
  | .at_ a => (match placeOf core a with
    | .window k i o => ((((s.slab (winSlab c k i)).window (s.slabDrains (winSlab c k i))).drop o).take n) ++ List.replicate (o + n - 4096) 0
    | _ => s.plainRead c core x n)
  | _ => s.plainRead c core x n

def State.sideTag (s : State) (c core : Nat) (x : Side) (n : Nat) : Option Tag :=
  match x with
  | .at_ a => s.tagAt c core a n
  | _ => none

def State.sideWrite (s : State) (c core : Nat) (x : Side) (bs : List Byte) (t : Option Tag) : State :=
  match x with
  | .zero => s
  | .hbm k => s.haulWrite c k bs
  | .at_ a => (match placeOf core a with
    | .window k i o => forEach (List.range (bs.length / 8)) s (fun s j =>
        s.modSlab (winSlab c k i) (fun y => y.putWindow (s.winOfs (winSlab c k i) (o + 8 * j)) ((bs.drop (8 * j)).take 8) t))
    | _ => s.writeAt c core a bs t)


/-- What reading a side leaves. -/
def State.sideMark (s : State) (c core : Nat) (x : Side) (n : Nat) : State :=
  match x with
  | .at_ a => (match placeOf core a with
    | .window k i o => s.modSlab (winSlab c k i) (fun y => y.markRead (s.winOfs (winSlab c k i) o) n)
    | _ => s)
  | _ => s

/-! ## Rows (R503, R507) -/

/-- Bytes between a source and a destination that lies ahead of it within `n` bytes: a longer move would read what it has
written (R503). -/
def stepOf (a b : Side) (n : Nat) : Nat :=
  match a, b with
  | .at_ x, .at_ y => if x < y ∧ y < x + n then y - x else n
  | _, _ => n

/-- Pieces of a row, as offset and length: none crosses a line of the destination, none is longer than the step. -/
def pieces (step addr : Nat) : Nat → Nat → Nat → List (Nat × Nat)
  | 0, _, _ => []
  | f + 1, o, n =>
    if n = 0 then [] else
    let m := max 1 (min n (min step (64 - (addr + o) % 64)))
    (o, m) :: pieces step addr f (o + m) (n - m)

def Side.addr : Side → Nat
  | .at_ a => a
  | .hbm k => k
  | .zero => 0

/-- Copy bytes in ascending order; each line takes the state of the bytes it receives (R294, R296). Gives the state of all that
moved. -/
def State.copyBytes (s : State) (c core : Nat) (a b : Side) (n : Nat) : State × Option Tag :=
  (pieces (stepOf a b n) b.addr n 0 n).foldl (fun (acc : State × Option Tag) p =>
    let s := acc.1
    let t := s.sideTag c core (a.add p.1) p.2
    let keep := if p.1 = 0 ∨ (b.addr + p.1) % 64 = 0 then none else s.sideTag c core (b.add p.1) p.2
    ((s.sideMark c core (a.add p.1) p.2).sideWrite c core (b.add p.1) (s.sideRead c core (a.add p.1) p.2) (joinTag t keep),
      joinTag acc.2 t)) (s, none)

/-- Copy one tile: its header under R410 to R412 and R421, then its payload. -/
def State.copyTile (s : State) (c core : Nat) (a b : Side) (late : Bool) : State × Option Tag :=
  let t := s.sideTag c core (a.add 32) 4096
  let s := (s.sideMark c core a 32).sideWrite c core b (copyHeader (s.sideRead c core a 32) t late) t
  let r := s.copyBytes c core (a.add 32) (b.add 32) 4096
  (r.1, joinTag t r.2)

/-- The first `n` units move; gives the state of what moved. -/
def State.haulMove (s : State) (c i pass n : Nat) (late : Bool) : State × Option Tag :=
  let x := s.cluster c
  let d := x.task i
  ((haulUnits x d pass).take n).foldl (fun (acc : State × Option Tag) u =>
    let r := if haulTile d then acc.1.copyTile c (dLcore d) u.1 u.2 late else acc.1.copyBytes c (dLcore d) u.1 u.2 (haulRow d)
    (r.1, joinTag acc.2 r.2)) (s, none)

/-- Bytes of `n` units. -/
def haulBytes (d : Desc) (n : Nat) : Nat := n * (if haulTile d then 4128 else haulRow d)

/-! ## Collisions (R466 to R468) -/


/-- What a haul's collisions leave once it has moved: what it wrote from a word whose read collided is undefined, and so is a word that
both wrote. -/
def State.clashHaul (s : State) (c i pass : Nat) (l : List Clashed) : State :=
  let x := s.cluster c
  let d := x.task i
  let s := forEach (l.filter (fun k => !k.wrote)) s (fun s k =>
    forEach ((haulSides x d pass).filter (fun r => r.1.covers (haulRow d) (clashAddr k.word))) s (fun s r =>
      let b := r.2.add (clashAddr k.word - r.1.addr)
      s.sideWrite c (dLcore d) b (clashBytes k.value) (s.sideTag c (dLcore d) b 8)))
  s.clashWrites c l


/-! ## Completion -/

/-- The transfer gives its outstanding place back, and its bytes count (R497, R532). -/
def State.endTransfer (s : State) (c i bytes : Nat) : State :=
  s.modHaul (s.haulKey c ((s.cluster c).task i)) (fun h => { h with outstanding := h.outstanding - 1, bytes := h.bytes + bytes })

/-- A transfer runs under the page map entry that it was issued under, where the map has changed since (R492). -/
def State.underEntry (s : State) (c i : Nat) (f : State → State × Option Tag) : State × Option Tag :=
  let x := s.cluster c
  match (x.run i).bind (fun r => if r.phase = .running ∨ r.phase = .paused then r.page else none) with
  | none => f s
  | some e =>
    let p := clPage (x.task i)
    let r := f (s.setPage p e)
    (r.1.setPage p (s.page p), r.2)

/-- The whole transfer of a pass, with the collisions met before by others and its own. -/
def State.haulAll (s : State) (c i pass : Nat) (late : Bool) (before : List Clashed) (ws : List Clash) : State × Option Tag :=
  let d := (s.cluster c).task i
  let n := (haulUnits (s.cluster c) d pass).length
  let m := s.meets c i pass ws
  let r := m.1.underEntry c i (fun s => s.haulMove c i pass n late)
  ((r.1.clashHaul c i pass (before ++ m.2)).endTransfer c i (haulBytes d n), r.2)

/-! ## Chunks that are held (R652) -/

/-- A unit of a haul reaches an HBM range. -/
def unitTouches (d : Desc) (lo hi : Nat) (u : Side × Side) : Bool :=
  let n := if haulTile d then 4128 else haulRow d
  let on (x : Side) : Bool := match x with
    | .hbm k => decide (k < hi) && decide (lo < k + n)
    | _ => false
  on u.1 || on u.2

/-- Chunks that the passes hold: their HBM ranges. -/
def State.chunksHeld (s : State) : List (Nat × Nat) :=
  (s.trust.tenants).flatMap (fun t => t.2.holdUntil.filterMap (fun h =>
    if h.2 ≤ s.now then none else (tabFind t.2.rekey h.1).map (fun w => (hbmKey w.1 ((w.2 - 1) * 0x10000), hbmKey w.1 (w.2 * 0x10000)))))

/-- A haul has come to a chunk that is held, and waits (R652). -/
def State.chunkWait (s : State) (c i pass : Nat) : Bool :=
  let x := s.cluster c
  let us := haulUnits x (x.task i) pass
  s.chunksHeld.any (fun h => us.any (unitTouches (x.task i) h.1 h.2))

/-- A transfer under way touches an HBM range. -/
def State.inFlight (s : State) (lo hi : Nat) : Bool :=
  s.clusters.any (fun y =>
    let x := s.cluster y.1
    let t (i pass : Nat) : Bool := dKind (x.task i) == kClusterHaul && (haulUnits x (x.task i) pass).any (unitTouches (x.task i) lo hi)
    x.runs.any (fun r => (r.2.phase == .running || r.2.phase == .paused) && t r.1 r.2.pass) || x.ahead.any (fun a => !a.done && t a.task a.pass))

/-- A fill made ahead completes: its slots are FULL for its pass (R526). -/
def State.aheadDone (s : State) (c i : Nat) (ws : List Clash) : State :=
  match (s.cluster c).ahead.find? (fun a => decide (a.task = i) && !a.done) with
  | none => s
  | some a =>
    if s.heldBack c i { TaskRun.init with pass := a.pass } || s.chunkWait c i a.pass then s else
    let r := s.haulAll c i a.pass false a.clashes ws
    r.1.modCluster c (fun x => ({ x with
      ahead := x.ahead.map (fun (b : Ahead) => if b.task = i ∧ b.pass = a.pass then { b with done := true } else b) }.fillSlots a.pass
        (x.writeSlots i a.pass)).readDone i a.pass)

/-- A row or tile of a haul waits for the accumulators it touches, since a clock (R136). -/
def State.unitBlocked (s : State) (c : Nat) (d : Desc) (by_ : Nat) (u : Side × Side) : Bool :=
  let n := if haulTile d then 4128 else haulRow d
  s.windowBusy c (dLcore d) u.1 n by_ || s.windowBusy c (dLcore d) u.2 n by_
def State.haulBlocked (s : State) (c i pass : Nat) : Bool :=
  let x := s.cluster c
  (haulUnits x (x.task i) pass).any (s.unitBlocked c (x.task i) s.now)

/-- CORE_HAUL_COMPLETE and CLUSTER_HAUL_COMPLETE: the task of the current pass, or else a fill made ahead; it waits while a line that it
writes is held (R300), and while a chunk that it reaches is (R652). -/
def State.haulDone (s : State) (kind c i : Nat) (ws : List Clash) : State :=
  if dKind ((s.cluster c).task i) ≠ kind then s
  else match s.running c i with
  | none => s.aheadDone c i ws
  | some r =>
    if s.haulBlocked c i r.pass ∨ s.heldBack c i r ∨ s.chunkWait c i r.pass then s
    else
      let out := s.haulAll c i r.pass (r.late || (s.lateBy c i).isSome) r.clashes ws
      out.1.complete c i r out.2

/-- A haul stopped (R88, R311, R875): a free number of its rows or tiles has moved, none that has had to wait for an accumulator
window since its dispatch (R136); one that still waited for confirmation has moved none and held no place. -/
def State.stopHaul (s : State) (c i : Nat) (r : TaskRun) (late : Bool) : State :=
  if r.phase = .waitConfirm then s.stopped c i r none
  else
    let d := (s.cluster c).task i
    let us := haulUnits (s.cluster c) d r.pass
    let n := if s.heldBack c i r then 0 else min (s.unitsDone us.length)
      (us.takeWhile (fun u => !s.unitBlocked c d r.at_ u && !s.chunksHeld.any (fun h => unitTouches d h.1 h.2 u))).length
    let whole := decide (n = us.length)
    let out := s.takeFree.underEntry c i (fun t => t.haulMove c i r.pass n (s.lateAtStop c i r late whole))
    ((if n = 0 then out.1 else out.1.clashHaul c i r.pass r.clashes).endTransfer c i (haulBytes d n)).endShort c i r out.2 whole

def execCoreHaulComplete (dt : Nat) (cluster : ClusterId) (task : Fin 4096) (collisions : List Clash) (s : State) :
    Host.Outcome State Fault Refusal :=
  let s := s.elapse dt
  .next (s.haulDone kCoreHaul cluster (s.taskKey cluster task) collisions)

def execClusterHaulComplete (dt : Nat) (cluster : ClusterId) (task : Fin 4096) (collisions : List Clash) (s : State) :
    Host.Outcome State Fault Refusal :=
  let s := s.elapse dt
  .next (s.haulDone kClusterHaul cluster (s.taskKey cluster task) collisions)

end Sys2Proof.Machine
end

