-- ==== Sys2Proof/Machine/TickSources.lean ====
section
/-! DEFINITION. Tick sources (R44 to R60, R561 to R563): qualification, selection, holdover and phase; the tick relay of a
domain (R63 to R67, R606). -/

namespace Sys2Proof.Machine

/-! ## Sources -/

/-- Sources of a kind, changed by a function. -/
def State.modSources (s : State) (f : TickSource → TickSource) : State :=
  s.modTime (fun t => { t with sources := t.sources.map f })

/-- The source in use. -/
def TimeState.selected (t : TimeState) : Option TickSource := if t.srcState = .locked then t.sources[t.srcIndex]? else none

/-- The source in use is qualified. -/
def TimeState.inUse (t : TimeState) : Bool :=
  match t.selected with
  | some x => x.qualified
  | none => false

/-- The source in use has gone: the tick is kept in which it was lost (R54, R60), and holdover begins when no listed source is
qualified any more (R55). -/
def State.loseSources (s : State) (was : Bool) : State :=
  let t := if was && !s.time.inUse then s.modTime (fun t => { t with lostAt := some t.tickCount }) else s
  if s.time.srcState = .locked ∧ s.time.sources.all (fun x => !x.qualified) then
    (t.modTime (fun t => { t with srcState := .holdover })).ticksrc 3 0
  else t

/-- Disqualify the sources that a condition names. -/
def State.disqualify (s : State) (p : TickSource → Bool) : State :=
  (s.modSources (fun x => if p x then { x with qualified := false, run := 0 } else x)).loseSources s.time.inUse

def TickSource.qualify (x : TickSource) (now : Nat) : TickSource := if x.qualified then x else { x with qualified := true, since := now }

/-- The time base runs: the module is powered and its clocks are up, PS5 excluded (R744). -/
def State.clocksOn (s : State) : Bool := s.power.boot == .serving && s.power.pstate != .ps5 && !s.power.tripped

/-- Network and pin sources discipline the tick in PS0 and PS1 (R744). -/
def State.disciplined (s : State) : Bool := s.clocksOn && (s.power.pstate == .ps0 || s.power.pstate == .ps1)

/-- TIME_NS moves by `d` under the source in use or a slew, and the grids stay where they are in it; an epoch that has begun is
not begun again. -/
def State.steer (s : State) (d : Int) : State :=
  s.modTime (fun t => { t with
    timeNs := BitVec.ofInt 64 ((t.timeNs.toNat : Int) + d)
    epoch := if d < 0 then s.epochNow else t.epoch
    epochNotBefore := if d < 0 then t.epochEnd s.timeNat else t.epochNotBefore })

/-! ## TICK_IN and PPS_IN (R52, R58, R59, R60) -/

/-- One period within 1 us from an earlier edge. -/
def inWindow (period last now : Nat) : Bool := decide (last + period ≤ now + 1000) && decide (now ≤ last + period + 1000)

/-- PPS_IN is present (R59). -/
def State.ppsPresent (s : State) : Bool :=
  match s.time.pps with
  | b :: a :: _ => inWindow 1000000000 a b && decide (s.now < b + 1100000000)
  | _ => false

/-- The edge at a clock qualifies TICK_IN; with PPS_IN, or the first time since TICK_SOURCE_SET, it is frame 0, tick 0. -/
def State.qualifyEdge (s : State) (edge : Nat) (pps : Bool) : State :=
  let fix := pps || !s.time.frame0
  (s.modSources (fun x =>
    if x.kind = .tickIn then { x.qualify s.now with zero := if fix then some edge else x.zero } else x)).modTime
    (fun t => { t with frame0 := true })

/-- An edge of the source in use disciplines TIME_NS: the boundary that it stands for is 100 ns away (R60), but for the time of a
slew. -/
def State.followEdge (s : State) : State :=
  match s.time.selected with
  | some x =>
    let b := s.timeNat + 100
    let d : Int := (s.time.nearest (periodNs s.time.period) b : Int) - b
    if x.kind = .tickIn ∧ s.time.slew = 0 ∧ -1000 ≤ d ∧ d ≤ 1000 then s.steer d else s
  | none => s

/-- TICK_IN_EDGE. -/
def State.tickInEdge (s : State) : State :=
  if !s.disciplined then s
  else match s.time.sources.find? (fun x => x.kind == .tickIn) with
  | none => s
  | some x =>
    let p := periodNs s.time.period
    let good := match x.last with
      | some t => inWindow p t s.now
      | none => false
    let run := if good then x.run + 1 else 0
    let s := s.modSources (fun y => if y.kind = .tickIn then { y with run := run, last := some s.now } else y)
    if x.qualified then (if good then s.followEdge else s.disqualify (fun y => y.kind == .tickIn))
    else if run < 4 then s
    else if s.ppsPresent then
      (match s.time.pps with
      | b :: _ => if s.now ≤ b + 1000 then s.qualifyEdge s.now true else s
      | [] => s)
    else s.qualifyEdge s.now false

/-- TICK_IN_EDGE_LATE: an expected edge is 1 us late. -/
def State.tickInLate (s : State) : State :=
  match s.time.sources.find? (fun x => x.kind == .tickIn) with
  | some x =>
    (match x.last with
    | some t =>
      if t + periodNs s.time.period + 1000 ≤ s.now then
        (s.modSources (fun y => if y.kind = .tickIn then { y with last := none } else y)).disqualify (fun y => y.kind == .tickIn)
      else s
    | none => s)
  | none => s

/-- PPS_IN_EDGE: an edge within 1 us after a qualifying TICK_IN edge qualifies it as frame 0 (R58). -/
def State.ppsEdge (s : State) : State :=
  if !s.clocksOn then s
  else
    let s := s.modTime (fun t => { t with pps := s.now :: t.pps.take 1 })
    match s.time.sources.find? (fun x => x.kind == .tickIn) with
    | some x =>
      (match x.last with
      | some e => if !x.qualified ∧ 4 ≤ x.run ∧ s.now ≤ e + 1000 ∧ s.ppsPresent then s.qualifyEdge e true else s
      | none => s)
    | none => s

/-! ## PTP and SyncE (R51, R561, R563) -/

/-- SyncE is locked on a port (R563). -/
def Port.synced (x : Port) : Bool := x.synceLock && !x.dnu

/-- PTP on a port qualifies once its run of Sync intervals is long enough and SyncE is locked. -/
def State.ptpCheck (s : State) (p : Nat) : State :=
  let ok := (s.port p).synced && s.disciplined
  let s := s.modSources (fun x => if x.kind = .ptp ∧ x.port = p ∧ 16 ≤ x.run ∧ ok then x.qualify s.now else x)
  s.modPort p (fun y => { y with ptpLock := s.time.sources.any (fun x => x.kind == .ptp && x.port == p && x.qualified) })

/-- A PTP source on the port disqualifies. -/
def State.ptpLost (s : State) (p : Nat) : State :=
  (s.disqualify (fun x => x.kind == .ptp && x.port == p)).modPort p (fun y => { y with ptpLock := false })

/-- What the alternate BMCA compares, the better master lower: the quality of its grandmaster, then of class 127 and below the steps to it
before its identity (R561; ITU-T G.8275.1, assumption 110). -/
def ptpRank (a : PtpAnnounce) : List Nat :=
  [a.clockClass.toNat, a.accuracy.toNat, a.variance.toNat, a.priority2.toNat]
    ++ (if a.clockClass.toNat < 128 then [a.steps.toNat, a.identity.toNat] else [a.identity.toNat, a.steps.toNat])

/-- The first list comes before the second, number by number. -/
def ranksBefore : List Nat → List Nat → Bool
  | a :: s, b :: t => decide (a < b) || (a == b && ranksBefore s t)
  | _, _ => false

/-- Announce: the master in use is known anew, or a better one takes its place. -/
def State.ptpAnnounce (s : State) (p : Nat) (a : PtpAnnounce) : State :=
  s.modPort p (fun x => { x with master := match x.master with
    | some m => if m.identity = a.identity ∨ ranksBefore (ptpRank a) (ptpRank m) then some a else some m
    | none => some a })

/-- The Delay_Req that the port sends in a Sync interval, under its link CA (R562; IEEE 1588, assumption 110). -/
def State.ptpDelayReq (s : State) (p : Nat) : State :=
  let n := s.freeNat
  s.takeFree.sendLink p 6 ([0x01, 0x02] ++ bigEnd 2 44 ++ [BitVec.ofNat 8 s.time.ptpDomain, 0] ++ bigEnd 14 0 ++ toLe 8 n ++ bigEnd 2 (p + 1)
    ++ bigEnd 2 (field n 64 16) ++ [1, 0x7F] ++ bigEnd 10 0)

/-- The servo offset of a Sync interval (R51). -/
def State.ptpSync (s : State) (p : Nat) (ofs : Int) : State :=
  let s := s.modSources (fun x => if x.kind = .ptp ∧ x.port = p then
    { x with run := if -100 ≤ ofs ∧ ofs ≤ 100 then x.run + 1 else 0, last := some s.now } else x)
  (if ofs < -1000 ∨ 1000 < ofs then s.ptpLost p else s.ptpCheck p).ptpDelayReq p

/-- PTP_FRAME on a source's port: under the link CA, in the domain and to the destination that the source names (R561, R562). A Sync of
another master than the BMCA's, and other messages, carry no state. -/
def State.ptpFrame (s : State) (p : Nat) (h : PtpHdr) (m : PtpMsg) : State :=
  if !s.disciplined || !(s.port p).up then s
  else
    let r := (s.countRx p 44).checked p p h.prot
    let ours (x : TickSource) : Bool := x.kind == .ptp && x.port == p && x.dst == h.peer
    if !r.2 || h.domain.toNat != s.time.ptpDomain || !s.time.sources.any ours then r.1
    else match m with
    | .announce a => r.1.ptpAnnounce p a
    | .sync who ofs => if (s.port p).master.map (fun a => a.identity) = some who then r.1.ptpSync p ofs else r.1
    | .other => r.1

/-- PTP_ANNOUNCE_TIMEOUT: the port has no master any more (R51). -/
def State.ptpSilent (s : State) (p : Nat) : State := (s.ptpLost p).modPort p (fun x => { x with master := none })

/-- SYNCE_LOCK: the recovered clock has been within its range for 1 s, or has left it. -/
def State.synceLock (s : State) (p : Nat) (locked : Bool) : State :=
  if !s.disciplined then s else (s.modPort p (fun x => { x with synceLock := locked })).ptpCheck p

/-- ESMC_FRAME: the quality level of the port. -/
def State.esmc (s : State) (p : Nat) (dnu : Bool) : State :=
  if !s.disciplined then s else (s.modPort p (fun x => { x with dnu := dnu })).ptpCheck p

/-! ## Selection and phase (R54 to R58, R209) -/

/-- A boundary named by FRAME and TICK keeps its name when TIME_NS moves (R702). -/
def TimeState.renamed (old new : TimeState) (t : Nat) : Nat :=
  if t ≤ old.timeNs.toNat then t else new.occurrence (old.frameAt t) (old.tickAt t) new.timeNs.toNat

/-- TIME_NS moves by `d`, and with it all that is counted in it: the start of the tick, the ends that a change set, and the
boundaries named for arms and switch-ins. The epoch in progress keeps its number. -/
def State.retime (s : State) (d : Int) : State :=
  let t := s.time
  let sh (n : Nat) : Nat := ((n : Int) + d).toNat
  let t1 := { t with
    timeNs := BitVec.ofInt 64 ((s.timeNat : Int) + d), tickStart := sh t.tickStart,
    tickNotBefore := sh t.tickNotBefore, epoch := s.epochNow, epochNotBefore := t.nextGrid 10000 (sh (t.epochEnd s.timeNat))
    controlAt := t.controlAt.map sh, throttleAt := t.throttleAt.map sh }
  { s with
    time := t1
    clusters := s.clusters.map (fun c => (c.1, { c.2 with armed := match c.2.armed with
      | some (.named b g) => some (.named (t.renamed t1 b) g)
      | a => a }))
    carts := s.carts.map (fun c => (c.1, { c.2 with named := c.2.named.map (fun x => (x.1, t.renamed t1 x.2)) })) }

/-- The boundary of the edge that fixes frame 0 becomes frame 0, tick 0: TIME_NS steps forward by whole ticks (R45, R46,
R58). -/
def State.fixFrame (s : State) (edge : Nat) : State :=
  let t := s.time
  let b := s.timeNat + edge + 100 - s.now
  let g := t.nearest (periodNs t.period) b
  let cycle : Int := 1024 * (frameNs : Int)
  let base : Int := -(-((g : Int) - t.frameOffset) / cycle) * cycle + t.frameOffset
  let s := s.retime (base - g)
  s.modTime (fun t => { t with frame := t.frameAt t.tickStart, tick := t.tickAt t.tickStart })

/-- The phase of a new source: slewed up to 1 us, else the tick and the epoch lengthen to its next boundary (R56, R57). -/
def State.applyPhase (s : State) (phase : Int) : State :=
  if -1000 ≤ phase ∧ phase ≤ 1000 then s.modTime (fun t => { t with slew := phase })
  else
    let end_ : Int := (s.time.tickEnd : Int) - phase
    let epochEnd : Int := (s.time.epochEnd s.timeNat : Int) - phase
    let frame := s.frameNow
    let tick := s.tickNow
    let s := s.retime (-phase)
    (s.modTime (fun t => { t with
      frame := frame, tick := tick, slew := 0
      tickNotBefore := t.nextGrid (periodNs t.period) end_.toNat
      epochNotBefore := t.nextGrid 10000 epochEnd.toNat })).phaseJump phase

/-- TIME_NS counts TAI for the first time in this power-up: the records of TIMEBASE 1 are converted, each to what TIME_NS would have
read then, the slew to come included (R209). -/
def State.firstTai (s : State) : State :=
  if s.time.taiSeen then s
  else
    let s := s.modTime (fun t => { t with taiSeen := true })
    { s with slabs := tabMap (fun _ => Slab.init) (fun _ x =>
        if x.timebase && x.thisPower then
          { x with timebase := false, dressTime := BitVec.ofInt 64 ((s.timeNat : Int) - s.time.slew - ((s.now - x.dressClock : Nat) : Int)) }
        else x) s.slabs }

/-- A boundary has just come, the first or a later one after the source in use was lost (R54). -/
def TimeState.afterLoss (t : TimeState) : Bool :=
  (match t.lostAt with
  | some n => decide (n < t.tickCount)
  | none => false) && decide (t.timeNs.toNat ≤ t.tickStart + 100)

/-- The source to change to, if any (R54): from a source in use or lost, one of higher priority qualified for 10 s, or at a
boundary after the loss one of lower priority; else the first qualified. -/
def TimeState.pick (t : TimeState) (now : Nat) : Option Nat :=
  match t.selected with
  | some x =>
    (List.range t.sources.length).find? (fun i => match t.sources[i]? with
      | some y => y.qualified && (if i < t.srcIndex then decide (y.since + 10000000000 ≤ now)
          else decide (t.srcIndex < i) && !x.qualified && t.afterLoss)
      | none => false)
  | none => t.sources.findIdx? (fun y => y.qualified)

/-- SOURCE_CHANGE. -/
def State.changeSource (s : State) (phase : Int) : State :=
  if !s.disciplined || s.time.srcState == .held || s.time.srcState == .free then s
  else match s.time.pick s.now with
  | none => s
  | some i =>
    (match s.time.sources[i]? with
    | none => s
    | some x =>
      let tai := x.kind != .tickIn
      let s := s.modTime (fun t => { t with srcState := .locked, srcIndex := i, tai := tai, lostAt := none })
      let s := match x.kind, x.zero with
        | .tickIn, some e => (s.fixFrame e).modSources (fun y => { y with zero := none })
        | _, _ => s
      let s := s.applyPhase phase
      let s := if tai then s.firstTai else s
      s.ticksrc 3 0)

/-! ## Relay (R63 to R67, R606) -/

/-- Ports carry more than the frames of R605: the role is manager, or a session is open. -/
def State.portsOpen (s : State) : Bool := s.mbx.manager || (List.range 16).any (fun t => (s.tenant t).session.isSome)

/-- Frames of the domain reach the module and are handled. -/
def State.domainOn (s : State) : Bool := s.disciplined && s.linksOn && s.fabric.domain.joined && s.portsOpen

def State.relayListed (s : State) : Bool := s.time.sources.any (fun x => x.kind == .relay)

/-- Bytes of a relay payload (02, Tick relay payload). -/
def relayBytes (p : RelayPayload) : List Byte :=
  toLe 8 p.boundaryNs.toNat ++ toLe 8 p.txNs.toNat ++ toLe 2 p.frame.toNat ++ [p.tick, p.period] ++ toLe 4 p.armGen.toNat ++ toLe 8 0

/-- Arm generation that the manager's clusters are to swap at the boundary at a TIME_NS, or 0. -/
def State.armGenAt (s : State) (b : Nat) : Word :=
  let clock := s.now + (b - s.timeNat)
  (s.clusters.findSome? (fun c => match c.2.armed with
    | some (.next nb g) => if g ≠ 0 ∧ nb ≤ clock then some g else none
    | some (.named t g) => if g ≠ 0 ∧ t ≤ b then some g else none
    | _ => none)).getD 0

/-- The boundary that a relay frame sent now announces: the first at least 20 us away (R63). -/
def State.relayBoundary (s : State) : Nat :=
  let e := s.time.tickEnd
  if s.timeNat + 20000 ≤ e then e else e + periodNs s.time.period

/-- A boundary is announced; those that have come are forgotten. -/
def State.announce (s : State) (p : RelayPayload) : State :=
  s.modRelay (fun r => { r with announced := p :: r.announced.filter (fun q => decide (s.timeNat < q.boundaryNs.toNat + 1000)) })

/-- TICK_RELAY_SEND. -/
def State.sendRelay (s : State) : State :=
  if !s.domainOn || !s.mbx.manager then s
  else
    let b := s.relayBoundary
    let p : RelayPayload :=
      { boundaryNs := BitVec.ofNat 64 b, txNs := s.time.timeNs, frame := BitVec.ofNat 10 (s.time.frameAt b),
        tick := BitVec.ofNat 8 (s.time.tickAt b), period := BitVec.ofNat 8 s.time.period, armGen := s.armGenAt b }
    let s := forEach s.fabric.domain.members s (fun s m => s.sendTo (1 + m.index) jtRelay 0 0 false (relayBytes p))
    (s.announce p).modRelay (fun r => { r with
      unanswered := s.fabric.domain.members.foldl (fun t m => tabSet 0 t m.index (tabGet 0 t m.index + 1)) r.unanswered })

/-- A frame of the source in use: TIME_NS follows the manager's, which is the frame's by the path delay later, so that the
boundary announced falls at BOUNDARY_NS converted by that delay (R64). A difference beyond 1 us only lengthens (R57). -/
def State.followRelay (s : State) (p : RelayPayload) : State :=
  match s.time.selected with
  | some x =>
    let d : Int := (p.txNs.toNat : Int) + s.fabric.relay.pathNs - s.timeNat
    if x.kind ≠ .relay ∨ s.time.slew ≠ 0 ∨ d = 0 then s
    else if -1000 ≤ d ∧ d ≤ 1000 then s.steer d
    else s.applyPhase (-d)
  | none => s

/-- A valid frame: RELAY qualifies at the fourth in a row (R53), and a worker in HELD learns the boundary at which it leaves from
the second (R67). -/
def State.relayValid (s : State) (p : RelayPayload) : State :=
  let s := (s.announce p).modRelay (fun r => { r with
    valid := r.valid + 1, since := 0
    heldExit := if s.time.srcState = .held ∧ r.valid = 1 then some p.boundaryNs.toNat else r.heldExit })
  (s.modSources (fun x => if x.kind = .relay then
    (let y := { x with run := x.run + 1, last := some s.now }
     if 4 ≤ y.run then y.qualify s.now else y) else x)).followRelay p

/-- The run of valid frames ends. -/
def State.relayBroken (s : State) : State :=
  (s.modRelay (fun r => { r with valid := 0 })).modSources (fun x => if x.kind = .relay then { x with run := 0 } else x)

/-- A frame of a domain member with `n` bytes of payload, received on the port that serves it. One without an entry is not known (R590). -/
def State.fromMember (s : State) (member n : Nat) (pr : Protection) : State × Bool :=
  let i := 1 + member
  let p := pePort (s.partner i) % 16
  if peState (s.partner i) = psFree then ((s.countRx p (32 + n)).portFlag p prUnknown, false)
  else
    let r := s.fromPartner p i (32 + n) pr
    (if r.2 then r.1.countPartner i pcRx 1 else r.1, r.2)

/-- RELAY_FRAME on a worker: valid from its manager of record, at the period in force; it is answered (R53, R606). -/
def State.relayFrame (s : State) (src : Nat) (pr : Protection) (p : RelayPayload) : State :=
  if !s.domainOn || s.mbx.manager || src != s.fabric.domain.managerIndex then s
  else
    let r := s.fromMember src 32 pr
    if !r.2 then r.1
    else
      let s := if p.period.toNat = s.time.period then r.1.relayValid p else r.1.relayBroken
      s.sendTo (1 + src) jtRelayAck 0 0 false [if s.time.srcState = .held then 1 else 0]

/-- RELAY_MISS on a worker: the boundary comes from its own TIME_NS (R65); RELAY disqualifies (R53). -/
def State.relayMiss (s : State) : State :=
  if !s.disciplined || s.mbx.manager || !s.fabric.domain.joined then s
  else (s.relayBroken.disqualify (fun x => x.kind == .relay)).relayMissed

def State.relayAcked (s : State) (worker : Nat) (pr : Protection) : State :=
  if !s.domainOn || !s.mbx.manager then s
  else
    let r := s.fromMember worker 1 pr
    if r.2 then r.1.modRelay (fun r => { r with unanswered := tabDel r.unanswered worker }) else r.1

/-- WORKER_LOST, reported once until the worker answers again. -/
def State.workerLost (s : State) (worker : Nat) : State :=
  let n := tabGet 0 s.fabric.relay.unanswered worker
  if !s.mbx.manager ∨ n < 8 ∨ 2 ^ 32 ≤ n then s
  else (s.modRelay (fun r => { r with unanswered := tabPut r.unanswered worker (n + 2 ^ 32) })).fabricEv 0 0xFF faWorkerLost worker
    (1 + worker) 0 false

/-- DELAY_REQ_SEND on a worker: every 1,024 ticks (R64). -/
def State.sendDelayReq (s : State) : State :=
  if !s.domainOn || s.mbx.manager || decide (s.time.tickCount < s.fabric.relay.delayFrom)
      || !s.secured (1 + s.fabric.domain.managerIndex) then s
  else (s.sendTo (1 + s.fabric.domain.managerIndex) jtDelayReq 0 0 false []).modRelay (fun r => { r with
    delayFrom := s.time.tickCount + 1024, asked := true })

/-- DELAY_REQ: answered to a member of the domain. -/
def State.delayReq (s : State) (src : Nat) (pr : Protection) : State :=
  if !s.domainOn || !(s.fabric.domain.members.any (fun m => decide (m.index = src))) then s
  else
    let r := s.fromMember src 0 pr
    if r.2 then r.1.sendTo (1 + src) jtDelayResp 0 0 false [] else r.1

/-- DELAY_RESP from the manager. -/
def State.delayResp (s : State) (src : Nat) (pr : Protection) (pathNs : Nat) : State :=
  if !s.domainOn || s.mbx.manager || src != s.fabric.domain.managerIndex || !s.fabric.relay.asked then s
  else
    let r := s.fromMember src 0 pr
    if r.2 then r.1.modRelay (fun r => { r with pathNs := pathNs, asked := false }) else r.1

/-! ## The rows -/

def execTickInEdge (dt : Nat) (s : State) : Host.Outcome State Fault Refusal := .next (s.elapse dt).tickInEdge
def execTickInEdgeLate (dt : Nat) (s : State) : Host.Outcome State Fault Refusal := .next (s.elapse dt).tickInLate
def execPpsInEdge (dt : Nat) (s : State) : Host.Outcome State Fault Refusal := .next (s.elapse dt).ppsEdge
def execPtpFrame (dt : Nat) (port : PortId) (h : PtpHdr) (msg : PtpMsg) (s : State) : Host.Outcome State Fault Refusal :=
  .next ((s.elapse dt).ptpFrame port h msg)
def execPtpAnnounceTimeout (dt : Nat) (port : PortId) (s : State) : Host.Outcome State Fault Refusal :=
  .next ((s.elapse dt).ptpSilent port)
def execEsmcFrame (dt : Nat) (port : PortId) (dnu : Bool) (s : State) : Host.Outcome State Fault Refusal :=
  .next ((s.elapse dt).esmc port dnu)
def execSynceLock (dt : Nat) (port : PortId) (locked : Bool) (s : State) : Host.Outcome State Fault Refusal :=
  .next ((s.elapse dt).synceLock port locked)
def execSourceChange (dt : Nat) (phase : Int) (s : State) : Host.Outcome State Fault Refusal :=
  .next ((s.elapse dt).changeSource phase)
def execTickRelaySend (dt : Nat) (s : State) : Host.Outcome State Fault Refusal := .next (s.elapse dt).sendRelay
def execRelayFrame (dt : Nat) (srcModule : Byte) (prot : Protection) (p : RelayPayload) (s : State) : Host.Outcome State Fault Refusal :=
  .next ((s.elapse dt).relayFrame srcModule.toNat prot p)
def execRelayMiss (dt : Nat) (s : State) : Host.Outcome State Fault Refusal := .next (s.elapse dt).relayMiss
def execRelayAck (dt : Nat) (worker : Byte) (prot : Protection) (_held : Bool) (s : State) : Host.Outcome State Fault Refusal :=
  .next ((s.elapse dt).relayAcked worker.toNat prot)
def execWorkerLost (dt : Nat) (worker : Byte) (s : State) : Host.Outcome State Fault Refusal :=
  .next ((s.elapse dt).workerLost worker.toNat)
def execDelayReqSend (dt : Nat) (s : State) : Host.Outcome State Fault Refusal := .next (s.elapse dt).sendDelayReq
def execDelayReq (dt : Nat) (srcModule : Byte) (prot : Protection) (s : State) : Host.Outcome State Fault Refusal :=
  .next ((s.elapse dt).delayReq srcModule.toNat prot)
def execDelayResp (dt : Nat) (srcModule : Byte) (prot : Protection) (pathNs : Nat) (s : State) : Host.Outcome State Fault Refusal :=
  .next ((s.elapse dt).delayResp srcModule.toNat prot pathNs)

end Sys2Proof.Machine
end

