-- ==== Sys2Proof/Machine/Router.lean ====
section
/-! DEFINITION. Bytes that land in buffer slots (R574), ROUTER_SEND (R564, R565, R570 to R572), router phases (R566 to R569) and router
reception (R573). -/

namespace Sys2Proof.Machine

/-! ## Landing counts (R574) -/

/-- Bytes of [a, a + n) that lie in [lo, hi). -/
def overlap (a n lo hi : Nat) : Nat := min (a + n) hi - max a lo

/-- Earliest pass, at or after the one in force, that uses a copy of a buffer (R514). -/
def Cluster.passOf (x : Cluster) (depth copy : Nat) : Nat := x.pass + (copy + depth - x.pass % depth) % depth

/-- A slot counts the bytes written into it; where the count reaches SLOT_BYTES while it is FREE it becomes FULL. -/
def Cluster.countLanded (x : Cluster) (b : BitVec 128) (key copy n : Nat) : Cluster :=
  let old := (x.slot key).landed
  let y := x.modSlot key (fun k => { k with landed := old + n })
  if old < bfSlotBytes b ∧ bfSlotBytes b ≤ old + n ∧ (x.slot key).phase = .free then y.fillSlots (x.passOf (bfDepth b) copy) [key] else y

/-- Fabric delivery or router reception wrote bytes into a cluster's memory. -/
def Cluster.land (x : Cluster) (addr n : Nat) : Cluster :=
  match x.active with
  | none => x
  | some p =>
    (p.buffers.filter (fun b => bfCore b.2 == 0xFF && decide (0 < overlap addr n (bfBase b.2) (bfBase b.2 + bfBytes b.2)))).foldl (fun x b =>
      (List.range (bfDepth b.2 * bfSlots b.2)).foldl (fun (x : Cluster) k =>
        let lo := bfBase b.2 + k * bfSlotBytes b.2
        let m := overlap addr n lo (lo + bfSlotBytes b.2)
        if m = 0 then x else x.countLanded b.2 (slotKey b.1 (k / bfSlots b.2) (k % bfSlots b.2)) (k / bfSlots b.2) m) x) x

/-- What another unit writes into a cluster's memory: confirmed data, counted in the slots it reaches, which it never waits for (R523,
R574). -/
def State.landBytes (s : State) (c addr : Nat) (bs : List Byte) : State :=
  (s.writeAt c 0xFF addr bs none).modCluster c (fun x => x.land addr bs.length)

/-- The lowest word of [addr, addr + n) that an engine may not write, as a test. -/
def State.barred (s : State) (c : Nat) (a : Actor) (addr n : Nat) : Bool :=
  (rowWords addr n (s.cluster c).top).any (fun w => (s.wordFault c a 0xFF w true).isSome)
    || decide (addr < 0x100000) || decide (0x200000 < addr + n)

/-! ## ROUTER_SEND (R565, R570, R571) -/

/-- Receiver of a cluster that listens to a source now. -/
def State.receiverOf (s : State) (dest src : Nat) : Option Nat := (List.range 4).find? (fun k => s.entrySource s.phaseNow dest k == some src)

/-- START_NS of the phase after the current one, or the end of the tick. -/
def State.phaseEnd (s : State) : Nat :=
  match s.fabric.phaseMap[s.fabric.curPhase + 1]? with
  | some p => p.start
  | none => s.time.tickEnd - s.time.tickStart

/-- Time that the first `n` packets of a ROUTER_SEND take at 200 Gb/s, with their 32-byte headers (R571). -/
def sendNs (d : Desc) (n : Nat) : Nat := ceilDiv (min (4096 * n) (dLength d) + 32 * n) 25
def packetCount (d : Desc) : Nat := ceilDiv (dLength d) 4096

/-- Clock from which a ROUTER_SEND may send on in the current phase (R565, R570): the phase is one of its own and a receiver of DEST listens
to the cluster; that receiver has had 3 us to retune, and the packets before it have left the line. -/
def State.sendFrom (s : State) (c : Nat) (d : Desc) (r : TaskRun) : Option Nat :=
  if roPhase d ≠ 0x1F ∧ roPhase d ≠ s.fabric.curPhase then none
  else (s.receiverOf (roDest d) c).map (fun k =>
    max (max r.at_ r.applied) (max (s.fabric.phaseAt + (if s.retunes (roDest d) k then 3000 else 0)) (tabGet 0 (s.cluster c).lineBusy (roDest d))))

/-- Packets of a ROUTER_SEND that can have left by a clock, each over before the next START_NS (R570). -/
def State.sendFits (s : State) (c : Nat) (d : Desc) (r : TaskRun) (clock : Nat) : Nat :=
  match s.sendFrom c d r with
  | none => r.sent
  | some t =>
    let fits (n : Nat) : Bool :=
      let e := t + (sendNs d n - sendNs d r.sent)
      decide (e ≤ clock) && decide (e < s.startClock + s.phaseEnd)
    max r.sent (((List.range (packetCount d + 1)).filter fits).getLast?.getD 0)

/-- The bytes that a ROUTER_SEND moves; with TILE each 4,128 bytes with their header written anew (R410 to R412). -/
def State.routerBytes (s : State) (c i : Nat) (r : TaskRun) (late : Bool) : List Byte :=
  let x := s.cluster c
  let d := x.task i
  let src := x.addrOf r.pass 0xFF (dSrc d)
  if roTile d then
    (List.range (dLength d / 4128)).flatMap (fun k =>
      copyHeader (s.readAt c 0xFF (src + 4128 * k) 32) none late ++ s.readAt c 0xFF (src + 4128 * k + 32) 4096)
  else s.readAt c 0xFF src (dLength d)

/-- A transmitter of the cluster is in service. -/
def State.transmits (s : State) (c : Nat) : Bool := (List.range 4).any (fun k => s.ringServes (routerLoop c k))

/-- A packet is dropped at a cluster, and ROUTER_DROP reported (R573, R644). -/
def State.routerDrop (s : State) (d src : Nat) : State :=
  (s.modCluster d (fun x => { x with router := x.router.hit 8 })).fabricEv (s.cluster d).tenant 0xFF faRouterDrop d noPartner src false

/-- A packet reaches its receiver, whose 64 KiB hold those not yet written (R573). -/
def State.arrive (s : State) (p : Packet) : State :=
  let held := ((s.fabric.packets.filter (fun q => q.dest == p.dest && q.rx == p.rx)).map (fun q => q.data.length + 32)).sum
  if 65536 < held + p.data.length + 32 then s.routerDrop p.dest p.src
  else s.modFabric (fun f => { f with packets := f.packets ++ [p] })

/-- The packets of a ROUTER_SEND up to the `n`-th leave. Packets that no transmitter in service sends, that have no light on their line in
the stack (R322, R564), or that go to a receiver that is dark, are lost; the sender is not told. -/
def State.sendPackets (s : State) (c i n : Nat) (r : TaskRun) (late : Bool) : State :=
  let d := (s.cluster c).task i
  match s.receiverOf (roDest d) c with
  | some k =>
    let ps := (((blocks 4096 ((s.clashed c r.clashes).routerBytes c i r late)).take n).drop r.sent).map (fun b =>
      { dest := roDest d, rx := k, addr := dDst d + b.1, src := c, tag := dTag d, data := b.2.2 : Packet })
    if s.transmits c && s.feedOf (64 * (c / 32) + (roDest d + 64 - c) % 64) != feedNone && !s.fabric.groupLost.contains (roDest d / 32)
        && (s.cluster (roDest d)).locked.getLsbD k then forEach ps s State.arrive
    else s
  | none => s

/-- The packets of a ROUTER_SEND up to the `n`-th leave, one after another on their line, and it goes on from there. -/
def State.sendUpTo (s : State) (c i n : Nat) (r : TaskRun) (late : Bool) : State :=
  let d := (s.cluster c).task i
  match s.sendFrom c d r with
  | some t =>
    let e := t + (sendNs d n - sendNs d r.sent)
    (s.sendPackets c i n r late).modCluster c (fun x =>
      { x.setRun i { r with sent := n, applied := e } with lineBusy := tabPut x.lineBusy (roDest d) e })
  | none => s

/-- What every ROUTER_SEND under way has sent by now, with `whole` the packet under way too (R570, R875). -/
def State.sendsSoFar (s : State) (whole : Bool) : State :=
  forEach (s.clusters.map (fun x => x.1)) s (fun s c =>
    forEach ((s.cluster c).runs.map (fun x => x.1)) s (fun s i => match (s.cluster c).run i with
      | some r =>
        let d := (s.cluster c).task i
        let n := s.sendFits c d r (if whole then s.now + sendNs d 1 else s.now)
        if r.phase = .running ∧ dKind d = kRouter ∧ r.sent < n then s.sendUpTo c i n r (r.late || (s.lateBy c i).isSome) else s
      | none => s))

/-- ROUTER_SEND_COMPLETE: its last packet is sent. -/
def State.routerDone (s : State) (c i : Nat) (ws : List Clash) : State :=
  match s.running c i with
  | none => s
  | some r =>
    let d := (s.cluster c).task i
    if dKind d ≠ kRouter ∨ s.sendFits c d r s.now < packetCount d then s
    else
      let m := s.meets c i r.pass ws
      let s := m.1.sendUpTo c i (packetCount d) { r with clashes := r.clashes ++ m.2 } (r.late || (s.lateBy c i).isSome)
      (s.endTransfer c i (dLength d)).complete c i r none

/-- A ROUTER_SEND stopped: it ends with the packet under way, a free one of those that it can have come to (R570, R875). -/
def State.stopRouter (s : State) (c i : Nat) (r : TaskRun) (late : Bool) : State :=
  if r.phase = .waitConfirm then s.stopped c i r none
  else
    let d := (s.cluster c).task i
    let total := packetCount d
    let n := max r.sent (min (s.sendFits c d r (s.now + sendNs d 1)) (s.unitsDone total))
    let whole := decide (n = total)
    ((s.takeFree.sendUpTo c i n r (s.lateAtStop c i r late whole)).endTransfer c i (min (4096 * n) (dLength d))).endShort c i r none whole

/-! ## Phases (R566 to R569) -/

/-- A phase becomes current, in a new map where one is given; its receivers lock on their sources. One that retunes and whose ring does not
serve stays dark unless its ring is back within 3 us. -/
def State.setPhase (s : State) (i : Nat) (map : Option (List Phase)) : State :=
  let old := s.phaseNow
  let s := s.modFabric (fun f => { f with phaseMap := map.getD f.phaseMap, curPhase := i, phaseAt := s.now, lastPhase := old })
  let es := s.phaseNow
  let mask (p : Nat → Bool) : BitVec 4 := BitVec.ofNat 4 (((List.range 4).map (fun k => if p k then 2 ^ k else 0)).sum)
  forEach (List.range 64) s (fun s d =>
    let on (k : Nat) : Bool := s.ringServes (routerLoop d (4 + k))
    s.modCluster d (fun x => { x with
      locked := mask (fun k => (s.entrySource es d k).isSome && on k)
      missed := mask (fun k => (s.entrySource es d k).isSome && !on k && s.retunes d k) }))

/-- PHASE_START: the phase after the current one begins once its START_NS has come. -/
def State.phaseStart (s : State) : State :=
  if !s.clocksOn then s
  else match s.fabric.phaseMap[s.fabric.curPhase + 1]? with
  | some p => if p.start ≤ s.inTick then (s.sendsSoFar false).setPhase (s.fabric.curPhase + 1) none else s
  | none => s

/-- RETUNE_FAIL: a receiver that retuned has not locked 3 us into the phase. -/
def State.retuneFail (s : State) (d k : Nat) : State :=
  if (s.entrySource s.phaseNow d k).isNone || !s.retunes d k || decide (s.now < s.fabric.phaseAt + 3000)
      || decide (s.fabric.phaseAt + 3050 < s.now) then s
  else
    let s := s.modCluster d (fun x => { x with
      locked := x.locked &&& ~~~(1#4 <<< k), missed := x.missed ||| (1#4 <<< k), router := x.router.hit 9 })
    s.fabricEv (s.cluster d).tenant 0xFF faRetuneFail d noPartner k false

/-! ## ROUTER_RECEIVE (R573) -/

/-- Packets that a ROUTER_SEND of `src` to `d` under way has sent by now, up to one for an address. -/
def State.sendOn (s : State) (d src addr : Nat) : State :=
  match (s.cluster src).runs.find? (fun q => q.2.phase == .running && dKind ((s.cluster src).task q.1) == kRouter
      && roDest ((s.cluster src).task q.1) == d && decide (dDst ((s.cluster src).task q.1) + 4096 * q.2.sent ≤ addr)
      && decide (addr < dDst ((s.cluster src).task q.1) + dLength ((s.cluster src).task q.1))) with
  | none => s
  | some q =>
    let x := (s.cluster src).task q.1
    let n := (addr - dDst x) / 4096 + 1
    if s.sendFits src x q.2 s.now < n then s else s.sendUpTo src q.1 n q.2 (q.2.late || (s.lateBy src q.1).isSome)

/-- The oldest packet in a receiver's buffer is written, unless it is of another tenant's source (R644) or would write a word that it may
not, and is dropped; at a held line it waits (R300). -/
def State.routerReceive (s : State) (d k src addr : Nat) (data : List Byte) : State :=
  let here (p : Packet) : Bool := p.dest == d && p.rx == k
  let s := if s.fabric.packets.any here then s else s.sendOn d src addr
  match s.fabric.packets.find? here with
  | none => s
  | some p =>
    let gone := s.modFabric (fun f => { f with packets := f.packets.erase p })
    if p.src ≠ src ∨ p.addr ≠ addr ∨ p.data ≠ data then s
    else if !s.joins src d then gone.routerDrop d src
    else if s.barred d .clusterHaul addr data.length then gone.routerDrop d src
    else if (s.cluster d).isHeld [(cmKey d (addr - 0x100000), data.length)] (fun _ => false) then s
    else gone.landBytes d addr data

/-! ## The rows -/

def execRouterSendComplete (dt : Nat) (cluster : ClusterId) (task : Fin 4096) (collisions : List Clash) (s : State) :
    Host.Outcome State Fault Refusal :=
  .next ((s.elapse dt).routerDone cluster task collisions)

/-- A packet holds at most 4,096 bytes (R571). -/
def execRouterReceive (dt : Nat) (cluster : ClusterId) (receiver : Fin 4) (src : ClusterId) (addr : Word) (data : List Byte)
    (s : State) : Host.Outcome State Fault Refusal :=
  if 4096 < data.length then .fault .malformed
  else .next ((s.elapse dt).routerReceive cluster receiver src addr.toNat data)

def execPhaseStart (dt : Nat) (s : State) : Host.Outcome State Fault Refusal := .next (s.elapse dt).phaseStart

def execRetuneFail (dt : Nat) (cluster : ClusterId) (receiver : Fin 4) (s : State) : Host.Outcome State Fault Refusal :=
  .next ((s.elapse dt).retuneFail cluster receiver)

end Sys2Proof.Machine
end

