-- ==== Sys2Proof/Machine/Transport.lean ====
section
/-! DEFINITION. Fabric delivery: U-plane landing (R552 to R558), INGRESS_WAIT (R582, R583), EGRESS in its three forms (R559,
R560, R580), DATA and ACK frames (R577 to R579), deadlines of fabric tasks (R95, R310). -/

namespace Sys2Proof.Machine

/-! ## Delivery -/

/-- Frames reach the module and are handled: links run (R744), the port is up on a die that stands, and a worker before its session
takes no other frames than those of R605. -/
def State.rxOn (s : State) (p : Nat) : Bool := s.linksOn && s.portsOpen && (s.port p).up && !s.fabric.groupLost.contains (p / 8)



/-- Fabric delivery of bytes into a cluster's memory: dropped where a bank is not ON or not the fabric's (R470, R481), lost without the
bridge to the cluster's die (R39); a held line is written all the same (R301). -/
def State.landFrame (s : State) (p c addr : Nat) (bs : List Byte) : State × Bool :=
  if bs.isEmpty then (s, true)
  else if !s.bridged (p / 8) (c / 32) then (s, false)
  else if s.barred c .fabric addr bs.length then (s.portFlag p prDropBank, false)
  else ((s.breakHolds (cmKey c (addr - 0x100000)) bs.length).landBytes c addr bs, true)

/-! ## Landing slots (R555 to R558) -/

/-- Elements of a symbol. -/
def symElems (x : Entry) : Nat := peStreams x * pePrbCount x * 24
/-- Address of a symbol's landing slot (R557). -/
def slotBase (x : Entry) (symbol : Nat) : Nat := peLandBase x + symbol % peLandSlots x * landSlotBytes x

/-- Deliver INT16 elements from element `e` of a landing slot on. -/
def State.deliverElems (s : State) (p : Nat) (x : Entry) (base e : Nat) (vs : List Int) : State × Bool :=
  let n := vs.length
  let parts := (List.range ((e + n - 1) / 2048 - e / 2048 + 1)).map (fun k =>
    let t := e / 2048 + k
    let lo := max e (2048 * t)
    (t, lo % 2048, (vs.drop (lo - e)).take (2048 * (t + 1) - lo)))
  parts.foldl (fun (acc : State × Bool) q =>
    let r := acc.1.landFrame p (peCluster x) (base + 4128 * q.1 + 32 + 2 * q.2.1) (q.2.2.flatMap (fun v => toLe 2 (unsigned 16 v)))
    (r.1, acc.2 && r.2)) (s, true)

/-- The unused elements of the last tile and the tile headers (R558, R583). -/
def State.finishSlot (s : State) (p : Nat) (x : Entry) (symbol : Nat) (late : Bool) : State :=
  let base := slotBase x symbol
  let n := symElems x
  let rest := 2048 * landTiles x - n
  let s := if rest = 0 then s else (s.deliverElems p x base n (List.replicate rest 0)).1
  forEach (List.range (landTiles x)) s (fun s k =>
    (s.landFrame p (peCluster x) (base + 4128 * k)
      (mkHeader (peTensor x) fmtInt16 (peScale x) { HFlags.none with late := late } none 0 0)).1)

/-- Elements of a received PRB (R556). -/
def prbElems (b : Prb) : List Int := b.iq.map (fun m => (satI 32767 (m.toInt * (2 ^ min b.exponent.toNat 7 : Nat))).1)

/-- The landing of a symbol of the tick (frame, tick). -/
def PartnerDyn.landing (d : PartnerDyn) (frame tick symbol : Nat) : Landing :=
  (d.landings.find? (fun l => decide (l.frame = frame) && decide (l.tick = tick) && decide (l.symbol = symbol))).getD
    { frame := frame, tick := tick, symbol := symbol, prbs := [], done := false }
def PartnerDyn.setLanding (d : PartnerDyn) (l : Landing) : PartnerDyn :=
  { d with landings := d.landings.filter (fun x => !(decide (x.frame = l.frame) && decide (x.tick = l.tick) && decide (x.symbol = l.symbol)))
      ++ [l] }

/-- Frame and tick after the current one. -/
def State.nextTick (s : State) : Nat × Nat :=
  let f := s.frameNow
  let t := s.tickNow + 1
  if t < ticksPerFrame s.time.period then (f, t) else ((f + 1) % 1024, 0)

/-- INGRESS_WAIT tasks that wait for a partner's symbol complete (R582). -/
def State.symbolLanded (s : State) (partner symbol : Nat) : State :=
  forEach (s.clusters.map (fun x => x.1)) s (fun s c =>
    forEach ((s.cluster c).runs.map (fun x => x.1)) s (fun s i =>
      let d := (s.cluster c).task i
      if dKind d = kIngress ∧ dPartner d = partner ∧ inSymbol d = symbol then
        (match s.running c i with
        | some r => s.complete c i r none
        | none => s)
      else s))

/-- The partner whose U-plane message this is (R552). -/
def State.uplanePartner (s : State) (x : Section) : Option (Nat × Entry) :=
  s.fabric.partners.find? (fun p =>
    peState p.2 != psFree && peKind p.2 == pkFronthaul && peMac p.2 == x.mac.toNat
      && (match x.vlan with
        | some v => peVlanOn p.2 && peVlan p.2 == v.toNat
        | none => !peVlanOn p.2)
      && decide (peEaxc p.2 ≤ x.eaxc.toNat) && decide (x.eaxc.toNat < peEaxc p.2 + peStreams p.2))

/-- One PRB of a section lands, or is dropped outside the partner's PRBs (R555, R556). -/
def State.landPrb (s : State) (p i : Nat) (x : Entry) (stream frame tick symbol prb : Nat) (b : Prb) : State :=
  if prb < pePrbFirst x ∨ pePrbFirst x + pePrbCount x ≤ prb then s.portFlag p prUnknown
  else
    let k := prb - pePrbFirst x
    let s := if 7 < b.exponent.toNat then s.countPartner i pcExpClamp 1 else s
    let r := s.deliverElems p x (slotBase x symbol) (24 * (stream * pePrbCount x + k)) (prbElems b)
    if !r.2 then r.1
    else r.1.modDyn i (fun d =>
      let l := d.landing frame tick symbol
      let key := stream * 273 + k
      d.setLanding { l with prbs := if l.prbs.contains key then l.prbs else l.prbs ++ [key] })

/-- What R551 does not support in a message: its eCPRI revision or concatenation, E = 0, an extension, or another compression. -/
def unsupported (x : Section) (e : Entry) : Bool :=
  x.revision != 1 || x.concat || !x.ebit || x.extension || x.compHdr != (if peCompHdr e then some 0x91 else none)

/-- UPLANE_RX. -/
def State.uplane (s : State) (p : Nat) (x : Section) : State :=
  let n := 28 * x.prbs.length
  if !s.rxOn p then s
  else if frameMax < frameSize n then s.countPort p 6 1
  else
    let mu := 4 - s.time.period
    match s.uplanePartner x with
    | none => (s.countRx p n).portFlag p prUnknown
    | some (i, e) =>
      let ok := s.fromPartner p i n x.prot
      if !ok.2 then ok.1
      else if s.time.period = 0 ∨ 10 ≤ x.subframe.toNat ∨ 2 ^ mu ≤ x.slot.toNat ∨ 14 ≤ x.symbol.toNat ∨ unsupported x e then
        ok.1.portFlag p prUnknown
      else
        let s := ok.1.countPartner i pcRx 1
        let tpf := ticksPerFrame s.time.period
        let cur := s.frameNow % 256 * tpf + s.tickNow
        let at_ := x.frameId.toNat * tpf + (x.subframe.toNat * 2 ^ mu + x.slot.toNat)
        let ahead := (at_ + 256 * tpf - cur) % (256 * tpf)
        if 1 < ahead then s.countPartner i (if ahead ≤ 128 * tpf then pcEarly else pcLate) 1
        else
          let nt := s.nextTick
          let ft := if ahead = 0 then (s.frameNow, s.tickNow) else nt
          let now := (s.frameNow, s.tickNow)
          let s := s.modDyn i (fun d => { d with
            landings := d.landings.filter (fun (l : Landing) => (l.frame, l.tick) == now || (l.frame, l.tick) == nt) })
          let k := x.eaxc.toNat - peEaxc e
          let sym := x.symbol.toNat
          let s := forEach (indexed x.prbs) s (fun s b => s.landPrb p i e k ft.1 ft.2 sym (x.startPrb + b.1) b.2)
          let l := (s.dyn i).landing ft.1 ft.2 sym
          if l.done ∨ l.prbs.length < peStreams e * pePrbCount e then s
          else
            let s := (s.finishSlot p e sym false).modDyn i (fun d => d.setLanding { l with done := true })
            if ahead = 0 then s.symbolLanded i sym else s

/-! ## INGRESS_WAIT (R582, R583) -/

/-- The symbol that a task waits for has landed in the current tick. -/
def State.symbolIn (s : State) (d : Desc) : Bool := ((s.dyn (dPartner d)).landing s.frameNow s.tickNow (inSymbol d)).done

/-- INGRESS_LATE: the PRBs that have not landed are zero, the headers carry LATE, and the task completes. -/
def State.ingressLate (s : State) (c i : Nat) : State :=
  match s.running c i with
  | none => s
  | some r =>
    let x := s.cluster c
    let d := x.task i
    if dKind d ≠ kIngress ∨ x.batch ∨ s.inTick < dDeadline d then s
    else
      let e := s.partner (dPartner d)
      let sym := inSymbol d
      let l := (s.dyn (dPartner d)).landing s.frameNow s.tickNow sym
      let p := pePort e % 16
      let missing := (List.range (peStreams e)).flatMap (fun k =>
        ((List.range (pePrbCount e)).filter (fun b => !l.prbs.contains (k * 273 + b))).map (fun b => k * pePrbCount e + b))
      let s := forEach missing s (fun s b => (s.deliverElems p e (slotBase e sym) (24 * b) (List.replicate 24 0)).1)
      let s := (s.finishSlot p e sym true).modDyn (dPartner d) (fun y => y.setLanding { l with done := true })
      let s := s.fabricEv x.tenant (pePort e) faIngressLate 0xFF (dPartner d) sym false
      (s.miss c missIngressLate (dTag d) (s.inTick - dDeadline d) 0).complete c i r none

/-! ## EGRESS (R559, R560, R580) -/

/-- Exponent and mantissas of a PRB's 24 elements (R559). -/
def bfpOf (vs : List Int) : Nat × List Int :=
  let fits (e : Nat) : Bool := vs.all (fun v => let m := divRound v (2 ^ e); decide (-256 ≤ m) && decide (m ≤ 255))
  let e := ((List.range 16).find? fits).getD 15
  (e, vs.map (fun v => divRound v (2 ^ e)))

/-- eCPRI common header, eAxC and ecpriSeqid with E = 1 and subsequence 0 (R551, R560); their layout is that of eCPRI 2.0 (assumption 99). -/
def ecpriHeader (type eaxc seq n : Nat) : List Byte :=
  [0x10, BitVec.ofNat 8 type] ++ (toLe 2 (4 + n)).reverse ++ (toLe 2 eaxc).reverse ++ [BitVec.ofNat 8 seq, 0x80]

/-- The body of a downlink U-plane message of one section (assumption 99): its application header, its section header with a
PRB count of 0 above 255, udCompHdr where the partner's sections carry it (R551), and its PRBs. -/
def uplaneBody (x : Entry) (frame subframe slot symbol section_ : Nat) (prbs : List Byte) : List Byte :=
  let n := pePrbCount x
  [0x90, BitVec.ofNat 8 frame, BitVec.ofNat 8 (subframe * 16 + slot / 4), BitVec.ofNat 8 (slot % 4 * 64 + symbol)]
    ++ (toLe 4 (section_ <<< 20 + pePrbFirst x <<< 8 + (if 255 < n then 0 else n))).reverse
    ++ (if peCompHdr x then [0x91, 0] else []) ++ prbs

/-- An eCPRI message to a partner leaves, numbered by its type and eAxC; with `lost` it was lost while it was being sent. -/
def State.sendEcpri (s : State) (i type eaxc tag : Nat) (body : List Byte) (lost : Bool) : State :=
  let key := type * 65536 + eaxc
  let q := tabGet 0 (s.dyn i).ecpri key
  let f : TxFrame :=
    { port := pePort (s.partner i), kind := if type = 0 then 1 else 2, type := type, partner := i, tag := tag, seq := q, offset := eaxc
      last := true, payload := body, header := ecpriHeader type eaxc q body.length }
  ((if lost then s else s.emitDone f).countPartner i pcTx 1).modDyn i (fun d =>
    { d with ecpri := tabSet 0 d.ecpri key ((q + 1) % 256) })

/-- A PRB on the wire: the exponent byte, then 24 mantissas of 9 bits, most significant bit first. -/
def prbBytes (vs : List Int) : List Byte :=
  let b := bfpOf vs
  let n := b.2.foldl (fun a m => a * 512 + unsigned 9 m) 0
  BitVec.ofNat 8 b.1 :: (toLe 27 n).reverse

/-- Element `e` of the tiles that an UPLANE egress reads. -/
def State.egressElems (s : State) (c i : Nat) (r : TaskRun) (n : Nat) : List Int :=
  let x := s.cluster c
  let src := x.addrOf r.pass 0xFF (dSrc (x.task i))
  ((List.range (ceilDiv n 2048)).flatMap (fun k =>
    (bytesElems fmtInt16 (s.readAt c 0xFF (src + 4128 * k + 32) 4096)).map (signed 16))).take n

/-- The messages of a U-plane egress, one for each stream: its eAxC and its body. -/
def State.uplaneFrames (s : State) (c i : Nat) (r : TaskRun) : List (Nat × List Byte) :=
  let d := (s.cluster c).task i
  let e := s.partner (dPartner d)
  let mu := 4 - s.time.period
  let vs := s.egressElems c i r (symElems e)
  (List.range (peStreams e)).map (fun k =>
    let own := (vs.drop (24 * pePrbCount e * k)).take (24 * pePrbCount e)
    (peEaxc e + k, uplaneBody e s.frameNow (s.tickNow / 2 ^ mu) (s.tickNow % 2 ^ mu) (egSymbol d) (egSection d)
      ((List.range (pePrbCount e)).flatMap (fun b => prbBytes ((own.drop (24 * b)).take 24)))))

/-- DATA frames of an egress (R580): offset, whether the last, payload. -/
def State.egressData (s : State) (c i : Nat) (r : TaskRun) : List (Nat × Bool × List Byte) :=
  let x := s.cluster c
  let d := x.task i
  (blocks 8256 (s.readAt c 0xFF (x.addrOf r.pass 0xFF (dSrc d)) (dLength d))).map (fun b => (egRemote d + b.1, b.2.1, b.2.2))


/-- A C-plane body that may not be sent (R560): its sectionType, byte 5, is neither 1 nor 3. -/
def State.badCplane (s : State) (c i : Nat) (r : TaskRun) : Bool :=
  let x := s.cluster c
  let d := x.task i
  let t := nth (0 : Byte) (s.readAt c 0xFF (x.addrOf r.pass 0xFF (dSrc d)) (dLength d)) 5
  egForm d == 2 && (decide (dLength d < 6) || (t != 1 && t != 3))

/-- The frames of an egress up to the `n`-th have left. One that was being sent when its port broke off is lost; a RELIABLE partner gets it
again (R543, R545, R578). -/
def State.sendEgress (s : State) (c i n : Nat) (r : TaskRun) : State :=
  let x := s.cluster c
  let d := x.task i
  let p := dPartner d
  let v := s.clashed c r.clashes
  let fresh {α : Type} (l : List α) : List (Nat × α) := ((indexed l).take n).drop r.sent
  match egForm d with
  | 0 => forEach (fresh (v.egressData c i r)) s (fun s f =>
      s.sendNumbered (s.joryarFrame p jtData (dTag d) (f.2.1 % 2 ^ 32) f.2.2.1 f.2.2.2) (max r.at_ r.applied) (fun s g =>
        if r.broken.contains f.1 then s else s.emitDone g))
  | 1 => forEach (fresh (v.uplaneFrames c i r)) s (fun s f => s.sendEcpri p 0 f.2.1 (dTag d) f.2.2 (r.broken.contains f.1))
  | _ => forEach (fresh [v.readAt c 0xFF (x.addrOf r.pass 0xFF (dSrc d)) (dLength d)]) s (fun s f =>
      s.sendEcpri p 2 (peEaxc (s.partner p)) (dTag d) f.2 (r.broken.contains f.1))

/-- Running EGRESS tasks of a RELIABLE partner have sent up to `n` frames more, as the window lets them (R578). -/
def State.pushEgress (s : State) (p n : Nat) : State :=
  forEach (s.clusters.map (fun x => x.1)) s (fun s c =>
    forEach ((s.cluster c).runs.map (fun x => x.1)) s (fun s i => match (s.cluster c).run i with
      | some r =>
        let d := (s.cluster c).task i
        let k := min (s.egressRoom c i r) (r.sent + n)
        if r.phase = .running ∧ dKind d = kEgress ∧ egForm d = 0 ∧ dPartner d = p ∧ peReliable (s.partner p) ∧ s.canSend p ∧ r.sent < k then
          (s.sendEgress c i k r).modCluster c (fun x => x.setRun i { r with sent := k })
        else s
      | none => s))

/-- EGRESS_COMPLETE: its last frame has been sent; frames wait while the partner's port is down or pauses, its CA has no SAK, or the window
has no room for them (R541, R545, R546, R578). -/
def State.egressDone (s : State) (c i : Nat) (ws : List Clash) : State :=
  match s.running c i with
  | none => s
  | some r =>
    let d := (s.cluster c).task i
    if dKind d ≠ kEgress ∨ (s.lateBy c i).isSome then s
    else if s.badCplane c i r then
      ((s.fabricEv (s.cluster c).tenant (pePort (s.partner (dPartner d))) faEgressFormat 0xFF (dPartner d) (dTag d) false).endTransfer c i
        0).complete c i r none
    else if !s.canSend (dPartner d) || decide (s.egressRoom c i r < s.egressCount c i) then s
    else
      let m := s.meets c i r.pass ws
      ((m.1.sendEgress c i (m.1.egressCount c i) { r with clashes := r.clashes ++ m.2 }).endTransfer c i (dLength d)).complete c i r none

/-- An egress ends with some of its frames unsent (R95): of those that the window lets go a free number short of all has left, none of one
that waited for confirmation. -/
def State.cutEgress (s : State) (c i : Nat) (r : TaskRun) : State :=
  if r.phase = .waitConfirm then s
  else
    let n := s.freeNat % (max 1 (s.egressCount c i))
    let n := if s.badCplane c i r ∨ !s.canSend (dPartner ((s.cluster c).task i)) then 0 else min n (s.egressRoom c i r)
    ((s.takeFree.sendEgress c i n r).endTransfer c i 0)

/-- EGRESS_DEADLINE: data unconfirmed or unsent at the deadline is discarded (R95, R310). -/
def State.egressDeadline (s : State) (c i : Nat) : State :=
  let x := s.cluster c
  let d := x.task i
  match x.run i with
  | none => s
  | some r =>
    if dKind d ≠ kEgress ∨ x.batch ∨ s.inTick < dDeadline d ∨ (r.phase ≠ .running ∧ r.phase ≠ .waitConfirm) then s
    else
      let s := if r.phase = .waitConfirm ∧ (s.inputTag c i r.pass).isSome then s.miss c missUnconfirmed (dTag d) (s.inTick - dDeadline d) 0
        else s
      ((s.cutEgress c i r).countPartner (dPartner d) pcLateDrop 1).stopped c i r none

/-- An EGRESS stopped by the housekeeping slot or its core. Where its deadline has come, its data is discarded by that and counted
(R95). -/
def State.stopEgress (s : State) (c i : Nat) (r : TaskRun) : State :=
  let d := (s.cluster c).task i
  let s := if !(s.cluster c).batch ∧ dDeadline d ≤ s.inTick then s.countPartner (dPartner d) pcLateDrop 1 else s
  (s.cutEgress c i r).stopped c i r none

/-! ## DATA and ACK (R577 to R579) -/

/-- ACK of the frames accepted so far; its SEQ field holds the next SEQ expected. None is sent before a session (R605), nor without a
SAK. -/
def State.sendAck (s : State) (i : Nat) : State :=
  if !s.secured i then s
  else
  let seq := s.freeNat % 2 ^ 32
  let s := s.takeFree
  let f : TxFrame :=
    { port := s.replyPort i, kind := 0, type := jtAck, partner := i, tag := 0, seq := (s.dyn i).rxSeq, offset := 0, last := false, payload := []
      header := s.joryarHeader i jtAck 0 0 seq (s.dyn i).rxSeq false 0 }
  ((s.emit f).countPartner i pcTx 1).modDyn i (fun d => { d with sinceAck := 0 })

/-- A numbered frame of a relay or of a RELIABLE partner was accepted: an ACK after every 32 (R578). -/
def State.accepted (s : State) (i : Nat) : State :=
  let s := s.modDyn i (fun d => { d with rxSeq := (d.rxSeq + 1) % 2 ^ 32, sinceAck := d.sinceAck + 1 })
  if 32 ≤ (s.dyn i).sinceAck then s.sendAck i else s

/-- The frame has the EtherType of Joryar frames (09, The Joryar transport). -/
def State.isJoryar (s : State) (h : JoryarHdr) : Bool := h.ether.toNat == s.etherType 0

/-- The partner of a Joryar frame from a MAC address, where it is known (R552, R576, R590). -/
def State.joryarPartner (s : State) (mac : BitVec 48) (h : JoryarHdr) : Option Entry :=
  let x := s.partner h.dstPartner.toNat
  if s.isJoryar h ∧ peState x ≠ psFree ∧ (peKind x = pkSession ∨ peKind x = pkPeer) ∧ peMac x = mac.toNat then some x else none

/-- A sequence gap of an unreliable partner (R579), and the next number expected. -/
def State.seqGap (s : State) (i seq : Nat) : State :=
  let s := if seq = (s.dyn i).rxSeq then s else s.countPartner i pcSeqGap 1
  s.modDyn i (fun d => { d with rxSeq := (seq + 1) % 2 ^ 32 })

/-- Ring and execution of a PAGE_LOAD that takes the frames of a partner, and whose range an offset falls in (R707). -/
def State.pageLoader (s : State) (i ofs : Nat) : Option (Nat × Exec × PageLoadParams) :=
  (List.range 4).findSome? (fun r => match (s.ring r).exec with
    | some x => (match x.cmd with
      | .pageLoad p =>
        if p.source = 2 ∧ p.partner.toNat = i ∧ p.pageOfs.toNat ≤ ofs ∧ ofs < p.pageOfs.toNat + p.length.toNat then some (r, x, p) else none
      | _ => none)
    | none => none)

/-- A frame lands in the page under load, which completes with its last byte: its entry changes at the first boundary at least 5 us on
(R492). -/
def State.loadFrame (s : State) (r : Nat) (x : Exec) (p : PageLoadParams) (ofs : Nat) (bs : List Byte) : State :=
  let l := bs.take (p.pageOfs.toNat + p.length.toNat - ofs)
  let s := (s.hbmWrite (hbmKey p.page.toNat ofs) l).modRing r (fun y => { y with exec := some { x with left := x.left - l.length, since := s.now } })
  if x.left ≤ l.length then
    (let s := { s with pageChanges := s.pageChanges.map (fun (c : PageChange) => if c.notBefore = loadLater then { c with notBefore := s.leadFrom } else c) }
     s.completeRing r (Answer.ok s))
  else s

/-- JORYAR_DATA. -/
def State.joryarData (s : State) (p : Nat) (mac : BitVec 48) (h : JoryarHdr) (bs : List Byte) : State :=
  if !s.rxOn p then s
  else
    let i := h.dstPartner.toNat
    match s.joryarPartner mac h with
    | none => (s.countRx p (32 + bs.length)).portFlag p prUnknown
    | some x =>
      let ok := s.fromPartner p i (32 + bs.length) h.prot
      let s := ok.1
      if !ok.2 then s
      else if (s.pageLoader i h.offset.toNat).isNone ∧ peLandBytes x < h.offset.toNat + bs.length then s.countPartner i pcRange 1
      else if peReliable x ∧ h.seq.toNat ≠ (s.dyn i).rxSeq then s
      else
        let s := s.countPartner i pcRx 1
        let s := if peReliable x then s.accepted i else s.seqGap i h.seq.toNat
        match s.pageLoader i h.offset.toNat with
        | some l => s.loadFrame l.1 l.2.1 l.2.2 h.offset.toNat bs
        | none => (s.landFrame p (peCluster x) (peLandBase x + h.offset.toNat) bs).1

/-- JORYAR_ACK: frames below ACK leave the window, and those that wait follow (R578). What it acknowledges of a running EGRESS has been
sent. -/
def State.joryarAck (s : State) (p : Nat) (mac : BitVec 48) (h : JoryarHdr) : State :=
  if !s.rxOn p then s
  else
    let i := h.dstPartner.toNat
    match s.joryarPartner mac h with
    | none => (s.countRx p 32).portFlag p prUnknown
    | some _ =>
      let ok := s.fromPartner p i 32 h.prot
      if !ok.2 then ok.1
      else
        let ahead := (h.ack.toNat + 2 ^ 32 - (ok.1.dyn i).txSeq) % 2 ^ 32
        let s := (ok.1.countPartner i pcRx 1).pushEgress i (if ahead ≤ 4096 then ahead else 0)
        let left := (s.dyn i).unacked.filter (fun f => epLe h.ack.toNat f.seq)
        if left.length = (s.dyn i).unacked.length then s
        else (s.modDyn i (fun d => { d with unacked := left, ackAt := s.now, resends := 0, stalled := false })).drainQueue i

/-- ACK_TIMER: an accepted frame is acknowledged within 10 us. -/
def State.ackTimer (s : State) (i : Nat) : State :=
  if !s.linksOn ∨ (s.dyn i).sinceAck = 0 then s else s.sendAck i

/-- RESEND_TIMEOUT: with no progress for 100 us the unacknowledged frames are sent again, as far as they may be (R546), and the time starts
anew; the sixteenth resend without progress is reported. -/
def State.resend (s : State) (i : Nat) : State :=
  let s := if (s.dyn i).unacked.isEmpty then s.pushEgress i 4096 else s
  let d := s.dyn i
  let x := s.partner i
  if !s.linksOn ∨ d.unacked.isEmpty ∨ s.now < d.ackAt + 100000 then s
  else
    let l := (d.unacked.map (fun (f : TxFrame) => { f with port := s.replyPort i })).filter s.ready
    let s := forEach l s (fun s f => (s.emit f).countPartner i pcTx 1)
    let s := (s.countPartner i pcResent l.length).modDyn i (fun d => { d with resends := d.resends + 1, ackAt := s.now })
    if 16 ≤ d.resends + 1 ∧ !d.stalled then
      (s.fabricEv (peTenant x) (s.replyPort i) faPartnerStall 0xFF (if Config.partners ≤ i then noPartner else i) 0 false).modDyn i (fun d =>
        { d with stalled := true })
    else s

/-! ## The rows -/

/-- A PRB holds 24 mantissas (R556). -/
def execUplaneRx (dt : Nat) (port : PortId) (sec : Section) (s : State) : Host.Outcome State Fault Refusal :=
  if !sec.prbs.all (fun b => b.iq.length == 24) then .fault .malformed else .next ((s.elapse dt).uplane port sec)

def execIngressLate (dt : Nat) (cluster : ClusterId) (task : Fin 4096) (s : State) : Host.Outcome State Fault Refusal :=
  .next ((s.elapse dt).ingressLate cluster task)

def execEgressComplete (dt : Nat) (cluster : ClusterId) (task : Fin 4096) (collisions : List Clash) (s : State) :
    Host.Outcome State Fault Refusal :=
  .next ((s.elapse dt).egressDone cluster task collisions)

def execEgressDeadline (dt : Nat) (cluster : ClusterId) (task : Fin 4096) (s : State) : Host.Outcome State Fault Refusal :=
  .next ((s.elapse dt).egressDeadline cluster task)

/-- Payload of at most 8,256 bytes (R575). -/
def execJoryarData (dt : Nat) (port : PortId) (mac : BitVec 48) (h : JoryarHdr) (payload : List Byte) (s : State) :
    Host.Outcome State Fault Refusal :=
  if 8256 < payload.length then .fault .malformed else .next ((s.elapse dt).joryarData port mac h payload)

def execJoryarAck (dt : Nat) (port : PortId) (mac : BitVec 48) (h : JoryarHdr) (s : State) : Host.Outcome State Fault Refusal :=
  .next ((s.elapse dt).joryarAck port mac h)

def execAckTimer (dt : Nat) (partner : PartnerId) (s : State) : Host.Outcome State Fault Refusal :=
  .next ((s.elapse dt).ackTimer partner)

def execResendTimeout (dt : Nat) (partner : PartnerId) (s : State) : Host.Outcome State Fault Refusal :=
  .next ((s.elapse dt).resend partner)

end Sys2Proof.Machine
end

