-- ==== Sys2Proof/Machine/Ports.lean ====
section
/-! DEFINITION. Ports: down and up (R542 to R544), LACP (R539), MKA and its keys (R550), one-way delay (R551), PAUSE (R537)
and frames dropped on receipt (R536, R538, R548, R549, R551). -/

namespace Sys2Proof.Machine

/-- A port's frames reach the module, before a session too. -/
def State.portRuns (s : State) (p : Nat) : Bool := s.linksOn && (s.port p).up

/-- Partners on a port that has left its group move to the members that remain, and frames that waited go out (R541, R543). -/
def State.leavePort (s : State) (p : Nat) (inj : Bool) : State :=
  (if (s.members (p / 8)).isEmpty then s else forEach (s.onPort p) s (fun s i => s.movePartner i inj)).release

/-- A port goes down: it leaves its group and its partners move, with the frames that it has not begun, to the members that remain. -/
def State.portOut (s : State) (p cause : Nat) (inj : Bool) : State :=
  if !s.portRuns p then s
  else
    let was := s.groupCapacity (p / 8)
    let s := ((s.breakOff p).withdraw p).modPort p (fun x => { x with
      up := false, served := false, lacp := false, synceLock := false, status := x.status.hit 8 })
    let s := if cause = 1 then s.takeFree.countPort p 5 (1025 + s.freeNat % 2 ^ 16) else s
    let s := ((s.ptpSilent p).fabricEv 0 p faPortDown 0xFF noPartner cause inj).leavePort p inj
    s.groupChanged (p / 8) p was inj

/-- PORT_DOWN: alignment is lost, more than 1,024 codewords could not be corrected, or a ring of the port is out of service (R542). -/
def State.portDown (s : State) (p cause : Nat) : State :=
  if cause = 2 && (portLoops p).all s.ringServes then s else s.portOut p cause (s.isInjected 5 p)

/-- LANE_DARK: a lane that eye safety darkens breaks alignment (R340, R542). -/
def State.laneDark (s : State) (p lane : Nat) : State :=
  if !s.linksOn || (s.port p).dark.getLsbD lane then s
  else
    let inj := s.isInjected 5 p
    ((s.modPort p (fun x => { x with dark := x.dark ||| (1#8 <<< lane) })).light 0xFF liPortDark 0xFF 0xFF 0xFFFF (p * 8 + lane)
      inj).portOut p 0 inj

/-- A port that collects again serves its group; partners of one that had no member are assigned to it (R541, R544). -/
def State.joinGroup (s : State) (p : Nat) (f : Port → Port) : State :=
  let alone := (s.members (p / 8)).isEmpty
  let s := s.modPort p f
  let all := ((List.range 8).map (fun k => p / 8 * 8 + k)).flatMap (fun q => s.onPort q)
  (if alone then forEach all s (fun s i => s.movePartner i false) else s).release

/-- PORT_UP: the port, its rings in service, rejoins its group. The LACPDUs by which the switch takes it in are part of that
(assumption 79). -/
def State.portUp (s : State) (p : Nat) : State :=
  if !s.linksOn || (s.port p).up || (s.port p).dark != 0 || s.isInjected 5 p || !(portLoops p).all s.ringServes then s
  else
    let was := s.groupCapacity (p / 8)
    let s := (s.modPort p (fun x => { x with up := true, served := true, lacpAt := none })).sendLacp p
    let s := (s.joinGroup p (fun x => { x with lacp := true })).fabricEv 0 p faPortUp 0xFF noPartner 0 false
    s.groupChanged (p / 8) p was false

/-- Bytes of an eCPRI one-way delay message (eCPRI 2.0). -/
def delayBytes : Nat := 24

/-- The FRONTHAUL partner at a MAC address. -/
def State.fronthaulAt (s : State) (mac : BitVec 48) : Option Nat :=
  (s.fabric.partners.find? (fun p => peState p.2 != psFree && peKind p.2 == pkFronthaul && peMac p.2 == mac.toNat)).map (fun p => p.1)

/-- LACP_FRAME: the switch's end of the link collects and distributes, or does not; the group gains or loses the port (R539). -/
def State.lacpFrame (s : State) (p : Nat) (collecting : Bool) : State :=
  if !s.portRuns p then s
  else
    let s := (s.countRx p lacpBytes).modPort p (fun x => { x with lacpAt := some s.now })
    if collecting = (s.port p).lacp then s
    else if collecting then s.joinGroup p (fun x => { x with lacp := true })
    else (s.modPort p (fun x => { x with lacp := false })).leavePort p false

/-- LACP at a boundary: a port sends its LACPDU every second, and one that has heard none for three seconds leaves its group (R539; IEEE
802.1AX). -/
def State.lacpTick (s : State) : State :=
  forEach (List.range 16) s (fun s p =>
    if !s.portRuns p then s
    else
      let s := if (s.port p).lacpSent + 1000000000 ≤ s.now then s.sendLacp p else s
      if (s.port p).lacp && !(s.port p).collects s.now then (s.modPort p (fun x => { x with lacp := false })).leavePort p false else s)

/-- Codewords that the FEC of the ports has corrected, and given up without breaking the link, since the last boundary: free numbers
(R610). -/
def State.fecTick (s : State) : State :=
  let n := s.freeNat
  let ps := (List.range 16).filter s.portRuns
  forEach ps (if ps.isEmpty then s else s.takeFree) (fun s p => (s.countPort p 4 (field n (64 * p) 32)).countPort p 5 (field n (64 * p + 32) 10))

/-- A CA takes a SAK: the peer's, or as key server one from the module's own random source, which it distributes (R550). Its packet numbers
begin again. -/
def State.takeSak (s : State) (k : Nat) (sak : Option (List Byte)) : State :=
  let own := toLe 32 (Config.randomKey s.free).toNat
  let s := if sak.isNone then s.takeFree.sendMka k else s
  (s.modCa k (fun c => { c with sak := some (sak.getD own), txPn := 1, rxPn := 1 })).release

/-- MKA_FRAME: MKA on a CA that has its CAK distributes a SAK. -/
def State.mkaFrame (s : State) (k : Nat) (sak : Option (List Byte)) : State :=
  if !s.linksOn || (s.ca k).cak.isNone then s else s.takeSak k sak

/-- SAK_REPLACE: a SAK in use gives way to another before its packet number passes its limit (R550). -/
def State.sakReplace (s : State) (k : Nat) (sak : Option (List Byte)) : State :=
  if !s.linksOn || (s.ca k).sak.isNone then s else s.takeSak k sak

/-- ONE_WAY_DELAY of a FRONTHAUL partner: a request, action type 0 or 1, is answered as responder on the partner's port, with the
measurement ID, the action type 2 (response) and the time of receipt (eCPRI 2.0, assumption 99). -/
def State.oneWayDelay (s : State) (p : Nat) (m : DelayRequest) : State :=
  if !s.rxOn p then s
  else match s.fronthaulAt m.mac with
    | none => (s.countRx p delayBytes).portFlag p prUnknown
    | some i =>
      let r := s.fromPartner p i delayBytes m.prot
      if !r.2 then r.1
      else if m.revision ≠ 1 || m.concat || decide (1 < m.action.toNat) then r.1.portFlag p prUnknown
      else
        let t := s.timeNat
        ((r.1.countPartner i pcRx 1).emit
          { port := pePort (s.partner i), kind := 3, type := 5, partner := i, tag := 0, seq := 0, offset := 0, last := true
            payload := [m.measurement, 2] ++ bigEnd 6 (t / 1000000000) ++ bigEnd 4 (t % 1000000000) ++ toLe 8 0
            header := [0x10, 5, 0, 20] }).countPartner i pcTx 1

/-- PAUSE_FRAME_RX: discarded and counted. -/
def State.pauseFrame (s : State) (p : Nat) : State := if !s.portRuns p then s else s.countPort p 7 1

/-- FRAME_DROPPED: counted by its reason. -/
def State.frameDropped (s : State) (p : Nat) (r : DropReason) : State :=
  if !s.portRuns p then s
  else match r with
    | .oversize => s.countPort p 6 1
    | .noBuffer => s.portFlag p prDropBuf
    | .unprotected => s.portFlag p prUnprot
    | .icv => s.portFlag p prIcv
    | .unknown => s.portFlag p prUnknown

def execPortDown (dt : Nat) (port : PortId) (cause : Fin 3) (s : State) : Host.Outcome State Fault Refusal :=
  .next ((s.elapse dt).portDown port cause)

def execPortUp (dt : Nat) (port : PortId) (s : State) : Host.Outcome State Fault Refusal := .next ((s.elapse dt).portUp port)

def execLacpFrame (dt : Nat) (port : PortId) (collecting : Bool) (s : State) : Host.Outcome State Fault Refusal :=
  .next ((s.elapse dt).lacpFrame port collecting)

def execLaneDark (dt : Nat) (port : PortId) (lane : Fin 8) (s : State) : Host.Outcome State Fault Refusal :=
  .next ((s.elapse dt).laneDark port lane)

/-- A SAK has 32 bytes (R546, R550). -/
def execMkaFrame (dt : Nat) (ca : BitVec 12) (sak : Option (List Byte)) (s : State) : Host.Outcome State Fault Refusal :=
  if !sak.all (fun k => k.length == 32) then .fault .malformed else .next ((s.elapse dt).mkaFrame ca.toNat sak)

def execSakReplace (dt : Nat) (ca : BitVec 12) (sak : Option (List Byte)) (s : State) : Host.Outcome State Fault Refusal :=
  if !sak.all (fun k => k.length == 32) then .fault .malformed else .next ((s.elapse dt).sakReplace ca.toNat sak)

def execOneWayDelay (dt : Nat) (req : DelayRequest) (s : State) : Host.Outcome State Fault Refusal :=
  .next ((s.elapse dt).oneWayDelay req.port req)

def execPauseFrameRx (dt : Nat) (port : PortId) (s : State) : Host.Outcome State Fault Refusal := .next ((s.elapse dt).pauseFrame port)

def execFrameDropped (dt : Nat) (port : PortId) (reason : DropReason) (s : State) : Host.Outcome State Fault Refusal :=
  .next ((s.elapse dt).frameDropped port reason)

end Sys2Proof.Machine
end

