-- ==== Sys2Proof/Machine/Seam.lean ====
section
/-! DEFINITION. What a slab does about a seam mismatch once it is localised (R214 to R217, R228, R229). -/

namespace Sys2Proof.Machine

/-- Columns of a group in the order of a localisation's reads: its 32 data columns, then its seam column. -/
def localColumns (g : Nat) : List Nat := groupCols g ++ [256 + g]

/-- Faulty columns of a group (R215): the read difference is more than 6 cell units off b * 16,384 / DRIFT_TRIM; a column
with an injected fault is always faulty (R867). -/
def State.faultyColumns (s : State) (k g : Nat) (reads : List Int) : List Nat :=
  let x := s.slab k
  let t : Int := x.driftTrim
  let off (j : Nat) (r : Int) : Bool :=
    s.isInjected 3 (k * 272 + x.physOf j) || decide (6 * t < (r * t - tabGet 0 x.baseline (x.physOf j) * 16384).natAbs)
  (((localColumns g).zip reads).filter (fun c => off c.1 (clampI (-refLimit) refLimit c.2))).map (fun c => c.1)

/-- Spare dressing begins for a column on the lowest free spare; SPARE_EXHAUSTED where none is free (R225, R229). One column
is dressed at a time. -/
def State.beginSpare (s : State) (k j : Nat) (inj : Bool) : State :=
  let x := s.slab k
  if x.spare.isSome then s
  else match x.freeSpares with
  | i :: _ => s.modSlab k (fun y => { y with
      dress := .repair, spare := some { column := j, spare := i, row := 0, iter := 0, unverified := false, done := false, base := 0, retire := false } })
  | [] => s.upkeep k upSpareExhausted (seamGroup j) (x.physOf j) 0 inj

/-- The mismatch is entered as localised in its bench-phase, with whether the tile is flagged (R216, R222). -/
def State.seamHandled (s : State) (k ph g : Nat) (flag : Bool) : State :=
  s.modSlab k (fun y => { y with mismatch := none, handled := y.handled ++ [(ph, g, flag)] })


/-- A fault in more than one column: the pin is lost, and the slab leaves service (R216). DESIGN CHOICE: the SEAM_TRANSIENTs counted so far
count no more towards a later third (R217, assumption 51). -/
def State.seamMany (s : State) (k ph g : Nat) (inj : Bool) : State :=
  let s := if (s.slab k).pinned then (s.modSlab k (fun y => { y with pinned := false })).upkeep k upPinLost g 0x1FF 0 inj else s
  (((s.seamFail k g 0x1FF 2 inj).modSlab k (fun y => { y with transients := [] })).unplannedDetour k (ph + 1)).seamHandled k ph g true

/-- Clocks of the transients within the last second (R217). -/
def Slab.recentTransients (x : Slab) (now : Nat) : List Nat := x.transients.filter (fun t => decide (now < t + 1000000000))

/-- A mismatch with no faulty column is counted; the third within a second is a fault in more than one column instead (R217). -/
def State.seamTransient (s : State) (k ph g : Nat) (inj : Bool) : State :=
  let l := (s.slab k).recentTransients s.now ++ [s.now]
  if 3 ≤ l.length then s.seamMany k ph g inj
  else ((s.modSlab k (fun y => { y with transients := l, status := y.status.hit 9 })).upkeep k upSeamTransient g 0x1FF l.length inj).seamHandled k
    ph g true

/-- Outcome of a localisation (R216, R228). -/
def State.seamOutcome (s : State) (k ph g : Nat) (faulty : List Nat) : State :=
  let x := s.slab k
  let inj := !(s.seamFaults k g).isEmpty
  match faulty with
  | [] => s.seamTransient k ph g inj
  | [j] =>
    if x.recon.any (fun f => f / 32 == g) then s.seamMany k ph g inj
    else if 256 ≤ j then
      ((((s.seamFail k g (x.physOf j) 1 inj).modSlab k (fun y => { y with seamOff := y.seamOff ++ [g] })).beginSpare k j inj)).seamHandled k ph g false
    else if x.pinned then
      ((((s.seamFail k g (x.physOf j) 0 inj).modSlab k (fun y => { y with recon := y.recon ++ [j] })).beginSpare k j inj)).seamHandled k ph g true
    else ((s.seamFail k g (x.physOf j) 0 inj).unplannedDetour k (ph + 1)).seamHandled k ph g true
  | _ => s.seamMany k ph g inj

/-- A localisation read takes two driver windows, 64 ns, of the task on the slab and of those queued behind it (R214). -/
def State.seamDelay (s : State) (k : Nat) : State :=
  let c := slabCluster k
  let l := (s.cluster c).onSlabs c k
  s.modCluster c (fun x => { x with runs := x.runs.map (fun (q : Nat × TaskRun) =>
    if l.head? = some q.1 then (q.1, { q.2 with delay := q.2.delay + 64 })
    else if l.contains q.1 then (q.1, { q.2 with applied := q.2.applied + 64 })
    else q) })

/-- SEAM_LOCALISED. -/
def State.seamLocalised (s : State) (k : Nat) (reads : List Int) : State :=
  match (s.slab k).mismatch with
  | some m => (s.seamDelay k).seamOutcome k m.1 m.2 (s.faultyColumns k m.2 reads)
  | none => s

/-- Mismatches in the bench-phases that a stopped task has applied on a slab are localised before it ends (R151, R214); what
the reads show is free. -/
def State.settleSeams (phs : List BenchPhase) (conv : Nat → Conversion) (k : Nat) : Nat → State → State
  | 0, s => s
  | fuel + 1, s =>
    let x := s.slab k
    match (match x.mismatch with
      | some m => some m
      | none => x.firstMismatch (s.seamForced k) phs conv) with
    | none => s
    | some m =>
      let reads := (List.range 33).map (fun j => signed 16 (Config.freeNat (s.free + j)))
      let s := { s with free := s.free + 33 }.modSlab k (fun y => { y with mismatch := some m })
      State.settleSeams phs conv k fuel (s.seamLocalised k reads)

/-- A SLAB_MVM stopped (R88, R151): it applies no further bench-phase, and one that has applied none leaves everything as it was.
What the conversions of those applied show is free. -/
def State.stopSlab (s : State) (c i : Nat) (r : TaskRun) : State :=
  let x := s.cluster c
  let d := x.task i
  let ks := x.slabsOf c i
  if s.issue < r.applied then (s.stopped c i r none).leaveSlabs c i
  else
    let n (k : Nat) : Nat := r.phasesBy (x.phasesOn c i k r) s.issue
    let base := s.free
    let f (pos no p : Nat) : Int := signed 8 (Config.freeNat (base + noiseIndex d pos no p))
    let s := { s with free := base + noiseIndex d ks.length 0 0 }
    let s := forEach (indexed ks) s (fun s k =>
      State.settleSeams ((benchSeq d (segOf d k.1 r.input)).take (n k.2)) (s.coarse k.2 (f k.1)) k.2 (8 * n k.2 + 1) s)
    let out := s.slabResult c i n r r.late f
    (out.1.stopped c i r out.2).leaveSlabs c i

def execSeamLocalised (dt : Nat) (slab : SlabId) (reads : List Int) (s : State) : Host.Outcome State Fault Refusal :=
  if reads.length ≠ 33 then .fault .malformed else .next ((s.elapse dt).seamLocalised slab reads)

end Sys2Proof.Machine
end

