-- ==== Sys2Proof/Machine/Tasks.lean ====
section
/-! DEFINITION. The tick sequencer: dispatch with its checks (R84, R85, R93, R299, R300, R304, R517, R521, R876), waits and
grants, fills issued ahead (R525 to R528), transfers that wait for confirmation (R296), the stop of a task (R88, R875). -/

namespace Sys2Proof.Machine

/-! ## Checks at dispatch (R876) -/

/-- OWNER_FAULT of a task: the event, the flags of the bank and of the haul engine; the optical engine reports its own
(R280, R472). -/
def State.ownerReport (s : State) (c i : Nat) (f : Nat × Nat × Nat) : State :=
  let d := (s.cluster c).task i
  let s := match bankOf c f.2.2 f.1 with
    | some k => s.modBank k (fun b => { b with status := b.status.hit 14 })
    | none => s
  if dKind d = kOptical ∨ dKind d = kWeight then s.opticalFlag c opOwnerFault 6 0x7F 0xFF 0 (dTag d)
  else
    let s := if dKind d = kSlab ∨ dKind d = kVector then s
      else s.modHaul (s.haulKey c d) (fun h => { h with status := h.status.hit 0 })
    s.memory c meOwner (dLcore d) f.1 (dTag d + f.2.1 * 2 ^ 16)

/-- Regions of a task in the copy of a pass, with whether it writes them. -/
def Cluster.regions (x : Cluster) (i pass : Nat) : List (Region × Bool) :=
  ((readRegions (x.task i)).map (fun r => (x.place pass r, false))) ++ ((writeRegions (x.task i)).map (fun r => (x.place pass r, true)))

/-- What R490 finds wrong with a CLUSTER_HAUL's page: 0 FREE, 1 another tenant's, 2 a write to a MODEL page. While the role is manager the
pages of the domain tables are as FREE ones to every haul engine (R601). -/
def State.pageFault (s : State) (c : Nat) (d : Desc) : Option Nat :=
  if dKind d ≠ kClusterHaul ∨ clDir d = 2 then none
  else
    let p := s.page (clPage d)
    if p.kind = 0 ∨ (s.mbx.manager ∧ managerPages.contains (clPage d)) then some 0
    else if s.clusterTenant c ≠ some p.tenant then some 1
    else if clDir d = 1 ∧ p.kind = 1 then some 2
    else none

/-- Tiles that a task reads as data, and tiles that it reads otherwise (R416, R418). DESIGN CHOICE: the mask of a SEL is not read as data,
so that -128 in it is no escape (assumption 107). -/
def State.tilesRead (s : State) (c i pass : Nat) : List Tile × List Tile :=
  let x := s.cluster c
  let d := x.task i
  match dKind d with
  | 1 => (s.tilesAt c (dLcore d) (x.addrOf pass (dLcore d) (dSrc d)) 1, [])
  | 2 => (s.tilesAt c 0xFF (x.addrOf pass 0xFF (dSrc d)) (omInTiles d), [])
  | 4 =>
    let ops := s.vecTiles c i pass
    ((ops.take 2).flatten, (ops.drop 2).flatten)
  | _ => ([], [])

/-- FORMAT_FAULT of a task: cause and ADDR. A WEIGHT_LOAD ignores tailings (R416). -/
def State.formatFault (s : State) (c i pass : Nat) : Option (Nat × Nat) :=
  let x := s.cluster c
  let d := x.task i
  if dKind d = kWeight then
    let a := x.addrOf pass 0xFF (dSrc d)
    if s.scaleBad c (hdScale (leNat (s.readAt c 0xFF a 32))) then some (1, a)
    else if s.scaleBad c (dScale d) then some (1, 0) else none
  else if dKind d = kSlab ∨ dKind d = kOptical ∨ dKind d = kVector then
    let t := s.tilesRead c i pass
    match s.tileFault c (dLcore d) (dScale d) t.1 t.2 with
    | some f => some f
    | none => if dKind d = kVector then vecFormatFault d (s.vecTiles c i pass) else none
  else none

/-- SCALE_RANGE of a task: its DETAIL. -/
def State.rangeFault (s : State) (c i pass : Nat) : Option Nat :=
  let d := (s.cluster c).task i
  if dKind d ≠ kVector then none
  else
    let l := s.vecScales c i pass
    vecRangeFault d (fmtOf (s.vecTiles c i pass)) (l.take (veTiles d)) (nth 0 l (veTiles d))

/-- Core that a number event names (R459, R461). -/
def Cluster.numberCore (x : Cluster) (c : Nat) (d : Desc) : Nat :=
  if dKind d = kOptical ∨ dKind d = kWeight then 64 * c else 64 * c + x.actingCore (dLcore d)

/-- The partner of a fabric task is not ACTIVE, or of the wrong kind (R584). -/
def State.partnerBad (s : State) (d : Desc) : Bool :=
  let e := s.partner (dPartner d)
  if dKind d = kIngress then peState e != psActive || peKind e != pkFronthaul
  else if dKind d = kEgress then
    peState e != psActive || (if egForm d = 0 then peKind e != pkPeer && peKind e != pkSession else peKind e != pkFronthaul)
  else false

/-- The first check that a task fails at its dispatch, with its report; `none` where it may run. -/
def State.dispatchFault (s : State) (c i pass : Nat) : Option State :=
  let x := s.cluster c
  let d := x.task i
  if s.partnerBad d then some (s.countPartner (dPartner d) pcNoPartner 1)
  else match (if dKind d = kSlab then (x.slabsOf c i).find? (fun k => (s.slab k).noTile) else none) with
  | some k => some (s.upkeep k upNoTile 0xFF 0x1FF (dTag d) false)
  | none =>
    match s.ownerFault c (actorOf d) (x.regions i pass) with
    | some f => some (s.ownerReport c i f)
    | none =>
      if dKind d = kRouter ∧ s.clusterTenant (roDest d) ≠ s.clusterTenant c then
        some ((s.modHaul (s.haulKey c d) (fun h => { h with status := h.status.hit 0 })).memory c meOwner (dLcore d) (dDst d) (dTag d))
      else match s.pageFault c d with
      | some k =>
        some ((s.modHaul (s.haulKey c d) (fun h => { h with status := h.status.hit 1 })).memory c mePage (dLcore d) (clPage d)
          (dTag d + k * 2 ^ 16))
      | none => match s.formatFault c i pass with
        | some f =>
          let t := if f.2 = 0 then none else s.inputTag c i pass
          some (s.raiseHeld c t (fun s => s.number (x.numberCore c d) nuFormat (dTag d) f.1 f.2))
        | none => match s.rangeFault c i pass with
          | some q => some (s.raiseHeld c (s.inputTag c i pass) (fun s => s.number (x.numberCore c d) nuRange (dTag d) q 0))
          | none => none

/-! ## Waits before dispatch -/

/-- A place is free for the task: on its slabs (R123), on the optical engine, at the haul engine (R497). A SLAB_MVM for a slab
in an unplanned detour waits until the image has been fetched (R199). -/
def State.hasPlace (s : State) (c i : Nat) : Bool :=
  let x := s.cluster c
  let d := x.task i
  match dKind d with
  | 1 =>
    let ks := x.slabsOf c i
    if ks.any (fun k => (s.slab k).detours) then ks.all (fun k => (s.slab k).imageReady)
    else ks.all (fun k => decide ((x.onSlabs c k).length < 2))
  | 2 => decide ((x.runsAt (fun r => r.phase == .running)).countP (fun j => dKind (x.task j) == kOptical) < 2)
  | 5 => decide ((s.haul (s.haulKey c d)).outstanding < 4)
  | 6 => clDir d == 1 || decide ((s.haul (s.haulKey c d)).outstanding < 8)
  | _ => true

/-- Transfers that R296 holds until their data is confirmed. -/
def waitsConfirm (d : Desc) : Bool := dKind d == kRouter || dKind d == kEgress || (dKind d == kClusterHaul && clDir d == 1)

/-- The output of a task would be unconfirmed (R292, R299, R877). -/
def State.outputUnconf (s : State) (c i pass : Nat) : Bool :=
  let x := s.cluster c
  let d := x.task i
  if dEmpty d then false else
  match dKind d with
  | 1 => (x.slabsOf c i).any (fun k => (s.slab k).detours || (smKeep d && (s.slab k).live.unconf)) || (s.inputTag c i pass).isSome
  | 2 => true
  | 4 => (s.inputTag c i pass).isSome
  | 5 => (s.inputTag c i pass).isSome
  | 6 => clDir d == 2 && (s.inputTag c i pass).isSome
  | _ => false


/-- Epoch that a new log entry names until the task's output is written. -/
def State.entryEpoch (s : State) (c i pass : Nat) : Nat :=
  let x := s.cluster c
  let d := x.task i
  if dKind d = kOptical ∨ (dKind d = kSlab ∧ (x.slabsOf c i).any (fun k => (s.slab k).detours)) then s.epochNow
  else
    let live := (x.slabsOf c i).foldl (fun t k => joinTag t (s.slab k).live.tag) none
    match joinTag (s.inputTag c i pass) (if dKind d = kSlab ∧ smKeep d then live else none) with
    | some t => t.epoch
    | none => s.epochNow

/-! ## Start of a task -/

/-- SLAB_MVM: its input is read (R108, R109), and it runs on its slabs, or as a detour on the engine (R169, R197). -/
def State.startSlab (s : State) (c i : Nat) (r : TaskRun) : State :=
  let x := s.cluster c
  let d := x.task i
  let core := dLcore d
  let t := s.inputTag c i r.pass
  let a := x.addrOf r.pass core (dSrc d)
  let inp := s.inputTile c core a (smInputs d) (smInt4 d)
  let ks := x.slabsOf c i
  let r := { r with
    input := inp.1, escapes := inp.2.1, unconf := t.isSome, spoiled := (t.map (fun (y : Tag) => y.spoiled)).getD false
    epoch := (t.map (fun (y : Tag) => y.epoch)).getD 0, detour := ks.any (fun k => (s.slab k).detours) }
  let s := (s.modCluster c (fun x => x.setRun i r)).orphans c (x.numberCore c d) (dTag d) a inp.2.2 t
  if r.detour then s.engineNext c else (s.beginSlab c i).engineNext c

/-- A transfer takes an outstanding place (R497). -/
def State.beginTransfer (s : State) (c i : Nat) : State :=
  s.modHaul (s.haulKey c ((s.cluster c).task i)) (fun h => { h with outstanding := h.outstanding + 1 })

/-- The task is taken up by its engine; one that fails a check completes with no effect (R142, R472, R876). -/
def State.startTask (s : State) (c i : Nat) (r : TaskRun) : State :=
  let d := (s.cluster c).task i
  if dEmpty d then s.completeEmpty c i r
  else match s.dispatchFault c i r.pass with
  | some s => s.completeEmpty c i r
  | none =>
    let set (s : State) (r : TaskRun) : State := s.modCluster c (fun x => x.setRun i r)
    match dKind d with
    | 1 => s.startSlab c i r
    | 2 => (set s r).engineNext c
    | 3 =>
      (set s r).modCluster c (fun x => { x with log := x.log ++
        [{ task := i, pass := r.pass, epoch := 0, reads := x.keysOf c r.pass (readRegions d), weight := none, hold := true, past := false }] })
    | 4 => set s { r with input := (s.vecScales c i r.pass).map (fun (n : Nat) => (n : Int)) }
    | 8 => let s := set s r; if s.symbolIn d then s.complete c i r none else s
    | _ =>
      if waitsConfirm d ∧ ((s.inputTag c i r.pass).isSome ∨ 8 ≤ (s.haul (s.haulKey c d)).outstanding) then set s { r with phase := .waitConfirm }
      else (set s r).beginTransfer c i

/-- Everything that a dispatch waits for is there: the task takes its slots and its log entry, and starts. -/
def State.takeUp (s : State) (c i : Nat) (r : TaskRun) : State :=
  let x := s.cluster c
  let unconf := s.outputUnconf c i r.pass
  let ep := s.entryEpoch c i r.pass
  let r := { r with phase := .running, at_ := s.now, stopped := none, begun := false }
  let x1 := if r.replayed then x else x.takeSlots i r.pass
  let x2 := if unconf && !x1.logged i r.pass then { x1 with log := x1.log ++
      [{ task := i, pass := r.pass, epoch := ep, reads := s.readKeys c i r.pass, weight := none, hold := false, past := false }] }
    else x1
  (s.setCluster c (x2.setRun i r)).startTask c i r


/-- A SLAB_MVM held for a slab of the task, whose dispatch fell due before it (R123). -/
def State.queuedBefore (s : State) (c i : Nat) (r : TaskRun) : Bool :=
  let x := s.cluster c
  let ks := x.slabsOf c i
  dKind (x.task i) == kSlab && x.runs.any (fun q => decide (q.1 ≠ i) && q.2.phase == .held && dKind (x.task q.1) == kSlab
    && (x.slabsOf c q.1).any ks.contains && (decide (q.2.at_ < r.at_) || (decide (q.2.at_ = r.at_) && decide (q.1 < i)))
    && !s.heldBack c q.1 q.2)

/-- Dispatch waits for a place or a hold; for a log entry; for slots. -/
def State.waitsPlace (s : State) (c i : Nat) (r : TaskRun) : Bool :=
  !dEmpty ((s.cluster c).task i) && (!s.hasPlace c i || s.heldBack c i r || s.queuedBefore c i r)
def State.waitsLog (s : State) (c i : Nat) (r : TaskRun) : Bool :=
  s.outputUnconf c i r.pass && (s.cluster c).logFull && !(s.cluster c).logged i r.pass
def State.waitsSlots (s : State) (c i : Nat) (r : TaskRun) : Bool :=
  !r.replayed && !((s.cluster c).inputsFull i r.pass && (s.cluster c).outputsFree i r.pass)

/-- Dispatch is tried: holds and places first, then a log entry, then slots (R123, R299, R300, R517, R521). A task with nothing to do waits
for none of them (R142, R274, R504). -/
def State.tryTask (s : State) (c i : Nat) (r : TaskRun) : State :=
  let park (s : State) (p : RunPhase) : State :=
    s.modCluster c (fun x => x.setRun i { r with phase := if r.replayed then .replay else p })
  if s.waitsPlace c i r then park s .held
  else if s.waitsLog c i r then
    (if r.phase = .waitLog then s else (park s .waitLog).opticalFlag c opLogFull 7 0x7F 0xFF 0 (dTag ((s.cluster c).task i)))
  else if s.waitsSlots c i r then park s .waitSlots
  else s.takeUp c i r

/-! ## TASK_DISPATCH, SLOT_GRANT, DATA_LATE -/

/-- The cluster's plan is being run (R66, R746, R748, R861): with DS0 lost, DS1 runs its plans for 8 ticks. -/
def State.plansRun (s : State) (c : Nat) : Bool :=
  s.clocksOn && s.runsPlans && s.time.srcState != .held && !s.fabric.groupLost.contains (c / 32)
    && (match s.power.ds0Ticks with
      | none => true
      | some n => decide (32 ≤ c) && decide (n ≤ 8))

/-- Tasks are dispatched: not in the housekeeping slot (R89). -/
def State.sequencing (s : State) (c : Nat) : Bool := s.plansRun c && !s.inSlot

/-- A task and its dependants are not run because their core is hung (R859). -/
def State.coreSkip (s : State) (c i : Nat) : State :=
  let r := s.skip c i
  r.1.modCluster c (fun x => { x with skipped := x.skipped + 1 + r.2 })

/-- A dispatch that waits, or has not been tried. -/
def RunPhase.waits : RunPhase → Bool
  | .held => true
  | .waitLog => true
  | .replay => true
  | _ => false

/-- Key that a dispatch of a task starts: a replay of the pass before goes first (R304, R308). -/
def Cluster.dispatchKey (x : Cluster) (i : Nat) : Nat :=
  match x.run (oldKey i) with
  | some r => if r.phase = .replay then oldKey i else i
  | none => i

/-- Nothing keeps a task from its dispatch now. -/
def State.canStart (s : State) (c k : Nat) (r : TaskRun) : Bool :=
  (s.cluster c).predsDone k && !s.waitsPlace c k r && !s.waitsLog c k r && !s.waitsSlots c k r

/-- A task that has not been dispatched, whether or not its dispatch has been tried. -/
def undispatched : Option TaskRun → Bool
  | none => true
  | some r => r.phase == .held || r.phase == .waitLog || r.phase == .waitSlots

/-- Another task goes first: a replay, in plan order, the pass before ahead of this one (R304); in BATCH, a task of lower index that
is ready too (R85). -/
def State.outranked (s : State) (c k : Nat) (replay : Bool) : Bool :=
  let x := s.cluster c
  let rank (j : Nat) : Nat := if j < 4096 then j + 4096 else j - oldKey 0
  x.runs.any (fun q => q.2.phase == .replay && (!replay || decide (rank q.1 < rank k)) && s.canStart c q.1 { q.2 with replayed := true })
    || (!replay && x.batch && (List.range (min k x.taskCount)).any (fun j =>
      undispatched (x.run j) && !x.skips (dLcore (x.task j))
        && s.canStart c j ((x.run j).getD { TaskRun.init with pass := x.pass, at_ := s.now })))

/-- TASK_DISPATCH. -/
def State.dispatch (s : State) (c i : Nat) : State :=
  let x := s.cluster c
  let d := x.task i
  let k := x.dispatchKey i
  if !s.sequencing c || x.active.isNone || decide (x.taskCount ≤ i) then s
  else
    let r := (x.run k).getD { TaskRun.init with pass := x.pass, at_ := s.now }
    let replay := r.phase == .replay
    if !r.phase.waits || !x.predsDone k || (!x.batch && !replay && decide (s.inTick < dStart d)) then s
    else if !x.batch && decide (dDeadline d ≤ s.inTick) then s.skipLate c k r
    else if x.skips (dLcore d) then s.coreSkip c k
    else if s.outranked c k replay then s
    else s.tryTask c k { r with replayed := replay }

/-- SLOT_GRANT: a task that waits for slots takes them all at once (R517, R521). -/
def State.slotGrant (s : State) (c i : Nat) : State :=
  let x := s.cluster c
  if !s.sequencing c || (!x.batch && decide (dDeadline (x.task i) ≤ s.inTick)) then s
  else match x.run i with
  | some r =>
    if r.phase ≠ .waitSlots then s
    else if x.skips (dLcore (x.task i)) then s.coreSkip c i
    else if s.outranked c i false then s
    else s.tryTask c i r
  | none => s

/-- DATA_LATE: a task still waiting for slots at its deadline is not run: DATA_LATE for input slots, else START_LATE (R521). In BATCH
mode such a wait has no limit (R522). -/
def State.dataLate (s : State) (c i : Nat) : State :=
  let x := s.cluster c
  if !s.sequencing c || x.batch || decide (s.inTick < dDeadline (x.task i)) then s
  else match x.run i with
  | some r => if r.phase ≠ .waitSlots then s else s.skipLate c i r
  | none => s

/-! ## CONFIRMED_TRANSFER_START (R296, R497) -/

def State.confirmedStart (s : State) (c i : Nat) : State :=
  let x := s.cluster c
  let d := x.task i
  match x.run i with
  | some r =>
    if r.phase ≠ .waitConfirm ∨ !s.sequencing c ∨ (s.inputTag c i r.pass).isSome ∨ 8 ≤ (s.haul (s.haulKey c d)).outstanding
        ∨ (dKind d = kEgress ∧ (s.lateBy c i).isSome) then s
    else (s.modCluster c (fun x => x.setRun i { r with phase := .running, applied := s.now })).beginTransfer c i
  | none => s

/-! ## AHEAD_ISSUE (R525 to R528) -/

/-- A transfer that may run ahead (R525), and the least DEPTH of the buffers it writes. -/
def Cluster.aheadDepth (x : Cluster) (i : Nat) : Option Nat :=
  match x.active with
  | none => none
  | some p =>
    let d := x.task i
    let kindOk := dKind d = kCoreHaul ∨ (dKind d = kClusterHaul ∧ clDir d ≠ 1)
    let ws := (writeRegions d).map (fun r => p.slotsOf r)
    let rs := (readRegions d).map (fun r => p.slotsOf r)
    let hbm := dKind d == kClusterHaul && clDir d == 0
    if !decide kindOk || !(dPreds d).isEmpty || dEmpty d || ws.any (fun l => l.isEmpty) || ws.flatten.any (fun b => decide (bfDepth b.2.1 < 2))
        || !(hbm || (!rs.isEmpty && rs.all (fun l => !l.isEmpty))) then none
    else some (ws.flatten.foldl (fun m b => min m (bfDepth b.2.1)) 3)

/-- No armed swap, disarm, bank change or page change comes at or before the pass (R528). -/
def State.aheadSafe (s : State) (c i pass : Nat) : Bool :=
  let x := s.cluster c
  let d := x.task i
  let start := s.passStartAt c pass
  (match x.armed with
    | some t => decide (start < s.armClock t)
    | none => true)
    && (match x.disarm with
      | some t => decide (start < s.boundaryAt t)
      | none => true)
    && (taskBanks c x i pass).all (fun b => match (s.bank b).pending with
      | some p => decide (start < s.boundaryAt p.notBefore)
      | none => true)
    && (dKind d != kClusterHaul || clDir d != 0
      || (s.pageChanges.all (fun p => decide (p.page ≠ clPage d) || decide (start < s.boundaryAt p.notBefore))
        && s.hbmLost.all (fun l => decide (l.1 ≠ clPage d / Config.pagesPerStack) || l.2.all (fun n => decide (start < s.boundaryAt n)))))

/-- The fill of a task for a later pass may be issued now. -/
def State.canAhead (s : State) (c i k : Nat) : Bool :=
  let x := s.cluster c
  let pass := x.pass + k
  match x.aheadDepth i with
  | none => false
  | some depth =>
    decide (k + 1 ≤ depth) && !x.ahead.any (fun a => decide (a.task = i) && decide (a.pass = pass)) && x.outputsFree i pass
      && x.inputsFull i pass && s.aheadSafe c i pass && (s.dispatchFault c i pass).isNone
      && !x.isHeld (x.keysOf c pass (writeRegions (x.task i))) (fun _ => false)

/-- A transfer of the current pass is ready at the same haul engine: one that could be dispatched, or, with its data confirmed since, could
start (R296, R496, R527). -/
def State.transferReady (s : State) (c i : Nat) : Bool :=
  let x := s.cluster c
  (List.range x.taskCount).any (fun j =>
    let d := x.task j
    (dKind d == kCoreHaul || dKind d == kClusterHaul || dKind d == kRouter || dKind d == kEgress) && s.haulKey c d == s.haulKey c (x.task i)
      && (match x.run j with
        | some r =>
          if r.phase = .waitConfirm then (s.inputTag c j r.pass).isNone
          else (r.phase.waits || r.phase == .waitSlots) && x.predsDone j && (r.phase == .replay || (x.inputsFull j x.pass && x.outputsFree j x.pass))
        | none => (decide (dStart d ≤ s.inTick) || x.batch) && x.predsDone j && x.inputsFull j x.pass && x.outputsFree j x.pass))

/-- AHEAD_ISSUE: the first fill that may be issued, pass p + 1 before p + 2, in plan order. -/
def State.aheadIssue (s : State) (c i k : Nat) : State :=
  let x := s.cluster c
  let d := x.task i
  let limit := if dKind d = kCoreHaul then 4 else 8
  let same (j : Nat) : Bool := s.haulKey c (x.task j) == s.haulKey c d && (dKind (x.task j) == kCoreHaul || dKind (x.task j) == kClusterHaul)
  let before := (List.range k).tail.flatMap (fun m => (List.range x.taskCount).map (fun j => (m, j))) ++ (List.range (min i x.taskCount)).map (fun j => (k, j))
  if !s.plansRun c || x.skips (dLcore d) || decide (limit ≤ (s.haul (s.haulKey c d)).outstanding)
      || decide (x.taskCount ≤ i) || !s.canAhead c i k || s.transferReady c i || before.any (fun b => same b.2 && s.canAhead c b.2 b.1) then s
  else
    let s := s.modHaul (s.haulKey c d) (fun h => { h with outstanding := h.outstanding + 1, aheadIssued := (h.aheadIssued + 1) % 2 ^ 32 })
    s.modCluster c (fun x => { x.takeSlots i (x.pass + k) with ahead := x.ahead ++ [{ task := i, pass := x.pass + k, done := false, clashes := [] }] })

/-! ## Stops (R88, R151, R282, R311, R875, R880) -/

/-- A task that is executing is stopped at its next tile boundary; its output tiles carry LATE where the stop says so. A
WEIGHT_LOAD and a batch under way run on (R880). -/
def State.stopTask (s : State) (c i : Nat) (r : TaskRun) (late : Bool) : State :=
  let d := (s.cluster c).task i
  let q := { r with late := r.late || late }
  match dKind d with
  | 1 =>
    if r.detour then
      (if r.begun then s.modCluster c (fun x => x.setRun i { q with stopped := some s.now }) else s.stopped c i q none)
    else s.stopSlab c i q
  | 2 => s.stopOptical c i r (s.cluster c).batch late
  | 3 => s
  | 4 => s.stopVector c i r late
  | 5 => s.stopHaul c i r late
  | 6 => s.stopHaul c i r late
  | 7 => s.stopRouter c i r late
  | 9 => s.stopEgress c i q
  | _ => s.stopped c i q none

/-- Tasks of a cluster that are executing, paused or waiting for confirmation. -/
def Cluster.executing (x : Cluster) : List Nat := x.runsAt TaskRun.active

/-- Tasks of a cluster that are executing, in the order in which those on slabs apply their bench-phases: the adds and the drain of a task
come before those of one queued behind it (R123, R151). -/
def Cluster.stopOrder (x : Cluster) : List Nat :=
  sortBy (fun i => match x.run i with
    | some r => if x.onSlab i then r.applied else 0
    | none => 0) x.executing

/-- Stop the executing tasks that a condition selects; `after` follows each that was stopped short, not one that has completed with
its last tile (R875). -/
def State.stopAll (s : State) (c : Nat) (late : Bool) (sel : Nat → Bool) (after : State → Nat → State) : State :=
  forEach ((s.cluster c).stopOrder.filter sel) s (fun s i =>
    match (s.cluster c).run i with
    | some r =>
      if r.active then
        let s := s.stopTask c i r late
        if ((s.cluster c).run i).any (fun q => q.stopped.isSome) then after s i else s
      else s
    | none => s)

/-! ## DETOUR_START and SLAB_MVM_COMPLETE -/

/-- DETOUR_START: the image of an unplanned detour has been fetched (R199). -/
def State.detourStart (s : State) (k : Nat) : State :=
  let x := s.slab k
  if x.dress ≠ .detour ∨ x.detourReady ∨ x.master.isNone ∨ !s.hbmOn then s
  else
    ((s.modSlab k (fun y => { y with detourReady := true })).upkeep k upDetourStart 0xFF 0x1FF 1 (s.slabInjected k)).engineNext
      (slabCluster k)

/-! ## The rows -/

def execTaskDispatch (dt : Nat) (cluster : ClusterId) (task : Fin 4096) (s : State) : Host.Outcome State Fault Refusal :=
  .next ((s.elapse dt).dispatch cluster task)

def execSlotGrant (dt : Nat) (cluster : ClusterId) (task : Fin 4096) (s : State) : Host.Outcome State Fault Refusal :=
  .next ((s.elapse dt).slotGrant cluster task)

def execDataLate (dt : Nat) (cluster : ClusterId) (task : Fin 4096) (s : State) : Host.Outcome State Fault Refusal :=
  .next ((s.elapse dt).dataLate cluster task)

def execConfirmedTransferStart (dt : Nat) (cluster : ClusterId) (task : Fin 4096) (s : State) : Host.Outcome State Fault Refusal :=
  .next ((s.elapse dt).confirmedStart cluster task)

def execAheadIssue (dt : Nat) (cluster : ClusterId) (task : Fin 4096) (ahead : Fin 2) (s : State) : Host.Outcome State Fault Refusal :=
  .next ((s.elapse dt).aheadIssue cluster task (ahead.val + 1))

def execSlabMvmComplete (dt : Nat) (cluster : ClusterId) (task : Fin 4096) (noise : List Int) (s : State) : Host.Outcome State Fault Refusal :=
  let s := s.elapse dt
  .next ((s.slabComplete cluster (s.taskKey cluster task) noise).engineNext cluster)

def execDetourStart (dt : Nat) (slab : SlabId) (s : State) : Host.Outcome State Fault Refusal := .next ((s.elapse dt).detourStart slab)

end Sys2Proof.Machine
end

