-- ==== Sys2Proof/Machine/Confirm.lean ====
section
/-! DEFINITION. Epoch verdicts (R289 to R291, R316), confirmation (R293, R294, R299), spoils and their replay sets (R298, R303,
R877). -/

namespace Sys2Proof.Machine

/-! ## Which epochs are due (R290, R291) -/

/-- Epoch that held the moment `ago` ns before now. -/
def State.epochThen (s : State) (ago : Nat) : Nat :=
  let ns := s.timeNat - ago
  if ns < s.time.epochNotBefore then s.time.epoch else s.time.epochAt ns

/-- The last epoch that ended at least `ago` ns before now; none so soon after power-up. -/
def State.lastEnded (s : State) (ago : Nat) : Option Nat :=
  if s.timeNat < ago + 10000 then none else some ((s.epochThen ago + 4294967295) % 4294967296)

/-- Epochs from one to another, counted modulo 2^32. -/
def epDist (a b : Nat) : Nat := (b + 4294967296 - a % 4294967296) % 4294967296

/-- Epochs of an engine whose verdicts are due, in order, up to `last`: those since the latest verdict, the 64 latest of them
and before those the ones in which something happened. Where the numbering has stepped back, the open epochs of the old
numbering go first. -/
def Engine.dueEpochs (x : Engine) (last now : Nat) : List Nat :=
  let seen := x.epochs.map (fun y => y.1)
  let gap := epDist x.lastVerdict last
  let order := sortBy (fun k => 4294967296 - epDist k last)
  if !x.anyVerdict then order (seen.filter (fun k => epLe k last && k != last)) ++ [last]
  else if gap = 0 then []
  else if gap < 2147483648 then
    let n := min gap 64
    let run := (List.range n).map (fun i => (last + 4294967296 + 1 + i - n) % 4294967296)
    order (seen.filter (fun k => epLe k last && !run.contains k)) ++ run
  else order (seen.filter (fun k => k != last && !(epLe last k && epLe k now))) ++ [last]

/-! ## What a verdict says (R289) -/

/-- A switch-in of a line of cartridge `k` has begun, and is not over (R326). -/
def State.switching (s : State) (k n ep : Nat) : Bool :=
  match tabFind (s.cart k).named n with
  | some t => decide (t ≤ s.timeNat) && epLe (s.time.epochAt t) ep
  | none => false

/-- Lines whose source is missing, or is being changed, in an epoch, for the engines of a stack (R325, R326): lines with no feed,
and lines that this stack's laser is to feed to both stacks or that a spare or relit line is to feed again. -/
def State.lineChanging (s : State) (stack n ep : Nat) : Bool × Bool :=
  let since (k : Nat) : Bool := match tabFind (s.cart k).failedAt n with
    | some t => epLe (s.epochOf (t - 1000)) ep
    | none => true
  let own := s.feedOf (stack * 64 + n) == feedNone && since stack
  let twin := (tabFind (s.cart (1 - stack)).failedAt n).isSome && since (1 - stack) && (s.cart stack).gives n
  (own, twin || s.switching 0 n ep || s.switching 1 n ep)

/-- An OPTICAL_MVM or a detour batch under way integrated in the epoch; what a paused one did is marked already. -/
def State.integrating (s : State) (e ep : Nat) : Bool :=
  let x := s.cluster e
  x.runs.any (fun r => r.2.begun && r.2.phase == .running
    && (if dKind (x.task r.1) = kOptical then epLe (s.epochOf (r.2.firstSymbol (x.task r.1))) ep
      else (s.engine e).batch.any (fun b => b.2 == r.1) && epLe (s.epochOf (r.2.applied + batchLead)) ep))

/-- What the epoch has seen, by its end. Until the swap that maps it, a logical row without a physical row makes every epoch dirty (R266,
R360). -/
def State.epochSeen (s : State) (e ep : Nat) : EpochInfo :=
  let i := ((s.engine e).unmapped.filter (fun u => u.covers ep s.epochNow)).foldl EpochInfo.unmapped ((s.engine e).epochInfo ep)
  let bad := (List.range 64).filter (fun n => let c := s.lineChanging (e / 32) n ep; c.1 || c.2)
  { i with
    power := i.power || bad.any (fun n => (s.lineChanging (e / 32) n ep).1)
    forced := i.forced || !bad.isEmpty
    inj := i.inj || bad.any (fun n => s.isInjected 1 n || s.isInjected 1 (64 + n))
    line := match i.line with
      | some n => some n
      | none => bad.head?
    integrated := i.integrated || s.integrating e ep }

/-! ## Confirmation (R293, R294) -/

def AccSet.confirm (a : AccSet) (ep : Nat) : AccSet :=
  if a.unconf && !a.spoiled && epLe a.epoch ep then { a with unconf := false, epoch := 0 } else a
def AccSet.spoil (a : AccSet) (ep : Nat) : AccSet := if a.unconf && epLe ep a.epoch then { a with spoiled := true } else a
def WeightSet.confirm (a : WeightSet) (ep : Nat) : WeightSet :=
  if a.unconf && !a.spoiled && epLe a.epoch ep then { a with unconf := false, epoch := 0 } else a
def WeightSet.spoil (a : WeightSet) (ep : Nat) : WeightSet := if a.unconf && epLe ep a.epoch then { a with spoiled := true } else a
def TaskRun.confirm (a : TaskRun) (ep : Nat) : TaskRun :=
  if a.unconf && !a.spoiled && epLe a.epoch ep then { a with unconf := false, epoch := 0 } else a
def TaskRun.spoil (a : TaskRun) (ep : Nat) : TaskRun := if a.unconf && epLe ep a.epoch then { a with spoiled := true } else a

/-- Every place of a cluster that holds confirmation state: line tags, accumulator and weight sets, runs. -/
def State.mapStates (s : State) (c : Nat) (tag : Tag → Option Tag) (acc : AccSet → AccSet) (set : WeightSet → WeightSet)
    (run : TaskRun → TaskRun) : State :=
  let s := { s with
    tags := s.tags.filterMap (fun (t : Nat × Tag) => if lineCluster t.1 = c then (tag t.2).map (fun y => (t.1, y)) else some t)
    slabs := tabMap (fun _ => Slab.init) (fun k x => if slabCluster k = c then { x with live := acc x.live, shadow := acc x.shadow } else x) s.slabs }
  (s.modEngine c (fun g => { g with active := set g.active, shadow := set g.shadow })).modCluster c (fun x =>
    { x with
      runs := x.runs.map (fun (r : Nat × TaskRun) => (r.1, run r.2))
      reports := x.reports.map (fun (r : Report) => { r with tag := r.tag.bind tag }) })

/-- A task that still has to end under its log entry. -/
def Cluster.unended (x : Cluster) (e : LogEntry) : Bool :=
  match x.run e.task with
  | some r => r.pass == e.pass && r.phase != .done && r.phase != .notRun
  | none => false

/-- A clean verdict: what is of its epoch or earlier and is not spoiled is confirmed; log entries and held records go
(R293, R294, R299, R864). -/
def State.confirmTo (s : State) (c ep : Nat) : State :=
  let s := s.mapStates c (fun t => if !t.spoiled && epLe t.epoch ep then none else some t)
    (fun a => a.confirm ep) (fun a => a.confirm ep) (fun a => a.confirm ep)
  let s := s.modCluster c (fun x => { x with log := x.log.filter (fun e => e.hold || !epLe e.epoch ep || x.unended e) })
  (s.releaseHolds c).releaseHeld c (fun e => epLe e ep)

/-! ## Spoils (R298, R303, R877) -/

/-- What a dirty epoch with integration reaches is spoiled; held records and tracker reports of it are discarded (R298, R309,
R433). -/
def State.spoilFrom (s : State) (c ep : Nat) : State :=
  let s := s.mapStates c (fun t => some (if epLe ep t.epoch then { t with spoiled := true } else t))
    (fun a => a.spoil ep) (fun a => a.spoil ep) (fun a => a.spoil ep)
  (s.dropHeld c (fun e => epLe ep e)).modCluster c (fun x => { x with
    reports := x.reports.filter (fun r => !r.tag.any (fun t => t.spoiled)) })

/-- The SLAB_MVM tasks of a task's accumulation chain: back to the last that had ACC_KEEP at 0, on a slab of the task (R877). -/
def Cluster.chainOf (x : Cluster) (c i : Nat) : List Nat :=
  let d := x.task i
  if dKind d ≠ kSlab ∨ !smKeep d then [i]
  else
    let at_ (j : Nat) : Nat := match x.run j with
      | some r => r.at_
      | none => 0
    let ks := x.slabsOf c i
    let before := (sortBy at_ ((x.runs.map (fun r => r.1)).filter (fun j =>
      dKind (x.task j) == kSlab && j != i && decide (at_ j ≤ at_ i) && (x.slabsOf c j).any (fun k => ks.contains k)))).reverse
    i :: (before.takeWhile (fun j => smKeep (x.task j))) ++ ((before.dropWhile (fun j => smKeep (x.task j))).take 1)

/-- A running task that has read a spoiled line, and every running OPTICAL_MVM (R303). -/
def State.readSpoiled (s : State) (c i : Nat) (r : TaskRun) : Bool :=
  let d := (s.cluster c).task i
  if r.phase ≠ .running ∧ r.phase ≠ .paused then false
  else if dKind d = kOptical then r.begun
  else if dKind d = kSlab then r.unconf && r.spoiled
  else if waitsConfirm d then false
  else match s.inputTag c i r.pass with
  | some t => t.spoiled
  | none => false

/-- The replay set of a spoil (R303, R308, R877), in plan order; what is left of the pass before goes first. The output epoch of an
optical task that is not over is this one at the least (R292). -/
def State.replaySet (s : State) (c ep : Nat) : List Nat :=
  let x := s.cluster c
  let ofRun (e : LogEntry) : Bool := match x.run e.task with
    | some r => r.pass == e.pass
    | none => false
  let epoch (e : LogEntry) : Nat := match x.run e.task with
    | some r => if r.active && (dKind (x.task e.task) == kOptical || r.detour) then s.epochNow else e.epoch
    | none => e.epoch
  let logged := (x.log.filter (fun e => !e.hold && !e.past && ofRun e && epLe ep (epoch e))).map (fun e => e.task)
  let reading := (x.runs.filter (fun r => s.readSpoiled c r.1 r.2)).map (fun r => r.1)
  let fed := (s.slabs.filter (fun k => slabCluster k.1 == c)).flatMap (fun k =>
    (if k.2.live.spoiled then k.2.live.chain else []) ++ (if k.2.shadow.spoiled then k.2.shadow.chain else []))
  let all := (logged ++ reading ++ fed).filter (fun i => (x.run i).isSome && !(x.log.any (fun e => e.past && e.task == i && ofRun e)))
  let set := all.flatMap (x.chainOf c)
  ((List.range x.taskCount).map oldKey ++ List.range x.taskCount).filter (fun i => set.contains i)

/-- A task joins the replay set; a running one stops at its next tile boundary and keeps its slots and its entry (R303). One that has
completed with its last tile has filled and released its slots (R875). -/
def State.toReplay (s : State) (c i : Nat) : State :=
  let x0 := s.cluster c
  match x0.run i with
  | none => s
  | some r =>
    let r1 := { r with phase := .replay, begun := false, stopped := none }
    if !r.active then s.modCluster c (fun x => x.setRun i r1)
    else
      let s := if dKind (x0.task i) = kWeight ∨ r.detour then s
        else if dKind (x0.task i) = kOptical then s.stopOptical c i r true false else s.stopTask c i r false
      if ((s.cluster c).run i).any (fun q => q.phase == .done && q.stopped.isNone) then
        s.modCluster c (fun x => { x.setRun i r1 with log := if x.logged i r.pass then x.log else x0.log })
      else s.modCluster c (fun x => { x.setRun i r1 with slots := x0.slots, log := x0.log })

/-- SPOIL: the walk of the cluster's tags is over (R298, R303, R304). -/
def State.runSpoil (s : State) (e : Nat) : State :=
  match (s.engine e).spoilDue with
  | none => s
  | some (ep, inj) =>
    let s := s.spoilFrom e ep
    let set := s.replaySet e ep
    let s := s.modEngine e (fun x => { x with spoilDue := none, status := x.status.hit 3 })
    let s := s.optical e opSpoil 0x7F 0xFF ep set.length inj
    ((forEach set s (fun s i => s.toReplay e i)).releaseHolds e).engineNext e

/-! ## EPOCH_VERDICT, VERDICT_LATE, SPOIL -/


/-- The verdict of one epoch is published. -/
def State.publish (s : State) (e ep : Nat) (late : Bool) : State :=
  let i := s.epochSeen e ep
  let clean := !(i.ring || i.power || i.pilot || i.forced || late)
  let v : Verdict := { epoch := ep, clean := clean, ring := i.ring, power := i.power, pilot := i.pilot, late := late,
                       integrated := i.integrated, row := i.row.getD 0x7F, line := i.line }
  let s := s.modEngine e (fun x => { x with
    history := (v :: x.history).take 64, lastVerdict := ep, anyVerdict := true
    epochs := x.epochs.filter (fun y => !epLe y.1 ep), lastDirty := if clean then x.lastDirty else ep
    status := x.status.hitIf (!clean) 2 })
  if clean then s.confirmTo e ep
  else
    let bits := (if i.ring then 1 else 0) + (if i.power then 2 else 0) + (if i.pilot then 4 else 0) + (if late then 8 else 0)
    let s := s.optical e opDirty (i.row.getD 0x7F) (i.line.getD 0xFF) ep bits i.inj
    if !i.integrated then s
    else (s.spoilFrom e ep).modEngine e (fun x => { x with spoilDue := some (ep, i.inj) })

/-- Verdicts in order, up to one that makes a spoil due; a spoil still due has run by then (R291). `late` says which are LATE. -/
def State.publishAll (s : State) (e : Nat) (late : Nat → Bool) : List Nat → State
  | [] => s
  | ep :: rest =>
    let s := (s.runSpoil e).publish e ep (late ep)
    publishAll s e late rest

/-- EPOCH_VERDICT and VERDICT_LATE: the verdicts up to the last epoch that ended `ago` ns ago or more. Those that ended `limit` ns ago
or more close dirty with LATE (R290). -/
def State.verdict (s : State) (e ago limit : Nat) : State :=
  if !s.clocksOn then s
  else match s.lastEnded ago with
  | none => s
  | some ep => s.publishAll e (fun k => (s.lastEnded limit).any (fun l => epLe k l)) ((s.engine e).dueEpochs ep s.epochNow)

def execEpochVerdict (dt : Nat) (engine : EngineId) (s : State) : Host.Outcome State Fault Refusal :=
  .next ((s.elapse dt).verdict engine 10000 20001)

def execVerdictLate (dt : Nat) (engine : EngineId) (s : State) : Host.Outcome State Fault Refusal :=
  .next ((s.elapse dt).verdict engine 20000 20000)

def execSpoil (dt : Nat) (engine : EngineId) (s : State) : Host.Outcome State Fault Refusal :=
  .next ((s.elapse dt).runSpoil engine)

end Sys2Proof.Machine
end

