-- ==== Sys2Proof/Machine/Housekeeping.lean ====
section
/-! DEFINITION. The housekeeping slot (R87 to R90): the cut of RT plans (R88, R519), the pause of BATCH plans (R89), row
calibration (R263, R264, R358, R803), drift reads (R201, R202), spare dressing (R225), the test walker (R483 to R487), the
scale tracker (R433 to R435) and converter calibration (R793 to R804). -/

namespace Sys2Proof.Machine

/-! ## RT plans at the start of the slot (R88, R93, R519) -/

/-- A task was stopped: the miss, with the tasks that depend on it and are not run. -/
def State.cutTask (s : State) (c i : Nat) : State :=
  let x := s.cluster c
  let ds := x.dependants i
  let late := (s.lateBy c i).getD 0
  (s.modCluster c (fun x => ds.foldl Cluster.notRun x)).miss c missHkCut (dTag (x.task i)) late ds.length

/-- A task that has not been dispatched by the end of its tick, where plans are run: START_LATE, DATA_LATE or CORE_SKIP (R93, R521,
R859); a replay ends (R308). -/
def State.sweepTask (s : State) (c i : Nat) : State :=
  let x := s.cluster c
  let d := x.task i
  let r := (x.run i).getD { TaskRun.init with pass := x.pass, at_ := s.now }
  if undispatched (x.run i) then
    (if !s.plansRun c then s else if x.skips (dLcore d) then s.coreSkip c i else s.skipLate c i r)
  else if r.phase = .replay then s.modCluster c (fun x => (x.freeSlots (x.slotsLeft i r)).setRun i { r with phase := .done })
  else s

/-- CORE_SKIP is reported once per tick or pass, for the hung core that has no standby (R859). -/
def State.reportSkips (s : State) (c : Nat) : State :=
  let x := s.cluster c
  if x.skipped = 0 then s
  else
    let core := (x.hung.find? (fun h => h.2.isNone)).map (fun h => h.1)
    (s.faultEv (64 * c + core.getD 0) ftCoreSkip x.skipped x.tenant (s.isInjected 4 (64 * c + core.getD 0))).modCluster c
      (fun x => { x with skipped := 0 })

/-- The RT plan of a cluster ends its tick. A WEIGHT_LOAD under way runs on (R880). -/
def State.cutRt (s : State) (c : Nat) : State :=
  let x := s.cluster c
  let s := s.stopAll c true (fun i => dKind (x.task i) != kWeight) (fun s i => s.cutTask c i)
  let s := forEach (List.range x.taskCount) s (fun s i => s.sweepTask c i)
  let s := s.modCluster c (fun x => { x with
    slots := x.slots.filter (fun k => !(k.2.phase == .full && k.2.pass == x.pass))
    log := x.log.map (fun (e : LogEntry) => if e.hold then e else { e with past := true }) })
  s.reportSkips c

/-! ## BATCH plans (R86, R89, R875) -/

/-- A task of a BATCH plan pauses; a SLAB_MVM has one output tile under way, and a WEIGHT_LOAD, a batch and a wait for data run
on (R875, R880). DESIGN CHOICE: a SLAB_MVM that is only queued under R123 runs in the slot too, and its slab's drift reads wait for it
(assumption 104). -/
def Cluster.pauses (x : Cluster) (i : Nat) : Bool :=
  let k := dKind (x.task i)
  k != kSlab && k != kWeight && k != kIngress

def State.pauseRuns (s : State) (c : Nat) : State := s.pauseTasks c (fun i => (s.cluster c).pauses i)

def State.resumeRuns (s : State) (c : Nat) : State :=
  s.modCluster c (fun x => { x with runs := x.runs.map (fun (r : Nat × TaskRun) =>
    if r.2.phase = .paused then (r.1, r.2.resume (dKind (x.task r.1) == kOptical || dKind (x.task r.1) == kRouter) s.now s.time.lost) else r) })

/-- Every cluster's plan at the start of the slot. -/
def State.cutPlans (s : State) : State :=
  let s := s.sendsSoFar true
  forEach (s.clusters.map (fun x => x.1)) s (fun s c =>
    let x := s.cluster c
    if x.active.isNone then s else if x.batch then s.pauseRuns c else s.cutRt c)

/-- Paused BATCH tasks go on (R89), where plans run, and an engine that is free takes its next task (R287). -/
def State.resumePlans (s : State) : State :=
  if !s.runsPlans then s
  else forEach (s.clusters.map (fun x => x.1)) s (fun s c => if (s.cluster c).batch then (s.resumeRuns c).engineNext c else s)

/-! ## Row calibration (R263, R264, R358, R803) -/

/-! Pairs 65 to 128 of a row's calibration, where the operand has them: NV_TRIM and HOFS of its rings (R358, R370). -/

/-- Pair number 64 of a row's calibration, where the operand has it: OFFSET and GAIN of the row's output converter. -/
def rowConv (pairs : List (Nat × Nat)) : Option (Int × Nat) := (pairs[64]?).map (fun p => (signed 16 (p.1 % 65536), p.2 % 65536))

/-- The row in CAL completes its calibration: its records are written, and it becomes STANDBY once it has passed its checks;
otherwise it is calibrated again, with its NV_TRIM rewritten (R358; free values where the operand brings none), and a converter out of
its limits counts as a failed re-acquisition. -/
def State.finishRow (s : State) (e p : Nat) (pairs : List (Nat × Nat)) (ok stage : Bool) : State :=
  let ep := s.epochNow % 65536
  let s := s.modEngine e (fun x => { x with
    ringCal := (indexed (pairs.take 64)).foldl (fun t r => tabSet RingCal.init t (64 * p + r.1)
      { zero := r.2.1 % 1024, gain := r.2.2 % 65536, epoch := ep }) x.ringCal, calSlots := 0 })
  let s := { s.takeFree with pilotRef := tabPut s.pilotRef (rowLoop e p) s.freeNat }
  let conv := 294912 + 66 * e + p
  let trims := (pairs.drop 65).map (fun (q : Nat × Nat) => (q.1, signed 16 (q.2 % 65536)))
  let wrong := !ok && pairs.length ≤ 65
  let s := if wrong then forEach (List.range 64) s (fun s r =>
      let k := 4224 * e + 64 * p + r
      { s.takeFree with ringTrim := tabSet (0, 0) s.ringTrim k (s.freeNat % 4096, (tabGet ((0, 0) : Nat × Int) s.ringTrim k).2) })
    else s.putTrims (!ok) (4224 * e + 64 * p) trims
  let old := s.convCorr conv
  let r := (rowConv pairs).getD (old.offset, old.gain)
  let fault := if stage then some 2 else corrFault 128 0x3E00 0x4200 r.1 r.2
  let s := s.calibrated conv r.1 r.2 fault
  if ok && fault.isNone then
    let s := (s.modEngine e (fun x => { x with calRow := none, calSaved := [], rotDue := some p })).optical e opCalDone p 0xFF 0 0 false
    s.rowStandby e p
  else if fault.isNone then s
  else
    let k := rowLoop e p
    let n := (s.loop k).fails + 1
    let s := s.modLoop k (fun x => { x with fails := n })
    if n < 3 then s
    else ((s.modLoop k (fun x => { x with phase := .failed })).modEngine e (fun x =>
      { x.setRow p .failed with calRow := none, calSaved := [] })).optical e opRowFailed p 0xFF 0 0 false

/-- One slot of the calibration of the row in CAL: 32 slots complete it (R263). An abandoned calibration waits for the
rotation (R266). -/
def State.calibrateRow (s : State) (e : Nat) (result : Option (List (Nat × Nat) × Bool)) (stage : List Nat) : State :=
  let x := s.engine e
  match x.calRow with
  | none => s
  | some p =>
    if x.abandoned then s
    else
      let x1 := if x.calSaved.isEmpty then { x with calSaved := (List.range 64).map (fun r => (64 * p + r, x.ring p r)) } else x
      let s := s.setEngine e { x1 with calSlots := min (x.calSlots + 1) 32 }
      match result with
      | some r => if (s.engine e).calSlots < 32 then s else s.finishRow e p r.1 r.2 (stage.contains (294912 + 66 * e + p))
      | none => s

/-- A WEIGHT_LOAD, a refresh or a detour batch is under way on the engine (R880). -/
def State.engineLoads (s : State) (e : Nat) : Bool :=
  (s.cluster e).kindRuns kWeight || !(s.engine e).batch.isEmpty || decide (s.now < (s.engine e).refreshUntil)

/-- The calibration steps of a slot; that of an engine with such work under way waits for it (R880). -/
def State.calibrateRows (s : State) (l : List (Nat × List (Nat × Nat) × Bool)) (stage : List Nat) : State :=
  if !s.lasersOn || !s.convertersOn then s
  else forEach (List.range 64) s (fun s e =>
    let result := (l.find? (fun r => r.1 = e)).map (fun r => r.2)
    if s.engineLoads e then s.modEngine e (fun g => { g with calDue := some (result, stage) }) else s.calibrateRow e result stage)

/-- A calibration step that has waited is made once the work is over; the end of the slot ends the wait. -/
def State.waitedCal (s : State) (e : Nat) : State :=
  match (s.engine e).calDue with
  | none => s
  | some d =>
    if s.engineLoads e then s else (s.modEngine e (fun g => { g with calDue := none })).calibrateRow e d.1 d.2
def State.waitedCals (s : State) : State :=
  forEach (List.range 64) s (fun s e => (s.waitedCal e).modEngine e (fun g => if g.calDue.isNone then g else { g with calDue := none }))

/-- WEIGHT_LOAD_COMPLETE and DETOUR_BATCH_COMPLETE, with the calibration step that has waited for them (R880). -/
def execWeightLoadComplete (dt : Nat) (cluster : ClusterId) (task : Fin 4096) (collisions : List Clash) (s : State) :
    Host.Outcome State Fault Refusal :=
  .next (((s.elapse dt).weightComplete cluster task collisions).waitedCal cluster)

def execDetourBatchComplete (dt : Nat) (cluster : ClusterId) (noise : List Int) (s : State) : Host.Outcome State Fault Refusal :=
  .next (((s.elapse dt).batchComplete cluster noise).waitedCal cluster)

/-! ## Drift reads and spare dressing (R201, R202, R225, R226) -/

/-- The drift read pair of a READY slab (R201): now with no SLAB_MVM running, else once the running one has completed (R152). -/
def State.driftRead (s : State) (k : Nat) (d : Option Int) : State :=
  let v := d.getD (s.driftOf k)
  if (s.slab k).dress ≠ .ready then s
  else if s.slabRuns k then s.modSlab k (fun x => { x with driftDue := some v })
  else s.driftPair k v

/-- One pair in every READY slab. -/
def State.driftReads (s : State) (l : List (Nat × Int)) : State :=
  forEach (s.slabs.map (fun x => x.1)) s (fun s k => s.driftRead k ((l.find? (fun d => d.1 = k)).map (fun d => d.2)))

/-- A full dressing is running in the slab's core (R226). -/
def State.coreDresses (s : State) (k : Nat) : Bool :=
  (List.range 4).any (fun i => match (s.slab (k / 4 * 4 + i)).running with
    | some r => r.doneAt.isNone
    | none => false)

/-- Target of a cell: what it holds, unless its dressing left it unverified. -/
def Slab.target (x : Slab) (key : Nat) : Nat := (tabFind x.unmet key).getD (tabGet 0 x.cells key)

/-- The cells of a row of a spare take the targets of the column that it is to replace (R178). -/
def Slab.copyRow (x : Slab) (row j spare : Nat) : Slab :=
  { x with cells := tabSet 0 x.cells (cellKey row (264 + spare)) (x.target (cellKey row (x.physOf j))) }

/-- A spare's column of cells is dressed to code 0. -/
def Slab.clearSpare (x : Slab) (spare : Nat) : Slab :=
  { x with cells := x.cells.filter (fun c => c.1 % 272 ≠ 264 + spare) }

/-- One iteration of the pass on a spare: its row ends at its verify, or unverified after twelve iterations. DESIGN CHOICE: a cell left
unverified holds its target until the spare is retired (assumption 53). -/
def Slab.spareStep (x : Slab) (verified : Bool) : Slab :=
  match x.spare with
  | none => x
  | some d =>
    if 258 ≤ d.row then x
    else if verified || decide (d.iter = 11) then
      { x.copyRow d.row d.column d.spare with
        spare := some { d with row := d.row + 1, iter := 0, unverified := d.unverified || !verified } }
    else { x with spare := some { d with iter := d.iter + 1 } }

/-- One slot of a slab's spare dressing: two iterations of the pass; once all rows are over, the slot that runs finish; a spare with
an unverified cell is retired, and dressing starts again on the next. DESIGN CHOICE: where the operand brings no b of the spare, it is
the baseline of the column that the spare replaces (assumption 53). -/
def State.spareSlot (s : State) (k : Nat) (v : Bool × Bool) (b : Option Int) : State :=
  let x := s.slab k
  match x.spare with
  | none => s
  | some d =>
    if d.done || s.coreDresses k then s
    else if d.retire then
      let x := (x.clearSpare d.spare)
      let s := s.setSlab k { x with spare := none, retired := x.retired ++ [264 + d.spare], dress := .ready }
      s.beginSpare k d.column (s.slabInjected k)
    else if d.row < 258 then s.setSlab k ((x.spareStep v.1).spareStep v.2)
    else if d.unverified then s.setSlab k { x with spare := some { d with retire := true } }
    else
      let old := tabGet 0 x.baseline (x.physOf d.column)
      s.setSlab k { x with spare := some { d with done := true, base := clampI (-refLimit) refLimit (b.getD old) } }

/-- Slabs whose spare dressing has the slot: the lowest-numbered of each core (R226). -/
def State.spareTurns (s : State) : List Nat :=
  let ks := (s.slabs.filter (fun x => x.2.spare.any (fun d => !d.done))).map (fun x => x.1)
  ks.filter (fun k => !ks.any (fun j => decide (j < k) && decide (j / 4 = k / 4)))

/-- Spare dressing runs only in PS0, in one slab of a core (R226). -/
def State.spareSlots (s : State) (ok : List (Nat × Bool × Bool)) (b : List (Nat × Int)) : State :=
  forEach s.spareTurns s (fun s k =>
    s.spareSlot k (((ok.find? (fun x => x.1 = k)).map (fun x => x.2)).getD (false, false)) ((b.find? (fun x => x.1 = k)).map (fun x => x.2)))

/-! ## Test walker (R483 to R487, R301) -/

/-- The region a walker tests: local core (0xFF for cluster memory) and cluster address of its first byte (R483). -/
def walkerRegion (n : Nat) : Nat × Nat := if n < 4096 then (0xFF, 0x100000 + 256 * n) else ((n - 4096) / 256, (n - 4096) % 256 * 256)

/-- A word of a region is tested: its bank is ON and its owner is not WALKER (R486). -/
def State.walked (s : State) (c core addr : Nat) : Bool :=
  match bankOf c core addr with
  | some k => s.bankUp k && (s.bank k).owner != 5
  | none => false

/-- MEM_FAULT of a word: `mask` has its failing bits (R487, R534). -/
def State.wordFails (s : State) (c core addr mask : Nat) : State :=
  match bankOf c core addr with
  | some k =>
    let bits := (List.range 64).filter (fun i => bitAt mask i)
    if bits.isEmpty || !s.walked c core addr then s
    else (s.modBank k (fun b => { b with status := b.status.hit 13 })).memory c meFault core addr (bits.length + bits.headD 0 * 2 ^ 8)
  | none => s

/-- One region of one cluster: its words are saved, tested and restored with their tags; its lines are written by that
(R301). -/
def State.walk256 (s : State) (c : Nat) (fails : List (Nat × Nat × Nat)) : State :=
  let r := walkerRegion (s.cluster c).walker
  let s := s.modCluster c (fun x => { x with walker := (x.walker + 1) % 20480 })
  let s := forEach ((List.range 4).map (fun i => r.2 + 64 * i)) s (fun s a =>
    match keyOf c r.1 a with
    | some k => if (List.range 8).any (fun w => s.walked c r.1 (a + 8 * w)) then s.breakHolds k 64 else s
    | none => s)
  forEach (fails.filter (fun f => f.1 = c ∧ f.2.1 < 32)) s (fun s f => s.wordFails c r.1 (r.2 + 8 * f.2.1) f.2.2)

def State.walkers (s : State) (fails : List (Nat × Nat × Nat)) : State := forEach (List.range 64) s (fun s c => s.walk256 c fails)

/-! ## Scale tracker (R433 to R436) -/

/-- One history step of an entry. -/
def Scale.step (x : Scale) (obs : Word) : Scale :=
  let h := x.history ++ [obs]
  let h := h.drop (h.length - x.hist)
  let top := h.foldl (fun m o => max m o.toNat) 0
  let q := fpEncode 9 (FVal.divFp32 (fpDecode 9 top) (FVal.ofInt (if x.tgt then 448 else 127)))
  { x with history := h, obs := obs, scale := if top = 0 ∨ q = 0 then x.scale else BitVec.ofNat 32 q }

/-- A report is of confirmed data, and every line of its task's output is confirmed (R433). -/
def State.reportReady (s : State) (r : Report) : Bool :=
  r.tag.isNone && r.lines.all (fun l => (List.range l.2).all (fun i => (tabFind s.tags (l.1 + i)).isNone))

/-- The tracker's step of a cluster: entries that gained reports take the largest, in force from the next boundary. -/
def State.trackerStep (s : State) (c : Nat) : State :=
  let x := s.cluster c
  if x.reports.isEmpty then s
  else
    let due := x.reports.filter s.reportReady
    let entries := (due.map (fun r => r.entry)).dedup.filter (fun n => decide ((tabGet Scale.init x.scales n).hist ≠ 0))
    let new := entries.map (fun n =>
      let top := ((due.filter (fun r => r.entry = n)).map (fun r => r.obs.toNat)).foldl max 0
      (s.now, n, (tabGet Scale.init x.scales n).step (BitVec.ofNat 32 top)))
    s.modCluster c (fun x => { x with reports := x.reports.filter (fun r => !s.reportReady r), scaleWrites := new ++ x.scaleWrites })

/-! ## The slot -/

/-- The slot begins: 2.5 us before the end of a tick that has had none (R87). -/
def State.slotDue (s : State) : Bool :=
  s.clocksOn && !s.time.inHk && decide (s.time.tickEnd ≤ s.timeNat + 2500) && decide (s.timeNat + 2450 ≤ s.time.tickEnd)
    && s.time.hkAt != some s.time.tickCount

/-- Column converters: the spare of every slab changes place, and the freed unit is calibrated. One whose result the operand leaves out
measures what its record holds (assumption 87). -/
def State.calibrateColumns (s : State) (l : List (Nat × Option (Int × Nat))) : State :=
  let ks := ((s.slabs.map (fun x => x.1)) ++ (l.map (fun x => x.1)).filter (fun k => decide (k < 16384))).dedup
  forEach ks s (fun s k => s.calibrateColumn k (((l.find? (fun x => x.1 = k)).map (fun x => x.2)).getD (some (s.spareCorr k))))

/-- HOUSEKEEPING_SLOT: plans are cut or paused, then the work of the slot is done. DESIGN CHOICE: drift reads, for which
R201 names no power state, run in PS0 alone (assumption 52), as the walker and the columns' calibration do (R483, R795). -/
def State.housekeeping (s : State) (input : HkInput) : State :=
  if !s.slotDue then s
  else
    let s := s.cutPlans.modTime (fun t => { t with inHk := true, hkAt := some t.tickCount })
    let s := s.calibrateRows input.rowCal input.stageFail
    let s := forEach (s.clusters.map (fun x => x.1)) s (fun s c => s.trackerStep c)
    let s := s.calibrateMonitors input.bandgap input.mcCal input.stageFail
    if s.power.pstate ≠ .ps0 then s
    else
      let s := s.driftReads input.drift
      let s := s.spareSlots input.spare input.spareB
      (s.walkers input.memFail).calibrateColumns input.colCal

/-- What ends with the slot: drift reads that did not come, and the monitor converters' corrections (R152, R804). -/
def State.slotOver (s : State) : State := s.waitedCals.driftOver.monitorsMeasured

/-- HOUSEKEEPING_END: the slot ends with the tick; paused BATCH tasks resume (R89). -/
def State.housekeepingEnd (s : State) : State :=
  if !s.time.inHk || decide (s.timeNat + 50 < s.time.tickEnd) then s
  else (s.slotOver.modTime (fun t => { t with inHk := false })).resumePlans

def execHousekeepingSlot (dt : Nat) (input : HkInput) (s : State) : Host.Outcome State Fault Refusal :=
  .next ((s.elapse dt).housekeeping input)

def execHousekeepingEnd (dt : Nat) (s : State) : Host.Outcome State Fault Refusal :=
  .next ((s.elapse dt).housekeepingEnd)

end Sys2Proof.Machine
end

