-- ==== Sys2Proof/Machine/Upkeep.lean ====
section
/-! DEFINITION. Slab upkeep outside the housekeeping slot: AGE_TRIM (R203, R204), age re-dressing (R191), dressing from its
start to its return to service (R180 to R189, R192, R195, R878), and banks that complete a transition (R479, R480). -/

namespace Sys2Proof.Machine

/-! ## AGE_TRIM_UPDATE, AGE_REDRESS -/

/-- AGE_TRIM before its limits, from the normalised pairs; with a mean of zero it is a free value. -/
def Slab.trimOf (x : Slab) (free : Nat) : Int :=
  if x.driftSum = 0 then free
  else divRound (16384 * x.driftBase * x.driftPairs * 1048576 * (if x.driftSum < 0 then -1 else 1)) x.driftSum.natAbs

def trimLow : Int := 0x3800
def trimHigh : Int := 0x5000

/-- AGE_TRIM_UPDATE: after 64 normalised pairs. -/
def State.ageTrim (s : State) (k : Nat) : State :=
  let x := s.slab k
  if x.driftPairs < 64 then s
  else
    let t := x.trimOf s.freeNat
    let s := s.takeFree.setSlab k { x with ageTrim := (clampI trimLow trimHigh t).toNat, driftPairs := 0, driftSum := 0 }
    if trimLow ≤ t ∧ t ≤ trimHigh then s
    else (((s.modSlab k (fun y => { y with status := y.status.hit 10 })).upkeep k upDriftLimit 0xFF 0x1FF (detSigned t) false)).queueDress
      k 1 none

/-- REDRESS_AGE in seconds; never for 0xFFFFFFFF. -/
def Slab.redressAt (x : Slab) : Option Nat :=
  if x.redressAge = 0xFFFFFFFF then none else some (if x.redressAge = 0 then Config.redressAge else x.redressAge)

/-- AGE_REDRESS. -/
def State.ageRedress (s : State) (k : Nat) : State :=
  let x := s.slab k
  match x.redressAt with
  | some n => if s.mbx.fw = .running ∧ x.dress ≠ .blank ∧ x.ageValid s.time ∧ n ≤ x.age s.time then s.queueDress k 3 none else s
  | none => s

/-! ## Which dressing starts (R185 to R188, R192, R655, R878) -/

/-- What ended at a clock, or has not ended, takes a slot that must have been free 5 us before the boundary now (R185). -/
def State.takenUntil (s : State) (end_ : Option Nat) : Bool :=
  match end_ with
  | none => true
  | some t => decide (s.startClock < t + Config.leadNs)

/-- The dressing still counts against the slots: under way, or complete for less than 5 us. -/
def State.slotTaken (s : State) (x : Slab) : Bool :=
  match x.running with
  | some r => s.takenUntil r.doneAt
  | none => false

/-- A strip counts against the slots of its cluster's cores. -/
def State.stripTakes (s : State) (x : Cluster) : Bool :=
  (match x.strip with
  | some y => y.running
  | none => false) || (match x.stripEnd with
  | some t => s.takenUntil (some t)
  | none => false)

/-- Dressing slots that are taken in the module: 64 for each cluster that strips. -/
def State.slotsTaken (s : State) : Nat :=
  (s.slabs.filter (fun x => s.slotTaken x.2)).length + 64 * (s.clusters.filter (fun x => s.stripTakes x.2)).length

/-- The dressing slot of a slab's core is free. -/
def State.coreFree (s : State) (k : Nat) : Bool :=
  !((List.range 4).any (fun i => s.slotTaken (s.slab (k / 4 * 4 + i)))) && (s.cluster (slabCluster k)).strip.isNone
    && !s.stripTakes (s.cluster (slabCluster k))

/-- A strip waits for its slots, ahead of every queued dressing. -/
def State.stripDue (s : State) : Bool :=
  s.clusters.any (fun x => match x.2.strip with
    | some y => !y.running && decide (y.notBefore ≤ s.now)
    | none => false)

/-- The copy that a queued dressing would read. -/
def State.dressSource (s : State) (k : Nat) : Option (Nat × Nat) :=
  match (s.slab k).queued with
  | some q => s.tileAt (s.cluster (slabCluster k)).tenant (q.params.getD (s.slab k).paramsNow).tileId
  | none => none

/-- A queued dressing may start: its copy is mapped, the temperature is 20 to 95 degC, its core's slot is free. -/
def State.mayDress (s : State) (k : Nat) : Bool :=
  let t := s.slabTemp (slabCluster k)
  (s.dressSource k).isSome && decide (80 ≤ t) && decide (t ≤ 380) && s.coreFree k

/-- Dressings may start at all: in PS0 with no other state asked for, the firmware running, a module-wide slot free. -/
def State.dressingOpen (s : State) : Bool :=
  s.power.boot == .serving && s.power.pstate == .ps0 && s.power.target.isNone && !s.power.stopDue && s.mbx.fw == .running
    && !s.stripDue && decide (s.slotsTaken < 1024)

/-! ## DRESS_START (R181, R184, R189) -/


/-- Tasks that name the slab and run on cells. -/
def State.onCells (s : State) (k : Nat) : List Nat := (s.cluster (slabCluster k)).onSlabs (slabCluster k) k

/-- The dressing begins: the cells are reset and will take the targets of the copy, read under the key of this moment (R194), row by row;
the faults injected on the slab end (R867), and what stood about its seams. -/
def State.beginDress (s : State) (k : Nat) (q : QueuedDress) (page ofs : Nat) : State :=
  let x := s.slab k
  let c := slabCluster k
  let m := s.copyMap page ofs
  let run := s.onCells k
  let inj := s.slabInjected k
  let cells := s.copyCells page ofs
  let r : RunningDress :=
    { params := q.params.getD x.paramsNow, startedAt := s.now, doneAt := none, page := page, ofs := ofs, map := m, digest := s.copyDigest page ofs
      retired := none, spares := []
      codes := (indexed cells).foldl (fun t e => if e.2.toNat % 4 = 0 then t else t ++ [(e.1, e.2.toNat % 4)]) []
      goal := x.dressed m cells, free := s.free }
  let y : Slab := { x with
    dress := .dressing, queued := none, cells := [], unmet := [], recon := [], seamOff := [], mismatch := none,
    handled := [], kept := [], spare := none, running := some r }
  let s1 := { s.setSlab k y with
    free := s.free + 258 * 272, faults := s.faults.filter (fun f => !(decide (f.kind = 3) && decide (f.target / 272 = k))) }
  let s2 := if x.inService then s1.upkeep k upDetourStart 0xFF 0x1FF 0 inj else s1
  (forEach run s2 (fun s i => s.toDetour c i)).engineNext c

/-- DRESS_START, at a tick boundary: the first queued dressing that may start. A copy whose map breaks R103 ends it at once. -/
def State.dressStart (s : State) (k : Nat) : State :=
  if !s.atStart || !s.dressingOpen || (s.dressQueue.find? s.mayDress) != some k then s
  else match (s.slab k).queued, s.dressSource k with
  | some q, some m =>
    (match mapFault (s.copyMap m.1 m.2) with
    | some col => (s.modSlab k (fun x => { x with queued := none })).upkeep k upMapInvalid 0xFF 0x1FF col (s.slabInjected k)
    | none => s.beginDress k q m.1 m.2)
  | _, _ => s

/-! ## DRESS_DONE (R180, R183, R195) -/

/-- Weight of an output in a row of the tile dressed, from its codes (R99 to R101), as a detour image stores it (R286). -/
def Slab.imageWeight (x : Slab) (codes : Tab Nat) (o r : Nat) : Int :=
  match x.outCols o with
  | [] => 0
  | j :: t =>
    let f := cmFmt (nth 0 x.map j)
    let code (sl : Nat) : Nat := match (j :: t).find? (fun i => cmSlice (nth 0 x.map i) == sl) with
      | some i => tabGet 0 codes (256 * r + i)
      | none => 0
    if f = 2 then 16 * ((4 * code 1 + code 0 : Nat) - 8 : Int) else ((64 * code 3 + 16 * code 2 + 4 * code 1 + code 0 : Nat) - 128 : Int)

/-- The detour image (R195): byte 64 * r + n of block 4 * b + i is the weight of output 64 * b + r and input row 64 * i + n. -/
def Slab.detourImage (x : Slab) (codes : Tab Nat) : List Byte :=
  (List.range (ceilDiv x.outputs 64 * 16384)).map (fun a =>
    let o := a / 16384 * 64 + a / 64 % 64
    BitVec.ofNat 8 (unsigned 8 (x.imageWeight codes o (a % 16384 / 4096 * 64 + a % 64))))

/-- finish() of R180: b of the columns read, DRIFT_BASE over the active ones, the trim and the record. -/
def State.finishRecord (s : State) (k : Nat) (r : RunningDress) (b : List (Nat × Int)) : State :=
  let x := s.slab k
  let base := (List.range 264).map (fun j =>
    let p := x.physOf j
    (p, clampI (-refLimit) refLimit (((b.find? (fun y => y.1 = p)).map (fun y => y.2)).getD (s.refRead k j))))
  s.setSlab k { x with
    map := r.map, outputs := mapOutputs r.map, digest := r.digest, tileId := r.params.tileId, seamThresh := r.params.seamThresh
    redressAge := r.params.redressAge, model := r.params.model, sealed_ := false
    baseline := base.foldl (fun t y => tabSet 0 t y.1 y.2) [], driftBase := sumI (base.map (fun y => y.2))
    ageTrim := 0x4000, driftPairs := 0, driftSum := 0, tDress := s.slabTemp (slabCluster k), dressTime := s.time.timeNs
    dressClock := s.now, timebase := !s.time.tai, thisPower := true }

/-- A column with an unverified cell passes to the lowest free spare, whose cells take its targets, and is dressed to code 0. -/
def Slab.retireColumn (x : Slab) (j : Nat) : Slab :=
  match x.freeSpares with
  | [] => x
  | i :: _ =>
    let p := x.physOf j
    let moved := x.cells.filterMap (fun (c : Nat × Nat) => if c.1 % 272 = p then some (cellKey (c.1 / 272) (264 + i), c.2) else none)
    let y := x.remapTo i j
    { y with cells := moved.foldl (fun t (c : Nat × Nat) => tabPut t c.1 c.2) (x.cells.filter (fun c => c.1 % 272 ≠ p)) }

/-- A cell verifies: its read in the fine range is within 2 cell units of 15 times its target (R179, R180). Targets of seam columns
count in 1/32 cell units. -/
def verifies (den target : Nat) (g : Int) : Bool :=
  decide (((den : Int) * clampI (-fineLimit) fineLimit g - 15 * target).natAbs ≤ 2 * den)

/-- Cells that do not verify, as row and column, of active columns or, from 264 on, of spares. -/
def Slab.unverified (x : Slab) (r : RunningDress) (reads : List (Nat × Nat × Int)) : List (Nat × Nat) :=
  (reads.filter (fun y => decide (y.1 < 258) && decide (y.2.1 < 272)
    && (let p := if y.2.1 < 264 then x.physOf y.2.1 else y.2.1
        let seam := match x.columnOf p with
          | some j => decide (256 ≤ j)
          | none => false
        !verifies (if seam then 32 else 1) (tabGet 0 r.goal (cellKey y.1 p)) y.2.2))).map (fun y => (y.1, y.2.1))

/-- Unverified cells hold free codes; their targets are kept beside them. -/
def Slab.spoilCells (x : Slab) (r : RunningDress) (l : List (Nat × Nat)) : Slab :=
  let ks := l.map (fun y => cellKey y.1 (if y.2 < 264 then x.physOf y.2 else y.2))
  { x with
    cells := ks.foldl (fun t k => tabSet 0 t k (x.freeCell r.free k)) x.cells
    unmet := ks.foldl (fun t k => tabPut t k (tabGet 0 x.cells k)) x.unmet }

/-- The detour image goes beside the master copy (R195). -/
def State.writeImage (s : State) (k : Nat) (r : RunningDress) : State :=
  if (s.page r.page).kind = 1 then s.hbmWrite (hbmKey r.page (r.ofs + Config.detourOfs)) ((s.slab k).detourImage r.codes) else s

/-- The master copy that a dressing has read still stands (R34): its page is the tenant's MODEL page, and stays so. -/
def State.stillMapped (s : State) (k : Nat) (r : RunningDress) : Bool :=
  (s.page r.page).kind == 1 && (s.page r.page).tenant == (s.cluster (slabCluster k)).tenant
    && !s.pageChanges.any (fun p => p.page == r.page && p.entry.kind != 1)

/-- The master copy of the tile that a dressing has written: the one it read, or, where its page has been released since, an equal one
that is mapped (R34, R171). DESIGN CHOICE: a tile that has none is not BOUND (assumption 53). -/
def State.copyOf (s : State) (k : Nat) (r : RunningDress) : Option (Nat × Nat) :=
  if s.stillMapped k r then some (r.page, r.ofs)
  else (s.tileAt (s.cluster (slabCluster k)).tenant r.params.tileId).filter (fun m => s.copyDigest m.1 m.2 = r.digest)

/-- 4,000 us from the start: the first finish; columns with an unverified cell are retired, each to the lowest free spare (R180, R181).
DESIGN CHOICE: they take the spares in the order in which the reads list them (assumption 53). -/
def State.firstFinish (s : State) (k : Nat) (r : RunningDress) (out : DressOutcome) : State :=
  let y : Slab := { s.slab k with cells := r.goal }
  let l := y.unverified r (out.reads.filter (fun e => decide (e.2.1 < 264)))
  let bad := (l.map (fun e => e.2)).dedup
  let short := decide (y.freeSpares.length < bad.length)
  let z := if short then y.spoilCells r l else bad.foldl Slab.retireColumn y
  let r := { r with
    retired := some bad, goal := z.cells, spares := if short then [] else (y.freeSpares.take bad.length).map (264 + ·) }
  (s.setSlab k { z with running := some r }).finishRecord k r out.b

/-- The dressing ends: FAILED where too few spares were free; else, after the second finish where a second pass ran, the slab is BOUND and
returns at the boundary of R182. -/
def State.endDress (s : State) (k : Nat) (r : RunningDress) (bad : List Nat) (out : DressOutcome) : State :=
  let m := s.copyOf k r
  let ended (y : Slab) : Slab := { y with
    dressCount := (y.dressCount + 1) % 256, running := some { r with doneAt := some s.now }, master := m }
  if r.spares.length < bad.length then
    let s := s.modSlab k (fun y => { ended y with
      dress := .failed, status := y.status.hit 11, bound := y.bound && m.isSome, master := if y.bound then m else none })
    (s.writeImage k r).upkeep k upDressFail 0xFF 0x1FF bad.length false
  else
    let y : Slab := { s.slab k with cells := r.goal }
    let s := if bad.isEmpty then s else
      (s.setSlab k (y.spoilCells r (y.unverified r (out.reads.filter (fun e => r.spares.contains e.2.1))))).finishRecord k r out.b
    let s := s.modSlab k (fun y => { ended y with bound := m.isSome })
    (s.writeImage k r).upkeep k upDressDone 0xFF 0x1FF bad.length false

/-- DRESS_DONE: the finish of 4,000 us, with which a dressing that retires no column completes, and that of 7,900 us (R180, R181). -/
def State.dressDone (s : State) (k : Nat) (out : DressOutcome) : State :=
  match (s.slab k).running with
  | none => s
  | some r =>
    if r.doneAt.isSome ∨ s.now < r.startedAt + 4000000 then s
    else
      let s := if r.retired.isSome then s else s.firstFinish k r out
      match (s.slab k).running with
      | none => s
      | some r =>
        let bad := r.retired.getD []
        if bad.isEmpty ∨ r.startedAt + 7900000 ≤ s.now then s.endDress k r bad out else s

/-- DETOUR_END: the slab returns to service at the first boundary at least 5 us after its dressing completed. -/
def State.detourEnd (s : State) (k : Nat) : State :=
  let x := s.slab k
  match x.dress, x.running.bind (fun r => r.doneAt) with
  | .dressing, some t =>
    if !s.atStart || decide (s.startClock < t + Config.leadNs) then s
    else (s.setSlab k { x with dress := .ready, running := none, detourReady := false }).upkeep k upDetourEnd 0xFF 0x1FF 0 false
  | _, _ => s

/-! ## BANK_POWER_DONE -/

/-- Banks of a memory of a cluster: 0xFF is its cluster memory, below 64 the scratch of a core. -/
def memBanks (c mem : Nat) : List Nat :=
  if mem = 0xFF then (List.range 32).map (fun b => c * 544 + b)
  else if mem < 64 then (List.range 8).map (fun b => c * 544 + 32 + 8 * mem + b) else []

/-- Banks that hold words of a line. -/
def lineBanks (l : Nat) : List Nat :=
  let c := lineCluster l
  if l < 0x100000 then (List.range 8).map (fun w => c * 544 + (8 * l + w) % 32)
  else (List.range 8).map (fun w => c * 544 + 32 + 8 * ((l - 0x100000) / 1024 % 64) + w)

/-- BANK_POWER_DONE: the banks of the memory that were in transition are in their new state. A bank that leaves OFF is
zeroised, and the tag of a line is cleared with the last bank of it that does. -/
def State.bankDone (s : State) (c mem : Nat) : State :=
  let l := (memBanks c mem).filter (fun k => (s.bank k).moving)
  let zero := l.filter (fun k => (s.bank k).fromOff)
  let s := ({ s with tags := s.tags.filter (fun t => !(lineBanks t.1).all (fun k => zero.contains k)) } : State).wipe (fun a =>
    decide (a < hbmKey 0 0) && zero.contains (nth 0 (lineBanks (lineOf a)) (a % 64 / 8)))
  let s := if zero.any (fun k => decide (k % 544 < 32)) then s.rereadTop c else s
  forEach l s (fun s k => s.modBank k (fun b => { b with moving := false, fromOff := false }))

/-! ## The rows -/

def execAgeTrimUpdate (dt : Nat) (slab : SlabId) (s : State) : Host.Outcome State Fault Refusal := .next ((s.elapse dt).ageTrim slab)

def execAgeRedress (dt : Nat) (slab : SlabId) (s : State) : Host.Outcome State Fault Refusal := .next ((s.elapse dt).ageRedress slab)

def execDressStart (dt : Nat) (slab : SlabId) (s : State) : Host.Outcome State Fault Refusal := .next ((s.elapse dt).dressStart slab)

def execDressDone (dt : Nat) (slab : SlabId) (outcome : DressOutcome) (s : State) : Host.Outcome State Fault Refusal :=
  .next ((s.elapse dt).dressDone slab outcome)

def execDetourEnd (dt : Nat) (slab : SlabId) (s : State) : Host.Outcome State Fault Refusal := .next ((s.elapse dt).detourEnd slab)

def execBankPowerDone (dt : Nat) (cluster : ClusterId) (mem : Byte) (s : State) : Host.Outcome State Fault Refusal :=
  .next ((s.elapse dt).bankDone cluster mem.toNat)

end Sys2Proof.Machine
end

