-- ==== Sys2Proof/Machine/Strips.lean ====
section
/-! DEFINITION. The re-encryption pass of a key rotation (R651 to R654) and the strip of a cluster (R655 to R658). -/

namespace Sys2Proof.Machine

/-! ## REKEY_CHUNK -/

/-- Die stack of a page (R488). -/
def pageStack (p : Nat) : Nat := p / (6 * Config.pagesPerStack)

/-- Pages of a tenant under a generation, in ascending order. -/
def State.pagesUnder (s : State) (t g : Nat) : List Nat :=
  (s.pages.filter (fun x => decide (x.2.kind ≠ 0) && decide (x.2.tenant = t) && decide (x.2.keyGen = g))).map (fun x => x.1)

/-- With no page left under the older generation, its key is destroyed (R653). -/
def State.retireKey (s : State) (t : Nat) : State :=
  match (s.tenant t).genOld with
  | none => s
  | some g =>
    if !(s.pagesUnder t g).isEmpty then s
    else (s.modTenant t (fun x => { x with genOld := none, keys := tabDel x.keys g, rekey := [], holdUntil := [] })).trustEv t trKeyRetired 0xFF g

/-- The lines of a run that were under one key are under another. -/
def reseal (first last old new : Nat) (l : List Seal) : List Seal :=
  l.flatMap (fun y =>
    if y.key ≠ old ∨ last < y.first ∨ y.last < first then [y]
    else (if y.first < first then [{ y with last := first - 1 }] else [])
      ++ [{ first := max first y.first, last := min last y.last, key := new }]
      ++ (if last < y.last then [{ y with first := last + 1 }] else []))

/-- The hold of the chunk that the pass of a die stack is at has ended. -/
def State.holdOver (s : State) (t stack : Nat) : Bool := (tabFind (s.tenant t).holdUntil stack).all (fun h => decide (h ≤ s.now))

/-- With the last chunk of a page done, its KEY_GEN becomes current, and with the last page the older key goes (R651, R653). -/
def State.settleRekey (s : State) (t stack : Nat) : State :=
  match tabFind (s.tenant t).rekey stack with
  | some (p, 128) =>
    if !s.holdOver t stack then s
    else ((s.setPage p { s.page p with keyGen := (s.tenant t).genCur }).modTenant t (fun x => { x with rekey := tabDel x.rekey stack })).retireKey t
  | _ => s

/-- Time that the pass takes for a chunk: 64 KiB at 32 GB/s at least (R651), 5 us at most (R652). -/
def State.chunkTime (s : State) : Nat := 2048 + s.freeNat % 2953

/-- REKEY_CHUNK: the pass of a die stack takes up the next of the 128 chunks of the page that it is at, once no transfer that touches it
is under way, and holds it while it rewrites it (R651, R652). -/
def State.rekeyChunk (s : State) (t stack : Nat) : State :=
  let s := s.settleRekey t stack
  match (s.tenant t).genOld, decide (s.power.pstate = .ps0) && s.clocksOn && s.holdOver t stack with
  | some g, true =>
    (match (s.pagesUnder t g).filter (fun p => pageStack p == stack) with
    | [] => s.retireKey t
    | p :: _ =>
      let n := match tabFind (s.tenant t).rekey stack with
        | some w => if w.1 = p then w.2 + 1 else 1
        | none => 1
      let lo := hbmKey p ((n - 1) * 0x10000)
      let hi := hbmKey p (n * 0x10000)
      if s.inFlight lo hi then s
      else
        let hold := s.now + s.chunkTime
        let s := { s.takeFree with seals := reseal (lo / 64) (hi / 64 - 1) (s.keyNo t g) (s.keyNo t (s.tenant t).genCur) s.seals }
        s.modTenant t (fun x => { x with rekey := tabPut x.rekey stack (p, n), holdUntil := tabPut x.holdUntil stack hold }))
  | _, _ => s

/-! ## STRIP_START -/

/-- Memory keys of a cluster: its cluster memory and the scratch of its cores. -/
def ofCluster (c k : Nat) : Bool :=
  (decide (cmKey c 0 ≤ k) && decide (k < cmKey (c + 1) 0)) || (decide (scKey (64 * c) 0 ≤ k) && decide (k < scKey (64 * c + 64) 0))

/-- Clusters that strip. -/
def State.strips (s : State) : Nat := (s.clusters.filter (fun x => match x.2.strip with
  | some y => y.running
  | none => false)).length

/-- A slab as its strip begins: its dressings are discarded or abandoned, its accumulators zeroised. A slab under dressing is
stripped, SEALED before or not. -/
def Slab.stripping (x : Slab) : Slab :=
  let cut := match x.running with
    | some r => r.doneAt.isNone
    | none => false
  { x with
    dress := if cut then .incomplete else x.dress, sealed_ := x.sealed_ && !cut, queued := none, running := none, spare := none
    recon := [], seamOff := [], mismatch := none, handled := [], kept := [], unmet := [], live := AccSet.init, shadow := AccSet.init, zskip := 0
    driftPairs := 0, driftSum := 0, detourReady := false }

/-- The receivers of a stripped cluster are not valid, and its transmitters are dark to every other. -/
def State.darkRouter (s : State) (c : Nat) : State :=
  let es := s.phaseNow
  let listed (d k : Nat) : Option Nat := Phase.source { start := 0, entries := es } d k
  let s := s.modFabric (fun f => { f with packets := f.packets.filter (fun p => p.dest != c && p.src != c) })
  forEach (List.range 64) s (fun s d => s.modCluster d (fun x => { x with
    locked := BitVec.ofNat 4 (((List.range 4).map (fun k =>
      if x.locked.getLsbD k && d != c && listed d k != some c then 2 ^ k else 0)).sum) }))

/-- Transfers that lead out of the cluster stop at their next unit: what they have moved by then stays moved (R656). -/
def State.stopOutward (s : State) (c : Nat) : State :=
  let out (d : Desc) : Bool := dKind d == kRouter || dKind d == kEgress || (dKind d == kClusterHaul && clDir d == 1)
  s.stopAll c false (fun i => out ((s.cluster c).task i)) (fun s _ => s)

/-- The step table of R656, to the zero-weight codes: from the boundary the cluster belongs to no tenant. -/
def State.beginStrip (s : State) (c : Nat) (y : Strip) : State :=
  let s := s.stopOutward c
  let s := (s.trustEv (s.cluster c).tenant trStripStart c 0).cancelAhead c (fun _ => true)
  let ps := (s.fabric.partners.filter (fun x => decide (x.1 ≠ 0) && peCluster x.2 == c)).map (fun x => x.1)
  let s := ((forEach ps s (fun s i => s.detach i)).darkRouter c).wipe (ofCluster c)
  let s := { s with
    tags := s.tags.filter (fun t => lineCluster t.1 ≠ c)
    slabs := tabMap (fun _ => Slab.init) (fun k x => if slabCluster k = c then x.stripping else x) s.slabs
    banks := tabMap Bank.init (fun k b => if k / 544 = c then { b with power := .on, moving := false, fromOff := false, pending := none } else b) s.banks
    hauls := tabMap (fun _ => Haul.init) (fun k h => if k / 65 = c then { h with outstanding := 0 } else h) s.hauls }
  let s := s.modEngine c (fun g => { g with
    active := WeightSet.init, shadow := WeightSet.init, refreshDue := false, batch := [], spoilDue := none })
  s.modCluster c (fun x => { x.cold with strip := some { y with running := true, startedAt := s.now } })

/-- STRIP_START, at a tick boundary: 64 slots are free, at most 16 strips run. -/
def State.stripStart (s : State) (c : Nat) : State :=
  match (s.cluster c).strip with
  | some y =>
    if y.running || !s.atStart || decide (s.now < y.notBefore) || !s.linksOn || decide (16 ≤ s.strips) || decide (960 < s.slotsTaken) then s
    else s.beginStrip c y
  | none => s

/-! ## STRIP_DONE (R656, R657, R473, R642) -/

/-- A stripped slab: BLANK, with no tile; SEALED slabs are skipped. -/
def Slab.stripped (x : Slab) : Slab :=
  if x.sealed_ then x
  else { x with
    dress := .blank, cells := [], map := Slab.init.map, outputs := 0, tileId := 0, digest := 0, bound := false, master := none
    pinned := false }

/-- STRIP_DONE, once round 3 has ended: the cluster belongs to its new tenant, with the owners of reset; a tenant to be deleted goes with
its last cluster. -/
def State.stripDone (s : State) (c : Nat) : State :=
  match (s.cluster c).strip with
  | some y =>
    if !y.running ∨ s.now < y.startedAt + 15900000 then s
    else
      let old := (s.cluster c).tenant
      let s := { s with
        slabs := tabMap (fun _ => Slab.init) (fun k x => if slabCluster k = c then x.stripped else x) s.slabs
        banks := tabMap Bank.init (fun k b => if k / 544 = c then { Bank.init k with status := b.status } else b) s.banks }
      let s := (s.modCluster c (fun x => { x with tenant := y.target, strip := none, stripEnd := some s.now })).trustEv old trStripDone c y.target
      if (s.tenant old).deleting && (List.range 64).all (fun d => (s.cluster d).tenant != old) then s.deleteTenant old 3 else s
  | none => s

def execRekeyChunk (dt : Nat) (tenant : TenantId) (stack : Fin 2) (s : State) : Host.Outcome State Fault Refusal :=
  .next ((s.elapse dt).rekeyChunk tenant stack)

def execStripStart (dt : Nat) (cluster : ClusterId) (s : State) : Host.Outcome State Fault Refusal :=
  .next ((s.elapse dt).stripStart cluster)

def execStripDone (dt : Nat) (cluster : ClusterId) (s : State) : Host.Outcome State Fault Refusal :=
  .next ((s.elapse dt).stripDone cluster)

end Sys2Proof.Machine
end

