-- ==== Sys2Proof/Machine/Boundary.lean ====
section
/-! DEFINITION. TICK_BOUNDARY: the tick begins (R45 to R48, R56, R60), the relay watch (R66, R67), what commands deferred to a
boundary (R76 to R82, R227, R426, R474, R479, R492, R568, R586, R650, R745), and new passes (R85, R86, R513, R526). -/

namespace Sys2Proof.Machine

/-! ## The grid -/

/-- How far from its grid point in TIME_NS a boundary may come (02, Tick timing limits). -/
def TimeState.slack (t : TimeState) : Nat :=
  match t.selected with
  | some x => match x.kind with
    | .ptp => 50
    | .relay => 100
    | .tickIn => 10
  | none => 10

/-- The grid point that a boundary now stands for: the latest one within the limits. -/
def State.boundaryPoint (s : State) : Nat :=
  let p := periodNs s.time.period
  (s.time.gridPos (s.timeNat + s.time.slack) / p * p + s.time.frameOffset).toNat

/-- In TICK_IN mode a boundary stands 100 ns ± 10 ns after its edge, but for the time of a slew: it waits for an edge that comes late in
its window (R60). -/
def State.edgeStands (s : State) : Bool :=
  match s.time.selected with
  | some x =>
    if x.kind = .tickIn ∧ x.qualified ∧ s.time.slew = 0 then
      (match x.last with
      | some e => decide (e + 90 ≤ s.now) && decide (s.now ≤ e + 110)
      | none => false)
    else true
  | none => true

/-- How late a boundary may come: the one that waited for an edge of a TICK_IN that was lost in this tick may come after the end of the
edge's window. DESIGN CHOICE (assumption 33). -/
def TimeState.lateBy (t : TimeState) : Nat :=
  match t.sources[t.srcIndex]? with
  | some x => if x.kind = .tickIn ∧ t.lostAt = some t.tickCount then 1000 else t.slack
  | none => t.slack

/-- A boundary may come now: its grid point is new, stands here within the limits, and no lengthened tick runs on (R57). -/
def State.boundaryDue (s : State) : Bool :=
  s.clocksOn && decide (s.time.tickNotBefore ≤ s.boundaryPoint) && decide (s.time.tickStart < s.boundaryPoint)
    && decide (s.timeNat ≤ s.boundaryPoint + s.time.lateBy) && s.edgeStands

/-- Slew: up to 50 ns a tick (R56). -/
def State.slewTick (s : State) : State :=
  let d := clampI (-50) 50 s.time.slew
  (s.steer (-d)).modTime (fun t => { t with slew := t.slew - d })

/-- The new tick: its start and its numbers. -/
def State.beginTick (s : State) (b : Nat) : State :=
  s.modTime (fun t => { t with
    tickStart := b, frame := t.frameAt b, tick := t.tickAt b, tickCount := t.tickCount + 1, inHk := false })

/-! ## Relay watch (R66, R67, R861) -/

/-- HELD is entered, and the state before it kept. -/
def State.hold (s : State) : State :=
  (s.modRelay (fun r => { r with heldFrom := s.time.srcState, heldExit := none, valid := 0 })).modTime (fun t => { t with srcState := .held })

/-- The source state after HELD: the one before it; a source in use that has gone leaves holdover. -/
def State.afterHeld (s : State) : SrcState :=
  if s.fabric.relay.heldFrom = .locked ∧ !((s.time.sources[s.time.srcIndex]?).any (fun x => x.qualified)) then .holdover
  else s.fabric.relay.heldFrom

/-- A worker is HELD at the ninth boundary after the last valid relay frame, and leaves it at the boundary that the second of two
valid frames names. -/
def State.watchRelay (s : State) (b : Nat) : State :=
  if s.mbx.manager || !s.fabric.domain.joined then s
  else
    let s := s.modRelay (fun r => { r with since := r.since + 1 })
    let r := s.fabric.relay
    if s.time.srcState = .held then
      (match r.heldExit with
      | some e => if e ≤ b + 1000 then ((s.modTime (fun t => { t with srcState := s.afterHeld })).modRelay (fun r => { r with heldExit := none })).ticksrc 5 0 else s
      | none => s)
    else if s.disciplined && !r.announced.isEmpty && decide (9 ≤ r.since) then s.hold.ticksrc 4 0
    else s

/-- With DS0 lost, DS1 holds at its ninth boundary (R861). -/
def State.watchDs0 (s : State) : State :=
  match s.power.ds0Ticks with
  | none => s
  | some n =>
    let s := s.modPower (fun p => { p with ds0Ticks := some (n + 1) })
    if n + 1 = 9 ∧ s.time.srcState ≠ .held then s.hold else s

/-! ## Banks (R474, R475, R479) -/

def BankPower.code : BankPower → Nat
  | .on => 0
  | .retention => 1
  | .off => 2

/-- A bank takes the change that waits for it; a transition begins, and a bank that goes OFF keeps nothing. -/
def State.applyBank (s : State) (k : Nat) : State :=
  let b := s.bank k
  match b.pending with
  | none => s
  | some p =>
    if s.now < p.notBefore then s
    else
      let o := p.owner.getD (b.owner, b.ownerCore)
      let w := p.power.getD b.power
      let moves := decide (w ≠ b.power)
      let s := (s.cancelBanks (k / 544) [k] 0).setBank k { b with
        owner := o.1, ownerCore := o.2, power := w, pending := none, moving := b.moving || moves
        fromOff := if moves then b.power == .off else b.fromOff }
      let s := if moves && w == .off then
          (let ks := bankWords k
          let s := s.wipe (fun a => ks.contains (a / 8 * 8))
          if k % 544 < 32 then s.rereadTop (k / 544) else s)
        else s
      let c := k / 544
      let unit := if k % 544 < 32 then 0xFF else (k % 544 - 32) / 8
      s.memory c meApplied unit (if k % 544 < 32 then k % 544 else (k % 544 - 32) % 8) (o.1 + o.2 * 2 ^ 3 + w.code * 2 ^ 9)

def State.applyBanks (s : State) : State := forEach ((s.banks.filter (fun x => x.2.pending.isSome)).map (fun x => x.1)) s State.applyBank

/-! ## Scales, pages, keys (R426, R492, R494, R650) -/

/-- Scale table writes that are due, in order; none reaches a bank that is not ON (R478). -/
def State.applyScales (s : State) (c : Nat) : State :=
  let due := (s.cluster c).scaleWrites.filter (fun w => decide (w.1 ≤ s.now))
  let s := s.modCluster c (fun x => { x with scaleWrites := x.scaleWrites.filter (fun w => !decide (w.1 ≤ s.now)) })
  forEach due s (fun s w =>
    if !s.banksUp c 0xFF (0x100000 + (s.cluster c).scaleAt w.2.1) 16 then s
    else (s.modCluster c (fun x => { x with scales := tabSet Scale.init x.scales w.2.1 w.2.2 })).putScale c w.2.1)

/-- Transfers under way on a page complete under the entry that it has now (R492). -/
def Cluster.keepEntry (x : Cluster) (p : Nat) (e : Page) : Cluster :=
  { x with runs := x.runs.map (fun (r : Nat × TaskRun) =>
      let d := x.task r.1
      if (r.2.phase = .running ∨ r.2.phase = .paused) ∧ r.2.page.isNone ∧ dKind d = kClusterHaul ∧ clDir d ≠ 2 ∧ clPage d = p then
        (r.1, { r.2 with page := some e })
      else r) }
def State.keepEntry (s : State) (p : Nat) : State :=
  { s with clusters := tabMap (fun _ => Cluster.init) (fun _ x => x.keepEntry p (s.page p)) s.clusters }

/-- A page map entry changes; fills that read the page are cancelled (R529); one that keeps its kind and tenant keeps its key
generation, another has that of the command's completion, under which its data was written. -/
def State.applyPage (s : State) (p : PageChange) : State :=
  let old := s.page p.page
  let e := p.entry
  let s := (s.cancelPages (fun q => q == p.page) 0).keepEntry p.page
  if e.kind = 0 then s.freePages (fun q _ => q == p.page)
  else
    let g := if old.kind = e.kind ∧ old.tenant = e.tenant then old.keyGen else e.keyGen
    s.setPage p.page { e with keyGen := g }

def State.applyPages (s : State) : State :=
  let due := s.pageChanges.filter (fun p => decide (p.notBefore ≤ s.now))
  due.foldl State.applyPage { s with pageChanges := s.pageChanges.filter (fun p => !decide (p.notBefore ≤ s.now)) }

/-- Tile map entries that come in force (R492). -/
def State.applyTiles (s : State) : State :=
  let isDue (t : TileMap) : Bool := match t.notBefore with
    | some n => decide (n ≤ s.now)
    | none => false
  let due := s.tiles.filter isDue
  due.foldl State.applyTile { s with tiles := s.tiles.filter (fun t => !isDue t) }

/-- The pages of a lost HBM stack become FREE, and slabs bound to copies on it lose BOUND (R861). -/
def State.loseStack (s : State) (k : Nat) : State :=
  let on (p : Nat) : Bool := p / Config.pagesPerStack == k
  let n := (s.pages.filter (fun x => on x.1 && decide (x.2.kind ≠ 0))).length
  let unbind (x : Slab) : Slab := match x.master with
    | some m => if on m.1 then { x with bound := false, master := none } else x
    | none => x
  let s := { s with slabs := tabMap (fun _ => Slab.init) (fun _ x => unbind x) s.slabs }
  ((s.cancelPages on 0).freePages (fun p _ => on p)).faultEv k ftHbm n 0 false

def State.applyLost (s : State) : State :=
  let due := s.hbmLost.filter (fun x => match x.2 with
    | some n => decide (n ≤ s.now)
    | none => false)
  forEach due s (fun s x => { s.loseStack x.1 with hbmLost := s.hbmLost.map (fun y => if y.1 = x.1 then (y.1, none) else y) })

/-- The generation that a KEY_ROTATE made becomes current, and the pass begins (R650). -/
def State.rotateKey (s : State) (t : Nat) : State :=
  let x := s.tenant t
  match x.rotate with
  | none => s
  | some n =>
    if s.now < n then s
    else
      let g := (x.genCur + 1) % 256
      ((s.modTenant t (fun y => { y with genOld := some y.genCur, genCur := g, rotate := none, rekey := [], holdUntil := [] })).trustEv t trKeyRotated 0xFF g).retireKey t

/-! ## Phase map (R566 to R568) -/

/-- The first phase of the tick, in the map that is then in force: the last of those that are due (R568). -/
def State.firstPhase (s : State) : State :=
  let due := s.fabric.mapChanges.filter (fun m => decide (m.1 ≤ s.now))
  s.setPhase 0 (due.getLast?.map (fun m => m.2)) |>.modFabric (fun f => { f with
    mapChanges := f.mapChanges.filter (fun m => !decide (m.1 ≤ s.now)) })

/-! ## Spare columns (R227) -/

/-- b of the spare that comes in, in place of the one of the column that goes out (R225, R236). -/
def Slab.newBase (x : Slab) (old new : Nat) (b : Int) : Slab :=
  { x with
    baseline := tabSet 0 (tabSet 0 x.baseline old 0) new b, driftBase := x.driftBase - tabGet 0 x.baseline old + b }

/-- A spare that has finished takes its column's place; dressing goes on with the next column that needs one. -/
def State.remapSpare (s : State) (k : Nat) : State :=
  let x := s.slab k
  match x.spare with
  | none => s
  | some d =>
    if !d.done then s
    else
      let p := x.physOf d.column
      let inj := s.slabInjected k
      let y := (x.remapTo d.spare d.column).newBase p (264 + d.spare) d.base
      let n := s.phasesNow k
      let s := { s with faults := s.faults.filter (fun f => !(decide (f.kind = 3) && decide (f.target = k * 272 + p))) }
      let s := (s.setSlab k { y with
        dress := .ready, spare := none, recon := y.recon.filter (fun j => j ≠ d.column)
        kept := y.kept ++ (y.recon.filter (fun j => j = d.column)).map (fun j => (j, n))
        seamOff := if 256 ≤ d.column then y.seamOff.filter (fun g => g ≠ d.column - 256) else y.seamOff }).upkeep k upRemapped
          (seamGroup d.column) p d.spare inj
      match (s.slab k).recon ++ ((s.slab k).seamOff.map (fun g => 256 + g)) with
      | j :: _ => s.beginSpare k j (s.slabInjected k)
      | [] => s

def State.remapSpares (s : State) : State :=
  forEach ((s.slabs.filter (fun x => x.2.spare.isSome)).map (fun x => x.1)) s State.remapSpare

/-! ## Plans (R76 to R82) -/

/-- The arm of a cluster names this boundary. A manager's arm with a domain arm generation swaps at the boundary whose relay frame
carries it (R82). -/
def State.swapDue (s : State) (b : Nat) (t : ArmTarget) : Bool :=
  let named (g : Word) : Bool := s.fabric.relay.announced.any (fun p => decide (p.armGen = g)
    && decide (p.boundaryNs.toNat ≤ b + 1000) && decide (b ≤ p.boundaryNs.toNat + 1000))
  let leads (g : Word) : Bool := s.fabric.domain.joined && s.mbx.manager && decide (g ≠ 0)
  match t with
  | .next n g => if leads g then named g else decide (n ≤ s.now)
  | .named t g => if leads g then named g else decide (t ≤ b)
  | .gen g => named g

/-- Replay log entries and weight sets keep what their plan's tasks left, apart from the tasks of the plan to come. -/
def LogEntry.retire (e : LogEntry) : LogEntry :=
  { e with task := e.task + 4096, past := true, weight := e.weight.map (fun (w : Nat × Nat) => (w.1 + 4096, w.2)) }
def WeightSet.retire (w : WeightSet) : WeightSet := if w.loaded then { w with task := w.task + 4096 } else w

/-- The lists of tasks that fed the accumulator sets of a cluster (R877). -/
def State.mapChains (s : State) (c : Nat) (f : List Nat → List Nat) : State :=
  { s with slabs := tabMap (fun _ => Slab.init) (fun k x =>
      if slabCluster k = c then { x with live := { x.live with chain := f x.live.chain }, shadow := { x.shadow with chain := f x.shadow.chain } }
      else x) s.slabs }

/-- The log entries of tasks that are not run, and of pending replays, are released (R874). -/
def Cluster.dropWaiting (x : Cluster) : Cluster :=
  { x with log := x.log.filter (fun e => e.hold || !((x.run e.task).any (fun r => decide (r.pass = e.pass) && r.phase.waits))) }

/-- The plan of a cluster ends: what it still executes stops at its next tile boundary, its output tiles LATE (R88). -/
def State.endPlan (s : State) (c : Nat) : State :=
  let s := ((s.stopAll c true (fun _ => true) (fun s _ => s)).cancelAhead c (fun _ => true)).modCluster c Cluster.dropWaiting
  let s := (s.modEngine c (fun g => { g with active := g.active.retire, shadow := g.shadow.retire, batch := [] })).mapChains c (fun _ => [])
  s.modCluster c (fun x => { x with
    log := x.log.map LogEntry.retire, runs := [], slots := [], ahead := [], pass := 0, passStart := s.now, skipped := 0 })

/-- What the former active plan leaves in the shadow buffer (R873). -/
def Cluster.formerPlan (x : Cluster) : Option Plan := if x.forget then none else x.active

/-- The active and shadow buffers are exchanged (R80, 02 Plan swap): a disarm leaves the zero-task plan. DESIGN CHOICE: where a later
arm waits, the disarm ends the active plan and leaves the armed buffer the shadow (assumption 93). -/
def State.swapPlan (s : State) (c : Nat) : State :=
  ((s.endPlan c).modCluster c (fun x => { x with
    active := x.shadow, shadow := x.formerPlan, activeBuf := !x.activeBuf, armed := none, disarm := none, forget := false })).standbyTakes c

def State.disarmPlan (s : State) (c : Nat) : State :=
  (s.endPlan c).modCluster c (fun x => { x with
    shadow := if x.armed.isSome then x.shadow else x.formerPlan, active := none
    activeBuf := x.activeBuf != x.armed.isNone, disarm := none, forget := false })

/-- A task's log entry when the next pass begins. -/
def LogEntry.older (pass : Nat) (e : LogEntry) : LogEntry :=
  if e.hold ∨ e.past ∨ e.pass ≠ pass ∨ 4096 ≤ e.task then e else { e with task := oldKey e.task }

/-- The pass that follows: transfers made ahead for it count as dispatched (R526). -/
def Cluster.nextPass (x : Cluster) (now : Nat) : Cluster :=
  let p := x.pass + 1
  let runs := (x.ahead.filter (fun a => a.pass = p)).foldl (fun t a => tabPut t a.task
    { TaskRun.init with phase := if a.done then .done else .running, pass := p, at_ := now }) []
  let x := { x with pass := p, passStart := now, ahead := x.ahead.filter (fun a => a.pass ≠ p) }
  if x.batch then
    { x with
      runs := runs ++ (x.runs.filter (fun r => r.1 < 4096)).map (fun (r : Nat × TaskRun) => (oldKey r.1, r.2))
      log := x.log.map (LogEntry.older (p - 1)) }
  else { x with runs := runs }

def State.nextPass (s : State) (c : Nat) : State :=
  (s.mapChains c (fun l => (l.filter (fun i => decide (i < 4096))).map oldKey)).modCluster c (fun x => x.nextPass s.now)

/-- A BATCH pass has completed: every task is over, and no replay waits or is due (R85). -/
def State.passDone (s : State) (c : Nat) : Bool :=
  let x := s.cluster c
  (s.engine c).spoilDue.isNone && (List.range x.taskCount).all (fun i => match x.run i with
    | some r => r.phase == .done || r.phase == .notRun
    | none => false)
    && x.runs.all (fun r => decide (r.1 < 4096) || r.2.phase == .done || r.2.phase == .notRun)

/-- The sequencer of a cluster at the boundary: a disarm, a swap, or the next pass. -/
def State.sequenceCluster (s : State) (b c : Nat) : State :=
  let s := match (s.cluster c).disarm with
    | some n => if n ≤ s.now then s.disarmPlan c else s
    | none => s
  let x := s.cluster c
  match x.armed, x.active with
  | some t, _ =>
    if s.time.srcState ≠ .held ∧ s.swapDue b t then s.swapPlan c
    else if x.active.isSome ∧ !x.batch then (s.modEngine c (fun g => { g with batch := [] })).nextPass c
    else if x.active.isSome ∧ s.runsPlans ∧ s.passDone c then (s.reportSkips c).nextPass c
    else s
  | none, some _ =>
    if !x.batch then (s.modEngine c (fun g => { g with batch := [] })).nextPass c
    else if s.runsPlans && s.passDone c then (s.reportSkips c).nextPass c
    else s
  | none, none => s

/-- INGRESS_WAIT tasks of a BATCH plan complete in a later tick once its data has arrived. -/
def State.recheckIngress (s : State) (c : Nat) : State :=
  let x := s.cluster c
  if !x.batch then s
  else forEach (x.runsAt (fun r => r.phase == .running)) s (fun s i =>
    match (s.cluster c).run i with
    | some r => if dKind (x.task i) = kIngress ∧ r.phase = .running ∧ s.symbolIn (x.task i) then s.complete c i r none else s
    | none => s)

/-! ## TICK_BOUNDARY -/

/-- Clusters that the boundary concerns, in order. -/
def State.listed (s : State) : List Nat := s.clusters.map (fun x => x.1)

/-- Everything that waits for a boundary takes effect. -/
def State.atBoundary (s : State) (b : Nat) : State :=
  let s := s.statesAtBoundary.resumeAtBoundary.applyBanks
  let s := forEach s.listed s State.applyScales
  let s := forEach (List.range 16) s State.rotateKey
  let s := s.applyPages.applyTiles.applyLost.applyPartners.firstPhase.remapSpares
  let s := forEach (List.range 16) s (fun s t => ((s.settleRekey t 0).settleRekey t 1).retireKey t)
  let s := (forEach s.listed s (fun s c => s.sequenceCluster b c)).resumePlans
  forEach s.listed s State.recheckIngress

def State.tickBoundary (s : State) : State :=
  if !s.boundaryDue then s
  else
    let b := s.boundaryPoint
    let s := s.sendsSoFar false
    let s := if s.time.inHk then s.slotOver else forEach s.listed s (fun s c =>
      if (s.cluster c).active.isSome && !(s.cluster c).batch then s.cutRt c else s)
    ((((s.slewTick.beginTick b).watchRelay b).watchDs0).atBoundary b).lacpTick.fecTick

def execTickBoundary (dt : Nat) (s : State) : Host.Outcome State Fault Refusal := .next (s.elapse dt).tickBoundary

end Sys2Proof.Machine
end

