-- ==== Sys2Proof/Machine/Pmbus.lean ====
section
/-! DEFINITION. PMBus telemetry (R737 to R742). What the PMBus standard fixes (LINEAR11, the places of STATUS_WORD's bits, the
STATUS_CML bit of a rejected command) is taken from it. -/

namespace Sys2Proof.Machine

/-! ## Readings (R739) -/

/-- One sample joins the millisecond in progress; at its end the mean moves on. -/
def Mean.add (m : Mean) (next : Bool) (l : List Int) : Mean :=
  let m := if next && m.n != 0 then { m with last := m.sums, lastN := m.n, sums := l.map (fun _ => 0), n := 0 } else m
  { m with sums := List.zipWith (· + ·) m.sums l, n := m.n + 1 }

/-- A control tick's readings: input voltage, current and power always, temperatures while the sensors run (R742). -/
def State.pmSample (s : State) : State :=
  let ms := ((s.timeNat : Int) - s.time.frameOffset) / 1000000
  let next := decide (ms ≠ s.pmbus.ms)
  let p := s.pmbus
  { s with pmbus := { p with
      ms := ms.toNat
      elec := p.elec.add next [s.power.volts, s.power.amps, s.power.watts]
      temps := if s.sensorsOn then p.temps.add next s.pmTemps else p.temps } }

/-- LINEAR11 of num / den: the least exponent whose mantissa fits 11 bits. -/
def linear11 (num : Int) (den : Nat) : Nat :=
  let mant (n : Nat) : Int := if n < 16 then divRound (num * 2 ^ (16 - n)) den else divRound num (den * 2 ^ (n - 16))
  let n := ((List.range 32).find? (fun n => decide ((mant n).natAbs ≤ 1023))).getD 31
  unsigned 11 (mant n) + unsigned 5 ((n : Int) - 16) * 2 ^ 11

/-- LINEAR11 of the mean of reading `i`, whose unit is 1 / `den`. -/
def Mean.linear (m : Mean) (i den : Nat) : Nat := linear11 (nth 0 m.last i) (den * m.lastN)

/-! ## Status (R738, R741) -/

/-- STATUS_WORD: bit 13 INPUT, bit 6 OFF, bit 3 VIN_UV_FAULT, bit 2 TEMPERATURE, bit 1 CML, bit 0 none of bits 7 to 1. -/
def State.statusWord (s : State) : Nat :=
  let p := s.pmbus
  let off := decide (3 ≤ s.power.pstate.code) || s.power.tripped
  let uv := p.input.getLsbD 4
  let other := decide (p.input ≠ 0) && !uv
  fld 13 1 (b2n (decide (p.input ≠ 0))) + fld 6 1 (b2n off) + fld 3 1 (b2n uv)
    + fld 2 1 (b2n (decide (p.temperature ≠ 0))) + fld 1 1 (b2n (decide (p.cml ≠ 0))) + fld 0 1 (b2n other)

/-- Status bits whose cause lasts. -/
def State.inputCause (s : State) : Byte :=
  (if s.power.activity = 255 then 0 else if s.power.limiter = 1 then 2 else if s.power.limiter = 0 then 1 else 0)
    ||| (if 6000 < s.power.volts then 0x80 else 0) ||| (if s.power.volts < 3600 then 0x10 else 0)
def State.tempCause (s : State) : Byte :=
  (if s.power.tripped && (match s.power.trip with | some t => !t.overcurrent | none => false) then 0x80 else 0)
    ||| (if s.power.tl < 14000 ∨ s.power.stop then 0x40 else 0)

/-- CLEAR_FAULTS clears every bit whose cause has ended, and releases ALERT_N with the last (R738, R741). -/
def State.clearFaults (s : State) : State :=
  let input := s.pmbus.input &&& s.inputCause
  let temperature := s.pmbus.temperature &&& s.tempCause
  { s with pmbus := { s.pmbus with
      input := input, temperature := temperature, cml := 0, alertN := decide (input = 0 ∧ temperature = 0), reply := [] } }

/-- The module answers on PMBus while it has input power and is not in reset (R742, R824). -/
def State.pmAnswer (s : State) (reply : List Byte) : State :=
  if s.powered then { s with pmbus := { s.pmbus with reply := reply } } else s

def blockReply (l : List Byte) : List Byte := BitVec.ofNat 8 l.length :: l

def pmCommands : List Nat :=
  [0x03, 0x19, 0x4F, 0x51, 0x55, 0x59, 0x5B, 0x78, 0x79, 0x7C, 0x7D, 0x7E, 0x88, 0x89, 0x8D, 0x8E, 0x8F, 0x97, 0x98, 0x99,
   0x9A, 0x9E]

/-- A write to a read-only command, or a command that is not listed, sets bit 7 of STATUS_CML (R740). -/
def State.pmReject (s : State) (cmd : Nat) (write : Bool) : State :=
  let rejected := if write then cmd != 0x03 else !pmCommands.contains cmd
  if s.powered && rejected then s.pmSet (fun p => { p with cml := p.cml ||| 0x80, reply := [] }) else s

/-! ## The rows -/

def execClearFaults (dt : Nat) (s : State) : Host.Outcome State Fault Refusal :=
  let s := s.elapse dt
  .next (if s.powered then s.clearFaults else s)

def execCapability (dt : Nat) (s : State) : Host.Outcome State Fault Refusal := .next ((s.elapse dt).pmAnswer [0xB0])
def execOtFaultLimit (dt : Nat) (s : State) : Host.Outcome State Fault Refusal :=
  .next ((s.elapse dt).pmAnswer (toLe 2 (linear11 115 1)))
def execOtWarnLimit (dt : Nat) (s : State) : Host.Outcome State Fault Refusal :=
  .next ((s.elapse dt).pmAnswer (toLe 2 (linear11 95 1)))
def execVinOvFaultLimit (dt : Nat) (s : State) : Host.Outcome State Fault Refusal :=
  .next ((s.elapse dt).pmAnswer (toLe 2 (linear11 60 1)))
def execVinUvFaultLimit (dt : Nat) (s : State) : Host.Outcome State Fault Refusal :=
  .next ((s.elapse dt).pmAnswer (toLe 2 (linear11 36 1)))
def execIinOcFaultLimit (dt : Nat) (s : State) : Host.Outcome State Fault Refusal :=
  .next ((s.elapse dt).pmAnswer (toLe 2 (linear11 45 1)))
def execStatusByte (dt : Nat) (s : State) : Host.Outcome State Fault Refusal :=
  let s := s.elapse dt
  .next (s.pmAnswer (toLe 1 s.statusWord))
def execStatusWord (dt : Nat) (s : State) : Host.Outcome State Fault Refusal :=
  let s := s.elapse dt
  .next (s.pmAnswer (toLe 2 s.statusWord))
def execStatusInput (dt : Nat) (s : State) : Host.Outcome State Fault Refusal :=
  .next ((s.elapse dt).pmAnswer [s.pmbus.input])
def execStatusTemperature (dt : Nat) (s : State) : Host.Outcome State Fault Refusal :=
  .next ((s.elapse dt).pmAnswer [s.pmbus.temperature])
def execStatusCml (dt : Nat) (s : State) : Host.Outcome State Fault Refusal :=
  .next ((s.elapse dt).pmAnswer [s.pmbus.cml])
def execReadVin (dt : Nat) (s : State) : Host.Outcome State Fault Refusal :=
  .next ((s.elapse dt).pmAnswer (toLe 2 (s.pmbus.elec.linear 0 100)))
def execReadIin (dt : Nat) (s : State) : Host.Outcome State Fault Refusal :=
  .next ((s.elapse dt).pmAnswer (toLe 2 (s.pmbus.elec.linear 1 100)))
def execReadPin (dt : Nat) (s : State) : Host.Outcome State Fault Refusal :=
  .next ((s.elapse dt).pmAnswer (toLe 2 (s.pmbus.elec.linear 2 10)))
def execReadTemperature1 (dt : Nat) (s : State) : Host.Outcome State Fault Refusal :=
  .next ((s.elapse dt).pmAnswer (toLe 2 (s.pmbus.temps.linear 0 4)))
def execReadTemperature2 (dt : Nat) (s : State) : Host.Outcome State Fault Refusal :=
  .next ((s.elapse dt).pmAnswer (toLe 2 (s.pmbus.temps.linear 1 4)))
def execReadTemperature3 (dt : Nat) (s : State) : Host.Outcome State Fault Refusal :=
  .next ((s.elapse dt).pmAnswer (toLe 2 (s.pmbus.temps.linear 2 4)))
def execPmbusRevision (dt : Nat) (s : State) : Host.Outcome State Fault Refusal := .next ((s.elapse dt).pmAnswer [0x33])
def execMfrId (dt : Nat) (s : State) : Host.Outcome State Fault Refusal :=
  .next ((s.elapse dt).pmAnswer (blockReply (ascii "Boelos")))
def execMfrModel (dt : Nat) (s : State) : Host.Outcome State Fault Refusal :=
  .next ((s.elapse dt).pmAnswer (blockReply (ascii "PF7240-B1")))
def execMfrSerial (dt : Nat) (s : State) : Host.Outcome State Fault Refusal :=
  .next ((s.elapse dt).pmAnswer (blockReply Config.serialText))
def execPmbusWriteRejected (dt : Nat) (cmd : Byte) (write : Bool) (s : State) : Host.Outcome State Fault Refusal :=
  .next ((s.elapse dt).pmReject cmd.toNat write)

end Sys2Proof.Machine
end

