-- ==== Sys2Proof/Machine/Loops.lean ====
section
/-! DEFINITION. The control tick (R366): sensors (R753 to R759), lock loops with their feed-forward, windows and heaters (R346 to
R352, R371 to R374, R809 to R811), power loops (R375 to R380), drift trims (R205) and line powers (R251, R289); lock loss, pilot
checks and re-acquisition (R352 to R361), and the end of a freeze (R386 to R389). -/

namespace Sys2Proof.Machine

/-! ## Sensors (R753 to R755) -/

/-- A sensor's reading of a control tick, and the check of R754 that it fails: 0 RANGE, 1 RATE, 2 STUCK. `same` counts the
control ticks of the present count, 0 before the first. -/
def Sensor.read (x : Sensor) (t : Option Int) (c : Option Nat) : Sensor × Option Nat :=
  let temp := t.getD x.temp
  let same := match c with
    | some n => if x.same ≠ 0 ∧ n = x.count then x.same + 1 else 1
    | none => max x.same 1
  let bad : Option Nat :=
    if temp < -160 ∨ 560 < temp then some 0
    else if x.same ≠ 0 ∧ 16 < (temp - x.temp).natAbs then some 1
    else if 100 ≤ same then some 2
    else none
  ({ x with temp := temp, count := c.getD x.count, same := same }, if x.failed then none else bad)

/-- A sensor fails (R754). -/
def State.failSensor (s : State) (k check : Nat) (inj : Bool) : State :=
  let x := s.sensor k
  if x.failed then s
  else (s.modSensor k (fun y => { y with failed := true, injected := inj })).powerEv (k / 64) poSensorFail (k % 64) x.temp check inj

/-- Sensor `k` at a control tick; an injected fault fails it under RANGE (R867). -/
def State.readSensor (s : State) (m : Measurements) (k : Nat) : State :=
  let r := (s.sensor k).read (m.temps[k]?) (m.counts[k]?)
  let s := s.modSensor k (fun _ => r.1)
  if s.isInjected 6 k then s.failSensor k 0 true
  else match r.2 with
    | some check => s.failSensor k check false
    | none => s

/-- Of a pair that differs, the sensor further from the mean of the die's other valid sensors; which of two equally far ones is
free. -/
def State.further (s : State) (z : Nat) : Nat × State :=
  let rest := ((List.range 64).map (fun i => z / 32 * 64 + i)).filter (fun k => k / 2 != z && !(s.sensor k).failed)
  let sum := sumI (rest.map (fun k => (s.sensor k).temp))
  let dist (k : Nat) : Nat := ((s.sensor k).temp * rest.length - sum).natAbs
  if dist (2 * z + 1) < dist (2 * z) then (2 * z, s)
  else if dist (2 * z) < dist (2 * z + 1) then (2 * z + 1, s)
  else (2 * z + s.freeNat % 2, s.takeFree)

/-- The PAIR check of a zone, by number over the four dies. -/
def State.pairCheck (s : State) (z : Nat) : State :=
  let a := s.sensor (2 * z)
  let b := s.sensor (2 * z + 1)
  let n := if !a.failed && !b.failed && decide (48 < (a.temp - b.temp).natAbs) then a.pair + 1 else 0
  if n < 10 then (if n = a.pair then s else s.modSensor (2 * z) (fun x => { x with pair := n }))
  else
    let r := (s.modSensor (2 * z) (fun x => { x with pair := 0 })).further z
    r.2.failSensor r.1 3 false

/-- All readings of a control tick; lists left short keep the readings before. -/
def State.readSensors (s : State) (m : Measurements) : State :=
  let n := max m.temps.length m.counts.length
  let s := forEach ((List.range 256).filter (fun k => decide (k < n) || s.isInjected 6 k)) s (fun s k => s.readSensor m k)
  let s := if s.power.sensors.isEmpty then s else forEach (List.range 128) s State.pairCheck
  let s := s.modPower (fun p => { p with hbm := m.hbm ++ p.hbm.drop m.hbm.length })
  forEach (indexed m.carts) s (fun s x => s.modCart x.1 (fun c => { c with temp := x.2 }))

/-- Without a control tick the run of readings ends (R754). -/
def State.restSensors (s : State) : State :=
  s.modPower (fun p => { p with sensors := tabMap (fun _ => Sensor.init) (fun _ x => { x with same := 0, pair := 0 }) p.sensors })

/-- Input readings, and the status bits of an input beyond its limits (R738). -/
def State.readInput (s : State) (m : Measurements) : State :=
  let s := s.modPower (fun p => { p with watts := m.power, amps := m.current, volts := m.voltage })
  let s := if 6000 < m.voltage then s.pmSet (pmInput 7) else s
  if m.voltage < 3600 then s.pmSet (pmInput 4) else s

/-! ## Writes, freezes and releases at the boundary (R381 to R388, R763) -/

/-- A write in force: into the staged copy too where that holds the same value still. -/
def Loop.put (x : Loop) (o v : Nat) : Loop :=
  let n := (loopField o).getD 0
  let old (c : Coef) : Nat := field c.toNat (8 * o) n
  { x with coef := coPut x.coef o v, staged := x.staged.map (fun c => if old c = old x.coef then coPut c o v else c) }

def Loop.release (x : Loop) : Loop :=
  { x with coef := x.base, staged := none, frozen := false, releaseFrom := none }

def Loop.freeze (x : Loop) (now : Nat) : Loop :=
  { x with frozen := true, freezeFrom := none, frozenAt := if x.frozen then x.frozenAt else now }

/-- The loop at a control tick boundary; of a freeze and a release that are both due the later asked for comes last. -/
def Loop.boundary (x : Loop) (now : Nat) : Loop :=
  let due := x.writes.filter (fun w => decide (w.1 ≤ now))
  let x := due.foldl (fun x w => x.put w.2.1 w.2.2.toNat) { x with writes := x.writes.filter (fun w => !decide (w.1 ≤ now)) }
  let at_ (o : Option Nat) : Option Nat := o.filter (fun t => decide (t ≤ now))
  match at_ x.freezeFrom, at_ x.releaseFrom with
  | some f, some r => if f ≤ r then { x.release with freezeFrom := none } else x.release.freeze now
  | some _, none => x.freeze now
  | none, some _ => x.release
  | none, none => x

/-- Every loop at the boundary; the PWR loop's SETPOINT is the limit last written or TL (R763). -/
def State.loopBoundary (s : State) : State :=
  let s := forEach (s.loops.map (fun x => x.1)) s (fun s k =>
    let x := s.loop k
    let y := x.boundary s.now
    let s := s.setLoop k y
    let written := x.writes.any (fun w => decide (w.1 ≤ s.now) && decide (w.2.1 = 0x0E))
    if k = 5120 ∧ (written ∨ coSet y.coef ≠ coSet x.coef) then (s.modPower (fun p => { p with hostLimit := coSet y.coef })).setPower else s)
  forEach s.xcommit { s with xcommit := [] } (fun s die =>
    let mine (x : Nat × BitVec 256) : Bool := x.1 / 2560 == die
    { s with xtalk :=
        if die = 0 then s.xstage.filter mine ++ s.xtalk.filter (fun x => !mine x)
        else s.xtalk.filter (fun x => !mine x) ++ s.xstage.filter mine })

/-! ## The law (R366) -/

/-- Output of a loop from its error and feed-forward. I and D are held in Q16.16; products with Q16.16 coefficients are rounded to
output units. -/
def Loop.law (x : Loop) (e ff : Int) (lock : Bool) : Loop :=
  let c := x.coef
  if x.frozen then
    if lock then { x with e := e, ff := ff, u := ff + x.p + shiftRound x.i 16 + shiftRound x.d 16, clamped := false }
    else { x with e := e }
  else
    let p := shiftRound (coKp c * e) 16
    let ki := shiftRound (coKi c * e) 16
    let kd := shiftRound (coKd c * (e - x.e)) 16
    let new := clampI (coIMin c * 65536) (coIMax c * 65536) (x.i + ki * 65536)
    let d := x.d + shiftRound (coAlpha c * (kd * 65536 - x.d)) 16
    let u := ff + p + shiftRound new 16 + shiftRound d 16
    let high := decide (coOutMax c < u)
    let low := decide (u < coOutMin c)
    let keep := (high && decide (0 < ki)) || (low && decide (ki < 0))
    { x with
      e := e, ff := ff, p := p, i := if keep then x.i else new, d := d, clamped := high || low
      u := if high then coOutMax c else if low then coOutMin c else u }

/-! ## Lock loops (R346, R347, R364, R372) -/

/-- The loop is closed and is computed. -/
def Loop.runs (x : Loop) : Bool := x.phase == .pilotWait || x.phase == .locked

/-- Zone of the photonic die nearest to a ring; where a port lies the manual does not say. -/
def ringZone (k : Nat) : Nat :=
  match rowOf k, routerOf k, portOf k with
  | some x, _, _ => x.1 % 32
  | _, some x, _ => x.1 % 32
  | _, _, some x => Config.portZone x.1 % 32
  | _, _, _ => 0

/-- Temperatures whose mean is T (R347). -/
def State.ringTemps (s : State) (k : Nat) : List Int :=
  let base := (k / 2560 * 2 + 1) * 64
  let own := ([base + 2 * ringZone k, base + 2 * ringZone k + 1].map s.reading).filter (· ≠ 600)
  if own.isEmpty then ((List.range 64).map (fun i => s.reading (base + i))).filter (· ≠ 600) else own

/-- Feed-forward (R347); with no valid sensor it stays. -/
def State.feedForward (s : State) (k : Nat) : Int :=
  let x := s.loop k
  let l := s.ringTemps k
  if l.isEmpty then x.ff
  else x.heatOp + divRound (coFfGain x.coef * (sumI l - l.length * x.tCal)) (256 * l.length)

/-- The command after crosstalk, before its clamp (R372). -/
def State.crossed (s : State) (k : Nat) : Int :=
  (s.loop k).u + sumI ((xtTerms (s.xtActive k)).map (fun t => shiftRound (t.2 * (s.loop (k / 2560 * 2560 + t.1)).u) 15))

/-! ## Heater DACs (R809 to R811) -/

def heatMax : Int := 40000

/-- Code of a command in a range. -/
def heatCode (low : Bool) (a : Int) : Nat :=
  min 4095 (divRound (a * 4096) (if low then 10000 else 40000)).toNat

/-- The output of a DAC expressed in the other range (R811). -/
def rescaleOut (o : Bool × Nat) (low : Bool) : Bool × Nat :=
  if o.1 = low then o else if low then (true, min 4095 (4 * o.2)) else (false, (o.2 + 2) / 4)

/-- The DAC has taken one entry per sample clock (R806), and before an entry of the other range has changed to that range (R811); an
empty queue leaves its code (R807). -/
def Heater.advance (h : Heater) (now : Nat) : Heater :=
  let n := min h.queue.length ((now - h.since) / 1000)
  let out := if n = 0 then h.out else nth h.out h.queue (n - 1)
  { h with
    out := match h.queue[n]? with
      | some e => rescaleOut out e.1
      | none => out
    queue := h.queue.drop n, since := h.since + 1000 * n }

/-- A heater takes a control tick's command: ten entries on the ramp from the command before (R348, R806), with the dither of each, and
the high range from the first one above 9,500 on (R810). -/
def Heater.drive (h : Heater) (a : Int) (now : Nat) (dither : Nat → Int) : Heater :=
  let h := h.advance now
  let below := if a < 9000 then min (h.below + 1) 100 else 0
  let start := h.low || decide (100 ≤ below)
  let l := (List.range 10).foldl (fun (l : Bool × List (Bool × Nat)) i =>
    let v := h.cmd + divRound ((a - h.cmd) * (i + 1 : Nat)) 10
    let low := l.1 && !decide (9500 < v)
    (low, l.2 ++ [(low, heatCode low (v + dither (i + 1)))])) (start, [])
  { h with
    low := l.1, below := below, cmd := a, queue := (h.queue ++ l.2).take 16, since := if h.queue.isEmpty then now else h.since
    out := if h.queue.isEmpty then rescaleOut h.out ((l.2.headD h.out).1) else h.out }

def State.heat (s : State) (i : Nat) (a : Int) (dither : Nat → Int) : State :=
  { s with heaters := tabSet Heater.init s.heaters i ((tabGet Heater.init s.heaters i).drive a s.now dither) }

/-- The dither of a loop's own heater: its TONE with amplitude DITHER_AMP (R353). -/
def State.ditherOf (s : State) (k i : Nat) : Int :=
  let c := (s.loop k).coef
  divRound (coDither c * (Config.dither (coTone c) (s.now + 1000 * i)).toInt) 32768

/-- HOFS of weight ring `r` of a row (R346). -/
def State.hofs (s : State) (e row r : Nat) : Int := (tabGet ((0, 0) : Nat × Int) s.ringTrim ((e * 66 + row) * 64 + r)).2

/-- Commands of a loop's heaters by number (a loop's own ring, then its row's weight rings from 8,192 on), before their clamp. -/
def State.heatersOf (s : State) (k : Nat) (a : Int) : List (Nat × Int) :=
  match rowOf k with
  | some x => (k, a) :: (List.range 64).map (fun r => (8192 + (x.1 * 66 + x.2) * 64 + r, clampI 0 heatMax a + s.hofs x.1 x.2 r))
  | none => [(k, a)]

/-- Apply loop `k`'s output to its heaters; a clamp is reported (HEAT_SAT). -/
def State.applyHeat (s : State) (k : Nat) : State :=
  let l := s.heatersOf k (s.crossed k)
  let sat := l.any (fun h => decide (h.2 < 0) || decide (heatMax < h.2))
  let s := forEach l (s.modLoop k (fun x => { x with
    applied := clampI 0 heatMax (s.crossed k), status := x.status.hitIf sat 9 })) (fun s h =>
      s.heat h.1 (clampI 0 heatMax h.2) (fun i => if h.1 = k then s.ditherOf k i else 0))
  if sat then s.light 0xFF liHeatSat 0xFF 0xFF k 0 false else s

/-! ## Removal and re-acquisition (R351, R359 to R361, R389) -/

/-- A router receiver follows its ring out of service and back (06, Router and port rings). One that retunes has 3 us of the phase to lock,
and stays dark for the phase where it has not (R569). -/
def State.ringReceiver (s : State) (k : Nat) : State :=
  match routerOf k with
  | some (d, j) =>
    if j < 4 then s
    else match s.entrySource s.phaseNow d (j - 4) with
      | some _ =>
        let b := 1#4 <<< (j - 4)
        let early := decide (s.now < s.fabric.phaseAt + 3000)
        if !s.ringServes k then s.modCluster d (fun x => { x with
          locked := x.locked &&& ~~~b, missed := if early && s.retunes d (j - 4) then x.missed ||| b else x.missed })
        else if (s.cluster d).missed.getLsbD (j - 4) && !early then s
        else s.modCluster d (fun x => { x with locked := x.locked ||| b, missed := x.missed &&& ~~~b })
      | none => s
  | none => s

/-- A port whose ring leaves service goes down (R542). -/
def State.ringPort (s : State) (k : Nat) (inj : Bool) : State :=
  match portOf k with
  | some x => if s.ringServes k then s else s.portOut x.1 2 (inj || s.isInjected 5 x.1)
  | none => s

/-- A re-acquisition fails; the third leaves the loop FAILED (R261, R361). -/
def State.attemptFailed (s : State) (k : Nat) : State :=
  let n := (s.loop k).fails + 1
  (if n < 3 then s.modLoop k (fun x => { x with fails := n, phase := .off, queued := true, outTicks := 0 }) else s.lockFailed k).startSweeps

/-- A loop mislocks (cause 1) or loses lock (cause 2): its row is removed, and it sweeps (R359, R361). -/
def State.loopOut (s : State) (k cause : Nat) (pilot inj : Bool) : State :=
  if (s.loop k).phase = .pilotWait then s.attemptFailed k
  else
    let s := (s.thaw k 1).modLoop k (fun x => { x with phase := .off, queued := true, outTicks := 0, fails := 0, byFault := inj })
    (match rowOf k with
    | some x => s.removeRow x.1 x.2 cause pilot inj
    | none => (s.ringReceiver k).ringPort k inj).startSweeps

/-- Receivers and ports whose rings have left service by a command, at a control tick (R542, R569). -/
def State.ringsOut (s : State) : State :=
  let s := forEach (List.range 64) s (fun s d => forEach ((List.range 4).filter (fun j => (s.cluster d).locked.getLsbD j)) s (fun s j =>
    s.ringReceiver (routerLoop d (4 + j))))
  forEach ((List.range 16).filter s.portRuns) s (fun s p => forEach (portLoops p) s (fun s k => s.ringPort k false))

/-- The epoch that ended at a point of TIME_NS closes dirty for a row in service (R289, R349, R357). -/
def State.dirtyEnded (s : State) (k point : Nat) (pilot inj : Bool) : State :=
  match rowOf k with
  | some x =>
    if (s.engine x.1).rowState x.2 = .service ∨ (s.engine x.1).left.contains x.2 then
      s.modEngine x.1 (fun g => g.modEpoch (s.epochThen (s.timeNat + 1 - point)) (fun i => { i with
        ring := i.ring || !pilot, pilot := i.pilot || pilot, inj := i.inj || inj, row := some (i.row.getD x.2) }))
    else s
  | none => s

/-- The ring of a loop left its lock window since the last control tick (R349, R352). -/
def State.leftWindow (s : State) (k : Nat) : State :=
  if !decide (k < 5120) then s
  else
    let s := s.dirtyEnded k s.controlPoint false (s.isInjected 2 k)
    if (s.loop k).runs then s.modLoop k (fun x => { x with outTicks := x.outTicks + 1, status := x.status.hit 6 }) else s

/-- Mislock by the correction (R351). -/
def State.checkHeat (s : State) (k : Nat) : State :=
  let x := s.loop k
  let inj := s.isInjected 2 k
  if !x.runs || !(inj || decide (x.heatPlaus < ((x.u - x.ff).natAbs : Int))) then s
  else
    let s := s.modLoop k (fun y => { y with status := y.status.hit 8 })
    (s.light 0xFF liMislock 0xFF 0xFF k 1 inj).loopOut k 1 false inj

/-- Detuning in MHz: the lock-in over LOCKIN_WIN, scaled by the slope of the acquisition (R353). -/
def Loop.detuned (x : Loop) : Int := divRound (x.slope * sumI x.demod) (65536 * max 1 x.demod.length)

/-- The lock-in takes a control tick's product into its sliding window; without one the last stays (assumption 4). -/
def Loop.sense (x : Loop) (v : Option Int) : Loop :=
  let l := x.demod ++ [v.getD (x.demod.getLastD 0)]
  { x with demod := l.drop (l.length - coWindow x.coef) }

/-- Command at a step of a sweep: 40 steps across FF +- HEAT_PLAUS (R361). DEDUCED: evenly spaced, from the lowest up (assumption 97). -/
def Loop.sweepAt (x : Loop) (step : Nat) : Int := x.ff - x.heatPlaus + divRound (2 * x.heatPlaus * step) 39

/-- Line that a ring's loop stands on has a source (R322, R344): line p mod 64 for the reference ring of row p, the ports' line for a port
ring, any line for a router ring, which changes lines. -/
def State.loopLit (s : State) (k : Nat) : Bool :=
  s.lasersOn && (match rowOf k, portOf k with
  | some x, _ => s.feedOf (k / 2560 * 64 + x.2 % 64) != feedNone
  | none, some _ => decide (s.portLight (k / 2560) ≠ 3)
  | none, none => (List.range 64).any (fun n => s.feedOf (k / 2560 * 64 + n) != feedNone))

/-- Light of a loop's line, at a control tick (R364): a ring without light has left its window; one whose light is back is acquired again
before it serves. DEDUCED: light off is a line without a source at a control tick (assumption 98). DESIGN CHOICE: the ROW_SWAP of a row
removed so gives cause 2, lock loss (assumption 106). -/
def State.lightLoops (s : State) : State :=
  let ks := s.loops.filter (fun x => decide (x.1 < 5120) && (x.2.runs || x.2.lostLight))
  forEach ks s (fun s x =>
    let k := x.1
    if !s.loopLit k then (if x.2.runs then (s.leftWindow k).modLoop k (fun y => { y with lostLight := true }) else s)
    else if !x.2.lostLight then s
    else
      let s := s.modLoop k (fun y => { y with lostLight := false })
      if x.2.runs then s.loopOut k 2 false false
      else if x.2.phase = .failed then s.acquireLoops [k] else s)

/-- The lock loops of a control tick: all outputs from the same measurements, then heaters, windows and mislocks (R366, R367). A loop in
SWEEP steps its heater (R361). -/
def State.lockLoops (s : State) (m : Measurements) : State :=
  let ks := (s.loops.filter (fun x => decide (x.1 < 5120) && x.2.runs)).map (fun x => x.1)
  let sw := (s.loops.filter (fun x => decide (x.1 < 5120) && x.2.phase == .sweep)).map (fun x => x.1)
  let s := forEach ks s (fun s k =>
    let ff := s.feedForward k
    s.modLoop k (fun x =>
      let y := x.sense (tabFind m.lockin k)
      y.law (y.detuned - coSet y.coef) ff true))
  let s := forEach sw s (fun s k =>
    let ff := s.feedForward k
    s.modLoop k (fun x => { x with ff := ff, u := clampI 0 heatMax (({ x with ff := ff } : Loop).sweepAt (min 39 ((s.now - x.sweepFrom) / 5000))) }))
  let s := forEach (ks ++ sw) s State.applyHeat
  let out := m.outWindow.dedup.filter (fun k => s.loopLit k)
  let s := forEach (ks.filter (fun k => s.loopLit k && !out.contains k)) s (fun s k => s.modLoop k (fun x => { x with outTicks := 0 }))
  forEach ks (forEach out s State.leftWindow).lightLoops State.checkHeat

/-! ## Power loops (R375 to R380, R394) -/

/-- Highest valid sensor of a die (R376). -/
def State.dieHigh (s : State) (die : Nat) : Int :=
  let l := ((List.range 64).map (fun i => s.reading (die * 64 + i))).filter (· ≠ 600)
  if l.isEmpty then 600 else l.foldl max (l.headD 0)

/-- Measurement of power loop 5,120 + k. -/
def State.powerMeasure (s : State) (k : Nat) : Int :=
  match k with
  | 0 => s.power.watts
  | 1 => s.power.amps
  | 2 => s.dieHigh 0
  | 3 => s.dieHigh 2
  | 4 => s.dieHigh 1
  | 5 => s.dieHigh 3
  | 6 => s.hbmTemp
  | 7 => s.cartTemp 0
  | _ => s.cartTemp 1

/-- The power loops, the activity level and its limiter. -/
def State.powerLoops (s : State) : State :=
  let s := forEach (List.range 9) s (fun s k => s.modLoop (5120 + k) (fun x => x.law (coSet x.coef - s.powerMeasure k) 0 false))
  let outs := (List.range 9).map (fun k => (clampI 0 255 (s.loop (5120 + k)).u).toNat)
  let a := outs.foldl min 255
  let lim := if a = 255 then 15 else outs.findIdx (fun u => u == a)
  let changed := decide (a < 255) && lim != s.power.limiter
  let s := s.modPower (fun p => { p with activity := a, limiter := lim })
  let s := if lim < 2 then s.pmSet (pmInput lim) else s
  if changed then s.light 0xFF liLimiter 0xFF 0xFF (5120 + lim) a false else s

/-! ## What else the loop units write (R205, R251, R758) -/

/-- DRIFT_TRIM of every slab. -/
def State.driftTrims (s : State) : State :=
  { s with slabs := tabMap (fun _ => Slab.init) (fun k x => { x with
      driftTrim := (clampI 0 0xFFFF (tempQuotient ((x.ageTrim : Int) * 1048576) (s.tempFactor k))).toNat }) s.slabs }.latchTrims

/-- Trim codes of the references of both compute dies. -/
def State.refTrims (s : State) : State :=
  forEach (List.range 8) s (fun s i =>
    let die := i / 4 * 2
    let l := ((List.range 64).map (fun j => s.reading (die * 64 + j))).filter (· ≠ 600)
    if l.isEmpty then s else s.modPower (fun p => { p with refTrim := tabPut p.refTrim i (Config.refCode die (i % 4) (meanI l)) }))

/-- Two powers within 10 / n dB of each other: their n-th powers lie within a factor of 10. -/
def within (n p nom : Nat) : Bool := decide (p ^ n ≤ 10 * nom ^ n) && decide (nom ^ n ≤ 10 * p ^ n)
/-- A power within 1 dB of its nominal. -/
def withinDb (p nom : Nat) : Bool := within 10 p nom

/-- NORM of a line from its measured power; while a split lasts P_nom is the re-based value, the first one measured on it. A move of
more than 0.1 dB from the power behind the NORM in force requests a refresh (R252). -/
def State.lineNorm (s : State) (e n p : Nat) : State :=
  let x := s.engine e
  let split := s.split n
  let nom := if split then tabGet p x.pBase n else x.nomOf n
  let norm := (clampI 0x65AD 0xA124 (divRound (0x8000 * nom) (max 1 p))).toNat
  let inj := s.isInjected 1 n || s.isInjected 1 (64 + n)
  s.modEngine e (fun x =>
    let x := { x with
      norm := tabSet 0x8000 x.norm n norm, pNow := tabPut x.pNow n p, pBase := if split then tabPut x.pBase n nom else tabDel x.pBase n
      refreshDue := x.refreshDue || (x.active.loaded && !within 100 p (tabGet nom x.active.power n)) }
    if withinDb p nom then x
    else x.modEpoch (s.epochThen (s.timeNat + 1 - s.controlPoint)) (fun i => { i with power := true, inj := i.inj || inj, line := some (i.line.getD n) }))

def State.lineNorms (s : State) (l : List (Nat × Nat × Nat)) : State :=
  forEach l s (fun s x => if x.1 < 64 ∧ x.2.1 < 64 then s.lineNorm x.1 x.2.1 x.2.2 else s)

/-- The rows that left SERVICE in the epoch that has ended are done with (R289). -/
def State.closeEpoch (s : State) : State :=
  { s with engines := tabMap (fun _ => Engine.init) (fun _ x => { x with left := [] }) s.engines }

/-! ## The rows -/

/-- Heater DACs that ran empty: each holds its code (R807). -/
def State.dacUnderruns (s : State) (l : List Nat) : State := forEach l s (fun s k => s.converter 0x7FFFF coUnderrun k)

/-- CONTROL_TICK, once at each grid point (R91): readings and protection first, then the loops. -/
def State.controlTick (s : State) (m : Measurements) : State :=
  if !s.powered || !s.controlDue then s
  else
    let s := ((s.modTime (fun t => { t with controlAt := some s.controlPoint })).readInput m).rampDone 0 |>.rampDone 1
    if !s.sensorsOn then s.restSensors.pmSample
    else
      let s := ((s.readSensors m).pmSample).tripCheck
      if !s.sensorsOn then s
      else
        let s := (s.dacUnderruns m.underruns).thermalStop.ringsOut
        ((((s.loopBoundary.lockLoops m).powerLoops.driftTrims).refTrims).lineNorms m.linePower).closeEpoch

/-- LOCK_LOSS: three control ticks outside the window (R352). -/
def State.lockLoss (s : State) (k : Nat) : State :=
  let x := s.loop k
  if !s.sensorsOn || !x.runs || decide (x.outTicks < 3) then s
  else
    let inj := s.isInjected 2 k
    (s.light 0xFF liLockLoss 0xFF 0xFF k 0 inj).loopOut k 2 false inj

/-- TIME_NS of the last pilot window's end (R356). -/
def State.pilotPoint (s : State) : Nat := s.throttlePoint
/-- A pilot window has just ended, and the loop has not been checked for it. -/
def State.pilotDue (s : State) (k : Nat) : Bool :=
  decide (s.timeNat ≤ s.pilotPoint + 50) && (s.loop k).pilotAt.all (fun q => decide (q < s.pilotPoint))

/-- Amplitude of the own tone recorded at a loop's calibration; the first lies before delivery. -/
def State.pilotRefOf (s : State) (k : Nat) : Nat := tabGet (Config.pilotCal k) s.pilotRef k
/-- The check passes: the own tone is at least four times every other near it, and at least a quarter of the one at calibration (R356). -/
def State.pilotPasses (s : State) (k : Nat) (t : PilotTones) : Bool :=
  t.others.all (fun o => decide (4 * o ≤ t.own)) && decide (s.pilotRefOf k ≤ 4 * t.own)

/-- PILOT_CHECK: the end of a pilot window (R356, R357, R361). A re-acquired loop waits for a full window. -/
def State.pilotCheck (s : State) (k : Nat) (tones : PilotTones) : State :=
  let x := s.loop k
  if !s.sensorsOn || !x.runs || !s.pilotDue k then s
  else if s.pilotPasses k tones then
    let s := s.modLoop k (fun y => { y with pilotAt := some s.pilotPoint })
    if x.phase = .pilotWait ∧ x.waitFrom + 1000000 + (s.timeNat - s.pilotPoint) ≤ s.now then
      let s := (s.lockDone k).ringReceiver k
      match rowOf k with
      | some y => s.engineNext y.1
      | none => s
    else s
  else
    let inj := s.isInjected 2 k
    let s := s.modLoop k (fun y => { y with status := y.status.hit 7, pilotAt := some s.pilotPoint })
    if x.phase = .pilotWait then s.attemptFailed k
    else ((s.dirtyEnded k s.pilotPoint true inj).light 0xFF liMislock 0xFF 0xFF k 0 inj).loopOut k 1 true inj

/-- Step of a sweep with the highest drop-tap power; of equal ones the first (R361). -/
def bestStep (taps : List Nat) : Nat :=
  let l := taps.take 40
  l.findIdx (fun v => v == l.foldl max 0)

/-- REACQUIRED: the end of a sweep of 40 steps of 5 us, whose loop has closed or not (R361). It closes at the step of the highest drop-tap
power: its integrator holds that step's correction (assumption 97). A sweep without light closes nowhere; under an injected mislock it does
not end (R867). -/
def State.sweepEnd (s : State) (k : Nat) (closed : Bool) (taps : List Nat) (slope : Int) : State :=
  let x := s.loop k
  if !s.sensorsOn || x.phase != .sweep || s.isInjected 2 k || decide (s.now < x.sweepFrom + 200000) then s
  else if closed && s.loopLit k then
    ((s.modLoop k (fun y => { y with
      phase := .pilotWait, waitFrom := s.now, lostLight := false, slope := slope, demod := [], d := 0
      i := clampI (coIMin y.coef * 65536) (coIMax y.coef * 65536) ((y.sweepAt (bestStep taps) - y.ff) * 65536) })).light
        0xFF liReacquired 0xFF 0xFF k x.fails x.byFault).startSweeps
  else s.attemptFailed k

/-- FREEZE_TIMEOUT: frozen for 1 s (R388). -/
def State.freezeTimeout (s : State) (k : Nat) : State :=
  let x := s.loop k
  if x.frozen && decide (x.frozenAt + 1000000000 ≤ s.now) then s.thaw k 0 else s

def execControlTick (dt : Nat) (m : Measurements) (s : State) : Host.Outcome State Fault Refusal :=
  if !m.wellFormed then .fault .malformed else .next ((s.elapse dt).controlTick m)

def execLockLoss (dt : Nat) (loop : LoopId) (s : State) : Host.Outcome State Fault Refusal := .next ((s.elapse dt).lockLoss loop)

def execPilotCheck (dt : Nat) (loop : LoopId) (tones : PilotTones) (s : State) : Host.Outcome State Fault Refusal :=
  .next ((s.elapse dt).pilotCheck loop tones)

def execReacquired (dt : Nat) (loop : LoopId) (out : SweepOutcome) (s : State) : Host.Outcome State Fault Refusal :=
  .next ((s.elapse dt).sweepEnd loop out.closed out.taps out.slope)

def execFreezeTimeout (dt : Nat) (loop : LoopId) (s : State) : Host.Outcome State Fault Refusal :=
  .next ((s.elapse dt).freezeTimeout loop)

end Sys2Proof.Machine
end

