-- ==== Sys2Proof/Machine/Startup.lean ====
section
/-! DEFINITION. Input power, reset and start-up (R733 to R736, R817 to R837), the wake from PS5 and after a trip (R751, R771,
R832). -/

namespace Sys2Proof.Machine

/-- Start-up begins: the straps are sampled (R817 to R819), the wake logic runs, and the sensors are powered at point W, once the hot-swap
ramp is complete. -/
def State.startUp (s : State) (role : Bool) (pmAddr : BitVec 3) : State :=
  (s.modPower (fun p => { p with boot := .sensors, rolePin := role, pmAddr := pmAddr, pointW := s.now + 15000000 })).modMbx (fun m =>
    { m with manager := role })

/-- POWER_UP: input through the rising lockout, from the unpowered state; with RESET_N low the module is then in reset (R831). -/
def State.powerUp (s : State) (role : Bool) (pmAddr : BitVec 3) : State :=
  if s.power.boot ≠ .unpowered then s
  else if s.power.resetLow then s.modPower (fun p => { p with boot := .inReset })
  else s.startUp role pmAddr

/-- Release of RESET_N: a power-up for every rule (R829). -/
def State.releaseReset (s : State) (role : Bool) (pmAddr : BitVec 3) : State :=
  let s := s.modPower (fun p => { p with resetLow := false })
  if s.power.boot = .inReset then s.startUp role pmAddr else s

/-- Entering reset, once RESET_N has been low for 2 us (R827 to R829). -/
def State.assertReset (s : State) (lowNs : Nat) : State :=
  if lowNs < 2000 then s
  else
    let s := s.modPower (fun p => { p with resetLow := true })
    if s.power.boot = .unpowered then s else s.powerLoss .inReset true

/-- The module starts again as at a release of RESET_N, on the straps last sampled (R848). -/
def State.restart (s : State) : State := (s.powerLoss .inReset true).releaseReset s.power.rolePin s.power.pmAddr

/-- The sensor step, 1 ms after point W and then every 100 ms (R771, R833): it is passed when every reading is below 90 degC. -/
def State.sensorStep (s : State) (temps : List Int) : State :=
  if s.power.boot ≠ .sensors ∨ s.now < s.power.pointW + 1000000
    ∨ !s.power.checkedAt.all (fun t => decide (t + 100000000 ≤ s.now)) then s
  else
    let s := s.modPower (fun p => { p with checkedAt := some s.now })
    let s := forEach ((List.range 256).zip temps) s (fun s x => s.modSensor x.1 (fun y => { y with temp := x.2 }))
    if temps.all (fun t => decide (t < 360)) then s.modPower (fun p => { p with boot := .refclk, tripped := false }) else s

/-- The reference step (R834), then the rails: banks ON and zero, TIME_NS from 0, pages FREE, and the sockets of the
cartridge step (R835). -/
def State.refclkStep (s : State) : State :=
  if s.power.boot ≠ .refclk then s
  else
    let s := s.modPower (fun p => { p with boot := .rails, refAt := s.now })
    { s with time := { TimeState.init with clock := s.time.clock } }

/-- The cartridge step, 22 ms after the reference step: the sockets that may be powered are; a cartridge that is absent is lost
(R835). -/
def State.cartridgeStep (s : State) : State :=
  forEach (List.range 2) s (fun s k =>
    if s.mayPower k then (s.powerSocket k).modCart k (fun x => { x with starting := true })
    else if !(s.cart k).present then s.cartLost k 0
    else s)

/-- BOOT_ROM_START, after the cartridge step: the boot ROM serves BLK, I/O Ready is set (R673), and the fabric port loops that have light
are acquired (R837); the PUF is read before anything is written, and no identity is derived yet (R614). -/
def State.bootRom (s : State) : State :=
  if s.power.boot ≠ .rails ∨ s.now < s.power.refAt + 22000000 then s
  else
    let s := { s.modPower (fun p => { p with boot := .serving }) with sdio := { s.sdio with ioReady := true } }
    let s := s.takeFree.modTrust (fun t => { t with puf := some s.free })
    let s := s.cartridgeStep
    forEach (List.range 2) s (fun s k => if (s.cart k).lit then s.sweepPorts k else s)

/-- INPUT reports (R736): 0 low, 1 high, 2 back within range. -/
def State.inputRange (s : State) (detail : Nat) : State :=
  if s.power.boot = .serving ∧ s.power.pstate ≠ .ps5 then s.powerEv 0xFF poInput 0xFF 0 detail false else s

/-- The hardware cut (R735): a trip with cause OVERCURRENT. -/
def State.overcurrent (s : State) : State :=
  if s.powered ∧ !s.power.tripped then s.tripNow { overcurrent := true, die := 0xFF, sensor := 0xFF, reading := 0 } else s

/-- CMD5 from the host (R751, R771, R832): a module in PS5 or after a trip wakes from point W. -/
def State.wake (s : State) : State :=
  if s.power.pstate = .ps5 then s.modPower (fun p => { p with pstate := .ps0, boot := .sensors, pointW := s.now, checkedAt := none })
  else s

def execPowerUp (dt : Nat) (role : Bool) (pmAddr : BitVec 3) (s : State) : Host.Outcome State Fault Refusal :=
  .next ((s.elapse dt).powerUp role pmAddr)

def execStartupSensorRecheck (dt : Nat) (temps : List Int) (s : State) : Host.Outcome State Fault Refusal :=
  if !tempsOk temps then .fault .malformed else .next ((s.elapse dt).sensorStep temps)

def execRefclkQualified (dt : Nat) (s : State) : Host.Outcome State Fault Refusal := .next (s.elapse dt).refclkStep

def execBootRomStart (dt : Nat) (s : State) : Host.Outcome State Fault Refusal := .next (s.elapse dt).bootRom

def execInputPowerLoss (dt : Nat) (s : State) : Host.Outcome State Fault Refusal :=
  .next ((s.elapse dt).powerLoss .unpowered false)

def execInputOutOfRange (dt : Nat) (detail : Fin 3) (s : State) : Host.Outcome State Fault Refusal :=
  .next ((s.elapse dt).inputRange detail)

def execInputOvercurrent (dt : Nat) (s : State) : Host.Outcome State Fault Refusal := .next (s.elapse dt).overcurrent

def execResetAssert (dt : Nat) (lowNs : Nat) (s : State) : Host.Outcome State Fault Refusal :=
  .next ((s.elapse dt).assertReset lowNs)

def execResetRelease (dt : Nat) (role : Bool) (pmAddr : BitVec 3) (s : State) : Host.Outcome State Fault Refusal :=
  .next ((s.elapse dt).releaseReset role pmAddr)

/-- WAKE_RECHECK: the sensor step of a wake after a trip (R771). -/
def execWakeRecheck (dt : Nat) (temps : List Int) (s : State) : Host.Outcome State Fault Refusal :=
  let s := s.elapse dt
  if !tempsOk temps then .fault .malformed
  else .next (if s.power.tripped then s.sensorStep temps else s)

end Sys2Proof.Machine
end

