-- ==== Sys2Proof/Machine/Serve.lean ====
section
/-! DEFINITION. How the firmware and the boot ROM serve the rings: reserved fields and authority (R7, R635, R636, R686, R696),
the meaning of every mailbox command (R699), starting a command with its bulk (R682 to R691) and completing one that took
time. -/

namespace Sys2Proof.Machine

/-! ## Meanings by command -/

/-- What a mailbox command answers once its opcode, ring, reserved fields and authority are accepted (R696, R699). -/
def runHostCmd (c : HostCmd) (h : CmdHdr) (s : State) : Answer :=
  match c with
  | .devIdentify => cmdDevIdentify h s
  | .devAttest p => cmdDevAttest h p s
  | .devSessionOpen t => cmdDevSessionOpen h t s
  | .devSessionClose => cmdDevSessionClose h s
  | .devReset => cmdDevReset h s
  | .tickSourceSet p => cmdTickSourceSet h p s
  | .tickPlanLoad p => cmdTickPlanLoad h p s
  | .tickPlanArm p => cmdTickPlanArm h p s
  | .tickPlanDisarm m => cmdTickPlanDisarm h m s
  | .tickStatus => cmdTickStatus h s
  | .partnerAttach => cmdPartnerAttach h s
  | .partnerModify p => cmdPartnerModify h p s
  | .partnerDetach i => cmdPartnerDetach h i s
  | .modelDeclare => cmdModelDeclare h s
  | .modelMapPages p => cmdModelMapPages h p s
  | .slabDress p => cmdSlabDress h p s
  | .slabPin k => cmdSlabPin h k s
  | .slabRelease k => cmdSlabRelease h k s
  | .lightStatus => cmdLightStatus h s
  | .lineAssignSpare p => cmdLineAssignSpare h p s
  | .lockAcquire p => cmdLockAcquire h p s
  | .engineCalibrate e => cmdEngineCalibrate h e s
  | .phaseMapLoad n => cmdPhaseMapLoad h n s
  | .bankAssign p => cmdBankAssign h p s
  | .bankPower p => cmdBankPower h p s
  | .pageLoad p => cmdPageLoad h p s
  | .pageRelease p => cmdPageRelease h p s
  | .tenantCreate t => cmdTenantCreate h t s
  | .tenantAssign m t => cmdTenantAssign h m t s
  | .tenantStrip p => cmdTenantStrip h p s
  | .keyRotate t => cmdKeyRotate h t s
  | .keyImport p => cmdKeyImport h p s
  | .powerStateSet st => cmdPowerStateSet h st s
  | .powerLimitSet p => cmdPowerLimitSet h p s
  | .thermalLimitsSet l => cmdThermalLimitsSet h l s
  | .monconvConfigure p => cmdMonconvConfigure h p s
  | .monconvInject p => cmdMonconvInject h p s
  | .loopWrite p => cmdLoopWrite h p s
  | .loopFreeze p => cmdLoopFreeze h p s
  | .loopRelease p => cmdLoopRelease h p s
  | .xtalkLoad p => cmdXtalkLoad h p s
  | .stateRead p => cmdStateRead h p s
  | .stateList p => cmdStateList h p s
  | .eventRead m => cmdEventRead h m s
  | .faultInject p => cmdFaultInject h p s
  | .selftestRun p => cmdSelftestRun h p s
  | .fwLoadBegin n => cmdFwLoadBegin h n s
  | .fwLoadBlock o => cmdFwLoadBlock h o s
  | .fwLoadEnd => cmdFwLoadEnd h s
  | .domainJoin => cmdDomainJoin h s
  | .domainLeave => cmdDomainLeave h s
  | .domainRelay w => cmdDomainRelay h w s
  | .roleSet m => cmdRoleSet h m s

/-! ## Reserved fields (R7) -/

/-- Reserved bits of the TICK_SOURCE_SET entries. -/
def srcReserved (p : TickSourceParams) : Option Nat :=
  ((indexed [p.src0, p.src1, p.src2]).find? (fun x => decide (0x2000 ≤ x.2.toNat))).map (fun x => 0x18 + 2 * x.1 + 1)

/-- Reserved bits inside a field of a command's 64 bytes: DETAIL of the first (R7, R694). -/
def cmdReserved (c : HostCmd) : Option Nat :=
  match c with
  | .tickSourceSet p => srcReserved p
  | .tickPlanLoad p => (reservedAt 8 p.header.toNat headerReserved).map (fun o => 0x18 + o)
  | _ => none

/-- Reserved fields of the bulk payload, whatever its length: DETAIL of the first (R7, R694, R696). -/
def State.payloadReserved (s : State) (h : CmdHdr) (c : HostCmd) : Option Nat :=
  let b := h.bulk
  match c with
  | .devIdentify => if s.trust.identity.isNone then helperReserved b else none
  | .tickPlanLoad p =>
    let n := hdrCount p.header
    planReserved (takeDescs n b) (takeBufs p.bufCount.toNat (b.drop (64 * n)))
  | .partnerAttach | .partnerModify _ =>
    let x := bytesToBv 512 b
    (reservedAt 64 x.toNat (peReserved (peKind x))).map (fun o => bulkBit + o)
  | .modelDeclare => modelReserved b
  | .modelMapPages _ => tileReserved b
  | .phaseMapLoad _ => phaseReserved b
  | .xtalkLoad _ => xtPayloadReserved b
  | .domainJoin => joinReserved b
  | _ => none

/-- Reserved fields of a command and its bulk: DETAIL of the first. -/
def State.bulkReserved (s : State) (h : CmdHdr) (c : HostCmd) : Option Nat :=
  match cmdReserved c with
  | some o => some o
  | none => s.payloadReserved h c

/-! ## Authority (R607, R635, R636, R686) -/

/-- Tenant that a page belongs to, or is about to belong to. -/
def State.pageTenant (s : State) (p : Nat) : Option Nat :=
  let e := match (s.pageChanges.filter (fun c => decide (c.page = p))).getLast? with
    | some c => c.entry
    | none => s.page p
  if e.kind = 0 then none else some e.tenant

/-- The session's tenant owns an entry that exists. -/
def State.ownsPartner (s : State) (t i : Nat) : Bool := peState (s.partner i) == psFree || peTenant (s.partner i) == t

/-- Pages, partners, CAs and tenants that a command names belong to the session's tenant (R636, R638). -/
def State.ownsUnits (s : State) (h : CmdHdr) (c : HostCmd) : Bool :=
  let t := sessionTenant h
  let x := bytesToBv 512 h.bulk
  match c with
  | .partnerAttach => decide (h.bulk.length ≠ 64) || (decide (peTenant x = t) && s.ownsCluster h (peCluster x))
  | .partnerModify p => s.ownsPartner t p.index.toNat && (decide (h.bulk.length ≠ 64) || s.ownsCluster h (peCluster x))
  | .partnerDetach i => s.ownsPartner t i.toNat
  | .pageLoad p =>
    (match s.pageTenant p.page.toNat with | some y => decide (y = t) | none => true)
      && (decide (p.source ≠ 2) || (peState (s.partner p.partner.toNat) != psFree && peTenant (s.partner p.partner.toNat) == t))
  | .pageRelease p =>
    ((s.pages.map (fun y => y.1)) ++ s.pageChanges.map (fun y => y.page)).all (fun q =>
      !(decide (p.page.toNat ≤ q) && decide (q < p.page.toNat + p.count.toNat))
        || (match s.pageTenant q with | some y => decide (y = t) | none => true))
  | .keyRotate k => decide (k.toNat = t)
  | .keyImport p =>
    (decide (16 ≤ p.ca.toNat) || decide (t = 0)) && ((s.ca p.ca.toNat).cak.isNone || decide ((s.ca p.ca.toNat).tenant = t))
  | _ => true

/-- FAULT_INJECT and SELFTEST_RUN name resources of tenant 0 only. -/
def State.diagAllowed (s : State) (c : HostCmd) : Bool :=
  let own (k : Option Nat) : Bool := match k with
    | some x => s.clusterTenant x == some 0
    | none => true
  match c with
  | .faultInject p => own (diagCluster p.kind.toNat p.target.toNat)
  | .selftestRun p => own (selftestCluster p.test.toNat p.target.toNat)
  | _ => true

/-- The command is permitted on its session or in clear (R635, R636); a relayed ROLE_SET promotes no worker (R607). -/
def State.permits (s : State) (relayed : Bool) (h : CmdHdr) (c : HostCmd) : Bool :=
  let op := opcodeOf c
  match h.session with
  | none => anySession op || (op / 256 == 0x0D && s.mbx.fw != .running)
  | some t =>
    if anySession op || ownSession op then true
    else if tenantCmd op then (namedClusters h c).all (s.ownsCluster h) && s.ownsUnits h c
    else t == 0 && s.diagAllowed c && !(relayed && (match c with | .roleSet m => m | _ => false))

/-- What the boot ROM does not serve completes with NOT_READY (R686). -/
def State.serves (s : State) (r : Ring) (op : Nat) : Bool :=
  match s.mbx.fw with
  | .running => true
  | .restarting => true
  | .halted => r == .blk && (op == 0x0101 || op == 0x0D01)
  | _ => r == .blk

/-- The checks before a command's own: its code and DETAIL where one fails (R686, R696). -/
def State.refuses (s : State) (relayed : Bool) (h : CmdHdr) (c : HostCmd) : Option (Nat × Nat) :=
  if !s.serves h.ring (opcodeOf c) then some (stNotReady, 0)
  else if !(ringsOf (opcodeOf c)).contains h.ring then some (stInvalid, 0)
  else if h.ring ≠ .blk ∧ h.bulk ≠ [] then some (stInvalid, 8)
  else match s.bulkReserved h c with
    | some o => some (stInvalid, o)
    | none => if s.permits relayed h c then none else some (stDenied, 0)

/-- A command's answer (R696). -/
def State.answer (s : State) (relayed : Bool) (h : CmdHdr) (c : HostCmd) : Answer :=
  match s.refuses relayed h c with
  | some e => Answer.errD s e.1 e.2
  | none => runHostCmd c h s

/-! ## Starting a command -/

/-- A command that has started: it completes with its answer, or stays in execution. -/
def State.started (s : State) (relay : Option (Nat × Nat)) (h : CmdHdr) (c : HostCmd) (a : Answer) : State :=
  if a.stay then
    a.s.modRing (ringNo h.ring) (fun y => { y with
      exec := some { hdr := h, cmd := c, since := s.now, left := a.left, relay := relay } })
  else s.deliver relay h c a

/-- Rotation of R684: a start on CTL, BLK or DIA is remembered. -/
def State.served (s : State) (r : Nat) : State := if r = 0 then s else s.modMbx (fun m => { m with lastRing := r })

/-- The mailbox works and the host reaches it: powered, serving, I/O Ready, SD_VDD present, no test mode, DS0 there (R861). It serves its
rings in PS1 to PS4, in PS4 as in PS3 (R749, R750). -/
def State.mailboxOn (s : State) : Bool :=
  s.power.boot == .serving && s.power.pstate != .ps5 && !s.power.tripped && !s.jtag.inEffect && s.power.ds0Ticks.isNone
def State.hostLink (s : State) : Bool := s.mailboxOn && s.sdio.ioReady && s.sdio.vdd

/-! ## Envelopes (R631 to R634) -/

/-- An accepted envelope uses its sequence number and ends a run of discards. -/
def State.goodEnvelope (s : State) (t chan : Nat) : State :=
  (s.modTenant t (fun x => { x with session := x.session.map (fun y => { y with discards := 0 }) })).useSeq t chan

/-- A discarded envelope is counted; the sixteenth in a row closes the session (R633, R634). -/
def State.badEnvelope (s : State) (t : Nat) (seq : Bool) : State :=
  let s := s.modTenant t (fun x => { x with
    badTag := if seq then x.badTag else x.badTag + 1, badSeq := if seq then x.badSeq + 1 else x.badSeq
    session := x.session.map (fun y => { y with discards := y.discards + 1 }) })
  match (s.tenant t).session with
  | some y => if 16 ≤ y.discards then s.closeSession t 1 else s
  | none => s

/-- Header fields of an envelope (R631). -/
def envSession (l : List Byte) : Nat := leAt l 0 1 % 16
def envChannel (l : List Byte) : Nat := leAt l 0 1 / 16
def envLength (l : List Byte) : Nat := leAt l 2 2
def envSeq (l : List Byte) : Nat := leAt l 8 8

/-- The plaintext of an envelope that belongs to a session and a channel and authenticates under the session's key (R631). -/
def State.openEnv (s : State) (t chan : Nat) (l : List Byte) : Option (List Byte) :=
  match (s.tenant t).session with
  | none => none
  | some x =>
    if envSession l ≠ t ∨ envChannel l ≠ chan ∨ leAt l 1 1 ≠ 0 ∨ leAt l 4 4 ≠ 0 then none
    else
      let n := envLength l
      gcmOpen (toLe 32 x.keyIn.toNat) (envNonce chan (envSeq l)) (l.take 16) ((l.drop 16).take n) ((l.drop (16 + n)).take 16)

/-- The sequence number is the next of its channel (R632). -/
def State.envNext (s : State) (t chan : Nat) (l : List Byte) : Bool :=
  match (s.tenant t).session with
  | some y => decide (envSeq l = tabGet 0 y.seq chan)
  | none => false

/-! ## Bulk (R687 to R690) -/

/-- Where a BLK command stands with its bulk: complete, still short, or with an envelope of another length. -/
inductive BulkState where
  | whole | short | badLength
deriving DecidableEq, Repr

/-- BULK_LEN of a command's 64 bytes. -/
def Accepted.bulkLen (a : Accepted) : Nat := leAt a.bytes 8 4

/-- Bytes that a command's bulk takes: raw, or in envelopes (R688). -/
def Accepted.encoded (a : Accepted) : Nat := bulkOutLen a.session a.bulkLen

/-- What has arrived for the head of BLK. -/
def Accepted.source (a : Accepted) (m : Mailbox) : List Byte := if a.relay.isSome then a.bulk else m.binFifo

/-- Some header of the envelopes still to come, of so many plaintext bytes, gives another LENGTH than R688: read before
anything is decrypted (R689). -/
def lengthsBad : Nat → Nat → List Byte → Bool
  | 0, _, _ => false
  | k + 1, left, src =>
    let n := min 32768 left
    if left = 0 ∨ src.length < 16 then false
    else envLength src ≠ n || lengthsBad k (left - n) (src.drop (n + 32))


/-- Take this many whole envelopes from a byte stream, whose lengths are right: `got` is the plaintext so far; one that fails
its tag or its sequence number is discarded (R633). Answers the state, the plaintext and the rest of the stream. -/
def State.takeEnvelopes (t : Nat) : Nat → State → List Byte → List Byte → State × List Byte × List Byte
  | 0, s, got, src => (s, got, src)
  | k + 1, s, got, src =>
    let rest := src.drop (envLength src + 32)
    match s.openEnv t 2 src with
    | none => State.takeEnvelopes t k (s.badEnvelope t false) got rest
    | some p =>
      if !s.envNext t 2 src then State.takeEnvelopes t k (s.badEnvelope t true) got rest
      else State.takeEnvelopes t k (s.goodEnvelope t 2) (got ++ p) rest

/-- The head of BLK takes what has arrived of its bulk: the state with the plaintext taken so far in the head's entry (of a
relayed sealed command, the rest of its stream), that plaintext, and how it stands. -/
def State.takeBulk (s : State) (a : Accepted) : State × List Byte × BulkState :=
  if a.direct then (s, a.bulk, .whole)
  else if 524288 < a.encoded then (s, [], .badLength)
  else match a.session with
    | none =>
      let src := a.source s.mbx
      if src.length < a.bulkLen then (s, [], .short)
      else if a.relay.isSome then (s, src.take a.bulkLen, .whole)
      else (s.modMbx (fun m => { m with binFifo := m.binFifo.drop a.bulkLen }), src.take a.bulkLen, .whole)
    | some t =>
      -- of a relayed command `bulk` is the stream, else the plaintext taken so far
      let left := if a.relay.isSome then a.bulkLen else a.bulkLen - a.bulk.length
      let src := a.source s.mbx
      let k := ceilDiv left 32768
      if lengthsBad k left src then (s, [], .badLength)
      else if src.length < bulkOutLen a.session left then (s, [], .short)
      else
        let r := s.takeEnvelopes t.val k (if a.relay.isSome then [] else a.bulk) src
        let s1 := if a.relay.isSome then r.1 else r.1.modMbx (fun m => { m with binFifo := r.2.2 })
        if r.2.1.length < a.bulkLen then
          let kept := if a.relay.isSome then r.2.2 else r.2.1
          (s1.modRing 2 (fun y => { y with cmds := (y.cmds.head?.map (fun b => { b with bulk := kept })).toList ++ y.cmds.tail }),
            [], .short)
        else (s1, r.2.1, .whole)

/-! ## The head of a ring -/

def ringOf (r : Nat) : Ring :=
  match r with
  | 0 => .urg
  | 1 => .ctl
  | 2 => .blk
  | _ => .dia

/-- The head leaves its queue. -/
def State.popHead (s : State) (r : Nat) : State := s.modRing r (fun y => { y with cmds := headNow s.now y.cmds.tail })

/-- Complete the head without starting it. -/
def State.completeHead (s : State) (r : Nat) (a : Accepted) (op : Nat) (e : Nat × Nat) : State :=
  let s := s.popHead r
  let h : CmdHdr := { ring := ringOf r, id := BitVec.ofNat 32 (leAt a.bytes 4 4), session := a.session, bulk := [] }
  let ans := Answer.errD s e.1 e.2
  match a.relay with
  | some x => (s.finishRelayed x.1 x.2 h op (clearCpl op) ans).modRing r (fun y => { y with completed := y.completed + 1 })
  | none => s.finish h op (clearCpl op) ans

/-- Start the head of a ring with its bulk. Its output must fit (R691, R692); else it waits, unchanged. -/
def State.startHead (s : State) (r : Nat) (a : Accepted) (bulk : List Byte) : Option State :=
  let op := leAt a.bytes 0 2
  if !s.serves (ringOf r) op then some (s.completeHead r a op (stNotReady, 0))
  else match checkBytes (ringOf r) a.bytes with
    | .error o => some (s.completeHead r a op (stInvalid, o))
    | .ok c =>
      let h : CmdHdr := { ring := ringOf r, id := BitVec.ofNat 32 (leAt a.bytes 4 4), session := a.session, bulk := bulk }
      let s1 := (s.popHead r).served r
      let ans := s1.answer a.relay.isSome h c
      if !ans.stay && !(s.answerFits a.relay h ans) then none
      else some (s1.started a.relay h c ans)

/-- The code of a BLK head whose bulk never comes: the first that applies of the checks on its opcode, ring and reserved fields
and its authority, then `late` (R686, R696). -/
def State.headCode (s : State) (a : Accepted) (late : Nat × Nat) : Nat × Nat :=
  let h : CmdHdr := { ring := .blk, id := BitVec.ofNat 32 (leAt a.bytes 4 4), session := a.session, bulk := [] }
  if !s.serves .blk (leAt a.bytes 0 2) then (stNotReady, 0)
  else match checkBytes .blk a.bytes with
    | .error o => (stInvalid, o)
    | .ok c => match cmdReserved c with
      | some o => (stInvalid, o)
      | none => if s.permits a.relay.isSome h c then late else (stDenied, 0)

/-- Complete a BLK head without its bulk: the bulk-in FIFO is emptied (R689, R690). -/
def State.dropHead (s : State) (a : Accepted) (late : Nat × Nat) : State :=
  let s := s.completeHead 2 a (leAt a.bytes 0 2) (s.headCode a late)
  if a.relay.isSome then s else s.modMbx (fun m => { m with binFifo := [] })

/-- The bulk of a BLK command has another length, or exceeds the FIFO: INVALID_LENGTH (R689). -/
def State.rejectBulk (s : State) (a : Accepted) : State := s.dropHead a (stInvalidLength, 8)

/-- Start the head of one ring, if it can start: `none` where it waits for its bulk or for room. -/
def State.tryRing (s : State) (r : Nat) : State × Bool :=
  match (s.ring r).exec, (s.ring r).cmds with
  | none, a :: _ =>
    if r = 2 then
      let b := s.takeBulk a
      match b.2.2 with
      | .short => (b.1, false)
      | .badLength => (b.1.rejectBulk a, true)
      | .whole => (match b.1.startHead r a b.2.1 with
        | some s' => (s', true)
        | none => (s, false))
    else (match s.startHead r a [] with
      | some s' => (s', true)
      | none => (s, false))
  | _, _ => (s, false)

/-- Try rings in order until one starts. -/
def State.tryRings : List Nat → State → State
  | [], s => s
  | r :: rs, s =>
    let x := s.tryRing r
    if x.2 then x.1 else State.tryRings rs x.1

/-- CTL, BLK and DIA in rotation after the one served last (R684). -/
def rotation (last : Nat) : List Nat :=
  match last with
  | 1 => [2, 3, 1]
  | 2 => [3, 1, 2]
  | _ => [1, 2, 3]

/-- COMMAND_START (R684): URG first, then the other rings in rotation; while RESTARTING none (R686). -/
def State.startNext (s : State) : State :=
  if !s.mailboxOn || s.mbx.fw == .restarting then s else s.tryRings (0 :: rotation s.mbx.lastRing)

/-! ## Completing a command that took time -/

/-- The output of the relayed command lies in the F3 window of the worker: IN_F3 of a clear completion, channel 4 of sealed
output. -/
def relayedF3 (cpl data : List Byte) : Bool :=
  if cpl.length = 32 then bitAt (leAt cpl 1 1) 1 else envChannel data == 4

def State.dropRelay (s : State) (worker tag : Nat) : State :=
  s.modDomain (fun d => { d with relays := d.relays.filter (fun r => !(decide (r.worker = worker) && decide (r.tag = tag))) })

/-- DOMAIN_RELAY completes with the worker's completion and its output as its own output (R603, R604). -/
def Relay.answer (r : Relay) (s : State) : Answer :=
  let bs := r.cpl.getD []
  { Answer.ok s with out := bs ++ r.data, f3 := relayedF3 bs r.data }

/-- A DOMAIN_RELAY whose CPL has come, while its output found no room. -/
def endDomainRelay (h : CmdHdr) (s : State) : Option Answer :=
  (s.fabric.domain.relays.find? (fun r => r.hdr == some h && r.cpl.isSome)).map (fun r => r.answer (s.dropRelay r.worker r.tag))

/-- What a command in execution answers at its end; `none` where it ends by another step, or not yet. -/
def Exec.ends (x : Exec) (si : Silicon) (s : State) : Option Answer :=
  match x.cmd with
  | .devIdentify => some (endDevIdentify x.hdr si s)
  | .devAttest p => some (endDevAttest p si s)
  | .devSessionOpen t => some (endDevSessionOpen t si s)
  | .lockAcquire p => endLockAcquire p si s
  | .engineCalibrate e => some (endEngineCalibrate e si s)
  | .selftestRun p => some (endSelftestRun p x.left si s)
  | .fwLoadEnd => some (endFwLoadEnd si s)
  | .domainRelay _ => endDomainRelay x.hdr s
  | .powerStateSet st => if st = 0 then some (endPowerStateSet st s) else none
  | .stateRead p =>
    if 0 < x.left ∨ (p.cls = 0x0018 ∧ (s.readWait p).isSome) then none else some (endStateRead x.hdr p s)
  | _ => none

/-- COMMAND_COMPLETE. -/
def State.completeCmd (s : State) (r : Nat) (si : Silicon) : State :=
  if !s.mailboxOn || s.mbx.fw == .restarting then s
  else match (s.ring r).exec with
    | none => s
    | some x => (match x.ends si s with
      | some a => s.completeRing r a
      | none => s)

/-- BULK_TIMEOUT (R690). -/
def State.bulkTimeout (s : State) : State :=
  if !s.mailboxOn || s.mbx.fw == .restarting then s
  else match (s.ring 2).exec, (s.ring 2).cmds with
    | none, a :: _ =>
      let missing := !a.direct && (match a.session with
        | none => decide ((a.source s.mbx).length < a.bulkLen)
        | some _ => if a.relay.isSome then decide (a.bulk.length < a.encoded)
          else decide ((a.source s.mbx).length < bulkOutLen a.session (a.bulkLen - a.bulk.length)))
      if missing && decide (a.headAt + 100000000 ≤ s.now) then s.dropHead a (stTimeout, 0) else s
    | _, _ => s

/-- PAGE_LOAD_TIMEOUT (R707): no frame has landed for 1 s. -/
def State.pageLoadTimeout (s : State) : State :=
  match s.ringExecuting (fun c => match c with | .pageLoad _ => true | _ => false) with
  | none => s
  | some r => (match (s.ring r).exec with
    | some x => if s.mbx.fw = .running ∧ x.since + 1000000000 ≤ s.now then s.completeRing r (Answer.errWith s.dropLoad stTimeout) else s
    | none => s)

/-! ## Pushes and ports (R676 to R681) -/

def State.pushed (s : State) (r code : Nat) : State := s.modRing r (fun y => { y with pushResult := code })

/-- A push on a full ring (R677). -/
def State.pushBusy (s : State) (r : Nat) : State := s.modRing r (fun y => { y with pushResult := 1, status := y.status.hit 22 })

/-- A push is accepted: the ring counts it (R674). -/
def State.pushAccepted (s : State) (r : Nat) : State :=
  s.modRing r (fun y => { y with pushResult := 0, accepted := y.accepted + 1 })

def State.queueCmd (s : State) (r : Nat) (a : Accepted) : State := s.modRing r (fun y => { y with cmds := y.cmds ++ [a] })

/-- CMD_PORT_PUSH. -/
def State.pushClear (s : State) (r : Nat) (bytes : List Byte) : State :=
  if !s.hostLink then s
  else if bytes.length ≠ 64 then s.pushed r 3
  else if (s.ring r).free = 0 then s.pushBusy r
  else (s.pushAccepted r).queueCmd r { bytes := bytes, session := none, headAt := s.now, relay := none, direct := false, bulk := [] }

/-- SEALED_PORT_PUSH: authentication at the push, in push order (R679). -/
def State.pushSealed (s : State) (r : Nat) (bytes : List Byte) : State :=
  let t := envSession bytes
  if !s.hostLink then s
  else if bytes.length ≠ 96 then s.pushed r 3
  else if (s.ring r).free = 0 then s.pushBusy r
  else if 64 < envLength bytes then s.pushed r 3
  else match s.openEnv t 0 bytes with
    | none => (s.badEnvelope t false).pushed r 0xE
    | some plain =>
      if !s.envNext t 0 bytes then (s.badEnvelope t true).pushed r 0xE
      else
        let s := s.goodEnvelope t 0
        if envLength bytes < 64 then s.pushed r 3
        else (s.pushAccepted r).queueCmd r
          { bytes := plain, session := some (Fin.ofNat 16 t), headAt := s.now, relay := none, direct := false, bulk := [] }

/-- CPL_PORT_POP (R681): what the host reads is kept as the last bytes read. -/
def State.popCpl (s : State) (r : Nat) : State :=
  if !s.hostLink then s
  else match (s.ring r).cpls with
    | [] => { s with sdio := { s.sdio with read := [0xFF] } }
    | c :: cs => { s.modRing r (fun y => { y with cpls := cs }) with sdio := { s.sdio with read := c.wire } }

/-- BULK_IN_WRITE (R687). -/
def State.bulkIn (s : State) (bytes : List Byte) : State :=
  if !s.hostLink then s
  else
    let room := 524288 - s.mbx.binFifo.length
    s.modMbx (fun m => { m with
      binFifo := m.binFifo ++ bytes.take room, int := m.int.hitIf (decide (room < bytes.length)) 8 })

/-- BULK_OUT_READ (R691). -/
def State.bulkRead (s : State) (count : Nat) : State :=
  if !s.hostLink then s
  else { s.modMbx (fun m => { m with boutFifo := m.boutFifo.drop count }) with
    sdio := { s.sdio with read := s.mbx.boutFifo.take count } }

/-- REGISTER_WRITE (R674): INT_STATUS, INT_ENABLE, RING_STATUS and F3_RPTR; other addresses ignore writes. -/
def State.writeRegister (s : State) (addr value : Nat) : State :=
  if !s.hostLink then s
  else if addr = 0x08 then s.modMbx (fun m => { m with int := m.int.clear (BitVec.ofNat 64 (value % 1024)) })
  else if addr = 0x0C then s.modMbx (fun m => { m with intEnable := BitVec.ofNat 32 (value % 1024) })
  else if addr = 0x10 ∨ addr = 0x14 ∨ addr = 0x18 ∨ addr = 0x1C then
    s.modRing ((addr - 0x10) / 4) (fun y => { y with status := y.status.clear (BitVec.ofNat 64 (value &&& 0x400000)) })
  else if addr = 0x2C then s.modMbx (fun m => { m with rptr := value % 65536 })
  else s

/-- Envelopes that a command's own row presents: its command on channel 0, its bulk in blocks of 32,768 bytes on channel 2
(R679, R688). -/
def State.openEnvelopes (s : State) (h : CmdHdr) : State :=
  match h.session with
  | some t => (List.range (ceilDiv h.bulk.length 32768)).foldl (fun (s : State) _ => s.goodEnvelope t.val 2) (s.goodEnvelope t.val 0)
  | none => s

/-- The command's session is open; a command in clear has none. -/
def State.sessionOpen (s : State) (h : CmdHdr) : Bool :=
  match h.session with
  | some t => (s.tenant t.val).session.isSome
  | none => true

/-- The state on which a command's own row runs it on an idle ring: its envelopes are used, its push is accepted, its ring is
the one served last. -/
def State.found (s : State) (h : CmdHdr) : State :=
  ((s.openEnvelopes h).pushAccepted (ringNo h.ring)).served (ringNo h.ring)

/-- A ring with nothing waiting and nothing in execution, while the firmware is not restarting. -/
def State.idleRing (s : State) (r : Nat) : Bool :=
  (s.ring r).cmds.isEmpty && (s.ring r).exec.isNone && s.mbx.fw != .restarting

/-- A command's own row (assumption 5): it is accepted on its ring as a push is; on an idle ring it starts at once, else it
waits its turn with its bulk. -/
def State.submit (s : State) (h : CmdHdr) (c : HostCmd) : State :=
  let r := ringNo h.ring
  if !s.hostLink then s
  else if (s.ring r).free = 0 then s.pushBusy r
  else if !s.sessionOpen h then (match h.session with
    | some t => (s.badEnvelope t.val false).pushed r 0xE
    | none => s)
  else
    let f := s.found h
    let a := f.answer false h c
    if s.idleRing r && (a.stay || f.answerFits none h a) then f.started none h c a
    else ((s.openEnvelopes h).pushAccepted r).queueCmd r
      { bytes := cmdBytes h c, session := h.session, headAt := s.now, relay := none, direct := true, bulk := h.bulk }

end Sys2Proof.Machine
end

