-- ==== Sys2Proof/Machine/Relayed.lean ====
section
/-! DEFINITION. Relayed commands (R603 to R605), and the frames of a domain that carry no data: SHED and TAKEOVER (R595,
R608). -/

namespace Sys2Proof.Machine

/-! ## Numbered frames of a relay (R578, R604) -/

/-- Where a CMD or BULK frame comes from: the manager of record, or before the session whoever sends it on the port (R605). -/
def State.relaySource (s : State) (p : Nat) (h : JoryarHdr) : Option Nat :=
  if !s.portsOpen then some (bareSender p)
  else
    let i := h.dstPartner.toNat
    if s.isJoryar h && !s.mbx.manager && s.fabric.domain.joined && decide (h.srcModule.toNat = s.fabric.domain.managerIndex)
        && decide (i = 1 + s.fabric.domain.managerIndex) && peState (s.partner i) != psFree then some i else none

/-- A frame of `n` bytes of payload of a relay passes: before the session one in clear on the default EtherType, else one under its
partner's CA; to the manager frames of a relay come in clear from a worker whose CA has no SAK yet (R546, R548, R594, R605). -/
def State.relayPasses (s : State) (p i n : Nat) (h : JoryarHdr) : State × Bool :=
  if Config.partners ≤ i then (s.countRx p (32 + n), h.ether == 0x88B5 && h.prot.ca.isNone)
  else if s.mbx.manager ∧ h.prot.ca.isNone ∧ !s.secured i then
    (if peState (s.partner i) = psShed then ((s.countRx p (32 + n)).countPartner i pcShedDrop 1, false) else (s.countRx p (32 + n), true))
  else s.fromPartner p i (32 + n) h.prot

/-- A frame of a relay is accepted only with the expected SEQ, and is acknowledged. -/
def State.takeNumbered (s : State) (i : Nat) (h : JoryarHdr) : Option State :=
  if h.seq.toNat ≠ (s.dyn i).rxSeq then none else some ((s.countPartner i pcRx 1).accepted i)

/-- What a frame of a relay does once it has passed and is the next of its sender; one that is dropped takes no number (R605). -/
def State.relayFrameIn (s : State) (p n : Nat) (src : Option Nat) (h : JoryarHdr) (drop : State → Nat → Bool) (f : State → Nat → State) : State :=
  match src with
  | none => (s.countRx p (32 + n)).portFlag p prUnknown
  | some i =>
    let r := s.relayPasses p i n h
    if !r.2 || drop r.1 i then r.1
    else match r.1.takeNumbered i h with
      | none => r.1
      | some s => f s i

/-! ## The worker: JORYAR_CMD, JORYAR_BULK -/

/-- The ring that a relayed opcode goes to: BLK where it may, else the first it may use. -/
def relayRing (op : Nat) : Nat :=
  let l := ringsOf op
  if l.contains .blk then 2 else match l with
    | r :: _ => ringNo r
    | [] => 1

/-- Opcodes that a worker takes before its session is open (R605). -/
def bareOpcode (op : Nat) : Bool :=
  op == 0x0101 || op == 0x0102 || op == 0x0103 || op == 0x0D01 || op == 0x0D02 || op == 0x0D03

/-- A relayed command is queued on its ring; one that finds it full is dropped, and the manager's wait ends by its time. -/
def State.queueRelayed (s : State) (i tag : Nat) (bytes : List Byte) (session : Option TenantId) : State :=
  let r := relayRing (leAt bytes 0 2)
  if (s.ring r).free = 0 then s
  else (s.modRing r (fun y => { y with accepted := y.accepted + 1 })).queueCmd r
    { bytes := bytes, session := session, headAt := s.now, relay := some (i, tag), direct := false, bulk := [] }

/-- A CMD frame that is neither a clear command nor an envelope, or that a worker without a session does not take (R605). -/
def State.dropsCmd (s : State) (bs : List Byte) : Bool :=
  if s.portsOpen then bs.length != 64 && (bs.length != 96 || decide (64 < envLength bs))
  else bs.length != 64 || !bareOpcode (leAt bs 0 2)

/-- A BULK frame of no command that waits for it (R605). -/
def State.strayBulk (s : State) (i : Nat) (h : JoryarHdr) : Bool :=
  !(s.ring 2).cmds.any (fun a => a.relay == some (i, h.tag.toNat) && h.offset.toNat == a.bulk.length)

/-- The 64 bytes in clear, or the envelope, of a CMD frame; an envelope is treated as a push treats it (R633), without a PUSH_RESULT. -/
def State.relayedCmd (s : State) (i : Nat) (h : JoryarHdr) (bs : List Byte) : State :=
  let t := envSession bs
  if bs.length = 64 then s.queueRelayed i h.tag.toNat bs none
  else match s.openEnv t 0 bs with
    | none => s.badEnvelope t false
    | some plain =>
      if !s.envNext t 0 bs then s.badEnvelope t true
      else if envLength bs < 64 then s.goodEnvelope t 0
      else (s.goodEnvelope t 0).queueRelayed i h.tag.toNat plain (some (Fin.ofNat 16 t))

/-- JORYAR_CMD. -/
def State.joryarCmd (s : State) (p : Nat) (h : JoryarHdr) (bs : List Byte) : State :=
  if !s.portRuns p || !s.mailboxOn || s.mbx.manager then s
  else s.relayFrameIn p bs.length (s.relaySource p h) h (fun s _ => s.dropsCmd bs) (fun s i => s.relayedCmd i h bs)

/-- Bulk of a relayed command goes to its entry, in order. -/
def Accepted.feed (a : Accepted) (i tag ofs : Nat) (bs : List Byte) : Accepted :=
  if a.relay = some (i, tag) ∧ ofs = a.bulk.length then { a with bulk := a.bulk ++ bs } else a

/-- JORYAR_BULK. -/
def State.joryarBulk (s : State) (p : Nat) (h : JoryarHdr) (bs : List Byte) : State :=
  if !s.portRuns p || !s.mailboxOn || s.mbx.manager then s
  else s.relayFrameIn p bs.length (s.relaySource p h) h (fun s i => s.strayBulk i h) (fun s i =>
    s.modRing 2 (fun y => { y with cmds := y.cmds.map (fun a => a.feed i h.tag.toNat h.offset.toNat bs) }))

/-! ## The manager: JORYAR_OUTPUT, JORYAR_CPL, DOMAIN_RELAY_TIMEOUT -/

/-- The relay outstanding to a worker under a TAG. -/
def State.relayOf (s : State) (worker tag : Nat) : Option Relay :=
  s.fabric.domain.relays.find? (fun r => decide (r.worker = worker) && decide (r.tag = tag))


def State.modRelayed (s : State) (worker tag : Nat) (f : Relay → Relay) : State :=
  s.modDomain (fun d => { d with relays := d.relays.map (fun r => if r.worker = worker ∧ r.tag = tag then f r else r) })

/-- A frame that a worker of the domain sends to its manager. -/
def State.fromWorker (s : State) (h : JoryarHdr) : Option Nat :=
  let i := h.dstPartner.toNat
  if s.isJoryar h && s.mbx.manager && s.fabric.domain.joined && decide (i = 1 + h.srcModule.toNat) && peState (s.partner i) != psFree
  then some i else none

/-- JORYAR_OUTPUT: the output is gathered until the CPL. -/
def State.joryarOutput (s : State) (p : Nat) (h : JoryarHdr) (bs : List Byte) : State :=
  if !s.rxOn p then s
  else s.relayFrameIn p bs.length (s.fromWorker h) h (fun _ _ => false) (fun s _ =>
    s.modRelayed h.srcModule.toNat h.tag.toNat (fun r =>
      if h.offset.toNat = r.data.length then { r with data := r.data ++ bs } else r))


/-- A relay ends: DOMAIN_RELAY completes with the answer; where its output does not fit yet it goes on waiting (R691, R692). -/
def State.endRelay (s : State) (worker tag : Nat) (a : State → Answer) : State :=
  match s.ringExecuting (fun c => match c with
      | .domainRelay w => decide (w.toNat = worker)
      | _ => false) with
  | some r =>
    let t := s.dropRelay worker tag
    (match (s.ring r).exec with
    | some x => if s.answerFits x.relay x.hdr (a t) then t.completeRing r (a t) else s
    | none => t)
  | none => s.dropRelay worker tag

/-- A domain page number (R602) of a page of a worker, and one whose fields are in range. -/
def domainPage (worker page : Nat) : Nat := page + worker <<< 17
def domainPageOk (n : Nat) : Bool := decide (n < 2 ^ 25) && decide (n % 2 ^ 17 < Config.pages)

def Domain.putPage (d : Domain) (n : Nat) (e : DomainPage) : Domain :=
  if domainPageOk n then { d with pageMap := tabPut d.pageMap n e } else d

/-- What a relayed page or partner command that completed OK changes in the domain tables (R603). -/
def Domain.taught (d : Domain) (w : Nat) (c : HostCmd) (bulk : List Byte) (result : Nat) : Domain :=
  match c with
  | .pageLoad p => d.putPage (domainPage w p.page.toNat) { kind := p.kind.toNat, tenant := 0, model := 0xFFFF }
  | .pageRelease p =>
    let a := domainPage w p.page.toNat
    { d with pageMap := d.pageMap.filter (fun x => !(decide (a ≤ x.1) && decide (x.1 < a + p.count.toNat))) }
  | .modelMapPages p => ((tileRecords p.count.toNat bulk).map trPage).foldl (fun d q =>
      match tabFind d.pageMap (domainPage w q) with
      | some e => d.putPage (domainPage w q) { e with model := p.model.toNat }
      | none => d.putPage (domainPage w q) { kind := 1, tenant := 0, model := p.model.toNat }) d
  | .partnerAttach => { d with directory := tabPut d.directory (domainPage w result) (putField (bytesToBv 512 bulk) 0 2 psActive) }
  | .partnerModify p => { d with directory := tabPut d.directory (domainPage w p.index.toNat) (putField (bytesToBv 512 bulk) 0 2 psActive) }
  | .partnerDetach i => { d with directory := tabDel d.directory (domainPage w i.toNat) }
  | _ => d

/-- The manager updates its domain tables from a completion: a clear one of a clear command, or what it learns of a sealed relay, the
command with its bulk and the completion (R603, assumption 100). -/
def State.learn (s : State) (r : Relay) (cpl : List Byte) (plain : Option (List Byte × List Byte)) : State :=
  let q := if relayedLen r.cmd = 64 ∧ cpl.length = 32 then some (r.cmd, cpl) else plain
  match q with
  | some (cmd, done) =>
    if leAt done 0 1 ≠ stOk then s
    else (match parseCmd (leAt cmd 0 2) (leNat (cmd.take 64)) with
      | some c => s.modDomain (fun d => d.taught r.worker c (cmd.drop 64) (leAt done 16 16))
      | none => s)
  | none => s

/-- A relay that has its CPL ends with the worker's completion and its output as its own output (R603, R604). -/
def State.answerRelay (s : State) (worker tag : Nat) : State :=
  match s.relayOf worker tag with
  | some r => s.endRelay worker tag r.answer
  | none => s

/-- JORYAR_CPL: DOMAIN_RELAY completes, once there is room for its output. -/
def State.joryarCpl (s : State) (p : Nat) (h : JoryarHdr) (bs : List Byte) (plain : Option (List Byte × List Byte)) : State :=
  if !s.rxOn p then s
  else s.relayFrameIn p bs.length (s.fromWorker h) h (fun _ _ => false) (fun s _ =>
    match s.relayOf h.srcModule.toNat h.tag.toNat with
    | none => s
    | some r =>
      if r.cpl.isSome then s
      else ((s.learn r bs plain).modRelayed r.worker r.tag (fun r => { r with cpl := some bs })).answerRelay r.worker r.tag)

/-- DOMAIN_RELAY_TIMEOUT: no CPL has come in the command's time. -/
def State.relayTimeout (s : State) (worker tag : Nat) : State :=
  match s.relayOf worker tag with
  | none => s
  | some r =>
    if s.mailboxOn && r.cpl.isNone && decide (r.since + r.limit ≤ s.now) then s.endRelay worker tag (fun s => Answer.err s stTimeout) else s

/-! ## JORYAR_SHED, JORYAR_TAKEOVER -/

/-- JORYAR_SHED: the peer has shed this partner; the rules give the notice no effect beyond its receipt. -/
def State.joryarShed (s : State) (p : Nat) (h : JoryarHdr) : State :=
  if !s.rxOn p then s
  else
    let i := h.dstPartner.toNat
    let x := s.partner i
    if !s.isJoryar h ∨ peState x = psFree ∨ (peKind x ≠ pkSession ∧ peKind x ≠ pkPeer) then (s.countRx p 32).portFlag p prUnknown
    else
      let r := s.fromPartner p i 32 h.prot
      if r.2 then r.1.countPartner i pcRx 1 else r.1

/-- JORYAR_TAKEOVER: a worker that has missed eight relay frames takes a successor as its manager of record (R608). -/
def State.joryarTakeover (s : State) (p src : Nat) (pr : Protection) (fp : BitVec 256) : State :=
  if !s.rxOn p then s
  else
    let d := s.fabric.domain
    let r := if peState (s.partner (1 + src)) = psFree then ((s.countRx p 32).portFlag p prUnknown, false) else s.fromPartner p (1 + src) 32 pr
    let s := r.1
    if !r.2 || !s.domainOn || s.mbx.manager || decide (fp = 0) || !d.succFps.contains fp || decide (s.fabric.relay.since < 8) then s
    else (((s.modDomain (fun d => { d with managerIndex := src })).modRelay (fun r => { r with valid := 0, asked := false })).modTime (fun t =>
      { t with sources := t.sources.map (fun x => if x.kind = .relay then { x with run := 0 } else x) })).fabricEv 0 0xFF faManagerChange src
      noPartner 0 false

/-! ## The rows -/

/-- Payload of at most 8,256 bytes (R575). -/
def execJoryarCmd (dt : Nat) (port : PortId) (h : JoryarHdr) (payload : List Byte) (s : State) :
    Host.Outcome State Fault Refusal :=
  if 8256 < payload.length then .fault .malformed else .next ((s.elapse dt).joryarCmd port h payload)

/-- Payload of at most 8,256 bytes (R575). -/
def execJoryarBulk (dt : Nat) (port : PortId) (h : JoryarHdr) (payload : List Byte) (s : State) : Host.Outcome State Fault Refusal :=
  if 8256 < payload.length then .fault .malformed else .next ((s.elapse dt).joryarBulk port h payload)

/-- Payload of at most 8,256 bytes (R575). -/
def execJoryarOutput (dt : Nat) (port : PortId) (h : JoryarHdr) (payload : List Byte) (s : State) : Host.Outcome State Fault Refusal :=
  if 8256 < payload.length then .fault .malformed else .next ((s.elapse dt).joryarOutput port h payload)

/-- Payload of at most 8,256 bytes (R575). -/
def execJoryarCpl (dt : Nat) (port : PortId) (h : JoryarHdr) (payload : List Byte) (plain : Option (List Byte × List Byte)) (s : State) :
    Host.Outcome State Fault Refusal :=
  if 8256 < payload.length then .fault .malformed else .next ((s.elapse dt).joryarCpl port h payload plain)

def execDomainRelayTimeout (dt : Nat) (worker : Byte) (tag : Half) (s : State) : Host.Outcome State Fault Refusal :=
  .next ((s.elapse dt).relayTimeout worker.toNat tag.toNat)

def execJoryarShed (dt : Nat) (port : PortId) (h : JoryarHdr) (s : State) : Host.Outcome State Fault Refusal :=
  .next ((s.elapse dt).joryarShed port h)

def execJoryarTakeover (dt : Nat) (port : PortId) (srcModule : Byte) (prot : Protection) (fingerprint : BitVec 256) (s : State) :
    Host.Outcome State Fault Refusal := .next ((s.elapse dt).joryarTakeover port srcModule.toNat prot fingerprint)

end Sys2Proof.Machine
end

