-- ==== Sys2Proof/Machine/Faults.lean ====
section
/-! DEFINITION. Faults: hung cores (R856 to R860), lost HBM and die stacks (R861), the watchdog (R717 to R720), and the end of an
injected fault (R867). -/

namespace Sys2Proof.Machine

/-! ## Hung cores (R857, R858) -/

/-- Tasks that the issue logic of a local core is running: its own and those of a hung core that it acts for. -/
def Cluster.coreTasks (x : Cluster) (k : Nat) : List Nat :=
  x.runsAt (fun r => r.phase == .running || r.phase == .paused) |>.filter (fun i =>
    let d := x.task i
    let kind := dKind d
    (kind == kSlab || kind == kVector || kind == kCoreHaul) && x.actingCore (dLcore d) == k
      && (match x.run i with
        | some r => !r.detour
        | none => false))


/-- CORE_HANG: a core that acted for another leaves that one without a standby. DEDUCED: the fills that its haul engine had issued ahead are
cancelled (assumption 43). -/
def State.coreHang (s : State) (core : Nat) : State :=
  let c := core / 64
  let k := core % 64
  let x := s.cluster c
  if !s.clocksOn || !s.runsPlans || x.active.isNone || s.fabric.groupLost.contains (c / 32) || x.hung.any (fun h => h.1 == k) then s
  else
    let ts := x.coreTasks k
    let tag := (ts.head?.map (fun i => dTag (x.task i))).getD 0xFFFF
    let b := x.freeStandby k
    let s := forEach ts s (fun s i => match (s.cluster c).run i with
      | some r => if r.active then s.stopTask c i r true else s
      | none => s)
    let s := s.cancelAhead c (fun a => dKind (x.task a.task) == kCoreHaul && x.actingCore (dLcore (x.task a.task)) == k && !a.done)
    let s := s.modCluster c (fun y => { y with
      hung := y.hung.map (fun (h : Nat × Option Nat) => if h.2 = some k then (h.1, none) else h) ++ [(k, b)] })
    (s.faultEv core ftCoreHang (tag + b.getD 0xFFFF * 2 ^ 16) x.tenant (s.isInjected 4 core)).updateCapacity c

/-! ## HBM stacks and die stacks (R861, R591) -/

/-- A haul moves data to or from a stack. -/
def haulsOn (d : Desc) (stack : Nat) : Bool := dKind d == kClusterHaul && decide (clDir d < 2) && clPage d / Config.pagesPerStack == stack

/-- HBM_LOST: transfers on the stack end; its pages become FREE at the first boundary at least 5 us on. -/
def State.stackGone (s : State) (k : Nat) : State :=
  if !s.clocksOn || s.hbmLost.any (fun x => x.1 == k) then s
  else
    let b := s.boundaryAt s.leadFrom
    let s := forEach (s.clusters.map (fun x => x.1)) s (fun s c =>
      (s.stopAll c false (fun i => haulsOn ((s.cluster c).task i) k) (fun s _ => s)).cancelAhead c (fun a =>
        haulsOn ((s.cluster c).task a.task) k && (!a.done || decide (b ≤ s.passStartAt c a.pass))))
    let s := { s with hbmLost := s.hbmLost ++ [(k, some s.leadFrom)] }
    let s := if k = 11 then s.loseTables else s
    let s := forEach (List.range 4) s (fun s r => match (s.ring r).exec with
      | some x => (match x.cmd with
        | .pageLoad p =>
          if p.page.toNat / Config.pagesPerStack = k then s.completeRing r { Answer.ok s.dropLoad with status := stFault } else s
        | _ => s)
      | none => s)
    forEach ((List.range 32).map (fun i => k / 6 * 32 + i)) s (fun s c => s.updateCapacity c)

/-- What stops with a die stack: its clusters' tasks, its ports, router packets to it. -/
def State.dieStops (s : State) (die : Nat) : State :=
  let s := forEach ((s.clusters.map (fun x => x.1)).filter (fun c => c / 32 == die)) s (fun s c =>
    s.modCluster c (fun x => { x with runs := [], slots := [], ahead := [], armed := none, locked := 0 }))
  let was := s.groupCapacity die
  let s := forEach ((List.range 8).map (fun i => die * 8 + i)) s (fun s p => s.modPort p (fun x => { x with up := false, lacp := false }))
  let s := s.modFabric (fun f => { f with
    groupLost := f.groupLost ++ [die], packets := f.packets.filter (fun p => p.dest / 32 != die) })
  let s := forEach ((List.range 32).map (fun i => die * 32 + i)) s (fun s c => s.updateCapacity c)
  s.groupChanged die (8 * die) was false

/-- A haul moves data to or from the stacks of a die. -/
def haulsDie (d : Desc) (die : Nat) : Bool := dKind d == kClusterHaul && decide (clDir d < 2) && clPage d / 49152 == die

/-- Hauls of the other die to its stacks end with the bridge (R38). -/
def State.bridgeStops (s : State) (die : Nat) : State :=
  forEach ((s.clusters.map (fun x => x.1)).filter (fun c => c / 32 != die)) s (fun s c =>
    (s.stopAll c false (fun i => haulsDie ((s.cluster c).task i) die) (fun s _ => s)).cancelAhead c (fun a =>
      haulsDie ((s.cluster c).task a.task) die))

/-- DIE_LOST: of DS1 the pages become FREE and the loss is reported; with DS0 the host interface and events stop, and DS1 runs
its plans for 8 ticks. -/
def State.dieGone (s : State) (die : Nat) : State :=
  if !s.clocksOn || s.fabric.groupLost.contains die then s
  else
  let s := s.bridgeStops die
  if die = 1 then
    let on (p : Nat) : Bool := decide (49152 ≤ p)
    let unbind (x : Slab) : Slab := match x.master with
      | some m => if on m.1 then { x with bound := false, master := none } else x
      | none => x
    let s := { s with slabs := tabMap (fun _ => Slab.init) (fun _ x => unbind x) s.slabs }
    ((s.freePages (fun p _ => on p)).dieStops 1).loseTables.faultEv 1 ftDie 0 0 false
  else
    let s := (s.dieStops 0).modPower (fun p => { p with ds0Ticks := some 0 })
    { s.modMbx (fun m => { m with fw := .halted }) with sdio := { s.sdio with ioReady := false } }

/-! ## Watchdog (R717 to R719) -/

/-- Effects of a command in execution that go on without the firmware, so that they count as applied. -/
def goesOn (c : HostCmd) : Bool :=
  match c with
  | .monconvConfigure _ => true
  | .monconvInject _ => true
  | .lockAcquire _ => true
  | .domainRelay _ => true
  | _ => false

/-- What a command cut in execution had set aside is taken back. -/
def State.takeBack (s : State) (x : Exec) : State :=
  match x.cmd with
  | .powerStateSet _ => s.modPower (fun p => { p with target := none })
  | .pageLoad _ => s.dropLoad
  | .selftestRun p =>
    if p.test = 1 then s.modBank p.target.toNat (fun b => { b with owner := x.left % 8, ownerCore := x.left / 8 }) else s
  | _ => s

/-- Commands that were in execution at the expiry complete with FAULT, DETAIL 1 (R718). -/
def State.finishCut (s : State) : State :=
  forEach (List.range 4) s (fun s r => match (s.ring r).exec with
    | some x =>
      let t := s.takeBack x
      t.completeRing r { Answer.ok t with status := stFault, detail := 1, applied := goesOn x.cmd }
    | none => s)

/-- The firmware does not restart (R719). -/
def State.haltFw (s : State) (detail : Nat) : State :=
  let inj := s.isInjected 7 0
  ((s.finishCut).setFw .halted).faultEv 0xFFFF ftHalted detail 0 inj

/-- WATCHDOG_EXPIRY. -/
def State.wdogExpires (s : State) : State :=
  if !s.mailboxOn || s.mbx.fw != .running then s
  else
    let recent := s.mbx.wdogs.filter (fun t => decide (s.now < t + 1000000000)) ++ [s.now]
    let s := (s.modMbx (fun m => { m with wdogs := recent, int := m.int.hit 9 })).setFw .restarting
    if 3 ≤ recent.length then s.haltFw 1 else s

/-- WDOG_RESTART: `same` is whether the digest of the retained image is the one kept. -/
def State.wdogRestart (s : State) (same : Bool) : State :=
  if !s.mailboxOn || s.mbx.fw != .restarting then s
  else if !same then s.haltFw 0
  else
    let inj := s.isInjected 7 0
    let s := (s.modMbx (fun m => { m with restarts := (m.restarts + 1) % 256, crashed := false })).setFw .running
    let s := (s.resumeEvents).faultEv 0xFFFF ftWdog s.mbx.restarts 0 inj
    { s.finishCut with faults := s.faults.filter (fun f => f.kind != 7) }

/-! ## INJECT_HOLD_END (R755, R867) -/

def State.injectEnd (s : State) (kind target : Nat) : State :=
  let ended (f : Injected) : Bool := f.kind == kind && f.target == target && (match f.until_ with
    | some t => decide (t ≤ s.now)
    | none => false)
  if !s.faults.any ended then s
  else
    let s := { s with faults := s.faults.filter (fun f => !ended f) }
    if kind = 6 ∧ (s.sensor target).injected then s.modSensor target (fun x => { x with failed := false, injected := false }) else s

/-! ## The rows -/

def execCoreHang (dt : Nat) (core : CoreId) (s : State) : Host.Outcome State Fault Refusal := .next ((s.elapse dt).coreHang core)

def execHbmLost (dt : Nat) (stack : Fin 12) (s : State) : Host.Outcome State Fault Refusal := .next ((s.elapse dt).stackGone stack)

def execDieLost (dt : Nat) (die : Fin 2) (s : State) : Host.Outcome State Fault Refusal := .next ((s.elapse dt).dieGone die)

def execWatchdogExpiry (dt : Nat) (s : State) : Host.Outcome State Fault Refusal := .next (s.elapse dt).wdogExpires

def execWdogRestart (dt : Nat) (same : Bool) (s : State) : Host.Outcome State Fault Refusal :=
  .next ((s.elapse dt).wdogRestart same)

def execInjectHoldEnd (dt : Nat) (kind : Byte) (target : Word) (s : State) : Host.Outcome State Fault Refusal :=
  .next ((s.elapse dt).injectEnd kind.toNat target.toNat)

end Sys2Proof.Machine
end

