-- ==== Sys2Proof/Machine/Jtag.lean ====
section
/-! DEFINITION. The test access port (R845 to R850). -/

namespace Sys2Proof.Machine

/-- EXTEST or CLAMP ends: the module starts again (R848). -/
def State.leaveTest (s : State) : State := if s.jtag.inEffect then s.restart else s

/-- Select an instruction; EXTEST and CLAMP take effect only in WAIT_IMAGE and act as BYPASS otherwise (R847). Another
instruction leaves them. The port is held in test-logic reset while unpowered or in reset (R849). -/
def State.selectTest (s : State) (i : JtagInstr) (f : Jtag → Jtag) : State :=
  if !s.powered then s
  else
    let drives := i == .extest || i == .clamp
    let on := drives && s.mbx.fw == .waitImage && s.power.boot == .serving && s.power.pstate != .ps5
    if on then { s with jtag := f { s.jtag with instr := i, inEffect := true } }
    else
      let old := s.jtag
      let s := s.leaveTest
      { s with jtag := (if drives then id else f) { old with instr := i, inEffect := false } }

def execExtest (dt : Nat) (cells : List Bool) (s : State) : Host.Outcome State Fault Refusal :=
  .next ((s.elapse dt).selectTest .extest (fun j => { j with capture := cells }))
def execSamplePreload (dt : Nat) (cells preload : List Bool) (s : State) : Host.Outcome State Fault Refusal :=
  .next ((s.elapse dt).selectTest .sample (fun j => { j with capture := cells, preload := preload }))
def execIdcode (dt : Nat) (s : State) : Host.Outcome State Fault Refusal := .next ((s.elapse dt).selectTest .idcode id)
def execClamp (dt : Nat) (s : State) : Host.Outcome State Fault Refusal := .next ((s.elapse dt).selectTest .clamp id)
def execHighz (dt : Nat) (s : State) : Host.Outcome State Fault Refusal := .next ((s.elapse dt).selectTest .highz id)
def execBypass (dt : Nat) (s : State) : Host.Outcome State Fault Refusal := .next ((s.elapse dt).selectTest .bypass id)

/-- JTAG_TEST_EXIT: test-logic reset, which selects IDCODE (R845, R848). -/
def execJtagTestExit (dt : Nat) (s : State) : Host.Outcome State Fault Refusal := .next ((s.elapse dt).selectTest .idcode id)

end Sys2Proof.Machine
end

