-- ==== Sys2Proof/Machine/Mailbox.lean ====
section
/-! DEFINITION. The rows of the mailbox: the commands of R699, each accepted on its ring and started when the ring is idle
(assumption 5), and the ports, registers and FIFOs of the card's functions (R674 to R691). -/

namespace Sys2Proof.Machine

def execDevIdentify (dt : Nat) (h : CmdHdr) (s : State) : Host.Outcome State Fault Refusal :=
  .next ((s.elapse dt).submit h .devIdentify)

def execDevAttest (dt : Nat) (h : CmdHdr) (p : AttestParams) (s : State) : Host.Outcome State Fault Refusal :=
  .next ((s.elapse dt).submit h (.devAttest p))

def execDevSessionOpen (dt : Nat) (h : CmdHdr) (tenant : BitVec 4) (s : State) : Host.Outcome State Fault Refusal :=
  .next ((s.elapse dt).submit h (.devSessionOpen tenant))

def execDevSessionClose (dt : Nat) (h : CmdHdr) (s : State) : Host.Outcome State Fault Refusal :=
  .next ((s.elapse dt).submit h .devSessionClose)

def execDevReset (dt : Nat) (h : CmdHdr) (s : State) : Host.Outcome State Fault Refusal :=
  .next ((s.elapse dt).submit h .devReset)

def execTickSourceSet (dt : Nat) (h : CmdHdr) (p : TickSourceParams) (s : State) : Host.Outcome State Fault Refusal :=
  .next ((s.elapse dt).submit h (.tickSourceSet p))

def execTickPlanLoad (dt : Nat) (h : CmdHdr) (p : PlanLoadParams) (s : State) : Host.Outcome State Fault Refusal :=
  .next ((s.elapse dt).submit h (.tickPlanLoad p))

def execTickPlanArm (dt : Nat) (h : CmdHdr) (p : PlanArmParams) (s : State) : Host.Outcome State Fault Refusal :=
  .next ((s.elapse dt).submit h (.tickPlanArm p))

def execTickPlanDisarm (dt : Nat) (h : CmdHdr) (clusters : Dword) (s : State) : Host.Outcome State Fault Refusal :=
  .next ((s.elapse dt).submit h (.tickPlanDisarm clusters))

def execTickStatus (dt : Nat) (h : CmdHdr) (s : State) : Host.Outcome State Fault Refusal :=
  .next ((s.elapse dt).submit h .tickStatus)

def execPartnerAttach (dt : Nat) (h : CmdHdr) (s : State) : Host.Outcome State Fault Refusal :=
  .next ((s.elapse dt).submit h .partnerAttach)

def execPartnerModify (dt : Nat) (h : CmdHdr) (p : PartnerModifyParams) (s : State) : Host.Outcome State Fault Refusal :=
  .next ((s.elapse dt).submit h (.partnerModify p))

def execPartnerDetach (dt : Nat) (h : CmdHdr) (index : BitVec 17) (s : State) : Host.Outcome State Fault Refusal :=
  .next ((s.elapse dt).submit h (.partnerDetach index))

def execModelDeclare (dt : Nat) (h : CmdHdr) (s : State) : Host.Outcome State Fault Refusal :=
  .next ((s.elapse dt).submit h .modelDeclare)

def execModelMapPages (dt : Nat) (h : CmdHdr) (p : MapPagesParams) (s : State) : Host.Outcome State Fault Refusal :=
  .next ((s.elapse dt).submit h (.modelMapPages p))

def execSlabDress (dt : Nat) (h : CmdHdr) (p : SlabDressParams) (s : State) : Host.Outcome State Fault Refusal :=
  .next ((s.elapse dt).submit h (.slabDress p))

def execSlabPin (dt : Nat) (h : CmdHdr) (slab : BitVec 14) (s : State) : Host.Outcome State Fault Refusal :=
  .next ((s.elapse dt).submit h (.slabPin slab))

def execSlabRelease (dt : Nat) (h : CmdHdr) (slab : BitVec 14) (s : State) : Host.Outcome State Fault Refusal :=
  .next ((s.elapse dt).submit h (.slabRelease slab))

def execLightStatus (dt : Nat) (h : CmdHdr) (s : State) : Host.Outcome State Fault Refusal :=
  .next ((s.elapse dt).submit h .lightStatus)

def execLineAssignSpare (dt : Nat) (h : CmdHdr) (p : AssignSpareParams) (s : State) : Host.Outcome State Fault Refusal :=
  .next ((s.elapse dt).submit h (.lineAssignSpare p))

def execLockAcquire (dt : Nat) (h : CmdHdr) (p : LoopRange) (s : State) : Host.Outcome State Fault Refusal :=
  .next ((s.elapse dt).submit h (.lockAcquire p))

def execEngineCalibrate (dt : Nat) (h : CmdHdr) (engine : BitVec 6) (s : State) : Host.Outcome State Fault Refusal :=
  .next ((s.elapse dt).submit h (.engineCalibrate engine))

def execPhaseMapLoad (dt : Nat) (h : CmdHdr) (phases : BitVec 5) (s : State) : Host.Outcome State Fault Refusal :=
  .next ((s.elapse dt).submit h (.phaseMapLoad phases))

def execBankAssign (dt : Nat) (h : CmdHdr) (p : BankAssignParams) (s : State) : Host.Outcome State Fault Refusal :=
  .next ((s.elapse dt).submit h (.bankAssign p))

def execBankPower (dt : Nat) (h : CmdHdr) (p : BankPowerParams) (s : State) : Host.Outcome State Fault Refusal :=
  .next ((s.elapse dt).submit h (.bankPower p))

def execPageLoad (dt : Nat) (h : CmdHdr) (p : PageLoadParams) (s : State) : Host.Outcome State Fault Refusal :=
  .next ((s.elapse dt).submit h (.pageLoad p))

def execPageRelease (dt : Nat) (h : CmdHdr) (p : PageReleaseParams) (s : State) : Host.Outcome State Fault Refusal :=
  .next ((s.elapse dt).submit h (.pageRelease p))

def execTenantCreate (dt : Nat) (h : CmdHdr) (tenant : BitVec 4) (s : State) : Host.Outcome State Fault Refusal :=
  .next ((s.elapse dt).submit h (.tenantCreate tenant))

def execTenantAssign (dt : Nat) (h : CmdHdr) (clusters : Dword) (tenant : BitVec 4) (s : State) :
    Host.Outcome State Fault Refusal :=
  .next ((s.elapse dt).submit h (.tenantAssign clusters tenant))

def execTenantStrip (dt : Nat) (h : CmdHdr) (p : TenantStripParams) (s : State) : Host.Outcome State Fault Refusal :=
  .next ((s.elapse dt).submit h (.tenantStrip p))

def execKeyRotate (dt : Nat) (h : CmdHdr) (tenant : BitVec 4) (s : State) : Host.Outcome State Fault Refusal :=
  .next ((s.elapse dt).submit h (.keyRotate tenant))

def execKeyImport (dt : Nat) (h : CmdHdr) (p : KeyImportParams) (s : State) : Host.Outcome State Fault Refusal :=
  .next ((s.elapse dt).submit h (.keyImport p))

def execPowerStateSet (dt : Nat) (h : CmdHdr) (st : BitVec 3) (s : State) : Host.Outcome State Fault Refusal :=
  .next ((s.elapse dt).submit h (.powerStateSet st))

def execPowerLimitSet (dt : Nat) (h : CmdHdr) (p : PowerLimitParams) (s : State) : Host.Outcome State Fault Refusal :=
  .next ((s.elapse dt).submit h (.powerLimitSet p))

def execThermalLimitsSet (dt : Nat) (h : CmdHdr) (setpoints : List Half) (s : State) : Host.Outcome State Fault Refusal :=
  if setpoints.length ≠ 7 then .fault .malformed else .next ((s.elapse dt).submit h (.thermalLimitsSet setpoints))

def execMonconvConfigure (dt : Nat) (h : CmdHdr) (p : MonconvParams) (s : State) : Host.Outcome State Fault Refusal :=
  .next ((s.elapse dt).submit h (.monconvConfigure p))

def execMonconvInject (dt : Nat) (h : CmdHdr) (p : InjectParams) (s : State) : Host.Outcome State Fault Refusal :=
  .next ((s.elapse dt).submit h (.monconvInject p))

def execLoopWrite (dt : Nat) (h : CmdHdr) (p : LoopWriteParams) (s : State) : Host.Outcome State Fault Refusal :=
  .next ((s.elapse dt).submit h (.loopWrite p))

def execLoopFreeze (dt : Nat) (h : CmdHdr) (p : LoopRange) (s : State) : Host.Outcome State Fault Refusal :=
  .next ((s.elapse dt).submit h (.loopFreeze p))

def execLoopRelease (dt : Nat) (h : CmdHdr) (p : LoopRange) (s : State) : Host.Outcome State Fault Refusal :=
  .next ((s.elapse dt).submit h (.loopRelease p))

def execXtalkLoad (dt : Nat) (h : CmdHdr) (p : XtalkParams) (s : State) : Host.Outcome State Fault Refusal :=
  .next ((s.elapse dt).submit h (.xtalkLoad p))

def execStateRead (dt : Nat) (h : CmdHdr) (p : StateReadParams) (s : State) : Host.Outcome State Fault Refusal :=
  .next ((s.elapse dt).submit h (.stateRead p))

def execStateList (dt : Nat) (h : CmdHdr) (p : StateListParams) (s : State) : Host.Outcome State Fault Refusal :=
  .next ((s.elapse dt).submit h (.stateList p))

def execEventRead (dt : Nat) (h : CmdHdr) (max : BitVec 11) (s : State) : Host.Outcome State Fault Refusal :=
  .next ((s.elapse dt).submit h (.eventRead max))

def execFaultInject (dt : Nat) (h : CmdHdr) (p : FaultInjectParams) (s : State) : Host.Outcome State Fault Refusal :=
  .next ((s.elapse dt).submit h (.faultInject p))

def execSelftestRun (dt : Nat) (h : CmdHdr) (p : SelftestParams) (s : State) : Host.Outcome State Fault Refusal :=
  .next ((s.elapse dt).submit h (.selftestRun p))

def execFwLoadBegin (dt : Nat) (h : CmdHdr) (imageLen : Word) (s : State) : Host.Outcome State Fault Refusal :=
  .next ((s.elapse dt).submit h (.fwLoadBegin imageLen))

def execFwLoadBlock (dt : Nat) (h : CmdHdr) (offset : Word) (s : State) : Host.Outcome State Fault Refusal :=
  .next ((s.elapse dt).submit h (.fwLoadBlock offset))

def execFwLoadEnd (dt : Nat) (h : CmdHdr) (s : State) : Host.Outcome State Fault Refusal :=
  .next ((s.elapse dt).submit h .fwLoadEnd)

def execDomainJoin (dt : Nat) (h : CmdHdr) (s : State) : Host.Outcome State Fault Refusal :=
  .next ((s.elapse dt).submit h .domainJoin)

def execDomainLeave (dt : Nat) (h : CmdHdr) (s : State) : Host.Outcome State Fault Refusal :=
  .next ((s.elapse dt).submit h .domainLeave)

def execDomainRelay (dt : Nat) (h : CmdHdr) (worker : Byte) (s : State) : Host.Outcome State Fault Refusal :=
  .next ((s.elapse dt).submit h (.domainRelay worker))

def execRoleSet (dt : Nat) (h : CmdHdr) (manager : Bool) (s : State) : Host.Outcome State Fault Refusal :=
  .next ((s.elapse dt).submit h (.roleSet manager))

def execCmdPortPush (dt : Nat) (r : Ring) (bytes : List Byte) (s : State) : Host.Outcome State Fault Refusal :=
  .next ((s.elapse dt).pushClear (ringNo r) bytes)

def execSealedPortPush (dt : Nat) (r : Ring) (bytes : List Byte) (s : State) :
    Host.Outcome State Fault Refusal :=
  .next ((s.elapse dt).pushSealed (ringNo r) bytes)

def execCplPortPop (dt : Nat) (r : Ring) (s : State) : Host.Outcome State Fault Refusal :=
  .next ((s.elapse dt).popCpl (ringNo r))

def execBulkInWrite (dt : Nat) (bytes : List Byte) (s : State) : Host.Outcome State Fault Refusal :=
  .next ((s.elapse dt).bulkIn bytes)

def execBulkOutRead (dt : Nat) (count : Nat) (s : State) : Host.Outcome State Fault Refusal :=
  .next ((s.elapse dt).bulkRead count)

def execRegisterWrite (dt : Nat) (addr : BitVec 17) (value : Word) (s : State) : Host.Outcome State Fault Refusal :=
  .next ((s.elapse dt).writeRegister addr.toNat value.toNat)

def execBulkTimeout (dt : Nat) (s : State) : Host.Outcome State Fault Refusal := .next (s.elapse dt).bulkTimeout

def execCommandStart (dt : Nat) (s : State) : Host.Outcome State Fault Refusal :=
  .next ((s.elapse dt).startNext)

def execCommandComplete (dt : Nat) (r : Ring) (si : Silicon) (s : State) : Host.Outcome State Fault Refusal :=
  .next ((s.elapse dt).completeCmd (ringNo r) si)

def execPageLoadTimeout (dt : Nat) (s : State) : Host.Outcome State Fault Refusal := .next (s.elapse dt).pageLoadTimeout

end Sys2Proof.Machine
end

