-- ==== Sys2Proof/Machine/Sdio.lean ====
section
/-! DEFINITION. The card interface (R666 to R671, R838 to R840): signalling, CCCR and FBR writes, SD_VDD. What R671 does not
list behaves as the SDIO specification defines it. -/

namespace Sys2Proof.Machine

/-- The card answers the host: powered, not in reset, SD_VDD present (R823, R840). -/
def State.cardAnswers (s : State) : Bool := s.powered && s.sdio.vdd

/-- CCCR and FBR bytes after reset (R671): the listed capabilities; all others zero. -/
def cccrReset (a : Nat) : Nat :=
  match a with
  | 0x00 => 0x43
  | 0x01 => 0x03
  | 0x08 => 0x17
  | 0x13 => 0x01
  | 0x14 => 0x07
  | 0x15 => 0x07
  | 0x16 => 0x01
  | _ => 0

def Sdio.byteAt (x : Sdio) (a : Nat) : Byte := tabGet (BitVec.ofNat 8 (cccrReset a)) x.cccr a

/-- Bits of a CCCR or FBR byte that a CMD52 write changes: I/O enable, interrupt enables, bus width, block sizes, bus speed,
driver strength, asynchronous interrupt enable. -/
def cccrMask (a : Nat) : Nat :=
  if a = 0x02 then 0x0E
  else if a = 0x04 then 0x0F
  else if a = 0x07 then 0x83
  else if a = 0x13 then 0x0E
  else if a = 0x15 then 0x30
  else if a = 0x16 then 0x02
  else if a = 0x10 ∨ a = 0x110 ∨ a = 0x210 ∨ a = 0x310 then 0xFF
  else if a = 0x11 ∨ a = 0x111 ∨ a = 0x211 ∨ a = 0x311 then 0x03
  else 0

/-- The card is in 4-bit width. -/
def Sdio.wide (x : Sdio) : Bool := (x.byteAt 0x07).toNat % 4 == 2

/-- Bus speeds of R667 at the present signalling and width; the code is BSS of CCCR 0x13. -/
def Sdio.speedOk (x : Sdio) (bss : Nat) : Bool :=
  if x.v18 then decide (bss ≤ 2) || (decide (bss ≤ 4) && x.wide) else decide (bss ≤ 1)

/-- A bus width of R667: 1-bit or 4-bit; SDR 104 and DDR 50 stay in 4-bit. -/
def Sdio.widthOk (x : Sdio) (w : Nat) : Bool :=
  w == 2 || (w == 0 && !(decide (3 ≤ (x.byteAt 0x13).toNat / 2 % 8)))

/-- CMD52 write (R669). RES of the I/O abort register returns the card's registers to their reset values. -/
def Sdio.write (x : Sdio) (a : Nat) (v : Byte) : Sdio :=
  if a = 0x06 then (if v.getLsbD 3 then { x with cccr := [] } else x)
  else
    let m := cccrMask a
    let ok := if a = 0x07 then x.widthOk (v.toNat % 4) else if a = 0x13 then x.speedOk (v.toNat / 2 % 8) else true
    if m = 0 ∨ !ok then x
    else
      let b := (x.byteAt a &&& ~~~(BitVec.ofNat 8 m)) ||| (v &&& BitVec.ofNat 8 m)
      { x with cccr := tabSet (BitVec.ofNat 8 (cccrReset a)) x.cccr a b }

/-- CMD5: S18A is granted to a card that is still at 3.3 V (R668); a dormant module wakes (R751). -/
def State.cmd5 (s : State) (s18r : Bool) : State :=
  if !s.cardAnswers then s
  else { s.wake with sdio := { s.sdio with s18 := (s18r && !s.sdio.v18) || s.sdio.s18 } }

/-- CMD11: to 1.8 V signalling once S18A was given (R668). -/
def State.cmd11 (s : State) : State :=
  if s.cardAnswers && s.sdio.s18 && s.power.pstate != .ps5 then { s with sdio := { s.sdio with v18 := true } } else s

/-- SD_VDD below 1.5 V for 1 ms: the card interface is reset; rings, FIFOs, sessions and firmware stay (R839). -/
def State.sdVddLoss (s : State) : State :=
  { s with sdio := { s.sdio with vdd := false, s18 := false, v18 := false, cccr := [] } }

def execSdioCmd5 (dt : Nat) (s18r : Bool) (s : State) : Host.Outcome State Fault Refusal := .next ((s.elapse dt).cmd5 s18r)
def execSdioCmd11 (dt : Nat) (s : State) : Host.Outcome State Fault Refusal := .next (s.elapse dt).cmd11
def execSdVddLoss (dt : Nat) (s : State) : Host.Outcome State Fault Refusal := .next (s.elapse dt).sdVddLoss
def execSdVddReturn (dt : Nat) (s : State) : Host.Outcome State Fault Refusal :=
  .next ({ s.elapse dt with sdio := { s.sdio with vdd := true } })

/-- SDIO_CMD52: in PS5 and before I/O Ready the card answers CMD0 and CMD5 only. -/
def execSdioCmd52 (dt : Nat) (addr : BitVec 17) (value : Byte) (s : State) : Host.Outcome State Fault Refusal :=
  let s := s.elapse dt
  .next (if s.cardAnswers && s.sdio.ioReady then { s with sdio := s.sdio.write addr.toNat value } else s)

end Sys2Proof.Machine
end

