-- ==== Sys2Proof/Machine/Dispatch.lean ====
section
/-! DEFINITION. The dispatch: one arm per command, each a direct call of the command's meaning. -/

namespace Sys2Proof.Machine

def exec (i : Instr) (s : State) : Host.Outcome State Fault Refusal :=
  match i with
  | .devIdentify dt h => Sys2Proof.Machine.execDevIdentify dt h s
  | .devAttest dt h p => Sys2Proof.Machine.execDevAttest dt h p s
  | .devSessionOpen dt h tenant => Sys2Proof.Machine.execDevSessionOpen dt h tenant s
  | .devSessionClose dt h => Sys2Proof.Machine.execDevSessionClose dt h s
  | .devReset dt h => Sys2Proof.Machine.execDevReset dt h s
  | .tickSourceSet dt h p => Sys2Proof.Machine.execTickSourceSet dt h p s
  | .tickPlanLoad dt h p => Sys2Proof.Machine.execTickPlanLoad dt h p s
  | .tickPlanArm dt h p => Sys2Proof.Machine.execTickPlanArm dt h p s
  | .tickPlanDisarm dt h clusters => Sys2Proof.Machine.execTickPlanDisarm dt h clusters s
  | .tickStatus dt h => Sys2Proof.Machine.execTickStatus dt h s
  | .partnerAttach dt h => Sys2Proof.Machine.execPartnerAttach dt h s
  | .partnerModify dt h p => Sys2Proof.Machine.execPartnerModify dt h p s
  | .partnerDetach dt h index => Sys2Proof.Machine.execPartnerDetach dt h index s
  | .modelDeclare dt h => Sys2Proof.Machine.execModelDeclare dt h s
  | .modelMapPages dt h p => Sys2Proof.Machine.execModelMapPages dt h p s
  | .slabDress dt h p => Sys2Proof.Machine.execSlabDress dt h p s
  | .slabPin dt h slab => Sys2Proof.Machine.execSlabPin dt h slab s
  | .slabRelease dt h slab => Sys2Proof.Machine.execSlabRelease dt h slab s
  | .lightStatus dt h => Sys2Proof.Machine.execLightStatus dt h s
  | .lineAssignSpare dt h p => Sys2Proof.Machine.execLineAssignSpare dt h p s
  | .lockAcquire dt h p => Sys2Proof.Machine.execLockAcquire dt h p s
  | .engineCalibrate dt h engine => Sys2Proof.Machine.execEngineCalibrate dt h engine s
  | .phaseMapLoad dt h phases => Sys2Proof.Machine.execPhaseMapLoad dt h phases s
  | .bankAssign dt h p => Sys2Proof.Machine.execBankAssign dt h p s
  | .bankPower dt h p => Sys2Proof.Machine.execBankPower dt h p s
  | .pageLoad dt h p => Sys2Proof.Machine.execPageLoad dt h p s
  | .pageRelease dt h p => Sys2Proof.Machine.execPageRelease dt h p s
  | .tenantCreate dt h tenant => Sys2Proof.Machine.execTenantCreate dt h tenant s
  | .tenantAssign dt h clusters tenant => Sys2Proof.Machine.execTenantAssign dt h clusters tenant s
  | .tenantStrip dt h p => Sys2Proof.Machine.execTenantStrip dt h p s
  | .keyRotate dt h tenant => Sys2Proof.Machine.execKeyRotate dt h tenant s
  | .keyImport dt h p => Sys2Proof.Machine.execKeyImport dt h p s
  | .powerStateSet dt h st => Sys2Proof.Machine.execPowerStateSet dt h st s
  | .powerLimitSet dt h p => Sys2Proof.Machine.execPowerLimitSet dt h p s
  | .thermalLimitsSet dt h setpoints => Sys2Proof.Machine.execThermalLimitsSet dt h setpoints s
  | .monconvConfigure dt h p => Sys2Proof.Machine.execMonconvConfigure dt h p s
  | .monconvInject dt h p => Sys2Proof.Machine.execMonconvInject dt h p s
  | .loopWrite dt h p => Sys2Proof.Machine.execLoopWrite dt h p s
  | .loopFreeze dt h p => Sys2Proof.Machine.execLoopFreeze dt h p s
  | .loopRelease dt h p => Sys2Proof.Machine.execLoopRelease dt h p s
  | .xtalkLoad dt h p => Sys2Proof.Machine.execXtalkLoad dt h p s
  | .stateRead dt h p => Sys2Proof.Machine.execStateRead dt h p s
  | .stateList dt h p => Sys2Proof.Machine.execStateList dt h p s
  | .eventRead dt h max => Sys2Proof.Machine.execEventRead dt h max s
  | .faultInject dt h p => Sys2Proof.Machine.execFaultInject dt h p s
  | .selftestRun dt h p => Sys2Proof.Machine.execSelftestRun dt h p s
  | .fwLoadBegin dt h imageLen => Sys2Proof.Machine.execFwLoadBegin dt h imageLen s
  | .fwLoadBlock dt h offset => Sys2Proof.Machine.execFwLoadBlock dt h offset s
  | .fwLoadEnd dt h => Sys2Proof.Machine.execFwLoadEnd dt h s
  | .domainJoin dt h => Sys2Proof.Machine.execDomainJoin dt h s
  | .domainLeave dt h => Sys2Proof.Machine.execDomainLeave dt h s
  | .domainRelay dt h worker => Sys2Proof.Machine.execDomainRelay dt h worker s
  | .roleSet dt h manager => Sys2Proof.Machine.execRoleSet dt h manager s
  | .cmdPortPush dt r bytes => Sys2Proof.Machine.execCmdPortPush dt r bytes s
  | .sealedPortPush dt r bytes => Sys2Proof.Machine.execSealedPortPush dt r bytes s
  | .cplPortPop dt r => Sys2Proof.Machine.execCplPortPop dt r s
  | .bulkInWrite dt bytes => Sys2Proof.Machine.execBulkInWrite dt bytes s
  | .bulkOutRead dt count => Sys2Proof.Machine.execBulkOutRead dt count s
  | .registerWrite dt addr value => Sys2Proof.Machine.execRegisterWrite dt addr value s
  | .bulkTimeout dt => Sys2Proof.Machine.execBulkTimeout dt s
  | .commandStart dt => Sys2Proof.Machine.execCommandStart dt s
  | .sdioCmd5 dt s18r => Sys2Proof.Machine.execSdioCmd5 dt s18r s
  | .sdioCmd11 dt => Sys2Proof.Machine.execSdioCmd11 dt s
  | .sdVddLoss dt => Sys2Proof.Machine.execSdVddLoss dt s
  | .powerUp dt role pmAddr => Sys2Proof.Machine.execPowerUp dt role pmAddr s
  | .startupSensorRecheck dt temps => Sys2Proof.Machine.execStartupSensorRecheck dt temps s
  | .refclkQualified dt => Sys2Proof.Machine.execRefclkQualified dt s
  | .startupLighting dt cart probe1 probe2 returnPower => Sys2Proof.Machine.execStartupLighting dt cart probe1 probe2 returnPower s
  | .bootRomStart dt => Sys2Proof.Machine.execBootRomStart dt s
  | .inputPowerLoss dt => Sys2Proof.Machine.execInputPowerLoss dt s
  | .inputOutOfRange dt detail => Sys2Proof.Machine.execInputOutOfRange dt detail s
  | .inputOvercurrent dt => Sys2Proof.Machine.execInputOvercurrent dt s
  | .resetAssert dt lowNs => Sys2Proof.Machine.execResetAssert dt lowNs s
  | .resetRelease dt role pmAddr => Sys2Proof.Machine.execResetRelease dt role pmAddr s
  | .cartridgeInsert dt cart interlockClosed => Sys2Proof.Machine.execCartridgeInsert dt cart interlockClosed s
  | .interlockOpen dt cart => Sys2Proof.Machine.execInterlockOpen dt cart s
  | .returnLoss dt cart => Sys2Proof.Machine.execReturnLoss dt cart s
  | .socketOvercurrent dt cart => Sys2Proof.Machine.execSocketOvercurrent dt cart s
  | .cartridgeProbe dt cart seen => Sys2Proof.Machine.execCartridgeProbe dt cart seen s
  | .laneDark dt port lane => Sys2Proof.Machine.execLaneDark dt port lane s
  | .laneRelight dt port lane => Sys2Proof.Machine.execLaneRelight dt port lane s
  | .laneProbe dt port lane => Sys2Proof.Machine.execLaneProbe dt port lane s
  | .tickInEdge dt => Sys2Proof.Machine.execTickInEdge dt s
  | .tickInEdgeLate dt => Sys2Proof.Machine.execTickInEdgeLate dt s
  | .ppsInEdge dt => Sys2Proof.Machine.execPpsInEdge dt s
  | .ptpFrame dt port h msg => Sys2Proof.Machine.execPtpFrame dt port h msg s
  | .ptpAnnounceTimeout dt port => Sys2Proof.Machine.execPtpAnnounceTimeout dt port s
  | .esmcFrame dt port dnu => Sys2Proof.Machine.execEsmcFrame dt port dnu s
  | .sourceChange dt phase => Sys2Proof.Machine.execSourceChange dt phase s
  | .tickBoundary dt => Sys2Proof.Machine.execTickBoundary dt s
  | .tickRelaySend dt => Sys2Proof.Machine.execTickRelaySend dt s
  | .relayFrame dt srcModule prot p => Sys2Proof.Machine.execRelayFrame dt srcModule prot p s
  | .relayMiss dt => Sys2Proof.Machine.execRelayMiss dt s
  | .relayAck dt worker prot held => Sys2Proof.Machine.execRelayAck dt worker prot held s
  | .workerLost dt worker => Sys2Proof.Machine.execWorkerLost dt worker s
  | .delayReqSend dt => Sys2Proof.Machine.execDelayReqSend dt s
  | .delayReq dt srcModule prot => Sys2Proof.Machine.execDelayReq dt srcModule prot s
  | .delayResp dt srcModule prot pathNs => Sys2Proof.Machine.execDelayResp dt srcModule prot pathNs s
  | .housekeepingSlot dt input => Sys2Proof.Machine.execHousekeepingSlot dt input s
  | .housekeepingEnd dt => Sys2Proof.Machine.execHousekeepingEnd dt s
  | .taskDispatch dt cluster task => Sys2Proof.Machine.execTaskDispatch dt cluster task s
  | .slotGrant dt cluster task => Sys2Proof.Machine.execSlotGrant dt cluster task s
  | .dataLate dt cluster task => Sys2Proof.Machine.execDataLate dt cluster task s
  | .slabMvmComplete dt cluster task noise => Sys2Proof.Machine.execSlabMvmComplete dt cluster task noise s
  | .seamLocalised dt slab reads => Sys2Proof.Machine.execSeamLocalised dt slab reads s
  | .detourStart dt slab => Sys2Proof.Machine.execDetourStart dt slab s
  | .detourBatchComplete dt cluster noise => Sys2Proof.Machine.execDetourBatchComplete dt cluster noise s
  | .opticalMvmComplete dt cluster task stallNs collisions noise => Sys2Proof.Machine.execOpticalMvmComplete dt cluster task stallNs collisions noise s
  | .weightLoadComplete dt cluster task collisions => Sys2Proof.Machine.execWeightLoadComplete dt cluster task collisions s
  | .vectorComplete dt cluster task => Sys2Proof.Machine.execVectorComplete dt cluster task s
  | .coreHaulComplete dt cluster task collisions => Sys2Proof.Machine.execCoreHaulComplete dt cluster task collisions s
  | .clusterHaulComplete dt cluster task collisions => Sys2Proof.Machine.execClusterHaulComplete dt cluster task collisions s
  | .routerSendComplete dt cluster task collisions => Sys2Proof.Machine.execRouterSendComplete dt cluster task collisions s
  | .egressComplete dt cluster task collisions => Sys2Proof.Machine.execEgressComplete dt cluster task collisions s
  | .egressDeadline dt cluster task => Sys2Proof.Machine.execEgressDeadline dt cluster task s
  | .ingressLate dt cluster task => Sys2Proof.Machine.execIngressLate dt cluster task s
  | .aheadIssue dt cluster task ahead => Sys2Proof.Machine.execAheadIssue dt cluster task ahead s
  | .confirmedTransferStart dt cluster task => Sys2Proof.Machine.execConfirmedTransferStart dt cluster task s
  | .epochVerdict dt engine => Sys2Proof.Machine.execEpochVerdict dt engine s
  | .verdictLate dt engine => Sys2Proof.Machine.execVerdictLate dt engine s
  | .spoil dt engine => Sys2Proof.Machine.execSpoil dt engine s
  | .controlTick dt m => Sys2Proof.Machine.execControlTick dt m s
  | .lockLoss dt loop => Sys2Proof.Machine.execLockLoss dt loop s
  | .pilotCheck dt loop tones => Sys2Proof.Machine.execPilotCheck dt loop tones s
  | .reacquired dt loop out => Sys2Proof.Machine.execReacquired dt loop out s
  | .freezeTimeout dt loop => Sys2Proof.Machine.execFreezeTimeout dt loop s
  | .weightRefresh dt engine => Sys2Proof.Machine.execWeightRefresh dt engine s
  | .throttleStep dt => Sys2Proof.Machine.execThrottleStep dt s
  | .wakeRecheck dt temps => Sys2Proof.Machine.execWakeRecheck dt temps s
  | .ageTrimUpdate dt slab => Sys2Proof.Machine.execAgeTrimUpdate dt slab s
  | .ageRedress dt slab => Sys2Proof.Machine.execAgeRedress dt slab s
  | .dressStart dt slab => Sys2Proof.Machine.execDressStart dt slab s
  | .dressDone dt slab outcome => Sys2Proof.Machine.execDressDone dt slab outcome s
  | .detourEnd dt slab => Sys2Proof.Machine.execDetourEnd dt slab s
  | .bankPowerDone dt cluster mem => Sys2Proof.Machine.execBankPowerDone dt cluster mem s
  | .monconvPass dt mc => Sys2Proof.Machine.execMonconvPass dt mc s
  | .monconvResult dt mc raw => Sys2Proof.Machine.execMonconvResult dt mc raw s
  | .monconvDataRead dt mc => Sys2Proof.Machine.execMonconvDataRead dt mc s
  | .injectedConversion dt mc raw => Sys2Proof.Machine.execInjectedConversion dt mc raw s
  | .refReady dt mc => Sys2Proof.Machine.execRefReady dt mc s
  | .lineFail dt cart line driver => Sys2Proof.Machine.execLineFail dt cart line driver s
  | .takeover dt cart line => Sys2Proof.Machine.execTakeover dt cart line s
  | .spareVerified dt cart line => Sys2Proof.Machine.execSpareVerified dt cart line s
  | .spareIn dt cart line => Sys2Proof.Machine.execSpareIn dt cart line s
  | .uplaneRx dt port sec => Sys2Proof.Machine.execUplaneRx dt port sec s
  | .oneWayDelay dt req => Sys2Proof.Machine.execOneWayDelay dt req s
  | .pauseFrameRx dt port => Sys2Proof.Machine.execPauseFrameRx dt port s
  | .lacpFrame dt port collecting => Sys2Proof.Machine.execLacpFrame dt port collecting s
  | .mkaFrame dt ca sak => Sys2Proof.Machine.execMkaFrame dt ca sak s
  | .joryarData dt port mac h payload => Sys2Proof.Machine.execJoryarData dt port mac h payload s
  | .joryarAck dt port mac h => Sys2Proof.Machine.execJoryarAck dt port mac h s
  | .ackTimer dt partner => Sys2Proof.Machine.execAckTimer dt partner s
  | .resendTimeout dt partner => Sys2Proof.Machine.execResendTimeout dt partner s
  | .joryarCmd dt port h payload => Sys2Proof.Machine.execJoryarCmd dt port h payload s
  | .joryarBulk dt port h payload => Sys2Proof.Machine.execJoryarBulk dt port h payload s
  | .joryarOutput dt port h payload => Sys2Proof.Machine.execJoryarOutput dt port h payload s
  | .joryarCpl dt port h payload plain => Sys2Proof.Machine.execJoryarCpl dt port h payload plain s
  | .domainRelayTimeout dt worker tag => Sys2Proof.Machine.execDomainRelayTimeout dt worker tag s
  | .joryarShed dt port h => Sys2Proof.Machine.execJoryarShed dt port h s
  | .joryarTakeover dt port srcModule prot fingerprint => Sys2Proof.Machine.execJoryarTakeover dt port srcModule prot fingerprint s
  | .portDown dt port cause => Sys2Proof.Machine.execPortDown dt port cause s
  | .portUp dt port => Sys2Proof.Machine.execPortUp dt port s
  | .phaseStart dt => Sys2Proof.Machine.execPhaseStart dt s
  | .retuneFail dt cluster receiver => Sys2Proof.Machine.execRetuneFail dt cluster receiver s
  | .routerReceive dt cluster receiver src addr data => Sys2Proof.Machine.execRouterReceive dt cluster receiver src addr data s
  | .rekeyChunk dt tenant stack => Sys2Proof.Machine.execRekeyChunk dt tenant stack s
  | .stripStart dt cluster => Sys2Proof.Machine.execStripStart dt cluster s
  | .stripDone dt cluster => Sys2Proof.Machine.execStripDone dt cluster s
  | .coreHang dt core => Sys2Proof.Machine.execCoreHang dt core s
  | .hbmLost dt stack => Sys2Proof.Machine.execHbmLost dt stack s
  | .dieLost dt die => Sys2Proof.Machine.execDieLost dt die s
  | .cartLost dt cart detail => Sys2Proof.Machine.execCartLost dt cart detail s
  | .watchdogExpiry dt => Sys2Proof.Machine.execWatchdogExpiry dt s
  | .wdogRestart dt same => Sys2Proof.Machine.execWdogRestart dt same s
  | .injectHoldEnd dt kind target => Sys2Proof.Machine.execInjectHoldEnd dt kind target s
  | .clearFaults dt => Sys2Proof.Machine.execClearFaults dt s
  | .capability dt => Sys2Proof.Machine.execCapability dt s
  | .otFaultLimit dt => Sys2Proof.Machine.execOtFaultLimit dt s
  | .otWarnLimit dt => Sys2Proof.Machine.execOtWarnLimit dt s
  | .vinOvFaultLimit dt => Sys2Proof.Machine.execVinOvFaultLimit dt s
  | .vinUvFaultLimit dt => Sys2Proof.Machine.execVinUvFaultLimit dt s
  | .iinOcFaultLimit dt => Sys2Proof.Machine.execIinOcFaultLimit dt s
  | .statusByte dt => Sys2Proof.Machine.execStatusByte dt s
  | .statusWord dt => Sys2Proof.Machine.execStatusWord dt s
  | .statusInput dt => Sys2Proof.Machine.execStatusInput dt s
  | .statusTemperature dt => Sys2Proof.Machine.execStatusTemperature dt s
  | .statusCml dt => Sys2Proof.Machine.execStatusCml dt s
  | .readVin dt => Sys2Proof.Machine.execReadVin dt s
  | .readIin dt => Sys2Proof.Machine.execReadIin dt s
  | .readTemperature1 dt => Sys2Proof.Machine.execReadTemperature1 dt s
  | .readTemperature2 dt => Sys2Proof.Machine.execReadTemperature2 dt s
  | .readTemperature3 dt => Sys2Proof.Machine.execReadTemperature3 dt s
  | .readPin dt => Sys2Proof.Machine.execReadPin dt s
  | .pmbusRevision dt => Sys2Proof.Machine.execPmbusRevision dt s
  | .mfrId dt => Sys2Proof.Machine.execMfrId dt s
  | .mfrModel dt => Sys2Proof.Machine.execMfrModel dt s
  | .mfrSerial dt => Sys2Proof.Machine.execMfrSerial dt s
  | .pmbusWriteRejected dt cmd write => Sys2Proof.Machine.execPmbusWriteRejected dt cmd write s
  | .extest dt cells => Sys2Proof.Machine.execExtest dt cells s
  | .samplePreload dt cells preload => Sys2Proof.Machine.execSamplePreload dt cells preload s
  | .idcode dt => Sys2Proof.Machine.execIdcode dt s
  | .clamp dt => Sys2Proof.Machine.execClamp dt s
  | .highz dt => Sys2Proof.Machine.execHighz dt s
  | .bypass dt => Sys2Proof.Machine.execBypass dt s
  | .jtagTestExit dt => Sys2Proof.Machine.execJtagTestExit dt s
  | .synceLock dt port locked => Sys2Proof.Machine.execSynceLock dt port locked s
  | .calRowStandby dt engine => Sys2Proof.Machine.execCalRowStandby dt engine s
  | .interlockClosed dt cart => Sys2Proof.Machine.execInterlockClosed dt cart s
  | .sakReplace dt ca sak => Sys2Proof.Machine.execSakReplace dt ca sak s
  | .frameDropped dt port reason => Sys2Proof.Machine.execFrameDropped dt port reason s
  | .commandComplete dt r si => Sys2Proof.Machine.execCommandComplete dt r si s
  | .pageLoadTimeout dt => Sys2Proof.Machine.execPageLoadTimeout dt s
  | .sdVddReturn dt => Sys2Proof.Machine.execSdVddReturn dt s
  | .sdioCmd52 dt addr value => Sys2Proof.Machine.execSdioCmd52 dt addr value s

end Sys2Proof.Machine
end

