-- ==== Sys2Proof/Machine/Outputs.lean ====
section
/-! DEFINITION. What the module shows to its host and on its contacts without a command: the F1 registers (R674), the card
interrupt (R675), CCCR and FBR bytes (R671 to R673), and whether its contacts are driven (R821 to R824). -/

namespace Sys2Proof.Machine

def FwState.code : FwState → Nat
  | .waitImage => 1
  | .loading => 2
  | .verifying => 3
  | .running => 4
  | .restarting => 5
  | .halted => 6

/-- MBX_STATE. -/
def State.mbxState (s : State) : Nat :=
  fld 0 3 s.mbx.fw.code + fld 3 1 (b2n s.trust.identity.isSome) + fld 4 1 (b2n s.mbx.manager) + fld 5 3 s.power.pstate.code
    + fld 8 8 s.mbx.restarts

/-- A 32-bit register of F1; addresses not listed, and write-only ports, read as zero. -/
def State.f1Register (s : State) (addr : Nat) : Nat :=
  match addr with
  | 0x00 => 0x00017240
  | 0x04 => s.mbxState
  | 0x08 => s.mbx.int.bits % 1024
  | 0x0C => s.mbx.intEnable.toNat
  | 0x10 => (s.ring 0).register
  | 0x14 => (s.ring 1).register
  | 0x18 => (s.ring 2).register
  | 0x1C => (s.ring 3).register
  | 0x20 => 524288 - s.mbx.binFifo.length
  | 0x24 => s.mbx.boutFifo.length
  | 0x28 => s.mbx.wptr
  | 0x2C => s.mbx.rptr
  | _ => 0

/-- An enabled interrupt cause is set. -/
def State.intPending (s : State) : Bool := decide (s.mbx.int.bits % 1024 &&& s.mbx.intEnable.toNat ≠ 0)

/-- DAT1 signals an interrupt (R675): CCCR 0x04 holds the master enable in bit 0 and that of F1 in bit 1. -/
def State.dat1 (s : State) : Bool :=
  s.cardAnswers && s.intPending && (s.sdio.byteAt 0x04).getLsbD 0 && (s.sdio.byteAt 0x04).getLsbD 1

/-- A CCCR or FBR byte as the host reads it: I/O Ready of F1 to F3 (R673), and the pending interrupt of F1. -/
def State.cardByte (s : State) (a : Nat) : Byte :=
  if a = 0x03 then (if s.sdio.ioReady then 0x0E else 0)
  else if a = 0x05 then (if s.intPending then 0x02 else 0)
  else s.sdio.byteAt a

/-- Tuples of the common CIS, code and content (R672); the strings of CISTPL_VERS_1 end in a zero byte each. -/
def cisCommon : List (Nat × List Nat) :=
  [ (0x15, ("Boelos".toList.map Char.toNat) ++ [0] ++ ("Polfeura PF-7240".toList.map Char.toNat) ++ [0]),
    (0x20, [0x7E, 0x0A, 0x40, 0x72]), (0x21, [0x0C]), (0x22, [0x00, 0x02]), (0xFF, []) ]
/-- Tuples of the CIS of F1 to F3: CISTPL_FUNCID, and CISTPL_FUNCE with a maximum block size of 512. -/
def cisFunction : List (Nat × List Nat) := [(0x21, [0x0C]), (0x22, [0x00, 0x02]), (0xFF, [])]

/-- The signal contacts are driven: unpowered or in reset they are high-impedance (R821, R823, R824), and so are the boundary
outputs under HIGHZ (R845). -/
def State.drives (s : State) : Bool := s.powered && decide (s.jtag.instr ≠ .highz)

/-- PMBus address (R820). -/
def State.pmAddress (s : State) : Nat := 0x58 + s.power.pmAddr.toNat

/-- ALERT_N is pulled low (R741, R824). -/
def State.alert (s : State) : Bool := s.drives && !s.pmbus.alertN

end Sys2Proof.Machine
end

