-- ==== Sys2Proof/Safety.lean ====
section
/-! DEFINITION. What counts as a safe run, in the terms the statements use: commands that complete, mailbox commands that find
their ring ready, and what an event or a completion may change beside a command's own effect. -/

namespace Sys2Proof.Machine

/-- A well-formed command neither faults nor is refused. -/
def Runs (i : Instr) (s : State) : Prop := ∃ t, exec i s = .next t

/-- The memory of a state has its canonical form. -/
def State.MemOk (s : State) : Prop := Memory.wf s.mem = true

/-- `t` is `u` but for the books of the event log: its records and those that wait for it, the EVENT bit of INT_STATUS with
its counter, and each session's position and LOST total (R720, R730, R731, R865). -/
def EventsOnly (u t : State) : Prop :=
  t = { u with
    mbx := { u.mbx with
      int := t.mbx.int, log := t.mbx.log, logSeq := t.mbx.logSeq, hwFifo := t.mbx.hwFifo, hwLost := t.mbx.hwLost }
    trust := { u.trust with tenants := t.trust.tenants } }
  ∧ (∀ i, i ≠ 4 → t.mbx.int.has i = u.mbx.int.has i)
  ∧ ∀ k, t.tenant k = { u.tenant k with pos := (t.tenant k).pos, lost := (t.tenant k).lost }

/-- `t` is `u` but for the books of the mailbox when a command on ring `r` is accepted, executed and completed: those of the
event log, the ring, the ring served last, INT_STATUS, the output FIFO and window, and the sessions with their sequence
numbers (R632, R674, R680, R684, R691, R692). -/
def Books (r : Nat) (u t : State) : Prop :=
  t = { u with
    mbx := { u.mbx with
      int := t.mbx.int, log := t.mbx.log, logSeq := t.mbx.logSeq, hwFifo := t.mbx.hwFifo, hwLost := t.mbx.hwLost
      rings := t.mbx.rings, lastRing := t.mbx.lastRing, boutFifo := t.mbx.boutFifo, f3 := t.mbx.f3, wptr := t.mbx.wptr }
    trust := { u.trust with tenants := t.trust.tenants } }
  ∧ (∀ k, t.tenant k
      = { u.tenant k with session := (t.tenant k).session, pos := (t.tenant k).pos, lost := (t.tenant k).lost })
  ∧ ∀ q, q ≠ r → t.ring q = u.ring q

/-- The state on which a mailbox command's own row runs it. -/
def State.taken (s : State) (dt : Nat) (h : CmdHdr) : State := (s.elapse dt).found h

/-- A mailbox command finds its ring ready: the host reaches the mailbox (R836, R744), the ring has a free slot and nothing
before the command (R677, R682), its session is open (R633), the output FIFO holds no more than its size (R691), and the
checks that every command passes first find nothing (R686, R696). -/
def Ready (s : State) (dt : Nat) (h : CmdHdr) (c : HostCmd) : Prop :=
  s.hostLink = true ∧ (s.ring (ringNo h.ring)).free ≠ 0 ∧ s.sessionOpen h = true ∧ s.idleRing (ringNo h.ring) = true
    ∧ s.mbx.boutFifo.length ≤ 65536 ∧ (s.taken dt h).refuses false h c = none

/-- The sensor step of a start or a wake is due: 1 ms after point W, and 100 ms after the one before it (R771, R833). -/
def State.stepDue (s : State) : Prop :=
  s.power.pointW + 1000000 ≤ s.now ∧ ∀ t, s.power.checkedAt = some t → t + 100000000 ≤ s.now

/-- A command run on `f` has left `u` and completes OK with a RESULT and an output. -/
def State.ended (f u : State) (h : CmdHdr) (c : HostCmd) (result : Nat) (out : List Byte) : State :=
  f.deliver none h c { Answer.okR u result with out := out }

/-- The same, with its output in the F3 window (R692). -/
def State.endedF3 (f u : State) (h : CmdHdr) (c : HostCmd) (result : Nat) (out : List Byte) : State :=
  f.deliver none h c { Answer.okR u result with out := out, f3 := true }

/-- A command run on `f` completes with a code other than OK and its DETAIL, and leaves what it found (R695). -/
def State.failed (f : State) (h : CmdHdr) (c : HostCmd) (status detail : Nat) : State :=
  f.deliver none h c (Answer.errD f status detail)

/-- A command run on `f` has left `u`, passed its checks, and stays in execution on its ring (R682). -/
def State.staying (f u : State) (h : CmdHdr) (c : HostCmd) (left : Nat) : State :=
  u.modRing (ringNo h.ring) (fun y => { y with exec := some { hdr := h, cmd := c, since := f.now, left := left, relay := none } })

/-- The cell code of slice `sl` of an offset-binary weight code (R99, R101). -/
def sliceCode (u sl : Nat) : Int := (u / 4 ^ sl % 4 : Nat)

/-- What the columns of one weight add in one bench-phase of amplitude `a` at trim 1.0, for a map entry that has only FMT and SLICE. -/
def weightStep (fmt u : Nat) (shift : Nat) (a : Int) : Int :=
  sumI ((fmtSlices fmt).map (fun w => edgeStep (BitVec.ofNat 16 (w.1 * 2 ^ 8 + fmt * 2 ^ 10)) 0x4000 shift a (a * sliceCode u w.1)))

/-- The row of a mailbox command. -/
def commandRow (dt : Nat) (h : CmdHdr) : HostCmd → Instr
  | .devIdentify => .devIdentify dt h
  | .devAttest p => .devAttest dt h p
  | .devSessionOpen t => .devSessionOpen dt h t
  | .devSessionClose => .devSessionClose dt h
  | .devReset => .devReset dt h
  | .tickSourceSet p => .tickSourceSet dt h p
  | .tickPlanLoad p => .tickPlanLoad dt h p
  | .tickPlanArm p => .tickPlanArm dt h p
  | .tickPlanDisarm m => .tickPlanDisarm dt h m
  | .tickStatus => .tickStatus dt h
  | .partnerAttach => .partnerAttach dt h
  | .partnerModify p => .partnerModify dt h p
  | .partnerDetach i => .partnerDetach dt h i
  | .modelDeclare => .modelDeclare dt h
  | .modelMapPages p => .modelMapPages dt h p
  | .slabDress p => .slabDress dt h p
  | .slabPin k => .slabPin dt h k
  | .slabRelease k => .slabRelease dt h k
  | .lightStatus => .lightStatus dt h
  | .lineAssignSpare p => .lineAssignSpare dt h p
  | .lockAcquire p => .lockAcquire dt h p
  | .engineCalibrate e => .engineCalibrate dt h e
  | .phaseMapLoad n => .phaseMapLoad dt h n
  | .bankAssign p => .bankAssign dt h p
  | .bankPower p => .bankPower dt h p
  | .pageLoad p => .pageLoad dt h p
  | .pageRelease p => .pageRelease dt h p
  | .tenantCreate t => .tenantCreate dt h t
  | .tenantAssign m t => .tenantAssign dt h m t
  | .tenantStrip p => .tenantStrip dt h p
  | .keyRotate t => .keyRotate dt h t
  | .keyImport p => .keyImport dt h p
  | .powerStateSet st => .powerStateSet dt h st
  | .powerLimitSet p => .powerLimitSet dt h p
  | .thermalLimitsSet l => .thermalLimitsSet dt h l
  | .monconvConfigure p => .monconvConfigure dt h p
  | .monconvInject p => .monconvInject dt h p
  | .loopWrite p => .loopWrite dt h p
  | .loopFreeze p => .loopFreeze dt h p
  | .loopRelease p => .loopRelease dt h p
  | .xtalkLoad p => .xtalkLoad dt h p
  | .stateRead p => .stateRead dt h p
  | .stateList p => .stateList dt h p
  | .eventRead m => .eventRead dt h m
  | .faultInject p => .faultInject dt h p
  | .selftestRun p => .selftestRun dt h p
  | .fwLoadBegin n => .fwLoadBegin dt h n
  | .fwLoadBlock o => .fwLoadBlock dt h o
  | .fwLoadEnd => .fwLoadEnd dt h
  | .domainJoin => .domainJoin dt h
  | .domainLeave => .domainLeave dt h
  | .domainRelay w => .domainRelay dt h w
  | .roleSet m => .roleSet dt h m

end Sys2Proof.Machine
end

