-- ==== Sys2Proof/Certificates/Slice0/Obligations.lean ====
section
/-! DEFINITION. The statements for the provers. -/

open Sys2Proof Sys2Proof.Machine

/-! ## The machine -/

/-- Every step runs the command at the front of the queue on the state with the queue's rest; with no command waiting the block
idles (DESIGN CHOICE, log entry 1). -/
def Obligations.StepRunsFrontCommand : Prop :=
  (∀ (c : Instr) (rest : List Instr) (s : State), step { s with pending := c :: rest } = exec c { s with pending := rest })
    ∧ ∀ s : State, s.pending = [] → step s = .next s

/-- A command whose operand lists have the length of its row completes in every state; one whose lists have another length is
malformed. -/
def Obligations.WellFormedCommandsComplete : Prop :=
  ∀ (i : Instr) (s : State), (i.wellFormed = true → Runs i s) ∧ (i.wellFormed = false → exec i s = .fault .malformed)

/-- What State.reset holds: the spec's values of FW_STATE, PUSH_RESULT, INT_STATUS and INT_ENABLE (R674), PLAN_CAP (R69), the tick period, source
state FREE and PTP domain (R50, R561), the setpoints of the PWR and IIN loops (R375) and REFMODE (R780); and values that are the model's, of a module as delivered
and of what the spec gives no reset value (log entries 16 and 17): DRESS_STATE BLANK, the trims and a converter's gain at 1.0, no weight set, SCALE_COUNT 0, clusters
of tenant 0, no session, and only tenant 0. -/
def Obligations.ResetValues : Prop :=
  State.reset.pending = [] ∧ State.reset.mbx.fw = .waitImage
    ∧ (∀ r : Fin 4, (State.reset.ring r).pushResult = 0xF ∧ (State.reset.ring r).cmds = [] ∧ (State.reset.ring r).cpls = [])
    ∧ State.reset.mbx.intEnable = 0 ∧ State.reset.mbx.int = W1c.init
    ∧ (∀ t : TenantId, (State.reset.tenant t).session = none ∧ (State.reset.tenant t).exist = decide (t.val = 0))
    ∧ State.reset.time.period = 4 ∧ State.reset.time.srcState = .free ∧ State.reset.time.ptpDomain = 24
    ∧ (∀ c : ClusterId, (State.reset.cluster c).planCap = 512 ∧ (State.reset.cluster c).active = none
        ∧ (State.reset.cluster c).scaleCount = 0 ∧ (State.reset.cluster c).tenant = 0)
    ∧ (∀ k : SlabId, (State.reset.slab k).dress = .blank ∧ (State.reset.slab k).driftTrim = 0x4000
        ∧ (State.reset.slab k).ageTrim = 0x4000)
    ∧ (∀ e : EngineId, (State.reset.engine e).active.loaded = false ∧ (State.reset.engine e).shadow.loaded = false)
    ∧ (State.reset.loop 5120).coef = Loop.coefInit 5120 ∧ powerSetpoint 0 = 14000 ∧ powerSetpoint 1 = 3600
    ∧ (∀ k : McId, (State.reset.mc k).refmode = true) ∧ (State.reset.convCorr 0).gain = 0x4000

/-! ## The commands of the mailbox -/

/-- R674, R680, R681: a command's own row accepts it on a ring with nothing before it: the state it runs on differs from what the host
left only in the mailbox's books, its ring has accepted one command more, and PUSH_RESULT is 0. A command that completes posts one
completion on its ring, after those already there: OK with its opcode, CMD_ID, RESULT and output length. Beside that and the command's
effect `u` only the mailbox's books change. -/
def Obligations.CommandBooks : Prop :=
  (∀ (s : State) (dt : Nat) (h : CmdHdr), Books (ringNo h.ring) (s.elapse dt) (s.taken dt h)
    ∧ ((s.taken dt h).ring (ringNo h.ring)).accepted = (s.ring (ringNo h.ring)).accepted + 1
    ∧ ((s.taken dt h).ring (ringNo h.ring)).pushResult = 0)
  ∧ ∀ (f u : State) (h : CmdHdr) (c : HostCmd) (result : Nat) (out : List Byte),
    Books (ringNo h.ring) u (f.ended u h c result out)
    ∧ ∃ k : Cpl, ((f.ended u h c result out).ring (ringNo h.ring)).cpls = (u.ring (ringNo h.ring)).cpls ++ [k]
      ∧ k.status = 0 ∧ k.opcode = opcodeOf c ∧ k.id = h.id ∧ k.result = BitVec.ofNat 128 result ∧ k.outLen = out.length

/-- R686, R695, R696: a command that the checks before its own refuse completes with their code and DETAIL and changes nothing
but the mailbox's books. -/
def Obligations.RefusedCommandHasNoEffect : Prop :=
  ∀ (s : State) (dt : Nat) (h : CmdHdr) (c : HostCmd) (e : Nat × Nat),
    (commandRow dt h c).wellFormed = true → s.hostLink = true → (s.ring (ringNo h.ring)).free ≠ 0 → s.sessionOpen h = true →
    s.idleRing (ringNo h.ring) = true → s.mbx.boutFifo.length ≤ 65536 → (s.taken dt h).refuses false h c = some e →
    e.1 ≠ 0 → e.1 ≠ 10 →
    exec (commandRow dt h c) s = .next ((s.taken dt h).failed h c e.1 e.2)
    ∧ Books (ringNo h.ring) (s.taken dt h) ((s.taken dt h).failed h c e.1 e.2)

/-- DEV_IDENTIFY yields fingerprint, modulus and SERIAL once an identity is there, and starts its derivation on helper data;
DEV_ATTEST and DEV_SESSION_OPEN start; DEV_SESSION_CLOSE completes and closes its session; DEV_RESET ends in WAIT_IMAGE with no image, no
attestation and exchange keys, and no partner change left (R618, R626, R628, R699, R716). -/
def Obligations.IdentityAndSessionCommands : Prop :=
  ∀ (s : State) (dt : Nat) (h : CmdHdr) (f : State), f = s.taken dt h →
    (∀ i : Identity, Ready s dt h .devIdentify → f.trust.identity = some i → f.fits h.session false 416 = true →
      exec (.devIdentify dt h) s = .next (f.ended f h .devIdentify i.serial.toNat
        (toLe 32 i.fingerprint.toNat ++ toLe 384 (leNat i.modulus))))
    ∧ (Ready s dt h .devIdentify → f.trust.identity = none → h.bulk.length = 3136 → leAt h.bulk 0 2 = 1 →
      leAt h.bulk 4 4 = 3136 → exec (.devIdentify dt h) s = .next (f.staying f h .devIdentify 0))
    ∧ (∀ p, Ready s dt h (.devAttest p) → f.trust.ak.isSome = true → (f.tenant p.tenant.toNat).exist = true →
      exec (.devAttest dt h p) s = .next (f.staying f h (.devAttest p) 0))
    ∧ (∀ t, Ready s dt h (.devSessionOpen t) → h.bulk.length = (if t = 0 then 384 else 768) → f.trust.xk.isSome = true →
      (f.tenant t.toNat).session = none → (f.tenant t.toNat).exist = true →
      exec (.devSessionOpen dt h t) s = .next (f.staying f h (.devSessionOpen t) 0))
    ∧ (Ready s dt h .devSessionClose → exec (.devSessionClose dt h) s = .next (f.ended f h .devSessionClose 0 [])
      ∧ ∀ t, h.session = some t → ((f.ended f h .devSessionClose 0 []).tenant t.val).session = none)
    ∧ (∀ t, Ready s dt h .devReset → t = f.ended f.devReset h .devReset 0 [] → exec (.devReset dt h) s = .next t ∧ t.mbx.fw = .waitImage
      ∧ t.mbx.image = [] ∧ t.mbx.imageLen = 0 ∧ t.trust.ak = none ∧ t.trust.xk = none ∧ t.fabric.changes = [])

/-- The tick commands (R50, R61, R75 to R80, R699, R702): the source list, period and offset are set and the module acquires
anew; a plan is written to the shadow buffer of every cluster named; an arm marks it for a boundary, a disarm takes the mark
away or ends the active plan at a boundary; TICK_STATUS gives TIME_NS, epoch, frame, source state, period and tick. -/
def Obligations.TickCommands : Prop :=
  ∀ (s : State) (dt : Nat) (h : CmdHdr) (f : State), f = s.taken dt h →
    (∀ p, Ready s dt h (.tickSourceSet p) → p.period.toNat ≤ 4 →
      (p.ptpDomain = 0 ∨ (24 ≤ p.ptpDomain.toNat ∧ p.ptpDomain.toNat ≤ 43)) → p.frameOffset.toNat ≤ 9999999 →
      badSource f.mbx.manager (srcsOf p) = none →
      (p.period.toNat = f.time.period ∨ ((∀ c, c < 64 → (f.cluster c).busyRt = false) ∧ f.fronthaulActive = false)) →
      ∃ u : State, exec (.tickSourceSet dt h p) s = .next (f.ended u h (.tickSourceSet p) 0 [])
        ∧ u.time.period = p.period.toNat ∧ u.time.frameOffset = p.frameOffset.toNat
        ∧ u.time.sources = (srcsOf p).map mkSource ∧ u.time.srcState = .acquiring ∧ u.time.frame0 = false
        ∧ u.time.ptpDomain = (if p.ptpDomain = 0 then 24 else p.ptpDomain.toNat) ∧ u.time.timeNs = f.time.timeNs
        ∧ u.trust.mrCfg = extend f.trust.mrCfg (cmdBytes h (.tickSourceSet p) ++ h.bulk))
    ∧ (∀ p plan, Ready s dt h (.tickPlanLoad p) → hdrCount p.header ≤ 4096 → p.bufCount.toNat ≤ 64 →
      h.bulk.length = 64 * hdrCount p.header + 16 * p.bufCount.toNat →
      plan = { header := p.header, tasks := takeDescs (hdrCount p.header) h.bulk,
               bufs := takeBufs p.bufCount.toNat (h.bulk.drop (64 * hdrCount p.header)) } →
      planReserved plan.tasks plan.bufs = none →
      (∀ c ∈ checkedClusters p, planLengths c (f.loadTop p) plan = none ∧ planRules c plan = none) →
      planCapOk p = true →
      (∀ c ∈ maskBits p.clusters, capAfter p (f.cluster c) = (f.cluster c).planCap ∨ (f.cluster c).busy = false) →
      (∀ c ∈ maskBits p.clusters, hdrCount p.header ≤ capAfter p (f.cluster c)
        ∧ (f.cluster c).armed = none ∧ f.banksUp c 0xFF 0x100000 (64 * hdrCount p.header) = true) →
      exec (.tickPlanLoad dt h p) s = .next (f.ended
        (forEach (maskBits p.clusters) f (fun g c =>
          let t := g.modCluster c (fun x => { x with
            planCap := if p.planCap = 0 then x.planCap else p.planCap.toNat, shadow := some plan })
          (if capAfter p (g.cluster c) = (g.cluster c).planCap then t else t.putScales c).putPlan c))
        h (.tickPlanLoad p) 0 []))
    ∧ (∀ p t, Ready s dt h (.tickPlanArm p) → (p.named = true → p.tick.toNat < ticksPerFrame f.time.period) →
      (∀ c ∈ maskBits p.clusters, f.armCheck c = none) → f.armTarget p = some t →
      exec (.tickPlanArm dt h p) s = .next (f.ended
        ((forEach (maskBits p.clusters) f (fun g c =>
          (g.cancelFrom c (g.armClock t)).modCluster c (fun x => { x with armed := some t }))).extendPlans (maskBits p.clusters))
        h (.tickPlanArm p) 0 []))
    ∧ (∀ m, Ready s dt h (.tickPlanDisarm m) →
      exec (.tickPlanDisarm dt h m) s = .next (f.ended
        (forEach (maskBits m) f (fun g c =>
          if (g.cluster c).armed.isSome then g.modCluster c (fun x => { x with armed := none })
          else let n := (g.cluster c).disarm.getD g.leadFrom
            (g.cancelFrom c (g.boundaryAt n)).modCluster c (fun x => { x with disarm := some n })))
        h (.tickPlanDisarm m) 0 []))
    ∧ (Ready s dt h .tickStatus →
      exec (.tickStatus dt h) s = .next (f.ended f h .tickStatus
        (f.time.timeNs.toNat + 2 ^ 64 * (f.epochNow % 2 ^ 32)
          + 2 ^ 96 * (f.frameNow + 2 ^ 10 * f.time.srcState.code + 2 ^ 13 * f.time.period) + 2 ^ 112 * f.tickNow) []))

/-- The partner commands enter the change they name, for the first boundary at least 5 microseconds away (R553, R585, R586,
R596); PHASE_MAP_LOAD enters a phase map (R567, R568). -/
def Obligations.PartnerCommands : Prop :=
  ∀ (s : State) (dt : Nat) (h : CmdHdr) (f : State) (x : Entry), f = s.taken dt h → x = bytesToBv 512 h.bulk →
    (∀ i, Ready s dt h .partnerAttach → h.bulk.length = 64 → f.freeIndex = some i → f.entryCheck h i x true = none →
      exec (.partnerAttach dt h) s = .next (f.ended { f with fabric := { f.fabric with
        changes := f.fabric.changes ++ [{ notBefore := f.leadFrom, index := i, kind := 0, entry := x }] } }
        h .partnerAttach i []))
    ∧ (∀ p, Ready s dt h (.partnerModify p) → h.bulk.length = 64 → 257 ≤ p.index.toNat →
      peState (f.partner p.index.toNat) ≠ psFree → peKind x = peKind (f.partner p.index.toNat) →
      peTenant x = peTenant (f.partner p.index.toNat) →
      f.entryCheck h p.index.toNat x (peState (f.partner p.index.toNat) == psActive || p.resume) = none →
      exec (.partnerModify dt h p) s = .next (f.ended { f with fabric := { f.fabric with
        changes := f.fabric.changes ++ [
          { notBefore := f.leadFrom, index := p.index.toNat, kind := 1,
            entry := putField x 0 2 (if p.resume then psActive else psFree) }] } } h (.partnerModify p) 0 []))
    ∧ (∀ i, Ready s dt h (.partnerDetach i) → 257 ≤ i.toNat → peState (f.partner i.toNat) ≠ psFree →
      exec (.partnerDetach dt h i) s = .next (f.ended { f with fabric := { f.fabric with
        changes := f.fabric.changes ++ [{ notBefore := f.leadFrom, index := i.toNat, kind := 2, entry := 0 }] } }
        h (.partnerDetach i) 0 []))
    ∧ (∀ n, Ready s dt h (.phaseMapLoad n) → 0 < n.toNat → n.toNat ≤ 16 → h.bulk.length = 264 * n.toNat →
      ((phasesOf n.toNat h.bulk).head?.map (fun p => p.start)) = some 0 → phasesAscend (phasesOf n.toNat h.bulk) = true →
      (∀ p ∈ phasesOf n.toNat h.bulk, p.start < periodNs f.time.period ∧ p.bad = false) →
      exec (.phaseMapLoad dt h n) s = .next (f.ended
        ((f.modFabric (fun y => { y with mapChanges := y.mapChanges ++ [(f.leadFrom, phasesOf n.toNat h.bulk)] })).modTrust (fun y =>
          { y with mrCfg := extend y.mrCfg (cmdBytes h (.phaseMapLoad n) ++ h.bulk) }))
        h (.phaseMapLoad n) 0 []))

/-- The model and slab commands: MODEL_DECLARE writes SCALE_COUNT now and the entries from a boundary on, and extends MR_MODEL
(R426, R625); MODEL_MAP_PAGES maps tiles and marks their pages from a boundary on (R492, R705); SLAB_DRESS queues a dressing
and answers how many are before it (R188, R190); SLAB_RELEASE releases a pin (R221). -/
def Obligations.ModelAndSlabCommands : Prop :=
  ∀ (s : State) (dt : Nat) (h : CmdHdr) (f : State), f = s.taken dt h →
    (∀ n cs rs t, n = leAt h.bulk 4 2 % 2048 → cs = maskBits (BitVec.ofNat 64 (leAt h.bulk 8 8)) →
      rs = scaleRecords n (h.bulk.drop 32) → t = sessionTenant h →
      Ready s dt h .modelDeclare → n ≤ 1024 → h.bulk.length = 32 + 16 * n → leAt h.bulk 0 2 ≠ 0xFFFF →
      (∀ r ∈ rs, scaleFault r = none) → (∀ c ∈ cs, (f.cluster c).scaleCount = n ∨ (f.cluster c).busy = false) →
      (rs.filter (fun r => decide (leAt r 4 1 % 32 ≠ 0))).length ≤ 64 →
      (∀ c ∈ cs, f.banksUp c 0xFF 0x100000 (16 * n) = true) →
      exec (.modelDeclare dt h) s = .next (f.ended
        ((forEach cs f (fun g c =>
          let t := g.modCluster c (fun x => { x with
            scaleCount := n, scales := x.scales.filter (fun e => decide (e.1 < n)), scaleWrites := x.scaleWrites.filter (fun w => decide (w.2.1 < n))
              ++ (indexed (rs.map scaleOf)).map (fun e => (g.leadFrom, e.1, e.2)) })
          if (g.cluster c).scaleCount = n then t else t.putScales c)).modTrust (fun y => { y with
          mrModel := tabSet 0 y.mrModel t (extend (tabGet 0 y.mrModel t) h.bulk) }))
        h .modelDeclare 0 []))
    ∧ (∀ p rs, rs = tileRecords p.count.toNat h.bulk → Ready s dt h (.modelMapPages p) → 0 < p.count.toNat →
      p.count.toNat ≤ 4096 → h.bulk.length = 16 * p.count.toNat →
      (∀ r ∈ rs, trOfs r + 102400 ≤ 2 ^ 23 ∧ trOfs r % 64 = 0 ∧ trPage r < 98304 ∧ f.managerPage (trPage r) = false
        ∧ (f.page (trPage r)).kind = 1 ∧ (f.page (trPage r)).tenant = sessionTenant h) →
      exec (.modelMapPages dt h p) s = .next (f.ended
        (({ f with
            tiles := f.tiles ++ rs.map (fun r =>
              ({ tenant := sessionTenant h, tileId := BitVec.ofNat 64 (leAt r 0 8), page := trPage r, ofs := trOfs r,
                 notBefore := some f.leadFrom } : TileMap))
            pageChanges := f.pageChanges ++ (rs.map trPage).dedup.map (fun q =>
              ({ notBefore := f.leadFrom, page := q, entry := { f.page q with model := p.model.toNat } } : PageChange)) }
              : State).cancelPages
          (fun q => (rs.map trPage).dedup.contains q) (f.boundaryAt f.leadFrom)) h (.modelMapPages p) 0 []))
    ∧ (∀ p loc u, Ready s dt h (.slabDress p) → (f.slab p.slab.toNat).pinned = false →
      f.tileAt (f.cluster (slabCluster p.slab.toNat)).tenant p.tileId = some loc → f.hbmOn = true →
      mapFault (f.copyMap loc.1 loc.2) = none →
      u = f.queueDress p.slab.toNat 2 (some
        { tileId := p.tileId, seamThresh := if p.seamThresh = 0 then 2880 else p.seamThresh.toNat,
          redressAge := p.redressAge.toNat, model := p.model.toNat }) →
      exec (.slabDress dt h p) s = .next (f.ended u h (.slabDress p)
        ((u.dressQueue.takeWhile (· ≠ p.slab.toNat)).length % 65536) []))
    ∧ (∀ k, Ready s dt h (.slabRelease k) → (f.slab k.toNat).recon = [] →
      exec (.slabRelease dt h k) s = .next (f.ended
        (if (f.slab k.toNat).pinned then f.modSlab k.toNat (fun x => { x with pinned := false }) else f) h (.slabRelease k) 0 []))
    ∧ (∀ k j js, Ready s dt h (.slabRelease k) → (f.slab k.toNat).pinned = true → (f.slab k.toNat).recon = j :: js →
      exec (.slabRelease dt h k) s = .next (f.ended
        (((f.modSlab k.toNat (fun x => { x with pinned := false })).seamFail k.toNat (seamGroup j) ((f.slab k.toNat).physOf j) 0
          (f.slabInjected k.toNat)).leaveRecon k.toNat (seamGroup j)) h (.slabRelease k) 0 []))

/-- R218, R219: while another slab of the core is pinned, SLAB_PIN is rejected with NO_SPACE; on a slab that is not READY or not BOUND it
is rejected with NOT_READY; otherwise the pin is in effect when the command completes. A rejected one changes nothing but the books. -/
def Obligations.SlabPinIsChecked : Prop :=
  ∀ (s : State) (dt : Nat) (h : CmdHdr) (k : BitVec 14) (f : State), f = s.taken dt h → Ready s dt h (.slabPin k) →
    ((∃ i, i < 4 ∧ k.toNat / 4 * 4 + i ≠ k.toNat ∧ (f.slab (k.toNat / 4 * 4 + i)).pinned = true) → (f.slab k.toNat).dress = .ready → (f.slab k.toNat).bound = true →
      exec (.slabPin dt h k) s = .next (f.failed h (.slabPin k) stNoSpace 0))
    ∧ ((∀ i, i < 4 → k.toNat / 4 * 4 + i ≠ k.toNat → (f.slab (k.toNat / 4 * 4 + i)).pinned = false) → ((f.slab k.toNat).dress ≠ .ready ∨ (f.slab k.toNat).bound = false) →
      exec (.slabPin dt h k) s = .next (f.failed h (.slabPin k) stNotReady 0))
    ∧ ((∀ i, i < 4 → k.toNat / 4 * 4 + i ≠ k.toNat → (f.slab (k.toNat / 4 * 4 + i)).pinned = false) → (f.slab k.toNat).dress = .ready → (f.slab k.toNat).bound = true →
      exec (.slabPin dt h k) s = .next (f.ended (f.modSlab k.toNat (fun x => { x with pinned := true })) h (.slabPin k) 0 []))
    ∧ Books (ringNo h.ring) f (f.failed h (.slabPin k) stNoSpace 0) ∧ Books (ringNo h.ring) f (f.failed h (.slabPin k) stNotReady 0)

/-- The memory commands: BANK_ASSIGN and BANK_POWER give every bank named a change for a boundary (R474 to R479); PAGE_LOAD
zeroes, or writes from the host, the bytes it names, gives a FREE page to the session's tenant from a boundary on, and with
a partner as its source waits for LENGTH bytes (R492, R707); PAGE_RELEASE frees from a boundary on. Of a page that is FREE
the change joins those waiting; fills made ahead that the change meets are cancelled (R529). -/
def Obligations.MemoryCommands : Prop :=
  ∀ (s : State) (dt : Nat) (h : CmdHdr) (f : State), f = s.taken dt h →
    (∀ p l, Ready s dt h (.bankAssign p) → l = namedBanks p.cluster.toNat p.mem.toNat p.mask →
      bankNames p.mem.toNat p.mask = none → ownerRefused p.mem.toNat p.owner.toNat p.ownerCore.toNat = false →
      (∀ k ∈ l, (f.bank k).owner ≠ 5 ∧ (f.bank k).pending = none) →
      exec (.bankAssign dt h p) s = .next (f.ended
        ((forEach l f (fun g k => g.modBank k (fun b => { b with
          pending := some { notBefore := g.leadFrom, owner := some (p.owner.toNat, p.ownerCore.toNat), power := none } }))).cancelBanks
          p.cluster.toNat l (f.boundaryAt f.leadFrom)) h (.bankAssign p) 0 []))
    ∧ (∀ p l, Ready s dt h (.bankPower p) → l = namedBanks p.cluster.toNat p.mem.toNat p.mask →
      bankNames p.mem.toNat p.mask = none → p.power ≠ 3 → (∀ k ∈ l, (f.bank k).owner ≠ 5 ∧ (f.bank k).pending = none) →
      exec (.bankPower dt h p) s = .next (f.ended
        ((forEach l f (fun g k => g.modBank k (fun b => { b with
          pending := some { notBefore := g.leadFrom, owner := none, power := some (bankPowerOf p.power.toNat) } }))).cancelBanks
          p.cluster.toNat l (f.boundaryAt f.leadFrom)) h (.bankPower p) 0 []))
    ∧ (∀ p u, Ready s dt h (.pageLoad p) → p.pageOfs.toNat + p.length.toNat ≤ 2 ^ 23 → (p.source = 1 → h.bulk.length = p.length.toNat) →
      p.page.toNat < 98304 → (p.kind = 1 ∨ p.kind = 2) → p.source ≠ 3 → p.pageOfs.toNat % 64 = 0 →
      f.managerPage p.page.toNat = false → (f.pageKind p.page.toNat = 0 ∨ f.pageKind p.page.toNat = p.kind.toNat) →
      f.hbmOn = true → 0 < p.length.toNat →
      u = (if f.pageKind p.page.toNat = 0 then f.givePage p.page.toNat p.kind.toNat (sessionTenant h)
          (if p.source = 2 then loadLater else f.leadFrom) else f).cancelPages
        (fun q => q == p.page.toNat) (f.boundaryAt f.leadFrom) →
      exec (.pageLoad dt h p) s = .next (
        if p.source = 0 then f.ended (u.hbmZero (hbmKey p.page.toNat p.pageOfs.toNat) p.length.toNat) h (.pageLoad p) 0 []
        else if p.source = 1 then f.ended (u.hbmWrite (hbmKey p.page.toNat p.pageOfs.toNat) h.bulk) h (.pageLoad p) 0 []
        else f.staying u h (.pageLoad p) p.length.toNat))
    ∧ (∀ p, Ready s dt h (.pageRelease p) → p.page.toNat + p.count.toNat ≤ 98304 →
      (∀ x ∈ f.slabs, x.2.bound = true → ∀ m, x.2.master = some m → ¬ (p.page.toNat ≤ m.1 ∧ m.1 < p.page.toNat + p.count.toNat)) →
      exec (.pageRelease dt h p) s = .next (f.ended
        (({ f with
            pageChanges := f.pageChanges ++ ((f.pages.map (fun x => x.1) ++ f.pageChanges.map (fun c => c.page)).dedup.filter (fun q =>
            (decide (p.page.toNat ≤ q) && decide (q < p.page.toNat + p.count.toNat)) && decide (f.pageKind q ≠ 0))).map (fun q =>
              ({ notBefore := f.leadFrom, page := q, entry := Page.init } : PageChange)) } : State).cancelPages
          (fun q => decide (p.page.toNat ≤ q) && decide (q < p.page.toNat + p.count.toNat)) (f.boundaryAt f.leadFrom))
        h (.pageRelease p) 0 []))

/-- The tenant commands: TENANT_CREATE makes the tenant with its key and generation 0 (R639); TENANT_ASSIGN and TENANT_STRIP
have the clusters stripped from a boundary on (R655); KEY_ROTATE takes a new key for a boundary (R650); KEY_IMPORT sets a
CAK and its name (R550). MR_CFG takes in the configuring ones (R625). -/
def Obligations.TenantCommands : Prop :=
  ∀ (s : State) (dt : Nat) (h : CmdHdr) (f : State), f = s.taken dt h →
    (∀ t, Ready s dt h (.tenantCreate t) → h.bulk.length = 384 → t ≠ 0 → (f.tenant t.toNat).exist = false →
      exec (.tenantCreate dt h t) s = .next (f.ended
        ((((f.modTenant t.toNat (fun x => { x with exist := true, modulus := h.bulk, genCur := 0, genOld := none })).newPageKey
          t.toNat 0).trustEv t.toNat trTenantCreated 0xFF 0).extendCfg h (.tenantCreate t)) h (.tenantCreate t) 0 []))
    ∧ (∀ m t, Ready s dt h (.tenantAssign m t) → (f.tenant t.toNat).exist = true → (f.tenant t.toNat).deleting = false →
      (∀ c ∈ maskBits m, (f.cluster c).strip = none) →
      exec (.tenantAssign dt h m t) s = .next (f.ended
        ((forEach ((maskBits m).filter (fun c => decide ((f.cluster c).tenant ≠ t.toNat))) f
          (fun g c => g.scheduleStrip c t.toNat false)).extendCfg h (.tenantAssign m t)) h (.tenantAssign m t) 0 []))
    ∧ (∀ p cs, Ready s dt h (.tenantStrip p) → p.delete = false → (f.tenant p.tenant.toNat).exist = true →
      cs = (maskBits p.clusters).filter (fun c =>
        ((List.range 64).filter (fun c => decide ((f.cluster c).tenant = p.tenant.toNat))).contains c) →
      (∀ c ∈ cs, (f.cluster c).strip = none) →
      exec (.tenantStrip dt h p) s = .next (f.ended
        ((forEach cs f (fun g c => g.scheduleStrip c p.tenant.toNat false)).extendCfg h (.tenantStrip p)) h (.tenantStrip p) 0 []))
    ∧ (∀ t, Ready s dt h (.keyRotate t) → (f.tenant t.toNat).genOld = none → (f.tenant t.toNat).rotate = none →
      exec (.keyRotate dt h t) s = .next (f.ended
        ((f.newPageKey t.toNat (((f.tenant t.toNat).genCur + 1) % 256)).modTenant t.toNat (fun x =>
          { x with rotate := some f.leadFrom })) h (.keyRotate t) 0 []))
    ∧ (∀ p, Ready s dt h (.keyImport p) → 0 < p.cknLen.toNat → p.cknLen.toNat ≤ 32 → h.bulk.length = 32 + p.cknLen.toNat →
      (p.ca.toNat < 16 → sessionTenant h = 0) →
      ((f.ca p.ca.toNat).cak = none ∨ (f.ca p.ca.toNat).tenant = sessionTenant h) →
      exec (.keyImport dt h p) s = .next (f.ended
        (f.modCa p.ca.toNat (fun _ =>
          { cak := some (h.bulk.take 32), ckn := h.bulk.drop 32, tenant := sessionTenant h, sak := none, txPn := 1, rxPn := 1 }))
        h (.keyImport p) 0 []))

/-- The light commands: LIGHT_STATUS reports both cartridges and how many feeds are not OWN; LINE_ASSIGN_SPARE sets the policy
of its cartridge and, to switch, the boundary named (R331, R334); LOCK_ACQUIRE has its loops sweep (R361); ENGINE_CALIBRATE
starts (R249). POWER_STATE_SET of the state the module is in completes at once, of another from PS1 on waits for its boundary (R745,
R752); MONCONV_CONFIGURE sets the scan, and waits for the reference where it must (R791); MONCONV_INJECT joins the queue of its
converter (R788). -/
def Obligations.LightPowerAndConverterCommands : Prop :=
  ∀ (s : State) (dt : Nat) (h : CmdHdr) (f : State), f = s.taken dt h →
    (Ready s dt h .lightStatus → exec (.lightStatus dt h) s = .next (f.ended f h .lightStatus
      (f.cartStatus 0 + 2 ^ 32 * f.cartStatus 1 + 2 ^ 64 * f.power.ctl
        + 2 ^ 96 * ((List.range 128).filter (fun k => f.feedOf k ≠ 0)).length) []))
    ∧ (∀ p k t, k = (if p.cart then 1 else 0) → t = f.time.occurrence p.frame.toNat p.tick.toNat f.timeNat →
      Ready s dt h (.lineAssignSpare p) → p.policy ≠ 3 →
      (p.switch = true → p.tick.toNat < ticksPerFrame f.time.period ∧ (f.cart k).waits p.line.toNat = true
        ∧ f.timeNat + 5000 ≤ t ∧ t ≤ f.timeNat + 5120000000) →
      exec (.lineAssignSpare dt h p) s = .next (f.ended
        (let u := if p.switch then f.modCart k (fun x => { x with
            named := tabPut x.named p.line.toNat t, autoNamed := x.autoNamed.filter (· ≠ p.line.toNat) }) else f
         if p.policy = 2 then u else u.sparePolicy k (p.policy == 1)) h (.lineAssignSpare p) 0 []))
    ∧ (∀ p, Ready s dt h (.lockAcquire p) → p.first.toNat + p.count.toNat ≤ 5120 → 0 < p.count.toNat →
      (∀ k ∈ loopRange p, f.loopRowState k ≠ some .service ∧ (f.loop k).frozen = false) → f.lasersOn = true →
      exec (.lockAcquire dt h p) s = .next (f.staying (f.acquireLoops (loopRange p)) h (.lockAcquire p) 0))
    ∧ (∀ e, Ready s dt h (.engineCalibrate e) → (f.cluster e.toNat).busy = false → f.clusterDetours e.toNat = false →
      f.lasersOn = true → f.power.pstate ≠ .ps2 →
      exec (.engineCalibrate dt h e) s = .next (f.staying f h (.engineCalibrate e) 0))
    ∧ (∀ st, Ready s dt h (.powerStateSet st) → st.toNat ≤ 5 → (st ≠ 0 → f.power.stop = false) → (st = 0 → f.released = true) →
      exec (.powerStateSet dt h st) s = .next (
        if pstateOf st.toNat = f.power.pstate then f.ended f h (.powerStateSet st) 0 []
        else if st = 0 then f.staying f h (.powerStateSet st) 0
        else f.staying (f.modPower (fun p => { p with target := some (pstateOf st.toNat, f.leadFrom) })) h (.powerStateSet st) 0))
    ∧ (∀ p w, Ready s dt h (.monconvConfigure p) → f.convertersOn = true →
      w = (!p.refmode && !(f.mc p.mc.toNat).refReady) →
      exec (.monconvConfigure dt h p) s = .next (
        if w then f.staying (f.modMc p.mc.toNat (fun x => x.configured p w f.now)) h (.monconvConfigure p) 0
        else f.ended (f.modMc p.mc.toNat (fun x => x.configured p w f.now)) h (.monconvConfigure p) 0 []))
    ∧ (∀ p, Ready s dt h (.monconvInject p) → f.convertersOn = true → (f.mc p.mc.toNat).inj.length < 4 →
      exec (.monconvInject dt h p) s = .next (f.staying
        (f.modMc p.mc.toNat (fun x => { x with
          inj := x.inj ++ [(p.channel.toNat, h.ring, x.injectAt f.now)]
          todo := x.todo.map (fun y => if f.now < y.2 then (y.1, y.2 + 25) else y) })) h (.monconvInject p) 0))

/-- The control commands: LOOP_WRITE enters a coefficient, LOOP_FREEZE and LOOP_RELEASE mark loops, for a control tick (R381,
R384, R387); XTALK_LOAD stages entries of a die and, with COMMIT, has them taken up (R373, R374); POWER_LIMIT_SET and
THERMAL_LIMITS_SET write the setpoints of the power loops (R706, R763). -/
def Obligations.ControlCommands : Prop :=
  ∀ (s : State) (dt : Nat) (h : CmdHdr) (f : State), f = s.taken dt h →
    (∀ p n, Ready s dt h (.loopWrite p) → p.loop.toNat ≤ 5128 → loopField p.offset.toNat = some n → p.value.toNat < 2 ^ n →
      (p.offset.toNat = 0x1A → p.value.toNat / 4 ≠ 3) →
      (isLock p.loop.toNat = false → 0x18 ≤ p.offset.toNat → p.value.toNat = 0) →
      coBad (coPut (f.loop p.loop.toNat).base p.offset.toNat p.value.toNat) = false →
      (isLock p.loop.toNat = true → p.offset.toNat = 0x1A →
        f.toneClash f.xtActive p.loop.toNat [p.value.toNat % 4] = false
          ∧ (f.xcommit.contains (p.loop.toNat / 2560) = true → f.toneClash f.xtStaged p.loop.toNat [p.value.toNat % 4] = false)) →
      exec (.loopWrite dt h p) s = .next (f.ended (f.writeLoop p.loop.toNat p.offset.toNat p.value.toNat) h (.loopWrite p) 0 []))
    ∧ (∀ p, Ready s dt h (.loopFreeze p) → p.first.toNat + p.count.toNat ≤ 5129 →
      (∀ k ∈ loopRange p, (f.loop k).phase ≠ .sweep) → (5120 ∈ loopRange p → 14000 ≤ f.power.tl) →
      exec (.loopFreeze dt h p) s = .next (f.ended (forEach (loopRange p) f (fun g k => g.modLoop k (fun x =>
        if x.frozen ∧ x.releaseFrom.isNone then x else { x with freezeFrom := some (g.now + 1) }))) h (.loopFreeze p) 0 []))
    ∧ (∀ p, Ready s dt h (.loopRelease p) → p.first.toNat + p.count.toNat ≤ 5129 →
      (∀ k ∈ loopRange p, (f.loop k).frozen = true → coBad (f.loop k).base = false) →
      exec (.loopRelease dt h p) s = .next (f.ended (forEach (loopRange p) f (fun g k => g.modLoop k (fun x =>
        { x with releaseFrom := if x.frozen || x.freezeFrom.isSome then some (g.now + 1) else none }))) h (.loopRelease p) 0 []))
    ∧ (∀ p u, Ready s dt h (.xtalkLoad p) → p.first.toNat + p.count.toNat ≤ 2560 → h.bulk.length = 32 * p.count.toNat →
      (∀ e ∈ indexed (xtRecords p.count.toNat h.bulk), xtBad (p.first.toNat + e.1) e.2 = false) →
      u = f.stageXtalk ((if p.die then 1 else 0) * 2560 + p.first.toNat) (indexed (xtRecords p.count.toNat h.bulk)) →
      (∀ e ∈ indexed (xtRecords p.count.toNat h.bulk), u.toneClash u.xtStaged
        ((if p.die then 1 else 0) * 2560 + p.first.toNat + e.1)
        (u.loop ((if p.die then 1 else 0) * 2560 + p.first.toNat + e.1)).tones = false) →
      (p.commit = true → u.stageClash (if p.die then 1 else 0) = false) →
      exec (.xtalkLoad dt h p) s = .next (f.ended
        (if p.commit then { u with xcommit := (u.xcommit ++ [if p.die then 1 else 0]).dedup } else u) h (.xtalkLoad p) 0 []))
    ∧ (∀ p, Ready s dt h (.powerLimitSet p) → 4000 ≤ p.pwr.toNat → p.pwr.toNat ≤ 14000 → 1000 ≤ p.iin.toNat → p.iin.toNat ≤ 3600 →
      exec (.powerLimitSet dt h p) s = .next (f.ended
        ((f.writeLoop 5120 0x0E p.pwr.toNat).writeLoop 5121 0x0E p.iin.toNat) h (.powerLimitSet p) 0 []))
    ∧ (∀ l, Ready s dt h (.thermalLimitsSet l) → l.length = 7 →
      (∀ x ∈ indexed l, x.2 = 0xFFFF ∨ (80 ≤ x.2.toNat ∧ x.2.toNat ≤ setpointMax x.1)) →
      exec (.thermalLimitsSet dt h l) s = .next (f.ended
        (forEach (indexed l) f (fun g x => if x.2 = 0xFFFF then g else g.writeLoop (5122 + x.1) 0x0E x.2.toNat))
        h (.thermalLimitsSet l) 0 []))

/-- STATE_LIST lists classes or the objects of one, EVENT_READ takes records from its session's position on and moves it (R731),
STATE_READ reads objects at once where it need not wait (R727); their output is in the F3 window. -/
def Obligations.ReadCommands : Prop :=
  ∀ (s : State) (dt : Nat) (h : CmdHdr) (f : State), f = s.taken dt h →
    (∀ p x, Ready s dt h (.stateRead p) → classOf p.cls.toNat = some x → x.bytes = false → 0 < p.count.toNat →
      p.count.toNat * x.size ≤ 32768 → p.index.toNat + p.count.toNat ≤ x.count → (p.clear = true → x.w1c ≠ []) →
      (∀ j, j < p.count.toNat → f.readDenied h x p.cls.toNat (p.index.toNat + j) 0 0 = none) → f.readWait p = none →
      f.fits h.session true (f.readObjects p.cls.toNat p.clear p.index.toNat p.count.toNat).1.length = true → x.vis ≠ .data →
      exec (.stateRead dt h p) s = .next (f.endedF3 (f.readObjects p.cls.toNat p.clear p.index.toNat p.count.toNat).2 h
        (.stateRead p) 0 (f.readObjects p.cls.toNat p.clear p.index.toNat p.count.toNat).1))
    ∧ (∀ p out, Ready s dt h (.stateList p) → p.max.toNat ≤ 8192 →
      (p.cls = 0xFFFF → out = classList.flatMap classRow) →
      (p.cls ≠ 0xFFFF → ∃ x, classOf p.cls.toNat = some x
        ∧ out = (f.listIndices p.cls.toNat x p.start.toNat p.max.toNat).flatMap (fun i => toLe 4 i)) →
      f.fits h.session true out.length = true →
      exec (.stateList dt h p) s = .next (f.endedF3 f h (.stateList p) 0 out))
    ∧ (∀ m t r, Ready s dt h (.eventRead m) → 0 < m.toNat → m.toNat ≤ 1024 → t = sessionTenant h →
      r = takeRecords t m.toNat (f.tenant t).pos (f.mbx.since (f.tenant t).pos) →
      f.fits h.session true (r.1.flatMap (fun y => y.2.bytes y.1)).length = true →
      exec (.eventRead dt h m) s = .next (f.endedF3 (f.modTenant t (fun y => { y with pos := r.2, lost := 0 })) h (.eventRead m)
        (fld 0 32 r.1.length + fld 32 32 ((f.mbx.since r.2).filter (fun y => y.2.readable t)).length
          + fld 64 32 (f.tenant t).lost) (r.1.flatMap (fun y => y.2.bytes y.1))))

/-- FAULT_INJECT puts its fault in force (R867); SELFTEST_RUN starts, a memory march with its bank given to the walker (R699);
FW_LOAD_BEGIN leaves LOADING with the registers MR cleared (R624, R711), FW_LOAD_BLOCK appends to the image (R712), and
FW_LOAD_END on a whole image with a right header verifies it (R713). -/
def Obligations.DiagnosticAndFirmwareCommands : Prop :=
  ∀ (s : State) (dt : Nat) (h : CmdHdr) (f : State), f = s.taken dt h →
    (∀ p, Ready s dt h (.faultInject p) → 1 ≤ p.kind.toNat → p.kind.toNat ≤ 7 → p.target.toNat < injTargets p.kind.toNat →
      (p.kind = 3 → ((f.slab (p.target.toNat / 272)).columnOf (p.target.toNat % 272)).isSome = true) →
      exec (.faultInject dt h p) s = .next (f.ended
        (if p.kind = 2 ∨ p.kind = 5 ∨ p.kind = 6 then
          (if p.holdUs = 0 then f else f.inject p.kind.toNat p.target.toNat (some p.holdUs.toNat))
        else f.inject p.kind.toNat p.target.toNat none) h (.faultInject p) 0 []))
    ∧ (∀ p, Ready s dt h (.selftestRun p) → p.test = 1 → p.target.toNat < 34816 → (f.bank p.target.toNat).owner ≠ 5 →
      (f.bank p.target.toNat).pending = none → f.bankUp p.target.toNat = true →
      exec (.selftestRun dt h p) s = .next (f.staying (f.modBank p.target.toNat (fun b => { b with owner := 5 })) h (.selftestRun p)
        ((f.bank p.target.toNat).owner + 8 * (f.bank p.target.toNat).ownerCore)))
    ∧ (∀ p, Ready s dt h (.selftestRun p) → 2 ≤ p.test.toNat → p.test.toNat ≤ 4 → p.target.toNat < selftestUnits p.test.toNat →
      (p.test = 3 → f.lasersOn = true) → (p.test ≠ 3 → f.convertersOn = true) →
      exec (.selftestRun dt h p) s = .next (f.staying f h (.selftestRun p) 0))
    ∧ (∀ n u, Ready s dt h (.fwLoadBegin n) → 1024 ≤ n.toNat → n.toNat ≤ 4194304 → n.toNat % 512 = 0 → f.trust.identity.isSome = true →
      u = (((if f.mbx.fw = .running then f.devReset else f.dropKeys 4).modTrust (fun t =>
        { t with mrFw := 0, mrCfg := 0, mrPlan := [], mrModel := [] })).modMbx (fun m =>
          { m with image := [], imageLen := n.toNat })).setFw .loading →
      exec (.fwLoadBegin dt h n) s = .next (f.ended u h (.fwLoadBegin n) 0 [])
        ∧ u.mbx.fw = .loading ∧ u.mbx.image = [] ∧ u.mbx.imageLen = n.toNat ∧ u.trust.mrFw = 0 ∧ u.trust.mrCfg = 0)
    ∧ (∀ o, Ready s dt h (.fwLoadBlock o) → h.bulk.length ≤ 262144 → f.mbx.fw = .loading →
      o.toNat + h.bulk.length ≤ f.mbx.imageLen → o.toNat = f.mbx.image.length →
      exec (.fwLoadBlock dt h o) s = .next (f.ended (f.modMbx (fun m => { m with image := m.image ++ h.bulk })) h (.fwLoadBlock o) 0 []))
    ∧ (Ready s dt h .fwLoadEnd → f.mbx.fw = .loading → f.mbx.image.length = f.mbx.imageLen → imageHeaderOk f.mbx = true →
      exec (.fwLoadEnd dt h) s = .next (f.staying (f.setFw .verifying) h .fwLoadEnd 0))

/-- The domain commands: DOMAIN_JOIN installs members with their CAs and partner entries (R599, R708), DOMAIN_LEAVE detaches
entries 1 to 256 and forgets the domain, DOMAIN_RELAY sends the command and its bulk to the worker and waits (R603), and
ROLE_SET sets the role, a manager that was none announcing itself to its members (R602, R608). -/
def Obligations.DomainCommands : Prop :=
  ∀ (s : State) (dt : Nat) (h : CmdHdr) (f : State), f = s.taken dt h →
    (Ready s dt h .domainJoin → leAt h.bulk 4 2 ≤ 256 → h.bulk.length = 160 + 64 * leAt h.bulk 4 2 →
      (∀ r ∈ memberRecords (leAt h.bulk 4 2) (h.bulk.drop 160), 16 ≤ leAt r 2 2
        ∧ ((f.ca (leAt r 2 2 % 4096)).cak = none ∨ (f.ca (leAt r 2 2 % 4096)).tenant = 0)) →
      exec (.domainJoin dt h) s = .next (f.ended ((f.join h.bulk).extendCfg h .domainJoin) h .domainJoin 0 []))
    ∧ (Ready s dt h .domainLeave →
      exec (.domainLeave dt h) s = .next (f.ended
        (((forEach ((f.fabric.partners.map (fun x => x.1)).filter (fun i => decide (1 ≤ i) && decide (i ≤ 256))) f
          (fun g i => g.detach i)).modDomain (fun _ => Domain.init)).extendCfg h .domainLeave) h .domainLeave 0 []))
    ∧ (∀ w tag u, Ready s dt h (.domainRelay w) → relayedLen h.bulk ≤ h.bulk.length → f.mbx.manager = true →
      (∃ m ∈ f.fabric.domain.members, m.index = w.toNat) → f.fabric.domain.outstanding w.toNat < 8 →
      tag = h.id.toNat % 65536 →
      u = (blocks 8256 (h.bulk.drop (relayedLen h.bulk))).foldl
        (fun (g : State) x => g.sendTo (1 + w.toNat) jtBulk tag x.1 x.2.1 x.2.2)
        (f.sendTo (1 + w.toNat) jtCmd tag 0 false (h.bulk.take (relayedLen h.bulk))) →
      exec (.domainRelay dt h w) s = .next (f.staying
        (u.takeFree.modDomain (fun d => { d with relays := d.relays ++
          [{ worker := w.toNat, tag := tag, hdr := some h, cmd := h.bulk, data := [], cpl := none, since := u.now, limit := relayLimit h.bulk u.freeNat }] }))
        h (.domainRelay w) 0))
    ∧ (∀ m, Ready s dt h (.roleSet m) → (m = true → ∀ x ∈ f.time.sources, x.kind ≠ .relay) →
      (m = true → f.mbx.manager = false → f.managerPageTaken = false) →
      exec (.roleSet dt h m) s = .next (f.ended
        ((if m = true ∧ f.mbx.manager = false ∧ f.fabric.domain.joined = true then
            forEach f.fabric.domain.members
              ((f.modMbx (fun x => { x with manager := m })).modDomain (fun d => { d with managerIndex := d.index }))
              (fun g y => g.sendTo (1 + y.index) jtTakeover 0 0 false [])
          else f.modMbx (fun x => { x with manager := m })).extendCfg h (.roleSet m)) h (.roleSet m) 0 []))

/-! ## The mailbox's ports and FIFOs -/

/-- R676 to R679: a push of 64 bytes on a ring with room joins its commands with PUSH_RESULT 0 and counts; a push on a full ring is not
kept, answers BUSY and sets BUSY of RING_STATUS with its event counter; one of another length is not kept and answers INVALID_LENGTH, 3. A sealed push of 96 bytes
that the host sealed under its key on channel 0 with the next SEQ (R630 to R632) joins with its plaintext; one that does not
authenticate answers 0xE and is counted as BAD_TAG (R633, R679). -/
def Obligations.PortPushes : Prop :=
  ∀ (s : State) (dt : Nat) (r : Ring) (u : State), u = s.elapse dt → s.hostLink = true →
    (∀ bytes, bytes.length = 64 → (s.ring (ringNo r)).free ≠ 0 →
      ∃ t, exec (.cmdPortPush dt r bytes) s = .next t ∧ Books (ringNo r) u t
        ∧ t.ring (ringNo r) = { s.ring (ringNo r) with
            pushResult := 0, accepted := (s.ring (ringNo r)).accepted + 1
            cmds := (s.ring (ringNo r)).cmds ++ [{ bytes := bytes, session := none, headAt := u.now, relay := none, direct := false, bulk := [] }] })
    ∧ (∀ bytes, bytes.length = 64 → (s.ring (ringNo r)).free = 0 →
      exec (.cmdPortPush dt r bytes) s = .next (u.modRing (ringNo r) (fun y => { y with pushResult := 1, status := y.status.hit 22 })))
    ∧ (∀ bytes, bytes.length ≠ 64 →
      exec (.cmdPortPush dt r bytes) s = .next (u.modRing (ringNo r) (fun y => { y with pushResult := 3 })))
    ∧ (∀ bytes, bytes.length = 96 → (s.ring (ringNo r)).free = 0 →
      exec (.sealedPortPush dt r bytes) s = .next (u.modRing (ringNo r) (fun y => { y with pushResult := 1, status := y.status.hit 22 })))
    ∧ (∀ bytes, bytes.length ≠ 96 →
      exec (.sealedPortPush dt r bytes) s = .next (u.modRing (ringNo r) (fun y => { y with pushResult := 3 })))
    ∧ (∀ plain n x q, plain.length = 64 → (s.ring (ringNo r)).free ≠ 0 → n < 16 → (s.tenant n).session = some x →
      tabGet 0 x.seq 0 = q → q < 2 ^ 64 →
      ∃ t, exec (.sealedPortPush dt r (envelope x.keyIn n 0 q plain)) s = .next t ∧ Books (ringNo r) u t
        ∧ t.ring (ringNo r) = { s.ring (ringNo r) with
            pushResult := 0, accepted := (s.ring (ringNo r)).accepted + 1
            cmds := (s.ring (ringNo r)).cmds ++ [{ bytes := plain, session := some (Fin.ofNat 16 n), headAt := u.now, relay := none, direct := false, bulk := [] }] })
    ∧ (∀ bytes n, bytes.length = 96 → (s.ring (ringNo r)).free ≠ 0 → n = envSession bytes → envLength bytes ≤ 64 →
      u.openEnv n 0 bytes = none →
      ∃ t, exec (.sealedPortPush dt r bytes) s = .next t ∧ (t.ring (ringNo r)).pushResult = 0xE
        ∧ (t.ring (ringNo r)).cmds = (s.ring (ringNo r)).cmds ∧ (t.tenant n).badTag = (s.tenant n).badTag + 1)

/-- R681, R687, R691: a pop takes the oldest completion of its ring and yields its 64 bytes; bytes written join the bulk-in FIFO as far as
it has room, and those beyond set BIN_OVF, bit 8 of INT_STATUS; a read takes the first bytes of the bulk-out FIFO. -/
def Obligations.FifoAccess : Prop :=
  ∀ (s : State) (dt : Nat) (u : State), u = s.elapse dt → s.hostLink = true →
    (∀ r c rest, (s.ring (ringNo r)).cpls = c :: rest →
      exec (.cplPortPop dt r) s = .next { u.modRing (ringNo r) (fun y => { y with cpls := rest }) with
        sdio := { u.sdio with read := c.wire } })
    ∧ (∀ bytes, exec (.bulkInWrite dt bytes) s = .next (u.modMbx (fun m => { m with
        binFifo := m.binFifo ++ bytes.take (524288 - m.binFifo.length)
        int := if 524288 - m.binFifo.length < bytes.length then m.int.hit 8 else m.int })))
    ∧ (∀ n, exec (.bulkOutRead dt n) s = .next { u.modMbx (fun m => { m with boutFifo := m.boutFifo.drop n }) with
        sdio := { u.sdio with read := u.mbx.boutFifo.take n } })

/-- R8, R674: a write of 1 to a bit of INT_STATUS clears it, INT_ENABLE and F3_RPTR take what is written, a write of 1 to bit 22
of a RING_STATUS clears it, and a write to any other address has no effect. A pop of an empty ring takes nothing and yields 0xFF (R681; the
one byte is the model's, log entry 23). -/
def Obligations.RegisterWrites : Prop :=
  ∀ (s : State) (dt : Nat) (a : BitVec 17) (v : Word) (u : State), u = s.elapse dt →
    (s.hostLink = true → a = 0x08 → exec (.registerWrite dt a v) s = .next (u.modMbx (fun m => { m with int := m.int.clear (BitVec.ofNat 64 (v.toNat % 1024)) })))
    ∧ (s.hostLink = true → a = 0x0C → exec (.registerWrite dt a v) s = .next (u.modMbx (fun m => { m with intEnable := BitVec.ofNat 32 (v.toNat % 1024) })))
    ∧ (∀ r : Fin 4, s.hostLink = true → a.toNat = 0x10 + 4 * r.val → exec (.registerWrite dt a v) s = .next (u.modRing r.val (fun y =>
        { y with status := y.status.clear (BitVec.ofNat 64 (v.toNat &&& 0x400000)) })))
    ∧ (s.hostLink = true → a = 0x2C → exec (.registerWrite dt a v) s = .next (u.modMbx (fun m => { m with rptr := v.toNat % 65536 })))
    ∧ (a.toNat ∉ [0x08, 0x0C, 0x10, 0x14, 0x18, 0x1C, 0x2C] → exec (.registerWrite dt a v) s = .next u)
    ∧ (s.hostLink = false → exec (.registerWrite dt a v) s = .next u)
    ∧ (∀ r, s.hostLink = true → (s.ring (ringNo r)).cpls = [] → exec (.cplPortPop dt r) s = .next { u with sdio := { u.sdio with read := [0xFF] } })

/-- R682 to R690, R707: URG is served before the other rings; a command in execution completes with the answer its end gives;
a BLK head whose bulk stays short for 100 ms completes with TIMEOUT, unless a check that comes first in R696 gives its code, and the
FIFO is emptied; a PAGE_LOAD on whose page nothing
has landed for 1 s completes with TIMEOUT. A session opening that decrypts with the next SERIAL ends with a session under the
keys of R630, and a derivation ends with the identity, or DENIED where the fingerprint of R616 is not the record's (R617). -/
def Obligations.CommandsStartAndEnd : Prop :=
  ∀ (s : State) (dt : Nat) (u : State), u = s.elapse dt → s.mailboxOn = true → s.mbx.fw ≠ .restarting →
    (∀ a rest t, (s.ring 0).exec = none → (s.ring 0).cmds = a :: rest → u.startHead 0 a [] = some t →
      exec (.commandStart dt) s = .next t)
    ∧ (∀ r si x a v, (s.ring (ringNo r)).exec = some x → x.ends si u = some a → u.answerFits x.relay x.hdr a = true →
      v = a.s.modRing (ringNo r) (fun y => { y with exec := none, cmds := headNow a.s.now y.cmds }) →
      exec (.commandComplete dt r si) s = .next ((u.modRing (ringNo r) (fun y =>
        { y with exec := none, cmds := headNow u.now y.cmds })).deliver x.relay x.hdr x.cmd { a with s := v }))
    ∧ (∀ a rest, (s.ring 2).exec = none → (s.ring 2).cmds = a :: rest → a.direct = false → a.session = none → a.relay = none →
      s.mbx.binFifo.length < a.bulkLen → a.headAt + 100000000 ≤ u.now →
      (∀ e, e = u.headCode a (stTimeout, 0) →
        exec (.bulkTimeout dt) s = .next ((u.completeHead 2 a (leAt a.bytes 0 2) e).modMbx (fun m => { m with binFifo := [] })))
      ∧ (∀ c, u.serves .blk (leAt a.bytes 0 2) = true → checkBytes .blk a.bytes = .ok c → cmdReserved c = none →
        u.permits false { ring := .blk, id := BitVec.ofNat 32 (leAt a.bytes 4 4), session := none, bulk := [] } c = true →
        u.headCode a (stTimeout, 0) = (stTimeout, 0)))
    ∧ (∀ r x p, s.mbx.fw = .running →
      s.ringExecuting (fun c => match c with | .pageLoad _ => true | _ => false) = some r → (s.ring r).exec = some x →
      x.cmd = .pageLoad p → x.since + 1000000000 ≤ u.now →
      exec (.pageLoadTimeout dt) s = .next (u.completeRing r (Answer.errWith u.dropLoad stTimeout)))
    ∧ (∀ (x : Exec) (t : BitVec 4) (p : List Byte) (si : Silicon) (k : Nat), x.cmd = .devSessionOpen t → si.plain = some p → p.length = 40 → leAt p 0x20 4 = t.toNat →
      leAt p 0x24 4 = k → s.trust.nextSerial = k → (t ≠ 0 → si.ok = true) →
      ∃ a, x.ends si u = some a ∧ a.status = 0 ∧ a.s.trust.nextSerial = (k + 1) % 2 ^ 32
        ∧ (a.s.tenant t.toNat).session = some { Session.init with
            keyIn := sessionKey s.trust.akFp 1 (p.take 32) k t.toNat
            keyOut := sessionKey s.trust.akFp 2 (p.take 32) k t.toNat })
    ∧ (∀ (x : Exec) (si : Silicon) (f : BitVec 256), x.cmd = .devIdentify → s.trust.puf.isSome = true →
      f = bytesToBv 256 ((x.hdr.bulk.drop 8).take 32) →
      ∃ a, x.ends si u = some a
        ∧ (if si.ok = true ∧ rsaFingerprint si.key1 = f then
            a.status = 0 ∧ a.s.trust.identity = some { fingerprint := f, modulus := si.key1, serial := BitVec.ofNat 64 (leAt x.hdr.bulk 0x28 8) }
          else a.status = stDenied ∧ a.s.trust.identity = s.trust.identity))

/-! ## The card interface, power and start-up -/

/-- R667, R668, R839: CMD5 grants S18A to a card at 3.3 V (and wakes a module in PS5, R751), CMD11 then goes to 1.8 V; the loss
of SD_VDD returns the CCCR, FBRs and signalling to reset and leaves rings, FIFOs, sessions and firmware; its return makes the
card answer again; CMD52 writes a byte of the CCCR or an FBR (R669). -/
def Obligations.CardInterface : Prop :=
  ∀ (s : State) (dt : Nat) (u : State), u = s.elapse dt →
    (∀ b, s.cardAnswers = true → s.power.pstate ≠ .ps5 →
      exec (.sdioCmd5 dt b) s = .next { u with sdio := { u.sdio with s18 := (b && !u.sdio.v18) || u.sdio.s18 } })
    ∧ (∀ b, s.cardAnswers = true → s.power.pstate = .ps5 → ∃ t, exec (.sdioCmd5 dt b) s = .next t ∧ t.power.boot = .sensors
        ∧ t.power.pstate = .ps0)
    ∧ (s.cardAnswers = true → s.sdio.s18 = true → s.power.pstate ≠ .ps5 →
      exec (.sdioCmd11 dt) s = .next { u with sdio := { u.sdio with v18 := true } })
    ∧ exec (.sdVddLoss dt) s = .next { u with sdio := { u.sdio with vdd := false, s18 := false, v18 := false, cccr := [] } }
    ∧ exec (.sdVddReturn dt) s = .next { u with sdio := { u.sdio with vdd := true } }
    ∧ (∀ a v, s.cardAnswers = true → s.sdio.ioReady = true →
      exec (.sdioCmd52 dt a v) s = .next { u with sdio := u.sdio.write a.toNat v })

/-- R733, R735, R736, R817 to R836: input power and the release of RESET_N start the module with its straps; the sensors pass below
90 degC, the reference, the boot ROM and the cartridges follow; a reset pulse of 2 us or more, and the loss of input power, take
every domain down: memory, clusters, firmware, trust state and fabric are as at reset, and the queue stays. An input out of range is
reported; an overcurrent trips the module with its cause (its SOURCE and SENSOR 0xFF are the model's, log entry 56). -/
def Obligations.StartAndReset : Prop :=
  ∀ (s : State) (dt : Nat) (u : State), u = s.elapse dt →
    (∀ role a, s.power.boot = .unpowered → exec (.powerUp dt role a) s = .next (
      if s.power.resetLow then u.modPower (fun p => { p with boot := .inReset })
      else (u.modPower (fun p => { p with boot := .sensors, rolePin := role, pmAddr := a, pointW := u.now + 15000000 })).modMbx (fun m =>
        { m with manager := role })))
    ∧ (∀ role a, s.power.boot = .inReset → exec (.resetRelease dt role a) s = .next
      ((u.modPower (fun p => { p with
        resetLow := false, boot := .sensors, rolePin := role, pmAddr := a, pointW := u.now + 15000000 })).modMbx (fun m => { m with manager := role })))
    ∧ (∀ temps, temps.length = 256 → s.power.boot = .sensors → u.stepDue → (∀ x ∈ temps, x < 360) →
      ∃ t, exec (.startupSensorRecheck dt temps) s = .next t ∧ t.power.boot = .refclk ∧ t.power.tripped = false)
    ∧ (∀ temps, temps.length = 256 → s.power.boot = .sensors → u.stepDue → s.power.tripped = true → (∀ x ∈ temps, x < 360) →
      ∃ t, exec (.wakeRecheck dt temps) s = .next t ∧ t.power.boot = .refclk ∧ t.power.tripped = false)
    ∧ (s.power.boot = .refclk → ∃ t, exec (.refclkQualified dt) s = .next t ∧ t.power.boot = .rails ∧ t.time.timeNs = 0
      ∧ t.power.refAt = u.now)
    ∧ (s.power.boot = .rails → s.power.refAt + 22000000 ≤ u.now → ∃ t, exec (.bootRomStart dt) s = .next t ∧ t.power.boot = .serving
      ∧ t.sdio.ioReady = true ∧ t.mem = s.mem
      ∧ ∀ k : CartId, (s.cart k).present = true → (s.cart k).intlk = true → (s.cart k).limited = false →
          (s.cart k).closedAt + 100000000 ≤ u.now → s.lasersOn = true → (t.cart k).powered = true ∧ (t.cart k).starting = true)
    ∧ (∀ (k : CartId) p1 p2 w, u.mayPower k = true → (s.cart k).lit = false → (s.cart k).probedAt = none →
      ((s.cart k).powered = true → (s.cart k).starting = true) → u.lightingTime k (p1 && p2) = true →
      ∃ t, exec (.startupLighting dt k p1 p2 w) s = .next t ∧ (t.cart k).lit = (p1 && p2) ∧ (t.cart k).powered = true)
    ∧ (∀ n, 2000 ≤ n → s.power.boot ≠ .unpowered → exec (.resetAssert dt n) s = .next
        ((u.modPower (fun p => { p with resetLow := true })).powerLoss .inReset true)
      ∧ (u.powerLoss .inReset true).power.trip = s.power.trip)
    ∧ exec (.inputPowerLoss dt) s = .next (u.powerLoss .unpowered false)
    ∧ (∀ d : Fin 3, s.power.boot = .serving → s.power.pstate ≠ .ps5 →
      exec (.inputOutOfRange dt d) s = .next (u.powerEv 0xFF 7 0xFF 0 d.val false))
    ∧ (s.powered = true → s.power.tripped = false → ∃ t, exec (.inputOvercurrent dt) s = .next t ∧ t.power.tripped = true
      ∧ t.power.trip = some { overcurrent := true, die := 0xFF, sensor := 0xFF, reading := 0 } ∧ t.power.pstate = .ps5
      ∧ t.pmbus.alertN = false)
    ∧ (∀ b k, (u.powerLoss b k).mem = [] ∧ (u.powerLoss b k).clusters = [] ∧ (u.powerLoss b k).mbx.fw = .waitImage
      ∧ (u.powerLoss b k).power.boot = b ∧ (u.powerLoss b k).trust = Trust.init ∧ (u.powerLoss b k).fabric = Fabric.init
      ∧ (u.powerLoss b k).pending = s.pending)

/-- R762, R763: at a step of the throttle TL falls by 50 W, to 400 W at the least, while a die is at or above 95 degC, rises by 50 W, to
1,400 W at the most, once all are below 90 degC, and is unchanged otherwise; the setpoint in force of the PWR loop is the lower of TL and the
host's limit. -/
def Obligations.ThrottleStepMovesLimit : Prop :=
  ∀ (s : State) (dt : Nat) (u : State), u = s.elapse dt → u.throttleDue = true → ∃ t, exec (.throttleStep dt) s = .next t
    ∧ ((∃ d, d < 4 ∧ 380 ≤ u.dieTemp d) → t.power.tl = max (s.power.tl - 500) 4000)
    ∧ ((∀ d, d < 4 → u.dieTemp d < 360) → t.power.tl = min (s.power.tl + 500) 14000)
    ∧ ((∀ d, d < 4 → u.dieTemp d < 380) → (∃ d, d < 4 ∧ 360 ≤ u.dieTemp d) → t.power.tl = s.power.tl)
    ∧ (t.loop 5120).coef = coPut (s.loop 5120).coef 0x0E (unsigned 16 (min s.power.hostLimit t.power.tl)) ∧ t.mem = s.mem

/-- R738 to R742: a powered module answers each command of the PMBus table with its bytes: limits and readings in LINEAR11,
status bits, identification; CLEAR_FAULTS clears the bits whose cause has ended, and the last of them releases ALERT_N; a
command that is rejected sets bit 7 of STATUS_CML and asserts it. -/
def Obligations.PmbusAnswers : Prop :=
  ∀ (s : State) (dt : Nat) (u : State), u = s.elapse dt → s.powered = true →
    exec (.capability dt) s = .next { u with pmbus := { u.pmbus with reply := [0xB0] } }
    ∧ exec (.otFaultLimit dt) s = .next { u with pmbus := { u.pmbus with reply := toLe 2 (linear11 115 1) } }
    ∧ exec (.otWarnLimit dt) s = .next { u with pmbus := { u.pmbus with reply := toLe 2 (linear11 95 1) } }
    ∧ exec (.vinOvFaultLimit dt) s = .next { u with pmbus := { u.pmbus with reply := toLe 2 (linear11 60 1) } }
    ∧ exec (.vinUvFaultLimit dt) s = .next { u with pmbus := { u.pmbus with reply := toLe 2 (linear11 36 1) } }
    ∧ exec (.iinOcFaultLimit dt) s = .next { u with pmbus := { u.pmbus with reply := toLe 2 (linear11 45 1) } }
    ∧ exec (.statusByte dt) s = .next { u with pmbus := { u.pmbus with reply := toLe 1 u.statusWord } }
    ∧ exec (.statusWord dt) s = .next { u with pmbus := { u.pmbus with reply := toLe 2 u.statusWord } }
    ∧ exec (.statusInput dt) s = .next { u with pmbus := { u.pmbus with reply := [u.pmbus.input] } }
    ∧ exec (.statusTemperature dt) s = .next { u with pmbus := { u.pmbus with reply := [u.pmbus.temperature] } }
    ∧ exec (.statusCml dt) s = .next { u with pmbus := { u.pmbus with reply := [u.pmbus.cml] } }
    ∧ exec (.readVin dt) s = .next { u with pmbus := { u.pmbus with reply := toLe 2 (u.pmbus.elec.linear 0 100) } }
    ∧ exec (.readIin dt) s = .next { u with pmbus := { u.pmbus with reply := toLe 2 (u.pmbus.elec.linear 1 100) } }
    ∧ exec (.readPin dt) s = .next { u with pmbus := { u.pmbus with reply := toLe 2 (u.pmbus.elec.linear 2 10) } }
    ∧ exec (.readTemperature1 dt) s = .next { u with pmbus := { u.pmbus with reply := toLe 2 (u.pmbus.temps.linear 0 4) } }
    ∧ exec (.readTemperature2 dt) s = .next { u with pmbus := { u.pmbus with reply := toLe 2 (u.pmbus.temps.linear 1 4) } }
    ∧ exec (.readTemperature3 dt) s = .next { u with pmbus := { u.pmbus with reply := toLe 2 (u.pmbus.temps.linear 2 4) } }
    ∧ exec (.pmbusRevision dt) s = .next { u with pmbus := { u.pmbus with reply := [0x33] } }
    ∧ exec (.mfrId dt) s = .next { u with pmbus := { u.pmbus with reply := blockReply (ascii "Boelos") } }
    ∧ exec (.mfrModel dt) s = .next { u with pmbus := { u.pmbus with reply := blockReply (ascii "PF7240-B1") } }
    ∧ exec (.mfrSerial dt) s = .next { u with pmbus := { u.pmbus with reply := blockReply Config.serialText } }
    ∧ (∃ t, exec (.clearFaults dt) s = .next t ∧ t = { u with pmbus := t.pmbus } ∧ t.pmbus.cml = 0
      ∧ t.pmbus.input = u.pmbus.input &&& u.inputCause ∧ t.pmbus.temperature = u.pmbus.temperature &&& u.tempCause
      ∧ (t.pmbus.alertN = true ↔ t.pmbus.input = 0 ∧ t.pmbus.temperature = 0))
    ∧ (∀ c, c ≠ 0x03 → exec (.pmbusWriteRejected dt c true) s = .next { u with
        pmbus := { u.pmbus with cml := u.pmbus.cml ||| 0x80, reply := [], alertN := false } })
    ∧ (∀ c : Byte, c.toNat ∉ pmCommands → exec (.pmbusWriteRejected dt c false) s = .next { u with
        pmbus := { u.pmbus with cml := u.pmbus.cml ||| 0x80, reply := [], alertN := false } })

/-- R845 to R849: every instruction of the test access port completes in every state. EXTEST and CLAMP take effect in WAIT_IMAGE, where
EXTEST captures the contacts, and act as BYPASS in any other state; SAMPLE/PRELOAD captures and preloads, IDCODE, HIGHZ and BYPASS are
selected, test-logic reset selects IDCODE; what ends an EXTEST or CLAMP in effect starts the module again, and nothing else touches the
mission; a port without power, or in reset, changes nothing. -/
def Obligations.TestAccessPort : Prop :=
  ∀ (s : State) (dt : Nat) (u v : State) (cells preload : List Bool), u = s.elapse dt →
    v = (if u.jtag.inEffect then u.restart else u) →
    (u.powered = false →
      exec (.extest dt cells) s = .next u ∧ exec (.samplePreload dt cells preload) s = .next u ∧ exec (.idcode dt) s = .next u
      ∧ exec (.clamp dt) s = .next u ∧ exec (.highz dt) s = .next u ∧ exec (.bypass dt) s = .next u
      ∧ exec (.jtagTestExit dt) s = .next u)
    ∧ (u.powered = true →
      (u.mbx.fw = .waitImage ∧ u.power.boot = .serving ∧ u.power.pstate ≠ .ps5 →
        exec (.extest dt cells) s = .next { u with jtag := { u.jtag with instr := .extest, inEffect := true, capture := cells } }
        ∧ exec (.clamp dt) s = .next { u with jtag := { u.jtag with instr := .clamp, inEffect := true } })
      ∧ (¬ (u.mbx.fw = .waitImage ∧ u.power.boot = .serving ∧ u.power.pstate ≠ .ps5) →
        exec (.extest dt cells) s = .next { v with jtag := { u.jtag with instr := .extest, inEffect := false } }
        ∧ exec (.clamp dt) s = .next { v with jtag := { u.jtag with instr := .clamp, inEffect := false } })
      ∧ exec (.samplePreload dt cells preload) s
        = .next { v with jtag := { u.jtag with instr := .sample, inEffect := false, capture := cells, preload := preload } }
      ∧ exec (.idcode dt) s = .next { v with jtag := { u.jtag with instr := .idcode, inEffect := false } }
      ∧ exec (.highz dt) s = .next { v with jtag := { u.jtag with instr := .highz, inEffect := false } }
      ∧ exec (.bypass dt) s = .next { v with jtag := { u.jtag with instr := .bypass, inEffect := false } }
      ∧ exec (.jtagTestExit dt) s = .next { v with jtag := { u.jtag with instr := .idcode, inEffect := false } })

/-! ## Tick sources, the relay and boundaries -/

/-- R52, R55, R58 to R60: an edge of TICK_IN within 1 us of the one expected adds to its run, and where TICK_IN is the source in use
moves TIME_NS to the boundary 100 ns after it; the fifth good one without PPS_IN
qualifies it, and the first since TICK_SOURCE_SET fixes frame 0; an expected edge that is 1 us late disqualifies it, and with no
other source qualified the module enters HOLDOVER; an edge of PPS_IN is kept with the one before. -/
def Obligations.TickInAndPps : Prop :=
  ∀ (s : State) (dt : Nat) (u : State), u = s.elapse dt → s.disciplined = true →
    (∀ x e, s.time.sources.find? (fun y => y.kind == .tickIn) = some x → x.last = some e → x.qualified = true →
      inWindow (periodNs s.time.period) e u.now = true →
      exec (.tickInEdge dt) s = .next ((u.modSources (fun y =>
        if y.kind = .tickIn then { y with run := x.run + 1, last := some u.now } else y)).followEdge))
    ∧ (∀ x e, s.time.sources.find? (fun y => y.kind == .tickIn) = some x → x.last = some e → x.qualified = false → 3 ≤ x.run →
      inWindow (periodNs s.time.period) e u.now = true → u.ppsPresent = false →
      ∃ t, exec (.tickInEdge dt) s = .next t ∧ t = { u with time := { u.time with sources := t.time.sources, frame0 := true } }
        ∧ ∀ y ∈ t.time.sources, y.kind = .tickIn → y.qualified = true ∧ y.last = some u.now
          ∧ (s.time.frame0 = false → y.zero = some u.now))
    ∧ (∀ x e, s.time.sources.find? (fun y => y.kind == .tickIn) = some x → x.last = some e → e + periodNs s.time.period + 1000 ≤ u.now →
      ∃ t, exec (.tickInEdgeLate dt) s = .next t ∧ (∀ y ∈ t.time.sources, y.kind = .tickIn → y.qualified = false)
        ∧ (s.time.srcState = .locked → (∀ y ∈ s.time.sources, y.kind ≠ .tickIn → y.qualified = false) → t.time.srcState = .holdover))
    ∧ ((∀ y ∈ s.time.sources, y.kind ≠ .tickIn) →
      exec (.ppsInEdge dt) s = .next (u.modTime (fun t => { t with pps := u.now :: t.pps.take 1 })))

/-- R51, R549, R561 to R563: a PTP frame of the domain that passes MACsec under the port's link CA is taken: of two masters the better one
announced stays; with SyncE the sixteenth Sync interval of that master within 100 ns qualifies PTP; one beyond 1 us, or
the loss of Announce, disqualifies it; the SyncE lock and the quality level are kept for the port. -/
def Obligations.PtpAndSyncE : Prop :=
  ∀ (s : State) (dt : Nat) (p : PortId) (u : State), u = s.elapse dt → s.disciplined = true →
    (∀ (h : PtpHdr) x, (s.port p).up = true → u.rxFault p h.prot = none → h.domain.toNat = s.time.ptpDomain →
      x ∈ s.time.sources → x.kind = .ptp → x.port = p.val → x.dst = h.peer →
      (∀ (m : PtpAnnounce) ofs, (s.port p).master = some m → -100 ≤ ofs → ofs ≤ 100 → (s.port p).synced = true → 15 ≤ x.run →
        ∃ t, exec (.ptpFrame dt p h (.sync m.identity ofs)) s = .next t ∧ (t.port p).ptpLock = true
          ∧ (∃ y ∈ t.time.sources, y.kind = .ptp ∧ y.port = p.val ∧ y.qualified = true)
          ∧ t = { u with time := { u.time with sources := t.time.sources }, fabric := t.fabric, trust := t.trust, free := t.free })
      ∧ (∀ (m : PtpAnnounce) ofs, (s.port p).master = some m → (ofs < -1000 ∨ 1000 < ofs) →
        ∃ t, exec (.ptpFrame dt p h (.sync m.identity ofs)) s = .next t ∧ (t.port p).ptpLock = false
          ∧ ∀ y ∈ t.time.sources, y.kind = .ptp → y.port = p.val → y.qualified = false)
      ∧ (∀ a : PtpAnnounce, ∃ t, exec (.ptpFrame dt p h (.announce a)) s = .next t ∧ t.time = u.time
        ∧ ((s.port p).master = none → (t.port p).master = some a)
        ∧ (∀ m, (s.port p).master = some m → m.identity ≠ a.identity →
            (t.port p).master = some (if ranksBefore (ptpRank a) (ptpRank m) then a else m))))
    ∧ (∃ t, exec (.ptpAnnounceTimeout dt p) s = .next t ∧ (t.port p).ptpLock = false ∧ (t.port p).master = none
        ∧ ∀ y ∈ t.time.sources, y.kind = .ptp → y.port = p.val → y.qualified = false)
    ∧ (∀ b, ∃ t, exec (.synceLock dt p b) s = .next t ∧ (t.port p).synceLock = b
        ∧ t = { u with time := { u.time with sources := t.time.sources }, fabric := { u.fabric with ports := t.fabric.ports } })
    ∧ (∀ b, ∃ t, exec (.esmcFrame dt p b) s = .next t ∧ (t.port p).dnu = b
        ∧ t = { u with time := { u.time with sources := t.time.sources }, fabric := { u.fabric with ports := t.fabric.ports } })

/-- R54, R56, R57: a change to a PTP, SyncE or relay source makes it the one in use; a phase of at most 1 us is slewed, a larger one
moves TIME_NS at once and the tick in progress keeps its FRAME and TICK numbers. -/
def Obligations.SourceChanges : Prop :=
  ∀ (s : State) (dt : Nat) (phase : Int) (i : Nat) (x : TickSource) (u : State), u = s.elapse dt → s.disciplined = true →
    s.time.srcState ≠ .held → s.time.srcState ≠ .free → s.time.taiSeen = true → u.time.pick u.now = some i →
    s.time.sources[i]? = some x → x.kind ≠ .tickIn →
    (-1000 ≤ phase → phase ≤ 1000 → ∃ t, exec (.sourceChange dt phase) s = .next t
      ∧ EventsOnly (u.modTime (fun y => { y with srcState := .locked, srcIndex := i, tai := true, lostAt := none, slew := phase })) t)
    ∧ (phase < -1000 ∨ 1000 < phase → ∃ t, exec (.sourceChange dt phase) s = .next t ∧ t.time.slew = 0
      ∧ t.time.timeNs = BitVec.ofInt 64 ((u.timeNat : Int) - phase) ∧ t.time.srcState = .locked ∧ t.time.srcIndex = i
      ∧ t.time.frame = u.frameNow ∧ t.time.tick = u.tickNow ∧ t.time.sources = s.time.sources)

/-- R53, R63 to R67, R541, R549, R606: a manager announces the boundary at least 20 us away to every member, in a frame that leaves at once
where its port is up; a worker that takes a relay frame
of its manager at its own period, under their CA, counts it, keeps what it announces and answers, and where RELAY is its source brings
TIME_NS to the manager's by the path delay; a missed frame disqualifies RELAY; an answer clears the
count of those unanswered, and eight of them report the worker as lost; delay requests, every 1,024 ticks, and responses travel between the two. -/
def Obligations.TickRelay : Prop :=
  ∀ (s : State) (dt : Nat) (u : State), u = s.elapse dt →
    (s.domainOn = true → s.mbx.manager = true → s.jtag.inEffect = false →
      (∀ m ∈ s.fabric.domain.members, s.secured (1 + m.index) = true
        ∧ (s.ca (peCa (s.partner (1 + m.index)))).txPn + s.fabric.domain.members.length ≤ 2 ^ 62) →
      ∃ t, exec (.tickRelaySend dt) s = .next t
      ∧ t.fabric.relay.announced.head? = some
          { boundaryNs := BitVec.ofNat 64 u.relayBoundary, txNs := u.time.timeNs,
            frame := BitVec.ofNat 10 (u.time.frameAt u.relayBoundary), tick := BitVec.ofNat 8 (u.time.tickAt u.relayBoundary),
            period := BitVec.ofNat 8 u.time.period, armGen := u.armGenAt u.relayBoundary }
      ∧ t.fabric.sent.length + t.fabric.waiting.length
          = s.fabric.sent.length + s.fabric.waiting.length + s.fabric.domain.members.length
      ∧ ((∀ m ∈ s.fabric.domain.members, (s.port (s.replyPort (1 + m.index))).up = true) → t.fabric.waiting = s.fabric.waiting)
      ∧ t = { u with fabric := t.fabric, trust := t.trust, free := t.free })
    ∧ (∀ m pr p, s.domainOn = true → s.mbx.manager = false → m.toNat = s.fabric.domain.managerIndex → s.secured (1 + m.toNat) = true →
      peState (s.partner (1 + m.toNat)) = psActive → u.rxFault (peCa (s.partner (1 + m.toNat))) pr = none →
      (s.port (s.replyPort (1 + m.toNat))).up = true → s.jtag.inEffect = false → p.period.toNat = s.time.period →
      ∃ t f, exec (.relayFrame dt m pr p) s = .next t ∧ t.fabric.relay.valid = s.fabric.relay.valid + 1 ∧ t.fabric.relay.since = 0
        ∧ t.fabric.relay.announced.head? = some p ∧ t.fabric.sent = s.fabric.sent ++ [f] ∧ f.type = jtRelayAck
        ∧ t = { u with time := t.time, clusters := t.clusters, carts := t.carts, mbx := t.mbx, trust := t.trust, fabric := t.fabric, free := t.free }
        ∧ (u.time.selected = none → t.time = { u.time with sources := t.time.sources })
        ∧ (∀ x d, u.time.selected = some x → x.kind = .relay → s.time.slew = 0 →
            d = (p.txNs.toNat : Int) + s.fabric.relay.pathNs - u.timeNat → -1000 ≤ d → d ≤ 1000 →
            t.time.timeNs = BitVec.ofInt 64 ((u.timeNat : Int) + d)))
    ∧ (s.disciplined = true → s.mbx.manager = false → s.fabric.domain.joined = true → ∃ t, exec (.relayMiss dt) s = .next t
      ∧ t.fabric.relay.valid = 0 ∧ ∀ y ∈ t.time.sources, y.kind = .relay → y.qualified = false)
    ∧ (∀ w pr held, s.domainOn = true → s.mbx.manager = true → peState (s.partner (1 + w.toNat)) = psActive →
      u.rxFault (peCa (s.partner (1 + w.toNat))) pr = none → ∃ t, exec (.relayAck dt w pr held) s = .next t
      ∧ tabGet 0 t.fabric.relay.unanswered w.toNat = 0 ∧ t = { u with fabric := t.fabric, trust := t.trust })
    ∧ (∀ w, s.mbx.manager = true → 8 ≤ tabGet 0 s.fabric.relay.unanswered w.toNat → tabGet 0 s.fabric.relay.unanswered w.toNat < 2 ^ 32 →
      ∃ t, exec (.workerLost dt w) s = .next t
        ∧ EventsOnly (u.modRelay (fun r => { r with unanswered := tabPut r.unanswered w.toNat (tabGet 0 s.fabric.relay.unanswered w.toNat + 2 ^ 32) })) t)
    ∧ (s.domainOn = true → s.mbx.manager = false → s.fabric.relay.delayFrom ≤ s.time.tickCount →
      s.secured (1 + s.fabric.domain.managerIndex) = true →
      exec (.delayReqSend dt) s = .next ((u.sendTo (1 + s.fabric.domain.managerIndex) jtDelayReq 0 0 false []).modRelay (fun r =>
        { r with delayFrom := s.time.tickCount + 1024, asked := true })))
    ∧ (∀ m pr, s.domainOn = true → peState (s.partner (1 + m.toNat)) = psActive → u.rxFault (peCa (s.partner (1 + m.toNat))) pr = none →
      s.fabric.domain.members.any (fun x => decide (x.index = m.toNat)) = true →
      exec (.delayReq dt m pr) s = .next ((u.fromMember m.toNat 0 pr).1.sendTo (1 + m.toNat) jtDelayResp 0 0 false [])
        ∧ tabGet 0 ((u.fromMember m.toNat 0 pr).1.dyn (1 + m.toNat)).counters pcRx = tabGet 0 (s.dyn (1 + m.toNat)).counters pcRx + 1)
    ∧ (∀ m pr n, s.domainOn = true → s.mbx.manager = false → m.toNat = s.fabric.domain.managerIndex →
      peState (s.partner (1 + m.toNat)) = psActive → u.rxFault (peCa (s.partner (1 + m.toNat))) pr = none →
      s.fabric.relay.asked = true → ∃ t, exec (.delayResp dt m pr n) s = .next t
      ∧ t.fabric.relay = { s.fabric.relay with pathNs := n, asked := false } ∧ t = { u with fabric := t.fabric, trust := t.trust })

/-- R45 to R48, R56, R539: with no ROUTER_SEND under way a boundary begins the next tick: its start is the grid point, FRAME and TICK are
that point's, a slew absorbs at most 50 ns of the phase, what waits for the boundary then takes effect, and the ports keep their LACP. -/
def Obligations.BoundaryBegins : Prop :=
  ∀ (s : State) (dt : Nat) (u : State), u = s.elapse dt → u.boundaryDue = true →
    (s.time.inHk = true ∨ ∀ c ∈ s.listed, (s.cluster c).active = none ∨ (s.cluster c).batch = true) →
    ∃ v : State, exec (.tickBoundary dt) s = .next ((v.atBoundary u.boundaryPoint).lacpTick.fecTick) ∧ v.time.tickStart = u.boundaryPoint
      ∧ v.time.frame = u.time.frameAt u.boundaryPoint ∧ v.time.tick = u.time.tickAt u.boundaryPoint
      ∧ v.time.tickCount = s.time.tickCount + 1 ∧ v.time.inHk = false ∧ v.time.slew = u.time.slew - clampI (-50) 50 u.time.slew
      ∧ v.time.timeNs = BitVec.ofInt 64 ((u.timeNat : Int) - clampI (-50) 50 u.time.slew)
      ∧ (s.time.inHk = false → (∀ c ∈ s.listed, (s.cluster c).kindRuns kRouter = false) → v.clusters = s.clusters) ∧ v.mem = s.mem

/-- R76 to R82, R426, R474, R479, R650: at the boundary a bank takes the owner and the power that wait for it, scale table writes that
are due come in force, a rotated key generation becomes current, an arm that is due exchanges the two plan buffers of a cluster with no
plan, and an RT plan begins its next pass. -/
def Obligations.BoundaryEffects : Prop :=
  ∀ (s : State),
    (∀ k p, (s.bank k).pending = some p → p.notBefore ≤ s.now →
      ((s.applyBank k).bank k).pending = none ∧ ((s.applyBank k).bank k).power = p.power.getD (s.bank k).power
      ∧ (((s.applyBank k).bank k).owner, ((s.applyBank k).bank k).ownerCore) = p.owner.getD ((s.bank k).owner, (s.bank k).ownerCore)
      ∧ ∀ j, j ≠ k → (s.applyBank k).bank j = s.bank j)
    ∧ (∀ c, (∀ w ∈ (s.cluster c).scaleWrites, w.1 ≤ s.now → s.banksUp c 0xFF (0x100000 + (s.cluster c).scaleAt w.2.1) 16 = true) →
      (s.applyScales c).cluster c = { s.cluster c with
        scaleWrites := (s.cluster c).scaleWrites.filter (fun w => !decide (w.1 ≤ s.now))
        scales := ((s.cluster c).scaleWrites.filter (fun w => decide (w.1 ≤ s.now))).foldl (fun t w => tabSet Scale.init t w.2.1 w.2.2) (s.cluster c).scales })
    ∧ (∀ t n, (s.tenant t).rotate = some n → n ≤ s.now → t < 16 →
      ((s.rotateKey t).tenant t).genCur = ((s.tenant t).genCur + 1) % 256 ∧ ((s.rotateKey t).tenant t).rotate = none)
    ∧ (∀ b c n, (s.cluster c).armed = some (.next n 0) → n ≤ s.now → s.time.srcState ≠ .held → (s.cluster c).disarm = none →
      (s.cluster c).active = none → (s.cluster c).runs = [] → (s.cluster c).ahead = [] →
      ((s.sequenceCluster b c).cluster c).active = (s.cluster c).shadow ∧ ((s.sequenceCluster b c).cluster c).shadow = none
      ∧ ((s.sequenceCluster b c).cluster c).armed = none ∧ ((s.sequenceCluster b c).cluster c).pass = 0)
    ∧ (∀ b c, (s.cluster c).armed = none → (s.cluster c).disarm = none → (s.cluster c).active.isSome = true → (s.cluster c).batch = false →
      ((s.sequenceCluster b c).cluster c).pass = (s.cluster c).pass + 1 ∧ ((s.sequenceCluster b c).cluster c).passStart = s.now)

/-- R87 to R89, R483: the housekeeping slot begins 2.5 us before the end of a tick, once in a tick; in PS0 the test walker of every cluster
goes to its next region; where no plan is active, memory keeps every byte; the slot ends with its tick. -/
def Obligations.HousekeepingSlots : Prop :=
  ∀ (s : State) (dt : Nat) (u : State), u = s.elapse dt →
    (∀ i, u.slotDue = true → ∃ t, exec (.housekeepingSlot dt i) s = .next t
      ∧ t.time = { u.time with inHk := true, hkAt := some s.time.tickCount }
      ∧ ((∀ c, (s.cluster c).active = none) → t.mem = s.mem
        ∧ (s.power.pstate = .ps0 → ∀ c, c < 64 → (t.cluster c).walker = ((s.cluster c).walker + 1) % 20480)))
    ∧ (s.time.inHk = true → u.time.tickEnd ≤ u.timeNat + 50 → ∃ t, exec (.housekeepingEnd dt) s = .next t
      ∧ t.time = { u.time with inHk := false } ∧ ((∀ c, (s.cluster c).active = none) → t.mem = s.mem
        ∧ ((∀ e, (s.engine e).calDue = none) → t.clusters = s.clusters)))

/-! ## Light, cartridges and lanes -/

/-- R324 to R334: a failed line leaves its stack without source and is timed; the takeover, 40 us after the failure, feeds both stacks from
the twin, which becomes a donor; a spare tuned for 1 ms is verified and waits for a boundary at least 5 us later unless its cartridge is under HOLD, and then feeds the
stack under its own number; a verified relit line feeds it again. -/
def Obligations.LinesAndSpares : Prop :=
  ∀ (s : State) (dt : Nat) (k : CartId) (n : LineId) (u : State), u = s.elapse dt →
    (∀ b, fedOwn (s.feedOf (k.val * 64 + n.val)) = true → ∃ t, exec (.lineFail dt k n b) s = .next t
      ∧ t.feedOf (k.val * 64 + n.val) = feedNone ∧ (t.cart k).laser n = .failed ∧ tabFind (t.cart k).failedAt n = some u.now
      ∧ (t.cart k).status.has 5 = true ∧ t.mem = s.mem ∧ t.engines = s.engines)
    ∧ (∀ c, tabFind (s.cart k).failedAt n = some c → c + 39000 ≤ u.now → (s.cart (1 - k.val)).gives n = true →
      ∃ t, exec (.takeover dt k n) s = .next t
      ∧ t.feedOf (k.val * 64 + n.val) = feedTwin ∧ tabFind (t.cart k).failedAt n = none ∧ t.mem = s.mem
      ∧ ((s.cart (1 - k.val)).laser n = .on → (t.cart (1 - k.val)).laser n = .donor))
    ∧ ((s.cart k).ramp = none → (s.cart k).spares.any (fun y => y.line == some n.val && !y.verified && !y.inService && !y.failed
        && decide (y.tunedAt + 1000000 ≤ u.now)) = true → ∃ t, exec (.spareVerified dt k n) s = .next t
      ∧ (t.cart k).spares = (s.cart k).spares.map (fun y =>
          if y.line = some n.val ∧ y.verified = false ∧ y.failed = false ∧ y.tunedAt + 1000000 ≤ u.now then { y with verified := true } else y)
      ∧ t = { u with carts := t.carts } ∧ ((s.cart k).hold = true → (t.cart k).named = (s.cart k).named)
      ∧ ((s.cart k).hold = false → tabFind (s.cart k).named n = none →
          tabFind (t.cart k).named n = some (u.timeNat + (u.boundaryAt u.leadFrom - u.now))))
    ∧ ((s.cart k).due n u.timeNat = true → tabFind (s.cart k).relit n = some true → ∃ t, exec (.spareIn dt k n) s = .next t
      ∧ t.feedOf (k.val * 64 + n.val) = feedOwn ∧ tabFind (t.cart k).relit n = none ∧ t.mem = s.mem)
    ∧ (∀ i y, (s.cart k).due n u.timeNat = true → tabFind (s.cart k).relit n = none → i < 4 → (s.cart k).spares[i]? = some y →
      y.line = some n.val → y.verified = true → y.inService = false →
      (∀ j z, j < i → (s.cart k).spares[j]? = some z → z.line ≠ some n.val) →
      ∃ t, exec (.spareIn dt k n) s = .next t ∧ t.feedOf (k.val * 64 + n.val) = 2 + i
        ∧ (t.cart k).spares[i]? = some { y with inService := true } ∧ t.mem = s.mem)

/-- R336 to R339, R842 to R844, R861: a cartridge comes into its socket; closing the interlock starts its 100 ms, opening it, the loss
of return light and the socket's current limit put every laser out with EYE_OFF; two probes in turn that see the path begin a ramp of
10 ms, after which the cartridge is lit; a lost cartridge is dark, and a removed one is no longer present. -/
def Obligations.CartridgesAndEyeSafety : Prop :=
  ∀ (s : State) (dt : Nat) (k : CartId) (u : State), u = s.elapse dt →
    (∀ c, (s.cart k).present = false → exec (.cartridgeInsert dt k c) s = .next (u.modCart k (fun x => { x with
      present := true, intlk := c, closedAt := u.now, limited := false, powered := false, lasers := [], probes := 0, probedAt := none })))
    ∧ ((s.cart k).present = true → (s.cart k).intlk = false →
      exec (.interlockClosed dt k) s = .next (u.modCart k (fun x => { x with intlk := true, closedAt := u.now })))
    ∧ (∃ t, exec (.interlockOpen dt k) s = .next t ∧ (t.cart k).intlk = false ∧ (t.cart k).powered = false ∧ (t.cart k).lit = false
      ∧ ((s.cart k).lit = true → (∀ n, n < 64 → (t.cart k).gives n = false) ∧ (t.cart k).status.has 4 = true))
    ∧ ((s.cart k).lit = true → ∃ t, exec (.returnLoss dt k) s = .next t ∧ (t.cart k).lit = false ∧ (t.cart k).returnOk = false
      ∧ (∀ n, n < 64 → (t.cart k).gives n = false) ∧ (t.cart k).status.has 4 = true)
    ∧ ((s.cart k).powered = true → ∃ t, exec (.socketOvercurrent dt k) s = .next t ∧ (t.cart k).lit = false
      ∧ (t.cart k).powered = false ∧ (t.cart k).limited = true ∧ (∀ n, n < 64 → (t.cart k).gives n = false))
    ∧ (u.mayPower k = true → (s.cart k).lit = false → (s.cart k).ramp = none → (∀ c, (s.cart k).probedAt = some c → c + 1000000000 ≤ u.now) →
      (∃ t, exec (.cartridgeProbe dt k false) s = .next t ∧ (t.cart k).lit = false ∧ (t.cart k).probes = 0 ∧ (t.cart k).powered = true)
      ∧ ((s.cart k).probes = 0 → ∃ t, exec (.cartridgeProbe dt k true) s = .next t ∧ (t.cart k).lit = false ∧ (t.cart k).probes = 1)
      ∧ ((s.cart k).probes = 1 → ∃ t r, exec (.cartridgeProbe dt k true) s = .next t ∧ (t.cart k).lit = false ∧ (t.cart k).powered = true
        ∧ (t.cart k).ramp = some (u.now + 10000000, r)))
    ∧ (∀ b r, u.mayPower k = true → (s.cart k).ramp = some r → r.1 ≤ u.now →
      ∃ t, exec (.cartridgeProbe dt k b) s = .next t ∧ (t.cart k).lit = true ∧ (t.cart k).litAt = r.1 ∧ (t.cart k).ramp = none)
    ∧ (∃ t, exec (.cartLost dt k 0) s = .next t ∧ (t.cart k).lit = false ∧ (t.cart k).present = false ∧ (t.cart k).powered = false)
    ∧ (∃ t, exec (.cartLost dt k 1) s = .next t ∧ (t.cart k).lit = false ∧ (t.cart k).present = (s.cart k).present)
    ∧ (∃ t, exec (.cartLost dt k 2) s = .next t ∧ (t.cart k).lit = (s.cart k).lit ∧ (t.cart k).lasers = (s.cart k).lasers
      ∧ ∀ n, n < 64 → s.feedOf (k.val * 64 + n) = feedNone → (tabFind (t.cart k).failedAt n).isSome = true)

/-! ## Tasks -/

/-- R84, R85, R93, R296, R497, R517, R521, R525 to R528: a task of a plan in sequence whose start has come and whose predecessors are done, with a place, no held
line in its way and its slots ready, is taken up and runs, waits for confirmation or, with a check failed, is over at once; one whose
deadline has passed before its dispatch is not run; a slot grant takes up a task that waited; one still waiting at its deadline is not
run. A transfer that waited starts once its data is confirmed and its engine has a place, and the first fill that may run ahead takes
its slots and a place, and is counted. -/
def Obligations.TasksAreDispatched : Prop :=
  ∀ (s : State) (dt : Nat) (c : ClusterId) (i : Fin 4096) (u : State) (x : Cluster), u = s.elapse dt → x = s.cluster c →
    (∀ k r q, k = x.dispatchKey i → r = (x.run k).getD { TaskRun.init with pass := x.pass, at_ := u.now } →
      q = { r with replayed := r.phase == .replay } → u.sequencing c = true → x.active.isSome = true →
      i.val < x.taskCount → r.phase.waits = true → (x.batch = true ∨ (r.phase = .replay ∨ dStart (x.task i) ≤ u.inTick) ∧ u.inTick < dDeadline (x.task i)) →
      x.predsDone k = true → x.skips (dLcore (x.task i)) = false → u.outranked c k q.replayed = false → u.hasPlace c k = true →
      u.heldBack c k q = false → u.queuedBefore c k q = false → (u.outputUnconf c k r.pass && x.logFull && !x.logged k r.pass) = false →
      (r.phase = .replay ∨ x.inputsFull k r.pass = true ∧ x.outputsFree k r.pass = true) →
      exec (.taskDispatch dt c i) s = .next (u.takeUp c k q))
    ∧ (∀ r : TaskRun, ∃ q, ((u.takeUp c i r).cluster c).run i = some q ∧ (q.phase = .running ∨ q.phase = .waitConfirm ∨ q.phase = .done))
    ∧ (∀ k r, k = x.dispatchKey i → r = (x.run k).getD { TaskRun.init with pass := x.pass, at_ := u.now } → u.sequencing c = true →
      x.active.isSome = true → i.val < x.taskCount → r.phase.waits = true → x.predsDone k = true → x.batch = false → (r.phase = .replay ∨ dStart (x.task i) ≤ u.inTick) →
      dDeadline (x.task i) ≤ u.inTick → ∃ t q, exec (.taskDispatch dt c i) s = .next t ∧ (t.cluster c).run k = some q ∧ q.phase = .notRun
        ∧ t.mem = s.mem)
    ∧ (∀ r, u.sequencing c = true → x.run i = some r → r.phase = .waitSlots → r.replayed = false → (x.batch = true ∨ u.inTick < dDeadline (x.task i)) →
      x.skips (dLcore (x.task i)) = false → u.outranked c i false = false → u.hasPlace c i = true → u.heldBack c i r = false → u.queuedBefore c i r = false → (u.outputUnconf c i r.pass && x.logFull && !x.logged i r.pass) = false →
      x.inputsFull i r.pass = true → x.outputsFree i r.pass = true → exec (.slotGrant dt c i) s = .next (u.takeUp c i r))
    ∧ (∀ r, u.sequencing c = true → x.run i = some r → r.phase = .waitSlots → x.batch = false → dDeadline (x.task i) ≤ u.inTick →
      ∃ t q, exec (.dataLate dt c i) s = .next t ∧ (t.cluster c).run i = some q ∧ q.phase = .notRun ∧ t.mem = s.mem)
    ∧ (∀ r, u.sequencing c = true → x.run i = some r → r.phase = .waitConfirm → u.inputTag c i r.pass = none →
      (s.haul (u.haulKey c (x.task i))).outstanding < 8 → (dKind (x.task i) = kEgress → u.lateBy c i = none) →
      exec (.confirmedTransferStart dt c i) s
        = .next ((u.modCluster c (fun y => y.setRun i { r with phase := .running, applied := u.now })).beginTransfer c i))
    ∧ (∀ a : Fin 2, u.plansRun c = true → x.skips (dLcore (x.task i)) = false →
      (s.haul (u.haulKey c (x.task i))).outstanding < (if dKind (x.task i) = kCoreHaul then 4 else 8) → i.val < x.taskCount →
      u.canAhead c i (a.val + 1) = true → u.transferReady c i = false →
      (∀ j m, j < x.taskCount → (m = 1 ∧ a.val = 1 ∨ m = a.val + 1 ∧ j < i.val) → u.haulKey c (x.task j) = u.haulKey c (x.task i) →
        u.canAhead c j m = false) →
      exec (.aheadIssue dt c i a) s = .next ((u.modHaul (u.haulKey c (x.task i)) (fun h => { h with
          outstanding := h.outstanding + 1, aheadIssued := (h.aheadIssued + 1) % 2 ^ 32 })).modCluster c (fun y =>
        { y.takeSlots i (y.pass + (a.val + 1)) with ahead := y.ahead ++ [{ task := i, pass := y.pass + (a.val + 1), done := false, clashes := [] }] })))

/-- R94, R402, R497, R502, R526: a VECTOR, a CORE_HAUL and a CLUSTER_HAUL that run complete: the task is done, and memory holds what
the transfer or the operation writes and nothing else changes in it; a fill made ahead completes in the same way for its own pass. -/
def Obligations.VectorsAndHaulsComplete : Prop :=
  ∀ (s : State) (dt : Nat) (c : ClusterId) (i : Fin 4096) (u : State) (x : Cluster), u = s.elapse dt → x = s.cluster c →
    (∀ r, u.running c i = some r → dKind (x.task i) = kVector → u.heldBack c i r = false → ∃ t q, exec (.vectorComplete dt c i) s = .next t
      ∧ (t.cluster c).run i = some q ∧ q.phase = .done
      ∧ t.mem = (u.vecWrite c i (vecOutTiles (x.task i) (fmtOf (u.vecTiles c i r.pass))) r (r.late || (u.lateBy c i).isSome)).1.mem)
    ∧ (∀ r ws, u.running c i = some r → dKind (x.task i) = kCoreHaul → u.haulBlocked c i r.pass = false → u.heldBack c i r = false → u.chunkWait c i r.pass = false →
      ∃ t q, exec (.coreHaulComplete dt c i ws) s = .next t ∧ (t.cluster c).run i = some q ∧ q.phase = .done
        ∧ t.mem = (u.haulAll c i r.pass (r.late || (u.lateBy c i).isSome) r.clashes ws).1.mem)
    ∧ (∀ r ws, u.running c i = some r → dKind (x.task i) = kClusterHaul → u.haulBlocked c i r.pass = false → u.heldBack c i r = false → u.chunkWait c i r.pass = false →
      ∃ t q, exec (.clusterHaulComplete dt c i ws) s = .next t ∧ (t.cluster c).run i = some q ∧ q.phase = .done
        ∧ t.mem = (u.haulAll c i r.pass (r.late || (u.lateBy c i).isSome) r.clashes ws).1.mem)
    ∧ (∀ a ws, u.running c i = none → u.running c (oldKey i) = none → dKind (x.task i) = kClusterHaul → x.ahead.find? (fun b => decide (b.task = i.val) && !b.done) = some a →
      u.heldBack c i { TaskRun.init with pass := a.pass } = false → u.chunkWait c i a.pass = false →
      ∃ t, exec (.clusterHaulComplete dt c i ws) s = .next t ∧ t.mem = (u.haulAll c i a.pass false a.clashes ws).1.mem)

/-- R502, R503: a row copied within a cluster memory between places that do not overlap arrives byte by byte; every other byte of
memory is unchanged. -/
def Obligations.RowsAreCopied : Prop :=
  ∀ (s : State) (c core a b n : Nat), s.MemOk → 0x100000 ≤ a → a + n ≤ 0x200000 → 0x100000 ≤ b → b + n ≤ 0x200000 →
    (a + n ≤ b ∨ b + n ≤ a) →
    (∀ o, o < n → (s.copyBytes c core (.at_ a) (.at_ b) n).1.byte (cmKey c (b - 0x100000) + o) = s.byte (cmKey c (a - 0x100000) + o))
    ∧ ∀ k, (k < cmKey c (b - 0x100000) ∨ cmKey c (b - 0x100000) + n ≤ k) → (s.copyBytes c core (.at_ a) (.at_ b) n).1.byte k = s.byte k

/-- R95, R310, R541, R565, R570, R571, R573, R578, R580, R583: a ROUTER_SEND whose packets can all have left completes: they are in the 64 KiB of
their receiver, and its place is free again; an EGRESS in service, whose window has room, sends its
frames; one past its deadline is discarded, stopped and counted; an INGRESS_WAIT past its deadline completes and its symbol is closed. -/
def Obligations.FabricTasksComplete : Prop :=
  ∀ (s : State) (dt : Nat) (c : ClusterId) (i : Fin 4096) (u : State) (d : BitVec 512), u = s.elapse dt → d = (s.cluster c).task i →
    (∀ r ws, u.running c i = some r → dKind d = kRouter → u.sendFits c d r u.now = packetCount d →
      ∃ t q, exec (.routerSendComplete dt c i ws) s = .next t
      ∧ (t.cluster c).run i = some q ∧ q.phase = .done ∧ t.mem = s.mem
      ∧ (t.haul (u.haulKey c d)).outstanding = (s.haul (u.haulKey c d)).outstanding - 1
      ∧ (t.haul (u.haulKey c d)).bytes = (s.haul (u.haulKey c d)).bytes + dLength d
      ∧ (∀ k, u.receiverOf (roDest d) c = some k → u.transmits c = true →
          u.feedOf (64 * (c.val / 32) + (roDest d + 64 - c.val) % 64) ≠ feedNone → s.fabric.groupLost.contains (roDest d / 32) = false →
          (s.cluster (roDest d)).locked.getLsbD k = true → roTile d = false →
          ((s.fabric.packets.filter (fun q => q.dest == roDest d && q.rx == k)).map (fun q => q.data.length + 32)).sum
            + dLength d + 32 * packetCount d ≤ 65536 →
          t.fabric.packets.length = s.fabric.packets.length + (packetCount d - r.sent)))
    ∧ (∀ r ws, u.running c i = some r → dKind d = kEgress → u.lateBy c i = none → u.badCplane c i r = false →
      u.canSend (dPartner d) = true → u.egressCount c i ≤ u.egressRoom c i r → ∃ t q, exec (.egressComplete dt c i ws) s = .next t
        ∧ (t.cluster c).run i = some q ∧ q.phase = .done ∧ t.mem = s.mem
        ∧ (egForm d = 0 → s.jtag.inEffect = false → r.broken = [] →
            t.fabric.sent.length = s.fabric.sent.length + (ceilDiv (dLength d) 8256 - r.sent)))
    ∧ (∀ r, (s.cluster c).run i = some r → dKind d = kEgress → (s.cluster c).batch = false → dDeadline d ≤ u.inTick →
      (r.phase = .running ∨ r.phase = .waitConfirm) → ∃ t q, exec (.egressDeadline dt c i) s = .next t
        ∧ (t.cluster c).run i = some q ∧ q.phase = .done ∧ q.stopped = some u.now ∧ t.mem = s.mem
        ∧ tabGet 0 (t.dyn (dPartner d)).counters pcLateDrop = tabGet 0 (s.dyn (dPartner d)).counters pcLateDrop + 1)
    ∧ (∀ r, u.running c i = some r → dKind d = kIngress → (s.cluster c).batch = false → dDeadline d ≤ u.inTick →
      ∃ t q, exec (.ingressLate dt c i) s = .next t ∧ (t.cluster c).run i = some q ∧ q.phase = .done
        ∧ ((t.dyn (dPartner d)).landing u.frameNow u.tickNow (inSymbol d)).done = true)

/-- R121, R214, R216, R217, R198: a SLAB_MVM without an open mismatch completes with its drain; a mismatch found holds the task for its
localisation; the localisation closes it: a transient is counted, one column of a pinned slab is reconstructed, more than one column
sends the slab to an unplanned detour; the image of such a detour is fetched, and the tasks of a batch complete. -/
def Obligations.SlabTasks : Prop :=
  ∀ (s : State) (dt : Nat) (c : ClusterId) (i : Fin 4096) (k : SlabId) (noise reads : List Int) (u : State) (d : BitVec 512),
    u = s.elapse dt → d = (s.cluster c).task i →
    (∀ r, u.running c i = some r → dKind d = kSlab → r.detour = false → r.begun = true →
      u.slabEnd c i r ≤ u.issue → u.heldBack c i r = false →
      (∀ j ∈ (s.cluster c).slabsOf c i, (s.slab j).mismatch = none ∧ ((s.cluster c).onSlabs c j).head? = some i.val) →
      (∀ j ∈ indexed ((s.cluster c).slabsOf c i), (u.slab j.2).firstMismatch (u.seamForced j.2) (benchSeq d (segOf d j.1 r.input))
        (u.coarse j.2 (fun no p => nth 0 noise (noiseIndex d j.1 no p))) = none) →
      ∃ t q, exec (.slabMvmComplete dt c i noise) s = .next t ∧ (t.cluster c).run i = some q ∧ q.phase = .done
        ∧ t.mem = (u.slabResult c i (fun _ => smRows d * 2) r (r.late || (u.lateBy c i).isSome)
            (fun pos no p => nth 0 noise (noiseIndex d pos no p))).1.mem)
    ∧ (∀ r m j, u.running c i = some r → dKind d = kSlab → r.detour = false → r.begun = true → (s.cluster c).slabsOf c i = [j] →
      u.slabEnd c i r ≤ u.issue → u.heldBack c i r = false → (s.slab j).mismatch = none → ((s.cluster c).onSlabs c j).head? = some i.val →
      (u.slab j).firstMismatch (u.seamForced j) (benchSeq d (segOf d 0 r.input))
        (u.coarse j (fun no p => nth 0 noise (noiseIndex d 0 no p))) = some m →
      ∃ t, exec (.slabMvmComplete dt c i noise) s = .next t ∧ (t.slab j).mismatch = some m ∧ (t.cluster c).run i = some r ∧ t.mem = s.mem)
    ∧ (∀ m, (s.slab k).mismatch = some m → reads.length = 33 → ∃ t, exec (.seamLocalised dt k reads) s = .next t
      ∧ (t.slab k).mismatch = none ∧ t.mem = s.mem
      ∧ (u.faultyColumns k m.2 reads = [] → ((s.slab k).recentTransients u.now).length < 2 → (t.slab k).status.has 9 = true)
      ∧ (u.faultyColumns k m.2 reads = [] → 2 ≤ ((s.slab k).recentTransients u.now).length → (t.slab k).dress = .detour ∧ (t.slab k).pinned = false)
      ∧ (∀ j, u.faultyColumns k m.2 reads = [j] → j < 256 → (s.slab k).pinned = true →
          (s.slab k).recon.any (fun f => f / 32 == m.2) = false → j ∈ (t.slab k).recon)
      ∧ (∀ j, u.faultyColumns k m.2 reads = [j] → (s.slab k).recon.any (fun f => f / 32 == m.2) = true →
          (t.slab k).dress = .detour ∧ (t.slab k).pinned = false)
      ∧ (2 ≤ (u.faultyColumns k m.2 reads).length → (t.slab k).dress = .detour ∧ (t.slab k).pinned = false))
    ∧ ((s.slab k).dress = .detour → (s.slab k).detourReady = false → (s.slab k).master.isSome = true → s.hbmOn = true →
      ∃ t, exec (.detourStart dt k) s = .next t ∧ (t.slab k).detourReady = true ∧ t.mem = s.mem)
    ∧ (∀ b0 r0, (s.engine c).batch.head? = some b0 → (s.cluster c).run b0.2 = some r0 →
      batchNs (s.engine c).batch.length (u.batchBlocks c (s.engine c).batch) ≤ u.ran r0 + u.tailRest 1 →
      (∀ b ∈ (s.engine c).batch, ∀ r, (s.cluster c).run b.2 = some r → u.heldBack c b.2 r = false) →
      ∃ t, exec (.detourBatchComplete dt c noise) s = .next t ∧ ∀ b ∈ (s.engine c).batch, ∀ r, u.running c b.2 = some r → r.detour = true → r.begun = true →
          ∃ q, (t.cluster c).run b.2 = some q ∧ q.phase = .done)

/-- R252, R253, R256, R276, R279, R281, R378: an OPTICAL_MVM that has run its time completes, its output is written and its stall counts; a WEIGHT_LOAD puts
its set into the shadow holds; a set in force for 100 us, or whose lines'
powers have moved, is loaded again, in a gap between tasks, in the housekeeping slot or from 150 us on. -/
def Obligations.OpticalTasks : Prop :=
  ∀ (s : State) (dt : Nat) (c : ClusterId) (i : Fin 4096) (u : State) (d : BitVec 512), u = s.elapse dt → d = (s.cluster c).task i →
    (∀ r n ws noise v, u.running c i = some r → dKind d = kOptical → r.begun = true →
      omNs d r.replayed + n ≤ u.ran r + u.tailRest (omRate d) → u.heldBack c i r = false →
      v = (u.meets c i r.pass ws).1.modEngine c (fun g => g.stall n) →
      ∃ t q, exec (.opticalMvmComplete dt c i n ws noise) s = .next t ∧ (t.cluster c).run i = some q ∧ q.phase = .done
        ∧ ((s.engine c).refreshUntil ≤ u.now → (t.engine c).stallNs = min ((s.engine c).stallNs + n) 0xFFFFFFFF)
        ∧ t.mem = (v.omWrite c i (omVcount d) (u.now - tailNs (omRate d)) { r with clashes := r.clashes ++ (u.meets c i r.pass ws).2 }
            (r.late || (v.lateBy c i).isSome) (fun j => nth 0 noise j)).1.mem)
    ∧ (∀ r ws, u.running c i = some r → dKind d = kWeight → (s.engine c).batch = [] → (s.engine c).calDue = none →
      max r.at_ (s.engine c).refreshUntil + 64 ≤ u.now → ∃ t q, exec (.weightLoadComplete dt c i ws) s = .next t
      ∧ (t.cluster c).run i = some q ∧ q.phase = .done ∧ t.mem = s.mem ∧ (t.engine c).active = (s.engine c).active
      ∧ (t.engine c).shadow = ((u.engine c).loadSet
          (((u.meets c i r.pass ws).1.clashed c (r.clashes ++ (u.meets c i r.pass ws).2)).weightSet c i r.pass)).1)
    ∧ ((s.engine c).active.loaded = true → ((s.engine c).active.since + 100000 ≤ u.now ∨ (s.engine c).refreshDue = true) →
      (s.engine c).batch = [] → (s.engine c).refreshUntil ≤ u.now →
      (u.engineBusy c = false ∨ u.inSlot = true ∨ (s.engine c).active.since + 150000 ≤ u.now) →
      ∃ t, exec (.weightRefresh dt c) s = .next t ∧ (t.engine c).active.since = u.now ∧ (t.engine c).active.q = (s.engine c).active.q
        ∧ (t.engine c).refreshDue = false ∧ t.mem = s.mem)

/-! ## Verdicts, loops, upkeep and converters -/

/-- R289 to R291, R293, R298, R303: the last epoch that ended 10 us ago, and not more than 20 us ago, has its verdict, clean unless a cause was seen in it; 20 us on
it is LATE and dirty; a clean verdict leaves no unspoiled tag of its epoch or before in the cluster, and a spoil leaves no tag of its
epoch or after unspoiled; the walk that was due is then over. -/
def Obligations.EpochVerdicts : Prop :=
  ∀ (s : State) (dt : Nat) (e : EngineId) (u : State), u = s.elapse dt →
    (∀ ep, s.clocksOn = true → u.lastEnded 10000 = some ep → (u.lastEnded 20001).any (fun l => epLe ep l) = false →
      (u.engine e).dueEpochs ep u.epochNow = [ep] → (s.engine e).spoilDue = none →
      ∃ t v rest, exec (.epochVerdict dt e) s = .next t ∧ (t.engine e).history = v :: rest ∧ (t.engine e).lastVerdict = ep ∧ v.epoch = ep
        ∧ v.late = false ∧ v.clean = !((u.epochSeen e ep).ring || (u.epochSeen e ep).power || (u.epochSeen e ep).pilot || (u.epochSeen e ep).forced)
        ∧ t.mem = s.mem)
    ∧ (∀ ep, s.clocksOn = true → u.lastEnded 20000 = some ep → (u.engine e).dueEpochs ep u.epochNow = [ep] → (s.engine e).spoilDue = none →
      ∃ t v rest, exec (.verdictLate dt e) s = .next t ∧ (t.engine e).history = v :: rest ∧ (t.engine e).lastVerdict = ep ∧ v.epoch = ep
        ∧ v.late = true ∧ v.clean = false ∧ (t.engine e).status.has 2 = true ∧ t.mem = s.mem)
    ∧ (∀ w ep y, w ∈ (s.confirmTo e ep).tags → w.2 = y → lineCluster w.1 = e.val → y.spoiled = true ∨ epLe y.epoch ep = false)
    ∧ (∀ w ep y, w ∈ (s.spoilFrom e ep).tags → w.2 = y → lineCluster w.1 = e.val → epLe ep y.epoch = true → y.spoiled = true)
    ∧ (∀ ep inj, (s.engine e).spoilDue = some (ep, inj) → ∃ t, exec (.spoil dt e) s = .next t ∧ (t.engine e).spoilDue = none
      ∧ (t.engine e).status.has 3 = true)

/-- R388: a loop that has stayed frozen for 1 s discards its staged fields and resumes with the fields in force, and FREEZE_TIMEOUT is reported
with DETAIL 0. -/
def Obligations.FrozenLoopResumes : Prop :=
  ∀ (s : State) (dt : Nat) (k : LoopId) (u : State), u = s.elapse dt → (s.loop k).frozen = true → (s.loop k).frozenAt + 1000000000 ≤ u.now →
    exec (.freezeTimeout dt k) s = .next ((u.modLoop k (fun y =>
      { y with frozen := false, staged := none, freezeFrom := none, releaseFrom := none })).light 0xFF liFreezeTimeout 0xFF 0xFF k 0 false)
    ∧ EventsOnly (u.modLoop k (fun y => { y with frozen := false, staged := none, freezeFrom := none, releaseFrom := none }))
      ((u.modLoop k (fun y => { y with frozen := false, staged := none, freezeFrom := none, releaseFrom := none })).light
        0xFF liFreezeTimeout 0xFF 0xFF k 0 false)

/-- R265, R266, R351, R352, R356, R359, R361: a locked loop that has been out of its window for three control ticks sweeps,
and its row leaves service; a passed pilot window locks a re-acquired loop, a failed one sends a locked loop into its sweep; a sweep of 200 us that closes waits
for its pilot with the best step's correction in its integrator, one that does not is tried again, the third time it is FAILED; a sweep
waits where 256 run on its die; an abandoned row in CAL becomes STANDBY. -/
def Obligations.LockLoops : Prop :=
  ∀ (s : State) (dt : Nat) (k : LoopId) (u : State), u = s.elapse dt →
    (s.sensorsOn = true → (s.loop k).phase = .locked → 3 ≤ (s.loop k).outTicks → ∃ t, exec (.lockLoss dt k) s = .next t
      ∧ ((t.loop k).phase = .sweep ∨ (t.loop k).queued = true) ∧ (t.loop k).outTicks = 0 ∧ t.mem = s.mem
      ∧ ∀ x, rowOf k = some x → (s.engine x.1).rowState x.2 = .service → (t.engine x.1).rowState x.2 = .reacquire)
    ∧ (s.sensorsOn = true → (s.loop k).phase = .pilotWait → u.pilotDue k = true →
      (s.loop k).waitFrom + 1000000 + (u.timeNat - u.pilotPoint) ≤ u.now →
      ∀ tones : PilotTones, (∀ o ∈ tones.others, 4 * o ≤ tones.own) → s.pilotRefOf k ≤ 4 * tones.own →
      ∃ t, exec (.pilotCheck dt k tones) s = .next t ∧ (t.loop k).phase = .locked ∧ (t.loop k).fails = 0 ∧ t.mem = s.mem)
    ∧ (∀ tones : PilotTones, s.sensorsOn = true → (s.loop k).phase = .locked → u.pilotDue k = true →
      ((∃ o ∈ tones.others, tones.own < 4 * o) ∨ 4 * tones.own < s.pilotRefOf k) → ∃ t, exec (.pilotCheck dt k tones) s = .next t
      ∧ ((t.loop k).phase = .sweep ∨ (t.loop k).queued = true) ∧ (t.loop k).status.has 7 = true ∧ t.mem = s.mem)
    ∧ (∀ out : SweepOutcome, s.sensorsOn = true → (s.loop k).phase = .sweep → (s.loop k).queued = false → s.isInjected 2 k = false →
      (s.loop k).sweepFrom + 200000 ≤ u.now →
      (out.closed = true → u.loopLit k = true → ∃ t, exec (.reacquired dt k out) s = .next t ∧ (t.loop k).phase = .pilotWait
        ∧ (t.loop k).waitFrom = u.now ∧ (t.loop k).slope = out.slope ∧ (t.loop k).fails = (s.loop k).fails
        ∧ (t.loop k).i = clampI (coIMin (s.loop k).coef * 65536) (coIMax (s.loop k).coef * 65536)
            (((s.loop k).sweepAt (bestStep out.taps) - (s.loop k).ff) * 65536) ∧ t.mem = s.mem)
      ∧ (out.closed = false ∨ u.loopLit k = false → (s.loop k).fails + 1 < 3 → ∃ t, exec (.reacquired dt k out) s = .next t
        ∧ (t.loop k).fails = (s.loop k).fails + 1 ∧ ((t.loop k).phase = .sweep ∨ (t.loop k).queued = true) ∧ t.mem = s.mem)
      ∧ (out.closed = false ∨ u.loopLit k = false → 3 ≤ (s.loop k).fails + 1 → ∃ t, exec (.reacquired dt k out) s = .next t
        ∧ (t.loop k).phase = .failed))
    ∧ (∀ (e : EngineId) p, (s.engine e).calRow = some p → (s.engine e).abandoned = true → (s.engine e).unmapped = [] →
      exec (.calRowStandby dt e) s = .next ((u.modEngine e (fun x => { x with calRow := none })).modEngine e (fun x => x.setRow p .standby)))

/-- R366, R377, R379, R760, R769: at a control tick below the trip temperature the input readings are taken, the loops are computed
and the activity level is the least of the power loops' outputs, 255 at most; a die at 115 degC or more trips the module. The law keeps
P as rounded, its output between OUT_MIN and OUT_MAX, and the integral of a frozen loop. -/
def Obligations.ControlTicks : Prop :=
  ∀ (s : State) (dt : Nat) (m : Measurements) (u v : State), u = s.elapse dt → 
    v = (((((u.modTime (fun q => { q with controlAt := some u.controlPoint })).readInput m).rampDone 0).rampDone 1).readSensors m).pmSample →
    m.wellFormed = true → s.powered = true → u.controlDue = true →
    (s.sensorsOn = true → (∀ d, d < 4 → v.dieTemp d < 460) → ∃ t, exec (.controlTick dt m) s = .next t
      ∧ t.power.watts = m.power ∧ t.power.amps = m.current ∧ t.power.volts = m.voltage ∧ t.mem = s.mem
      ∧ t.time = { u.time with
          controlAt := some u.controlPoint, sources := t.time.sources, srcState := t.time.srcState, lostAt := t.time.lostAt }
      ∧ t.power.activity = ((List.range 9).map (fun k => (clampI 0 255 (t.loop (5120 + k)).u).toNat)).foldl min 255)
    ∧ (s.sensorsOn = true → (∃ d, d < 4 ∧ 460 ≤ v.dieTemp d) → ∃ t, exec (.controlTick dt m) s = .next t
      ∧ t.power.tripped = true ∧ t.power.pstate = .ps5 ∧ t.mem = [])
    ∧ (s.sensorsOn = false → exec (.controlTick dt m) s
      = .next ((((u.modTime (fun q => { q with controlAt := some u.controlPoint })).readInput m).rampDone 0).rampDone 1).restSensors.pmSample)
    ∧ ∀ (x : Loop) (e ff : Int) (lock : Bool),
      (x.frozen = false → (x.law e ff lock).p = shiftRound (coKp x.coef * e) 16
        ∧ (coOutMin x.coef ≤ coOutMax x.coef → coOutMin x.coef ≤ (x.law e ff lock).u ∧ (x.law e ff lock).u ≤ coOutMax x.coef))
      ∧ (x.frozen = true → (x.law e ff lock).i = x.i ∧ (x.law e ff lock).d = x.d ∧ (x.law e ff lock).p = x.p)

/-- R203, R204: after 64 normalised pairs AGE_TRIM is 0x4000 x DRIFT_BASE / mean D, rounded to nearest with ties away from zero (D is kept in
units of 2^-20), and the pairs begin anew; outside 0x3800 to 0x5000 it is limited to that range, DRIFT_LIMIT is set, and a DRIFT_LIMIT
re-dressing is queued. -/
def Obligations.AgeTrimFollowsDrift : Prop :=
  ∀ (s : State) (dt : Nat) (k : SlabId) (sum : Nat) (trim : Int), (s.slab k).driftPairs = 64 → (s.slab k).driftSum = sum → 0 < sum →
    trim = divRound (0x4000 * (s.slab k).driftBase * 64 * 1048576) sum →
    ∃ t, exec (.ageTrimUpdate dt k) s = .next t ∧ (t.slab k).driftPairs = 0 ∧ (t.slab k).driftSum = 0 ∧ t.mem = s.mem
      ∧ (0x3800 ≤ trim → trim ≤ 0x5000 → (t.slab k).ageTrim = trim.toNat ∧ (t.slab k).queued = (s.slab k).queued)
      ∧ (trim < 0x3800 → (t.slab k).ageTrim = 0x3800)
      ∧ (0x5000 < trim → (t.slab k).ageTrim = 0x5000)
      ∧ (trim < 0x3800 ∨ 0x5000 < trim → (t.slab k).status.has 10 = true ∧ ∃ q, (t.slab k).queued = some q ∧ q.cls ≤ 1)

/-- R180 to R193, R479: an age re-dressing is queued; at a tick boundary the first queued dressing that may start resets the cells, a copy whose map is broken
ends it; the first finish retires the columns with unverified cells; a dressing with spares enough for them binds the slab, one without leaves
it FAILED; the slab returns at a boundary at least 5 us later; banks come to rest, and memory but that of banks that leave OFF is kept. -/
def Obligations.SlabUpkeep : Prop :=
  ∀ (s : State) (dt : Nat) (k : SlabId) (u : State), u = s.elapse dt →
    (∀ n, (s.slab k).redressAt = some n → s.mbx.fw = .running → (s.slab k).dress ≠ .blank → (u.slab k).ageValid u.time = true →
      n ≤ (u.slab k).age u.time → exec (.ageRedress dt k) s = .next (u.queueDress k 3 none))
    ∧ (∀ q m, u.atStart = true → u.dressingOpen = true → u.dressQueue.find? u.mayDress = some k.val → (s.slab k).queued = some q → u.dressSource k = some m →
      (mapFault (u.copyMap m.1 m.2) = none → ∃ t, exec (.dressStart dt k) s = .next t ∧ (t.slab k).dress = .dressing
        ∧ (t.slab k).queued = none ∧ (t.slab k).cells = [] ∧ t.mem = s.mem ∧ ∃ r, (t.slab k).running = some r ∧ r.startedAt = u.now
        ∧ r.doneAt = none ∧ r.map = u.copyMap m.1 m.2 ∧ r.goal = (s.slab k).dressed (u.copyMap m.1 m.2) (u.copyCells m.1 m.2))
      ∧ (∀ col, mapFault (u.copyMap m.1 m.2) = some col → ∃ t, exec (.dressStart dt k) s = .next t
        ∧ EventsOnly (u.modSlab k (fun x => { x with queued := none })) t))
    ∧ (∀ r o bad, (s.slab k).running = some r → r.doneAt = none →
      bad = ((({ (s.slab k) with cells := r.goal } : Slab).unverified r (o.reads.filter (fun e => decide (e.2.1 < 264)))).map (fun e => e.2)).dedup →
      r.retired = none → r.spares = [] →
      ((s.slab k).freeSpares.length < bad.length → r.startedAt + 7900000 ≤ u.now →
        ∃ t, exec (.dressDone dt k o) s = .next t ∧ (t.slab k).dress = .failed ∧ (t.slab k).status.has 11 = true)
      ∧ (bad ≠ [] → r.startedAt + 4000000 ≤ u.now → u.now < r.startedAt + 7900000 →
        ∃ t q, exec (.dressDone dt k o) s = .next t ∧ (t.slab k).dress = (s.slab k).dress ∧ (t.slab k).bound = (s.slab k).bound
          ∧ (t.slab k).running = some q ∧ q.retired = some bad ∧ q.doneAt = none ∧ (t.slab k).tileId = r.params.tileId)
      ∧ (bad.length ≤ (s.slab k).freeSpares.length → (r.startedAt + 7900000 ≤ u.now ∨ bad = [] ∧ r.startedAt + 4000000 ≤ u.now) →
        u.stillMapped k r = true →
        ∃ t q, exec (.dressDone dt k o) s = .next t ∧ (t.slab k).bound = true ∧ (t.slab k).master = some (r.page, r.ofs)
          ∧ (t.slab k).running = some q ∧ q.doneAt = some u.now ∧ (t.slab k).tileId = r.params.tileId ∧ (t.slab k).map = r.map
          ∧ (t.slab k).ageTrim = 0x4000 ∧ (t.slab k).dressCount = ((s.slab k).dressCount + 1) % 256))
    ∧ (∀ r n, (s.slab k).dress = .dressing → (s.slab k).running = some r → r.doneAt = some n → u.atStart = true → n + Config.leadNs ≤ u.startClock →
      ∃ t, exec (.detourEnd dt k) s = .next t
        ∧ EventsOnly (u.modSlab k (fun x => { x with dress := .ready, running := none, detourReady := false })) t)
    ∧ (∀ c m, ∃ t, exec (.bankPowerDone dt c m) s = .next t
      ∧ (∀ a, hbmKey 0 0 ≤ a ∨ (∀ b ∈ memBanks c m.toNat, (s.bank b).fromOff = false ∨ b ∉ lineBanks (lineOf a)) → t.byte a = s.byte a)
      ∧ ∀ b ∈ memBanks c m.toNat, (t.bank b).moving = false ∧ (t.bank b).power = (s.bank b).power)

/-- R781 to R792, R805: a pass of the channels in SCAN_MASK begins on a started converter; a result goes to DATA with its correction, over
an unread one with OVERRUN; the loop unit's read takes it; an injected conversion leaves its queue; a settled reference sets
REF_READY and starts the scan. -/
def Obligations.MonitorConverters : Prop :=
  ∀ (s : State) (dt : Nat) (k : McId) (u : State), u = s.elapse dt →
    (s.convertersOn = true → (s.mc k).start = true → (s.mc k).busy = false →
      ((s.mc k).continuous = true → 2000 ≤ u.sinceControl ∧ u.sinceControl ≤ 2050) → ∃ t, exec (.monconvPass dt k) s = .next t
      ∧ (t.mc k).busy = true ∧ (t.mc k).todo = (s.mc k).todo ++ samplesFrom (u.now + (if (s.mc k).refmode then 2000 else 0))
          (maskBits ((s.mc k).scanMask.zeroExtend 64)) ∧ (∀ j, j ≠ k.val → t.mc j = s.mc j) ∧ t.mem = s.mem)
    ∧ (∀ y rest (raw : BitVec 12), (s.mc k).todo = y :: rest → y.2 + 200 ≤ u.now → ∃ t, exec (.monconvResult dt k raw) s = .next t ∧ (t.mc k).todo = rest
      ∧ (t.mc k).data = mcCorrect (s.convCorr (mcIndex k)) raw.toNat ∧ (t.mc k).dataCh = y.1 ∧ (t.mc k).dataValid = true
      ∧ ((u.mcNow k).dataValid = true → (t.mc k).status.has 37 = true) ∧ (∀ j, j ≠ k.val → t.mc j = s.mc j) ∧ t.mem = s.mem)
    ∧ ((s.mc k).dataValid = true → u.inLoopWindow = false → exec (.monconvDataRead dt k) s
      = .next (u.modMc k (fun x => { x with last := tabSet 0 x.last x.dataCh x.data, dataValid := false })))
    ∧ (∀ y rest (raw : BitVec 12), (s.mc k).inj = y :: rest → y.2.2 + 200 ≤ u.now → ∃ t, exec (.injectedConversion dt k raw) s = .next t ∧ (t.mc k).inj = rest
      ∧ (t.mc k).injCode = mcCorrect (s.convCorr (mcIndex k)) raw.toNat ∧ (t.mc k).injCh = y.1 ∧ t.mem = s.mem)
    ∧ ((s.mc k).refmode = false → (s.mc k).refReady = false → (s.mc k).refFrom + 20000 ≤ u.now → ∃ t, exec (.refReady dt k) s = .next t ∧ (t.mc k).refReady = true
      ∧ (t.mc k).start = ((s.mc k).scanMask != 0) ∧ t.mem = s.mem)

/-! ## The fabric -/

/-- R340, R341, R536 to R539, R546, R548 to R551: frames that carry no data of a partner: PAUSE is counted, an LACPDU sets whether the
port serves its group, MKA gives a CA the peer's SAK, or as key server one from the module's own random source, a one-way delay request of
a FRONTHAUL partner is answered on the partner's port, and a dropped frame is counted by its reason. A lane that sees no return light is
dark until it is relit; both are reported, a dark lane takes its port down, and a probe leaves the module as it is. -/
def Obligations.LinksAndLanes : Prop :=
  ∀ (s : State) (dt : Nat) (p : PortId) (l : Fin 8) (ca : BitVec 12) (sak : List Byte) (u : State) (keyed : List Byte → State),
    u = s.elapse dt → sak.length = 32 →
    keyed = (fun k => (u.modCa ca.toNat (fun c => { c with sak := some k, txPn := 1, rxPn := 1 })).release) →
    (u.portRuns p = true → exec (.pauseFrameRx dt p) s = .next (u.countPort p 7 1)
      ∧ (∀ b, ∃ t, exec (.lacpFrame dt p b) s = .next t ∧ (t.port p).lacp = b ∧ (p.val ∈ t.members (p.val / 8) ↔ b = true) ∧ t.mem = s.mem)
      ∧ exec (.frameDropped dt p .oversize) s = .next (u.countPort p 6 1)
      ∧ exec (.frameDropped dt p .noBuffer) s = .next (u.modPort p (fun x => { x with status := x.status.hit 9 }))
      ∧ exec (.frameDropped dt p .unknown) s = .next (u.modPort p (fun x => { x with status := x.status.hit 10 }))
      ∧ exec (.frameDropped dt p .unprotected) s = .next (u.modPort p (fun x => { x with status := x.status.hit 11 }))
      ∧ exec (.frameDropped dt p .icv) s = .next (u.modPort p (fun x => { x with status := x.status.hit 12 })))
    ∧ (s.linksOn = true → (s.ca ca.toNat).cak.isSome = true →
      exec (.mkaFrame dt ca (some sak)) s = .next (keyed sak)
      ∧ ∃ t, exec (.mkaFrame dt ca none) s = .next t ∧ (t.ca ca.toNat).sak = some (toLe 32 (Config.randomKey s.free).toNat))
    ∧ (s.linksOn = true → (s.ca ca.toNat).sak.isSome = true →
      exec (.sakReplace dt ca (some sak)) s = .next (keyed sak)
      ∧ ∃ t, exec (.sakReplace dt ca none) s = .next t ∧ (t.ca ca.toNat).sak = some (toLe 32 (Config.randomKey s.free).toNat))
    ∧ (∀ (q : DelayRequest) i, s.rxOn q.port = true → s.fronthaulAt q.mac = some i → q.revision = 1 → q.concat = false → q.action.toNat ≤ 1 →
      u.rxFault (peCa (s.partner i)) q.prot = none → peState (s.partner i) = psActive → s.secured i = true →
      (s.port (pePort (s.partner i))).up = true → s.jtag.inEffect = false →
      ∃ t f rest, exec (.oneWayDelay dt q) s = .next t ∧ t.fabric.sent = s.fabric.sent ++ [f] ∧ f.port = pePort (s.partner i) ∧ f.partner = i
        ∧ f.kind = 3 ∧ f.type = 5 ∧ f.payload = q.measurement :: 2 :: rest ∧ t = { u with fabric := t.fabric, trust := t.trust })
    ∧ (s.linksOn = true → (s.port p).dark.getLsbD l = false → ∃ t, exec (.laneDark dt p l) s = .next t
      ∧ (t.port p).dark = (s.port p).dark ||| (1#8 <<< l.val) ∧ (t.port p).up = false ∧ t.mem = s.mem
      ∧ ((s.port p).up = false → EventsOnly (u.modPort p (fun x => { x with dark := x.dark ||| (1#8 <<< l.val) })) t))
    ∧ (s.linksOn = true → (s.port p).dark.getLsbD l = true → ∃ t, exec (.laneRelight dt p l) s = .next t
      ∧ EventsOnly (u.modPort p (fun x => { x with dark := x.dark &&& ~~~(1#8 <<< l.val) })) t)
    ∧ exec (.laneProbe dt p l) s = .next u

/-- R552, R555, R556, R558: a U-plane section of an ACTIVE partner for the tick in progress is counted and its PRB lands, as INT16, at its
place in the symbol's slot; of a SHED partner it is only counted; from a sender without entry it sets RX_UNKNOWN; memory elsewhere
keeps its bytes. -/
def Obligations.UplaneLands : Prop :=
  ∀ (s : State) (dt : Nat) (p : PortId) (x : Section) (i : Nat) (e : BitVec 512) (b : Prb) (mu at_ cur : Nat) (u : State),
    u = s.elapse dt → s.rxOn p = true → x.prbs = [b] → b.iq.length = 24 → mu = 4 - s.time.period →
    (s.uplanePartner x = none → ∃ t, exec (.uplaneRx dt p x) s = .next t ∧ (t.port p).status.has 10 = true ∧ t.mem = s.mem)
    ∧ (s.uplanePartner x = some (i, e) → s.time.period ≠ 0 → x.subframe.toNat < 10 → x.slot.toNat < 2 ^ mu → x.symbol.toNat < 14 →
      s.partner i = e → u.rxFault (peCa e) x.prot = none → unsupported x e = false →
      (peState e = psShed → ∃ t, exec (.uplaneRx dt p x) s = .next t ∧ t.mem = s.mem
        ∧ tabGet 0 (t.dyn i).counters pcShedDrop = tabGet 0 (s.dyn i).counters pcShedDrop + 1)
      ∧ (peState e = psActive → at_ = x.frameId.toNat * ticksPerFrame s.time.period + (x.subframe.toNat * 2 ^ mu + x.slot.toNat) →
        cur = u.frameNow % 256 * ticksPerFrame s.time.period + u.tickNow → at_ = cur → cur < 256 * ticksPerFrame s.time.period →
        pePrbFirst e ≤ x.startPrb → x.startPrb < pePrbFirst e + pePrbCount e → 2 ≤ peStreams e * pePrbCount e → (s.dyn i).landings = [] →
        ∃ t, exec (.uplaneRx dt p x) s = .next t
          ∧ tabGet 0 (t.dyn i).counters pcRx = tabGet 0 (s.dyn i).counters pcRx + 1
          ∧ t.mem = (u.deliverElems p e (slotBase e x.symbol.toNat)
              (24 * ((x.eaxc.toNat - peEaxc e) * pePrbCount e + (x.startPrb - pePrbFirst e))) (prbElems b)).1.mem))

/-- R575 to R579, R590: DATA for an ACTIVE partner in sequence lands at its offset in the partner's area and the next number is
expected; of a SHED partner it is counted; an ACK takes the frames below it out of the window; accepted frames are acknowledged within
their time; a timeout sends the window again. -/
def Obligations.JoryarTransport : Prop :=
  ∀ (s : State) (dt : Nat) (p : PortId) (mac : BitVec 48) (h : JoryarHdr) (bs : List Byte) (x : BitVec 512) (u : State), u = s.elapse dt →
    (s.rxOn p = true → bs.length ≤ 8256 → s.joryarPartner mac h = some x → u.rxFault (peCa x) h.prot = none →
      (peState x = psActive → s.pageLoader h.dstPartner.toNat h.offset.toNat = none → h.offset.toNat + bs.length ≤ peLandBytes x →
        (peReliable x = true → h.seq.toNat = (s.dyn h.dstPartner.toNat).rxSeq) →
        ∃ t, exec (.joryarData dt p mac h bs) s = .next t ∧ (t.dyn h.dstPartner.toNat).rxSeq = (h.seq.toNat + 1) % 2 ^ 32
          ∧ tabGet 0 (t.dyn h.dstPartner.toNat).counters pcRx = tabGet 0 (s.dyn h.dstPartner.toNat).counters pcRx + 1
          ∧ t.mem = (u.landFrame p (peCluster x) (peLandBase x + h.offset.toNat) bs).1.mem)
      ∧ (peState x = psShed → ∃ t, exec (.joryarData dt p mac h bs) s = .next t ∧ t.mem = s.mem
        ∧ tabGet 0 (t.dyn h.dstPartner.toNat).counters pcShedDrop = tabGet 0 (s.dyn h.dstPartner.toNat).counters pcShedDrop + 1)
      ∧ (peState x = psActive → (s.dyn h.dstPartner.toNat).queued = [] →
        ((h.ack.toNat + 2 ^ 32 - (s.dyn h.dstPartner.toNat).txSeq) % 2 ^ 32 = 0
          ∨ 4096 < (h.ack.toNat + 2 ^ 32 - (s.dyn h.dstPartner.toNat).txSeq) % 2 ^ 32) →
        ∃ t, exec (.joryarAck dt p mac h) s = .next t ∧ t.mem = s.mem
        ∧ (t.dyn h.dstPartner.toNat).unacked = (s.dyn h.dstPartner.toNat).unacked.filter (fun f => epLe h.ack.toNat f.seq)))
    ∧ (s.rxOn p = true → bs.length ≤ 8256 → s.joryarPartner mac h = none → ∃ t, exec (.joryarData dt p mac h bs) s = .next t
      ∧ (t.port p).status.has 10 = true ∧ t.mem = s.mem)
    ∧ (∀ i : PartnerId, s.linksOn = true → (s.dyn i).sinceAck ≠ 0 → s.secured i = true → (s.port (s.replyPort i)).up = true →
      s.jtag.inEffect = false → ∃ t f, exec (.ackTimer dt i) s = .next t
      ∧ t.fabric.sent = s.fabric.sent ++ [f] ∧ f.type = jtAck ∧ f.seq = (s.dyn i).rxSeq ∧ (t.dyn i).sinceAck = 0)
    ∧ (∀ i : PartnerId, s.linksOn = true → (s.dyn i).unacked ≠ [] → (s.dyn i).ackAt + 100000 ≤ u.now → s.jtag.inEffect = false →
      s.secured i = true → (s.ca (peCa (s.partner i))).txPn + (s.dyn i).unacked.length ≤ 2 ^ 62 → (s.port (s.replyPort i)).up = true →
      (∀ f ∈ (s.dyn i).unacked, f.kind = 0 ∧ f.partner = i ∧ f.size ≤ frameMax) →
      ∃ t, exec (.resendTimeout dt i) s = .next t
      ∧ t.fabric.sent.length = s.fabric.sent.length + (s.dyn i).unacked.length ∧ (t.dyn i).resends = (s.dyn i).resends + 1
      ∧ (t.dyn i).unacked = (s.dyn i).unacked ∧ (t.dyn i).ackAt = u.now ∧ t.mem = s.mem)

/-- R595, R603 to R605, R608: on a worker a CMD frame of its manager in sequence joins the command's ring with the manager's tag, a BULK frame goes to
its entry; on the manager OUTPUT is gathered, CPL ends the relay with the worker's completion, and so does its time. A SHED frame of a partner is received and counted; a worker that has
missed eight relay frames takes a listed successor as its manager of record. -/
def Obligations.RelayedCommands : Prop :=
  ∀ (s : State) (dt : Nat) (p : PortId) (h : JoryarHdr) (bs : List Byte) (i : Nat) (u : State), u = s.elapse dt → bs.length ≤ 8256 →
    h.seq.toNat = (s.dyn i).rxSeq →
    (u.portRuns p = true → s.mailboxOn = true → s.mbx.manager = false → s.relaySource p h = some i → (u.relayPasses p i bs.length h).2 = true →
      (bs.length = 64 → (s.portsOpen = true ∨ bareOpcode (leAt bs 0 2) = true) → (s.ring (relayRing (leAt bs 0 2))).free ≠ 0 →
        ∃ t, exec (.joryarCmd dt p h bs) s = .next t
        ∧ (t.ring (relayRing (leAt bs 0 2))).cmds = (s.ring (relayRing (leAt bs 0 2))).cmds
            ++ [{ bytes := bs, session := none, headAt := u.now, relay := some (i, h.tag.toNat), direct := false, bulk := [] }]
        ∧ (t.dyn i).rxSeq = (h.seq.toNat + 1) % 2 ^ 32)
      ∧ (s.strayBulk i h = false → ∃ t, exec (.joryarBulk dt p h bs) s = .next t
        ∧ (t.ring 2).cmds = (s.ring 2).cmds.map (fun a => a.feed i h.tag.toNat h.offset.toNat bs)
        ∧ (t.dyn i).rxSeq = (h.seq.toNat + 1) % 2 ^ 32))
    ∧ (s.rxOn p = true → s.fromWorker h = some i → (u.relayPasses p i bs.length h).2 = true →
      (∃ t, exec (.joryarOutput dt p h bs) s = .next t ∧ t.fabric.domain.relays
          = s.fabric.domain.relays.map (fun r => if r.worker = h.srcModule.toNat ∧ r.tag = h.tag.toNat then
            (if h.offset.toNat = r.data.length then { r with data := r.data ++ bs } else r) else r))
      ∧ (∀ r plain, s.relayOf h.srcModule.toNat h.tag.toNat = some r → r.cpl = none →
        (∀ q x, s.ringExecuting (fun c => match c with
          | .domainRelay w => decide (w.toNat = r.worker)
          | _ => false) = some q → (s.ring q).exec = some x → s.answerFits x.relay x.hdr (Relay.answer { r with cpl := some bs } s) = true) →
        ∃ t, exec (.joryarCpl dt p h bs plain) s = .next t
        ∧ t.fabric.domain.relays = s.fabric.domain.relays.filter (fun y => !(decide (y.worker = r.worker) && decide (y.tag = r.tag)))))
    ∧ (∀ (w : Byte) (tag : Half) r, s.relayOf w.toNat tag.toNat = some r → s.mailboxOn = true → r.cpl = none →
      r.since + r.limit ≤ u.now → s.mbx.boutFifo.length ≤ 65536 →
      ∃ t, exec (.domainRelayTimeout dt w tag) s = .next t
        ∧ t.fabric.domain.relays = s.fabric.domain.relays.filter (fun y => !(decide (y.worker = w.toNat) && decide (y.tag = tag.toNat))))
    ∧ (s.rxOn p = true → s.isJoryar h = true → peState (s.partner h.dstPartner.toNat) = psActive →
      (peKind (s.partner h.dstPartner.toNat) = pkSession ∨ peKind (s.partner h.dstPartner.toNat) = pkPeer) →
      u.rxFault (peCa (s.partner h.dstPartner.toNat)) h.prot = none →
      exec (.joryarShed dt p h) s = .next (((u.countRx p 32).modCa (peCa (s.partner h.dstPartner.toNat)) (fun c => { c with
        rxPn := max c.rxPn (h.prot.pn.toNat + 1) })).countPartner h.dstPartner.toNat pcRx 1))
    ∧ (∀ (m : Byte) (pr : Protection) (fp : BitVec 256), s.rxOn p = true → s.domainOn = true → s.mbx.manager = false → fp ≠ 0 →
      s.fabric.domain.succFps.contains fp = true → 8 ≤ s.fabric.relay.since → peState (s.partner (1 + m.toNat)) = psActive →
      u.rxFault (peCa (s.partner (1 + m.toNat))) pr = none → ∃ t, exec (.joryarTakeover dt p m pr fp) s = .next t
        ∧ EventsOnly (((((u.countRx p 32).modCa (peCa (s.partner (1 + m.toNat))) (fun c => { c with
            rxPn := max c.rxPn (pr.pn.toNat + 1) })).modDomain (fun d => { d with managerIndex := m.toNat })).modRelay (fun r => { r with
            valid := 0, asked := false })).modTime (fun q => { q with
            sources := q.sources.map (fun y => if y.kind = .relay then { y with run := 0 } else y) })) t)

/-- R542 to R544, R566 to R569, R573, R644: a port that goes down leaves its group, for its rings only where one does not serve, and comes up
a member again once they serve; a phase begins at its START_NS, with what has been sent by then; a receiver that has not locked 3 us after
its retune is lost for the phase; the oldest packet in a receiver's buffer is written, or dropped where it may not be, of another tenant's
source always. -/
def Obligations.PortsAndRouter : Prop :=
  ∀ (s : State) (dt : Nat) (p : PortId) (c src : ClusterId) (k : Fin 4) (u : State), u = s.elapse dt →
    (∀ a : Fin 3, u.portRuns p = true → (a.val = 2 → ∃ l ∈ portLoops p, s.ringServes l = false) →
      ∃ t, exec (.portDown dt p a) s = .next t ∧ (t.port p).up = false ∧ (t.port p).lacp = false ∧ (t.port p).served = false
      ∧ (t.port p).status.has 8 = true ∧ t.mem = s.mem)
    ∧ (s.linksOn = true → (s.port p).up = false → (s.port p).dark = 0 → s.isInjected 5 p = false →
      (∀ l ∈ portLoops p, s.ringServes l = true) → ∃ t, exec (.portUp dt p) s = .next t ∧ (t.port p).up = true
      ∧ (t.port p).served = true ∧ p.val ∈ t.members (p.val / 8) ∧ t.mem = s.mem)
    ∧ (∀ ph, s.clocksOn = true → s.fabric.phaseMap[s.fabric.curPhase + 1]? = some ph → ph.start ≤ u.inTick →
      ∃ t, exec (.phaseStart dt) s = .next t ∧ t.fabric.curPhase = s.fabric.curPhase + 1 ∧ t.fabric.phaseAt = u.now
        ∧ EventsOnly { u with fabric := t.fabric, clusters := t.clusters } t)
    ∧ ((s.entrySource s.phaseNow c k).isSome = true → s.retunes c k = true → s.fabric.phaseAt + 3000 ≤ u.now →
      u.now ≤ s.fabric.phaseAt + 3050 →
      ∃ t, exec (.retuneFail dt c k) s = .next t ∧ (t.cluster c).locked.getLsbD k = false ∧ (t.cluster c).router.has 9 = true
        ∧ t.mem = s.mem)
    ∧ (∀ (a : Word) data pk, data.length ≤ 4096 → s.fabric.packets.find? (fun q => q.dest == c.val && q.rx == k.val) = some pk →
      pk.src = src.val → pk.addr = a.toNat → pk.data = data →
      (s.joins src c = false → ∃ t, exec (.routerReceive dt c k src a data) s = .next t ∧ (t.cluster c).router.has 8 = true
        ∧ t.mem = s.mem ∧ t.fabric.packets.length + 1 = s.fabric.packets.length)
      ∧ (s.joins src c = true → (u.barred c .clusterHaul a.toNat data.length = true → ∃ t, exec (.routerReceive dt c k src a data) s = .next t
          ∧ (t.cluster c).router.has 8 = true ∧ t.mem = s.mem ∧ t.fabric.packets.length + 1 = s.fabric.packets.length)
        ∧ (u.barred c .clusterHaul a.toNat data.length = false →
          (s.cluster c).isHeld [(cmKey c (a.toNat - 0x100000), data.length)] (fun _ => false) = false →
          ∃ t, exec (.routerReceive dt c k src a data) s = .next t ∧ t.mem = (u.landBytes c a.toNat data).mem
            ∧ t.fabric.packets.length + 1 = s.fabric.packets.length)))

/-! ## Keys, strips and faults -/

/-- R651 to R658: the re-encryption pass takes up its next chunk once no transfer touches it, puts its sealed lines under the current key
and holds it; the last chunk of a page brings the page under the current generation; a strip begins at a boundary with every byte of the
cluster zero, and with no haul out of it under way no other byte changes; 15,900 us on it is done: the cluster belongs to its new tenant and its
unsealed slabs are BLANK. -/
def Obligations.KeysAndStrips : Prop :=
  ∀ (s : State) (dt : Nat) (u : State), u = s.elapse dt →
    (∀ (t : TenantId) (k : Fin 2) g p rest n lo hi, (s.tenant t).genOld = some g → s.power.pstate = .ps0 → s.clocksOn = true →
      u.holdOver t k = true → (s.pagesUnder t g).filter (fun q => pageStack q == k.val) = p :: rest →
      ((tabFind (s.tenant t).rekey k = none ∧ n = 1) ∨ (tabFind (s.tenant t).rekey k = some (p, n - 1) ∧ 2 ≤ n ∧ n ≤ 128)) →
      lo = hbmKey p ((n - 1) * 0x10000) → hi = hbmKey p (n * 0x10000) → u.inFlight lo hi = false →
      exec (.rekeyChunk dt t k) s = .next (({ u.takeFree with
        seals := reseal (lo / 64) (hi / 64 - 1) (s.keyNo t g) (s.keyNo t (s.tenant t).genCur) s.seals }).modTenant t (fun x => { x with
          rekey := tabPut x.rekey k (p, n), holdUntil := tabPut x.holdUntil k (u.now + u.chunkTime) })))
    ∧ (∀ (t : TenantId) (k : Fin 2) p, tabFind (s.tenant t).rekey k = some (p, 128) → u.holdOver t k = true →
      ∃ w, exec (.rekeyChunk dt t k) s = .next w ∧ (w.page p).keyGen = (s.tenant t).genCur ∧ w.mem = s.mem)
    ∧ (∀ (c : ClusterId) y, (s.cluster c).strip = some y → y.running = false → u.atStart = true → y.notBefore ≤ u.now → s.linksOn = true → s.strips < 16 →
      u.slotsTaken ≤ 960 → ∃ t, exec (.stripStart dt c) s = .next t
        ∧ (t.cluster c).strip = some { y with running := true, startedAt := u.now } ∧ (t.cluster c).tenant = (s.cluster c).tenant
        ∧ (∀ a, ofCluster c a = true → t.byte a = 0)
        ∧ ((∀ q ∈ (s.cluster c).runs, q.2.active = true → dKind ((s.cluster c).task q.1) ≠ kClusterHaul) →
          ∀ a, ofCluster c a = false → t.byte a = s.byte a))
    ∧ (∀ (c : ClusterId) y, (s.cluster c).strip = some y → y.running = true → y.startedAt + 15900000 ≤ u.now → (s.tenant (s.cluster c).tenant).deleting = false →
      ∃ t, exec (.stripDone dt c) s = .next t ∧ (t.cluster c).tenant = y.target ∧ (t.cluster c).strip = none ∧ t.mem = s.mem
        ∧ ∀ k, slabCluster k = c.val → (s.slab k).sealed_ = false → (t.slab k).dress = .blank ∧ (t.slab k).bound = false)

/-- R717 to R719, R856 to R861, R867: a hung core is recorded with the standby that acts for it; a lost HBM stack frees its pages from the
first boundary at least 5 us on; a lost compute die leaves the module with one group, and DS0 takes the host interface with it; the
watchdog stops the firmware, restarts it on an unchanged image, and after the third expiry in a second leaves it halted; an injected fault
ends with its hold. -/
def Obligations.FaultsTakeEffect : Prop :=
  ∀ (s : State) (dt : Nat) (u : State), u = s.elapse dt →
    (∀ (n : CoreId) c k, c = n.val / 64 → k = n.val % 64 → s.clocksOn = true → s.runsPlans = true → (s.cluster c).active.isSome = true →
      s.fabric.groupLost.contains (c / 32) = false → (s.cluster c).hung.any (fun h => h.1 == k) = false →
      ∃ t, exec (.coreHang dt n) s = .next t ∧ (k, (s.cluster c).freeStandby k) ∈ (t.cluster c).hung)
    ∧ (∀ k : Fin 12, s.clocksOn = true → s.hbmLost.any (fun x => x.1 == k.val) = false → ∃ t, exec (.hbmLost dt k) s = .next t
      ∧ t.hbmLost = s.hbmLost ++ [(k.val, some u.leadFrom)])
    ∧ (s.clocksOn = true → s.fabric.groupLost.contains 1 = false → ∃ t, exec (.dieLost dt 1) s = .next t
      ∧ t.fabric.groupLost = s.fabric.groupLost ++ [1] ∧ (∀ p, 8 ≤ p → p < 16 → (t.port p).up = false) ∧ t.mbx.fw = s.mbx.fw)
    ∧ (s.clocksOn = true → s.fabric.groupLost.contains 0 = false → ∃ t, exec (.dieLost dt 0) s = .next t
      ∧ t.fabric.groupLost = s.fabric.groupLost ++ [0] ∧ (∀ p, p < 8 → (t.port p).up = false) ∧ t.mbx.fw = .halted
      ∧ t.sdio.ioReady = false ∧ t.power.ds0Ticks = some 0)
    ∧ (s.mailboxOn = true → s.mbx.fw = .running →
      ((s.mbx.wdogs.filter (fun n => decide (u.now < n + 1000000000))).length < 2 → ∃ t, exec (.watchdogExpiry dt) s = .next t
        ∧ t.mbx.fw = .restarting ∧ t.mbx.int.has 9 = true ∧ t = { u with mbx := t.mbx })
      ∧ (2 ≤ (s.mbx.wdogs.filter (fun n => decide (u.now < n + 1000000000))).length → ∃ t, exec (.watchdogExpiry dt) s = .next t
        ∧ t.mbx.fw = .halted ∧ t.mem = s.mem))
    ∧ (s.mailboxOn = true → s.mbx.fw = .restarting →
      (∃ t, exec (.wdogRestart dt true) s = .next t ∧ t.mbx.fw = .running ∧ t.mbx.restarts = (s.mbx.restarts + 1) % 256
        ∧ t.mbx.hwFifo = [] ∧ t.mem = s.mem)
      ∧ (∃ t, exec (.wdogRestart dt false) s = .next t ∧ t.mbx.fw = .halted ∧ t.mem = s.mem))
    ∧ (∀ (k : Byte) (g : Word) f n, f ∈ s.faults → f.kind = k.toNat → f.target = g.toNat → f.until_ = some n → n ≤ u.now →
      ∃ t, exec (.injectHoldEnd dt k g) s = .next t ∧ f ∉ t.faults ∧ t.mem = s.mem ∧ t.time = u.time)

/-! ## Numbers, events, the 64-byte command and the invariant -/

/-- R99 to R101, R105, R106, R125: the slices of a weight, over the signed high nibble and the unsigned low nibble of an input, add up to
the product of weight and input, exactly: for INT8 and INT8-lean weights, and for INT4 weights. -/
def Obligations.SlicesMakeProducts : Prop :=
  ∀ (w x : Int), -128 ≤ x → x ≤ 127 →
    (-128 ≤ w → w ≤ 127 → ∀ f, f < 2 → weightStep f (w + 128).toNat 4 (x / 16) + weightStep f (w + 128).toNat 0 (x % 16) = w * x)
    ∧ (-8 ≤ w → w ≤ 7 → weightStep 2 (w + 8).toNat 4 (x / 16) + weightStep 2 (w + 8).toNat 0 (x % 16) = w * x)

/-- R720, R730, R862, R865: a record posted while the firmware runs is the log's last, under the next number, EVENT is set and the log
keeps 8,192 records; otherwise it waits in the hardware FIFO of 1,024, and beyond it is counted as lost. -/
def Obligations.EventsArePosted : Prop :=
  ∀ (s : State) (cls tenant : Nat) (module injected : Bool) (payload : Nat) (e : Event) (t : State),
    e = { time := s.time.timeNs, cls := cls, tenant := tenant, module := module, injected := injected, payload := BitVec.ofNat 160 payload } →
    t = s.raise cls tenant module injected payload →
    (s.mbx.fw = .running → t.mbx.log.getLast? = some (s.mbx.logSeq, e) ∧ t.mbx.logSeq = s.mbx.logSeq + 1 ∧ t.mbx.int.has 4 = true
      ∧ t.mbx.hwFifo = s.mbx.hwFifo ∧ (s.mbx.log.length ≤ 8192 → t.mbx.log.length = min (s.mbx.log.length + 1) 8192))
    ∧ (s.mbx.fw ≠ .running → s.mbx.hwFifo.length < 1024 → t = s.modMbx (fun m => { m with hwFifo := m.hwFifo ++ [e] }))
    ∧ (s.mbx.fw ≠ .running → 1024 ≤ s.mbx.hwFifo.length → t = s.modMbx (fun m => { m with hwLost := m.hwLost + 1 }))

/-- R7, R696, R699, R700: the 64 bytes of every mailbox command, on a ring that its opcode may use, with every field at every value, are
read as that very command. -/
def Obligations.EncodedCommandsParse : Prop :=
  ∀ (h : CmdHdr) (c : HostCmd), (ringsOf (opcodeOf c)).contains h.ring = true → (h.ring = .blk ∨ h.bulk = []) →
    (∀ l, c = .thermalLimitsSet l → l.length = 7) → checkBytes h.ring (cmdBytes h c) = .ok c

/-- Every command leaves memory in its canonical form and the queue as it found it: whatever state a step starts from, if its memory
is canonical so is the next state's, and the queue is the rest. -/
def Obligations.StepKeepsMemoryAndQueue : Prop :=
  ∀ (s t : State), s.MemOk → step s = .next t → t.MemOk ∧ t.pending = s.pending.tail

/-- Reset meets the invariant of StepKeepsMemoryAndQueue. -/
def Obligations.ResetMemoryIsCanonical : Prop := State.reset.MemOk ∧ State.reset.mem = [] ∧ State.reset.pending = []
end

