-- ==== Sys2Proof/Laws/Tab.lean ====
section
/-! SUPPORT. Sparse tables: what a read after a write gives, and that writes keep the canonical form. -/

namespace Sys2Proof.Machine

section
variable {α : Type}

theorem tabFind_tabPut_same (t : Tab α) (k : Nat) (v : α) : tabFind (tabPut t k v) k = some v := by
  induction t with
  | nil => simp [tabPut, tabFind]
  | cons x t ih =>
    obtain ⟨j, w⟩ := x
    unfold tabPut
    split
    · simp [tabFind]
    · split
      · simp [tabFind]
      · rename_i h
        simp [tabFind, Ne.symm h, ih]

theorem tabFind_tabPut_other (t : Tab α) {k j : Nat} (v : α) (h : j ≠ k) : tabFind (tabPut t k v) j = tabFind t j := by
  induction t with
  | nil => simp [tabPut, tabFind, Ne.symm h]
  | cons x t ih =>
    obtain ⟨i, w⟩ := x
    unfold tabPut
    split
    · simp [tabFind, Ne.symm h]
    · split
      · rename_i e
        subst e
        simp [tabFind, Ne.symm h]
      · simp only [tabFind, ih]

theorem tabFind_tabDel_other (t : Tab α) {k j : Nat} (h : j ≠ k) : tabFind (tabDel t k) j = tabFind t j := by
  induction t with
  | nil => rfl
  | cons x t ih =>
    obtain ⟨i, w⟩ := x
    unfold tabDel
    split
    · rename_i e
      subst e
      simp [tabFind, Ne.symm h, ih]
    · simp only [tabFind, ih]

theorem tabFind_tabDel_same (t : Tab α) (k : Nat) : tabFind (tabDel t k) k = none := by
  induction t with
  | nil => rfl
  | cons x t ih =>
    obtain ⟨i, w⟩ := x
    unfold tabDel
    split
    · exact ih
    · rename_i e
      simp only [tabFind, if_neg e, ih]

variable [DecidableEq α]

/-- Keys of a table whose keys rise above a bound lie at or above the bound. -/
theorem tabFind_below (d : Nat → α) (t : Tab α) {lo k : Nat} (h : tabWfFrom d lo t = true) (hk : k < lo) :
    tabFind t k = none := by
  induction t generalizing lo with
  | nil => rfl
  | cons x t ih =>
    obtain ⟨i, w⟩ := x
    simp only [tabWfFrom, Bool.and_eq_true, decide_eq_true_eq] at h
    have hi : i ≠ k := by omega
    simp only [tabFind, if_neg hi]
    exact ih h.2 (by omega)

/-- A read of the key written gives the value written. -/
theorem tabGet_tabSet_same (d : α) (t : Tab α) (k : Nat) (v : α) : tabGet d (tabSet d t k v) k = v := by
  unfold tabGet tabSet
  split
  · rename_i e
    rw [tabFind_tabDel_same t k, e]
    rfl
  · rw [tabFind_tabPut_same]
    rfl

/-- A read of another key gives what it gave before. -/
theorem tabGet_tabSet_other (d e : α) (t : Tab α) {k j : Nat} (v : α) (h : j ≠ k) :
    tabGet e (tabSet d t k v) j = tabGet e t j := by
  unfold tabGet tabSet
  split
  · rw [tabFind_tabDel_other t h]
  · rw [tabFind_tabPut_other t v h]

theorem tabWfFrom_mono (d : Nat → α) (t : Tab α) {lo lo' : Nat} (h : tabWfFrom d lo t = true) (hl : lo' ≤ lo) :
    tabWfFrom d lo' t = true := by
  cases t with
  | nil => rfl
  | cons x t =>
    obtain ⟨i, w⟩ := x
    simp only [tabWfFrom, Bool.and_eq_true, decide_eq_true_eq] at h ⊢
    exact ⟨⟨by omega, h.1.2⟩, h.2⟩

theorem tabWfFrom_tabDel (d : Nat → α) (t : Tab α) {lo : Nat} (k : Nat) (h : tabWfFrom d lo t = true) :
    tabWfFrom d lo (tabDel t k) = true := by
  induction t generalizing lo with
  | nil => rfl
  | cons x t ih =>
    obtain ⟨i, w⟩ := x
    simp only [tabWfFrom, Bool.and_eq_true, decide_eq_true_eq] at h
    unfold tabDel
    split
    · exact ih (tabWfFrom_mono d t h.2 (by omega))
    · simp only [tabWfFrom, Bool.and_eq_true, decide_eq_true_eq]
      exact ⟨h.1, ih h.2⟩

theorem tabWfFrom_tabPut (d : Nat → α) (t : Tab α) {lo : Nat} (k : Nat) (v : α) (h : tabWfFrom d lo t = true)
    (hk : lo ≤ k) (hv : v ≠ d k) : tabWfFrom d lo (tabPut t k v) = true := by
  induction t generalizing lo with
  | nil => simp [tabPut, tabWfFrom, hk, hv]
  | cons x t ih =>
    obtain ⟨i, w⟩ := x
    simp only [tabWfFrom, Bool.and_eq_true, decide_eq_true_eq] at h
    unfold tabPut
    split
    · simp only [tabWfFrom, Bool.and_eq_true, decide_eq_true_eq]
      exact ⟨⟨hk, hv⟩, ⟨by omega, h.1.2⟩, h.2⟩
    · split
      · rename_i e
        subst e
        simp only [tabWfFrom, Bool.and_eq_true, decide_eq_true_eq]
        exact ⟨⟨hk, hv⟩, h.2⟩
      · simp only [tabWfFrom, Bool.and_eq_true, decide_eq_true_eq]
        exact ⟨h.1, ih h.2 (by omega)⟩

/-- A write keeps the canonical form. -/
theorem tabWf_tabSet (d : Nat → α) (t : Tab α) (k : Nat) (v : α) (h : tabWf d t = true) :
    tabWf d (tabSet (d k) t k v) = true := by
  unfold tabSet
  split
  · exact tabWfFrom_tabDel d t k h
  · rename_i e
    exact tabWfFrom_tabPut d t k v h (Nat.zero_le k) e

end

end Sys2Proof.Machine
end

