-- ==== Sys2Proof/Laws/State.lean ====
section
/-! SUPPORT. State: what each update of one unit leaves unchanged, field by field, and what a unit reads after it. -/

namespace Sys2Proof.Machine

variable (s : State)

@[simp] theorem State.setCluster_pending (k : Nat) (x : Cluster) : (s.setCluster k x).pending = s.pending := rfl
@[simp] theorem State.setCluster_time (k : Nat) (x : Cluster) : (s.setCluster k x).time = s.time := rfl
@[simp] theorem State.setCluster_slabs (k : Nat) (x : Cluster) : (s.setCluster k x).slabs = s.slabs := rfl
@[simp] theorem State.setCluster_vec (k : Nat) (x : Cluster) : (s.setCluster k x).vec = s.vec := rfl
@[simp] theorem State.setCluster_engines (k : Nat) (x : Cluster) : (s.setCluster k x).engines = s.engines := rfl
@[simp] theorem State.setCluster_banks (k : Nat) (x : Cluster) : (s.setCluster k x).banks = s.banks := rfl
@[simp] theorem State.setCluster_hauls (k : Nat) (x : Cluster) : (s.setCluster k x).hauls = s.hauls := rfl
@[simp] theorem State.setCluster_mem (k : Nat) (x : Cluster) : (s.setCluster k x).mem = s.mem := rfl
@[simp] theorem State.setCluster_tags (k : Nat) (x : Cluster) : (s.setCluster k x).tags = s.tags := rfl
@[simp] theorem State.setCluster_seals (k : Nat) (x : Cluster) : (s.setCluster k x).seals = s.seals := rfl
@[simp] theorem State.setCluster_pages (k : Nat) (x : Cluster) : (s.setCluster k x).pages = s.pages := rfl
@[simp] theorem State.setCluster_pageChanges (k : Nat) (x : Cluster) : (s.setCluster k x).pageChanges = s.pageChanges := rfl
@[simp] theorem State.setCluster_tiles (k : Nat) (x : Cluster) : (s.setCluster k x).tiles = s.tiles := rfl
@[simp] theorem State.setCluster_hbmLost (k : Nat) (x : Cluster) : (s.setCluster k x).hbmLost = s.hbmLost := rfl
@[simp] theorem State.setCluster_carts (k : Nat) (x : Cluster) : (s.setCluster k x).carts = s.carts := rfl
@[simp] theorem State.setCluster_feed (k : Nat) (x : Cluster) : (s.setCluster k x).feed = s.feed := rfl
@[simp] theorem State.setCluster_loops (k : Nat) (x : Cluster) : (s.setCluster k x).loops = s.loops := rfl
@[simp] theorem State.setCluster_ringTrim (k : Nat) (x : Cluster) : (s.setCluster k x).ringTrim = s.ringTrim := rfl
@[simp] theorem State.setCluster_xtalk (k : Nat) (x : Cluster) : (s.setCluster k x).xtalk = s.xtalk := rfl
@[simp] theorem State.setCluster_xstage (k : Nat) (x : Cluster) : (s.setCluster k x).xstage = s.xstage := rfl
@[simp] theorem State.setCluster_xcommit (k : Nat) (x : Cluster) : (s.setCluster k x).xcommit = s.xcommit := rfl
@[simp] theorem State.setCluster_power (k : Nat) (x : Cluster) : (s.setCluster k x).power = s.power := rfl
@[simp] theorem State.setCluster_pmbus (k : Nat) (x : Cluster) : (s.setCluster k x).pmbus = s.pmbus := rfl
@[simp] theorem State.setCluster_monconv (k : Nat) (x : Cluster) : (s.setCluster k x).monconv = s.monconv := rfl
@[simp] theorem State.setCluster_corr (k : Nat) (x : Cluster) : (s.setCluster k x).corr = s.corr := rfl
@[simp] theorem State.setCluster_heaters (k : Nat) (x : Cluster) : (s.setCluster k x).heaters = s.heaters := rfl
@[simp] theorem State.setCluster_fabric (k : Nat) (x : Cluster) : (s.setCluster k x).fabric = s.fabric := rfl
@[simp] theorem State.setCluster_trust (k : Nat) (x : Cluster) : (s.setCluster k x).trust = s.trust := rfl
@[simp] theorem State.setCluster_mbx (k : Nat) (x : Cluster) : (s.setCluster k x).mbx = s.mbx := rfl
@[simp] theorem State.setCluster_sdio (k : Nat) (x : Cluster) : (s.setCluster k x).sdio = s.sdio := rfl
@[simp] theorem State.setCluster_jtag (k : Nat) (x : Cluster) : (s.setCluster k x).jtag = s.jtag := rfl
@[simp] theorem State.setCluster_faults (k : Nat) (x : Cluster) : (s.setCluster k x).faults = s.faults := rfl
@[simp] theorem State.setCluster_free (k : Nat) (x : Cluster) : (s.setCluster k x).free = s.free := rfl

@[simp] theorem State.modCluster_pending (k : Nat) (f : Cluster → Cluster) : (s.modCluster k f).pending = s.pending := rfl
@[simp] theorem State.modCluster_time (k : Nat) (f : Cluster → Cluster) : (s.modCluster k f).time = s.time := rfl
@[simp] theorem State.modCluster_slabs (k : Nat) (f : Cluster → Cluster) : (s.modCluster k f).slabs = s.slabs := rfl
@[simp] theorem State.modCluster_vec (k : Nat) (f : Cluster → Cluster) : (s.modCluster k f).vec = s.vec := rfl
@[simp] theorem State.modCluster_engines (k : Nat) (f : Cluster → Cluster) : (s.modCluster k f).engines = s.engines := rfl
@[simp] theorem State.modCluster_banks (k : Nat) (f : Cluster → Cluster) : (s.modCluster k f).banks = s.banks := rfl
@[simp] theorem State.modCluster_hauls (k : Nat) (f : Cluster → Cluster) : (s.modCluster k f).hauls = s.hauls := rfl
@[simp] theorem State.modCluster_mem (k : Nat) (f : Cluster → Cluster) : (s.modCluster k f).mem = s.mem := rfl
@[simp] theorem State.modCluster_tags (k : Nat) (f : Cluster → Cluster) : (s.modCluster k f).tags = s.tags := rfl
@[simp] theorem State.modCluster_seals (k : Nat) (f : Cluster → Cluster) : (s.modCluster k f).seals = s.seals := rfl
@[simp] theorem State.modCluster_pages (k : Nat) (f : Cluster → Cluster) : (s.modCluster k f).pages = s.pages := rfl
@[simp] theorem State.modCluster_pageChanges (k : Nat) (f : Cluster → Cluster) : (s.modCluster k f).pageChanges = s.pageChanges := rfl
@[simp] theorem State.modCluster_tiles (k : Nat) (f : Cluster → Cluster) : (s.modCluster k f).tiles = s.tiles := rfl
@[simp] theorem State.modCluster_hbmLost (k : Nat) (f : Cluster → Cluster) : (s.modCluster k f).hbmLost = s.hbmLost := rfl
@[simp] theorem State.modCluster_carts (k : Nat) (f : Cluster → Cluster) : (s.modCluster k f).carts = s.carts := rfl
@[simp] theorem State.modCluster_feed (k : Nat) (f : Cluster → Cluster) : (s.modCluster k f).feed = s.feed := rfl
@[simp] theorem State.modCluster_loops (k : Nat) (f : Cluster → Cluster) : (s.modCluster k f).loops = s.loops := rfl
@[simp] theorem State.modCluster_ringTrim (k : Nat) (f : Cluster → Cluster) : (s.modCluster k f).ringTrim = s.ringTrim := rfl
@[simp] theorem State.modCluster_xtalk (k : Nat) (f : Cluster → Cluster) : (s.modCluster k f).xtalk = s.xtalk := rfl
@[simp] theorem State.modCluster_xstage (k : Nat) (f : Cluster → Cluster) : (s.modCluster k f).xstage = s.xstage := rfl
@[simp] theorem State.modCluster_xcommit (k : Nat) (f : Cluster → Cluster) : (s.modCluster k f).xcommit = s.xcommit := rfl
@[simp] theorem State.modCluster_power (k : Nat) (f : Cluster → Cluster) : (s.modCluster k f).power = s.power := rfl
@[simp] theorem State.modCluster_pmbus (k : Nat) (f : Cluster → Cluster) : (s.modCluster k f).pmbus = s.pmbus := rfl
@[simp] theorem State.modCluster_monconv (k : Nat) (f : Cluster → Cluster) : (s.modCluster k f).monconv = s.monconv := rfl
@[simp] theorem State.modCluster_corr (k : Nat) (f : Cluster → Cluster) : (s.modCluster k f).corr = s.corr := rfl
@[simp] theorem State.modCluster_heaters (k : Nat) (f : Cluster → Cluster) : (s.modCluster k f).heaters = s.heaters := rfl
@[simp] theorem State.modCluster_fabric (k : Nat) (f : Cluster → Cluster) : (s.modCluster k f).fabric = s.fabric := rfl
@[simp] theorem State.modCluster_trust (k : Nat) (f : Cluster → Cluster) : (s.modCluster k f).trust = s.trust := rfl
@[simp] theorem State.modCluster_mbx (k : Nat) (f : Cluster → Cluster) : (s.modCluster k f).mbx = s.mbx := rfl
@[simp] theorem State.modCluster_sdio (k : Nat) (f : Cluster → Cluster) : (s.modCluster k f).sdio = s.sdio := rfl
@[simp] theorem State.modCluster_jtag (k : Nat) (f : Cluster → Cluster) : (s.modCluster k f).jtag = s.jtag := rfl
@[simp] theorem State.modCluster_faults (k : Nat) (f : Cluster → Cluster) : (s.modCluster k f).faults = s.faults := rfl
@[simp] theorem State.modCluster_free (k : Nat) (f : Cluster → Cluster) : (s.modCluster k f).free = s.free := rfl

@[simp] theorem State.setSlab_pending (k : Nat) (x : Slab) : (s.setSlab k x).pending = s.pending := rfl
@[simp] theorem State.setSlab_time (k : Nat) (x : Slab) : (s.setSlab k x).time = s.time := rfl
@[simp] theorem State.setSlab_clusters (k : Nat) (x : Slab) : (s.setSlab k x).clusters = s.clusters := rfl
@[simp] theorem State.setSlab_vec (k : Nat) (x : Slab) : (s.setSlab k x).vec = s.vec := rfl
@[simp] theorem State.setSlab_engines (k : Nat) (x : Slab) : (s.setSlab k x).engines = s.engines := rfl
@[simp] theorem State.setSlab_banks (k : Nat) (x : Slab) : (s.setSlab k x).banks = s.banks := rfl
@[simp] theorem State.setSlab_hauls (k : Nat) (x : Slab) : (s.setSlab k x).hauls = s.hauls := rfl
@[simp] theorem State.setSlab_mem (k : Nat) (x : Slab) : (s.setSlab k x).mem = s.mem := rfl
@[simp] theorem State.setSlab_tags (k : Nat) (x : Slab) : (s.setSlab k x).tags = s.tags := rfl
@[simp] theorem State.setSlab_seals (k : Nat) (x : Slab) : (s.setSlab k x).seals = s.seals := rfl
@[simp] theorem State.setSlab_pages (k : Nat) (x : Slab) : (s.setSlab k x).pages = s.pages := rfl
@[simp] theorem State.setSlab_pageChanges (k : Nat) (x : Slab) : (s.setSlab k x).pageChanges = s.pageChanges := rfl
@[simp] theorem State.setSlab_tiles (k : Nat) (x : Slab) : (s.setSlab k x).tiles = s.tiles := rfl
@[simp] theorem State.setSlab_hbmLost (k : Nat) (x : Slab) : (s.setSlab k x).hbmLost = s.hbmLost := rfl
@[simp] theorem State.setSlab_carts (k : Nat) (x : Slab) : (s.setSlab k x).carts = s.carts := rfl
@[simp] theorem State.setSlab_feed (k : Nat) (x : Slab) : (s.setSlab k x).feed = s.feed := rfl
@[simp] theorem State.setSlab_loops (k : Nat) (x : Slab) : (s.setSlab k x).loops = s.loops := rfl
@[simp] theorem State.setSlab_ringTrim (k : Nat) (x : Slab) : (s.setSlab k x).ringTrim = s.ringTrim := rfl
@[simp] theorem State.setSlab_xtalk (k : Nat) (x : Slab) : (s.setSlab k x).xtalk = s.xtalk := rfl
@[simp] theorem State.setSlab_xstage (k : Nat) (x : Slab) : (s.setSlab k x).xstage = s.xstage := rfl
@[simp] theorem State.setSlab_xcommit (k : Nat) (x : Slab) : (s.setSlab k x).xcommit = s.xcommit := rfl
@[simp] theorem State.setSlab_power (k : Nat) (x : Slab) : (s.setSlab k x).power = s.power := rfl
@[simp] theorem State.setSlab_pmbus (k : Nat) (x : Slab) : (s.setSlab k x).pmbus = s.pmbus := rfl
@[simp] theorem State.setSlab_monconv (k : Nat) (x : Slab) : (s.setSlab k x).monconv = s.monconv := rfl
@[simp] theorem State.setSlab_corr (k : Nat) (x : Slab) : (s.setSlab k x).corr = s.corr := rfl
@[simp] theorem State.setSlab_heaters (k : Nat) (x : Slab) : (s.setSlab k x).heaters = s.heaters := rfl
@[simp] theorem State.setSlab_fabric (k : Nat) (x : Slab) : (s.setSlab k x).fabric = s.fabric := rfl
@[simp] theorem State.setSlab_trust (k : Nat) (x : Slab) : (s.setSlab k x).trust = s.trust := rfl
@[simp] theorem State.setSlab_mbx (k : Nat) (x : Slab) : (s.setSlab k x).mbx = s.mbx := rfl
@[simp] theorem State.setSlab_sdio (k : Nat) (x : Slab) : (s.setSlab k x).sdio = s.sdio := rfl
@[simp] theorem State.setSlab_jtag (k : Nat) (x : Slab) : (s.setSlab k x).jtag = s.jtag := rfl
@[simp] theorem State.setSlab_faults (k : Nat) (x : Slab) : (s.setSlab k x).faults = s.faults := rfl
@[simp] theorem State.setSlab_free (k : Nat) (x : Slab) : (s.setSlab k x).free = s.free := rfl

@[simp] theorem State.modSlab_pending (k : Nat) (f : Slab → Slab) : (s.modSlab k f).pending = s.pending := rfl
@[simp] theorem State.modSlab_time (k : Nat) (f : Slab → Slab) : (s.modSlab k f).time = s.time := rfl
@[simp] theorem State.modSlab_clusters (k : Nat) (f : Slab → Slab) : (s.modSlab k f).clusters = s.clusters := rfl
@[simp] theorem State.modSlab_vec (k : Nat) (f : Slab → Slab) : (s.modSlab k f).vec = s.vec := rfl
@[simp] theorem State.modSlab_engines (k : Nat) (f : Slab → Slab) : (s.modSlab k f).engines = s.engines := rfl
@[simp] theorem State.modSlab_banks (k : Nat) (f : Slab → Slab) : (s.modSlab k f).banks = s.banks := rfl
@[simp] theorem State.modSlab_hauls (k : Nat) (f : Slab → Slab) : (s.modSlab k f).hauls = s.hauls := rfl
@[simp] theorem State.modSlab_mem (k : Nat) (f : Slab → Slab) : (s.modSlab k f).mem = s.mem := rfl
@[simp] theorem State.modSlab_tags (k : Nat) (f : Slab → Slab) : (s.modSlab k f).tags = s.tags := rfl
@[simp] theorem State.modSlab_seals (k : Nat) (f : Slab → Slab) : (s.modSlab k f).seals = s.seals := rfl
@[simp] theorem State.modSlab_pages (k : Nat) (f : Slab → Slab) : (s.modSlab k f).pages = s.pages := rfl
@[simp] theorem State.modSlab_pageChanges (k : Nat) (f : Slab → Slab) : (s.modSlab k f).pageChanges = s.pageChanges := rfl
@[simp] theorem State.modSlab_tiles (k : Nat) (f : Slab → Slab) : (s.modSlab k f).tiles = s.tiles := rfl
@[simp] theorem State.modSlab_hbmLost (k : Nat) (f : Slab → Slab) : (s.modSlab k f).hbmLost = s.hbmLost := rfl
@[simp] theorem State.modSlab_carts (k : Nat) (f : Slab → Slab) : (s.modSlab k f).carts = s.carts := rfl
@[simp] theorem State.modSlab_feed (k : Nat) (f : Slab → Slab) : (s.modSlab k f).feed = s.feed := rfl
@[simp] theorem State.modSlab_loops (k : Nat) (f : Slab → Slab) : (s.modSlab k f).loops = s.loops := rfl
@[simp] theorem State.modSlab_ringTrim (k : Nat) (f : Slab → Slab) : (s.modSlab k f).ringTrim = s.ringTrim := rfl
@[simp] theorem State.modSlab_xtalk (k : Nat) (f : Slab → Slab) : (s.modSlab k f).xtalk = s.xtalk := rfl
@[simp] theorem State.modSlab_xstage (k : Nat) (f : Slab → Slab) : (s.modSlab k f).xstage = s.xstage := rfl
@[simp] theorem State.modSlab_xcommit (k : Nat) (f : Slab → Slab) : (s.modSlab k f).xcommit = s.xcommit := rfl
@[simp] theorem State.modSlab_power (k : Nat) (f : Slab → Slab) : (s.modSlab k f).power = s.power := rfl
@[simp] theorem State.modSlab_pmbus (k : Nat) (f : Slab → Slab) : (s.modSlab k f).pmbus = s.pmbus := rfl
@[simp] theorem State.modSlab_monconv (k : Nat) (f : Slab → Slab) : (s.modSlab k f).monconv = s.monconv := rfl
@[simp] theorem State.modSlab_corr (k : Nat) (f : Slab → Slab) : (s.modSlab k f).corr = s.corr := rfl
@[simp] theorem State.modSlab_heaters (k : Nat) (f : Slab → Slab) : (s.modSlab k f).heaters = s.heaters := rfl
@[simp] theorem State.modSlab_fabric (k : Nat) (f : Slab → Slab) : (s.modSlab k f).fabric = s.fabric := rfl
@[simp] theorem State.modSlab_trust (k : Nat) (f : Slab → Slab) : (s.modSlab k f).trust = s.trust := rfl
@[simp] theorem State.modSlab_mbx (k : Nat) (f : Slab → Slab) : (s.modSlab k f).mbx = s.mbx := rfl
@[simp] theorem State.modSlab_sdio (k : Nat) (f : Slab → Slab) : (s.modSlab k f).sdio = s.sdio := rfl
@[simp] theorem State.modSlab_jtag (k : Nat) (f : Slab → Slab) : (s.modSlab k f).jtag = s.jtag := rfl
@[simp] theorem State.modSlab_faults (k : Nat) (f : Slab → Slab) : (s.modSlab k f).faults = s.faults := rfl
@[simp] theorem State.modSlab_free (k : Nat) (f : Slab → Slab) : (s.modSlab k f).free = s.free := rfl

@[simp] theorem State.modVec_pending (k : Nat) (f : W1c → W1c) : (s.modVec k f).pending = s.pending := rfl
@[simp] theorem State.modVec_time (k : Nat) (f : W1c → W1c) : (s.modVec k f).time = s.time := rfl
@[simp] theorem State.modVec_clusters (k : Nat) (f : W1c → W1c) : (s.modVec k f).clusters = s.clusters := rfl
@[simp] theorem State.modVec_slabs (k : Nat) (f : W1c → W1c) : (s.modVec k f).slabs = s.slabs := rfl
@[simp] theorem State.modVec_engines (k : Nat) (f : W1c → W1c) : (s.modVec k f).engines = s.engines := rfl
@[simp] theorem State.modVec_banks (k : Nat) (f : W1c → W1c) : (s.modVec k f).banks = s.banks := rfl
@[simp] theorem State.modVec_hauls (k : Nat) (f : W1c → W1c) : (s.modVec k f).hauls = s.hauls := rfl
@[simp] theorem State.modVec_mem (k : Nat) (f : W1c → W1c) : (s.modVec k f).mem = s.mem := rfl
@[simp] theorem State.modVec_tags (k : Nat) (f : W1c → W1c) : (s.modVec k f).tags = s.tags := rfl
@[simp] theorem State.modVec_seals (k : Nat) (f : W1c → W1c) : (s.modVec k f).seals = s.seals := rfl
@[simp] theorem State.modVec_pages (k : Nat) (f : W1c → W1c) : (s.modVec k f).pages = s.pages := rfl
@[simp] theorem State.modVec_pageChanges (k : Nat) (f : W1c → W1c) : (s.modVec k f).pageChanges = s.pageChanges := rfl
@[simp] theorem State.modVec_tiles (k : Nat) (f : W1c → W1c) : (s.modVec k f).tiles = s.tiles := rfl
@[simp] theorem State.modVec_hbmLost (k : Nat) (f : W1c → W1c) : (s.modVec k f).hbmLost = s.hbmLost := rfl
@[simp] theorem State.modVec_carts (k : Nat) (f : W1c → W1c) : (s.modVec k f).carts = s.carts := rfl
@[simp] theorem State.modVec_feed (k : Nat) (f : W1c → W1c) : (s.modVec k f).feed = s.feed := rfl
@[simp] theorem State.modVec_loops (k : Nat) (f : W1c → W1c) : (s.modVec k f).loops = s.loops := rfl
@[simp] theorem State.modVec_ringTrim (k : Nat) (f : W1c → W1c) : (s.modVec k f).ringTrim = s.ringTrim := rfl
@[simp] theorem State.modVec_xtalk (k : Nat) (f : W1c → W1c) : (s.modVec k f).xtalk = s.xtalk := rfl
@[simp] theorem State.modVec_xstage (k : Nat) (f : W1c → W1c) : (s.modVec k f).xstage = s.xstage := rfl
@[simp] theorem State.modVec_xcommit (k : Nat) (f : W1c → W1c) : (s.modVec k f).xcommit = s.xcommit := rfl
@[simp] theorem State.modVec_power (k : Nat) (f : W1c → W1c) : (s.modVec k f).power = s.power := rfl
@[simp] theorem State.modVec_pmbus (k : Nat) (f : W1c → W1c) : (s.modVec k f).pmbus = s.pmbus := rfl
@[simp] theorem State.modVec_monconv (k : Nat) (f : W1c → W1c) : (s.modVec k f).monconv = s.monconv := rfl
@[simp] theorem State.modVec_corr (k : Nat) (f : W1c → W1c) : (s.modVec k f).corr = s.corr := rfl
@[simp] theorem State.modVec_heaters (k : Nat) (f : W1c → W1c) : (s.modVec k f).heaters = s.heaters := rfl
@[simp] theorem State.modVec_fabric (k : Nat) (f : W1c → W1c) : (s.modVec k f).fabric = s.fabric := rfl
@[simp] theorem State.modVec_trust (k : Nat) (f : W1c → W1c) : (s.modVec k f).trust = s.trust := rfl
@[simp] theorem State.modVec_mbx (k : Nat) (f : W1c → W1c) : (s.modVec k f).mbx = s.mbx := rfl
@[simp] theorem State.modVec_sdio (k : Nat) (f : W1c → W1c) : (s.modVec k f).sdio = s.sdio := rfl
@[simp] theorem State.modVec_jtag (k : Nat) (f : W1c → W1c) : (s.modVec k f).jtag = s.jtag := rfl
@[simp] theorem State.modVec_faults (k : Nat) (f : W1c → W1c) : (s.modVec k f).faults = s.faults := rfl
@[simp] theorem State.modVec_free (k : Nat) (f : W1c → W1c) : (s.modVec k f).free = s.free := rfl

@[simp] theorem State.setEngine_pending (k : Nat) (x : Engine) : (s.setEngine k x).pending = s.pending := rfl
@[simp] theorem State.setEngine_time (k : Nat) (x : Engine) : (s.setEngine k x).time = s.time := rfl
@[simp] theorem State.setEngine_clusters (k : Nat) (x : Engine) : (s.setEngine k x).clusters = s.clusters := rfl
@[simp] theorem State.setEngine_slabs (k : Nat) (x : Engine) : (s.setEngine k x).slabs = s.slabs := rfl
@[simp] theorem State.setEngine_vec (k : Nat) (x : Engine) : (s.setEngine k x).vec = s.vec := rfl
@[simp] theorem State.setEngine_banks (k : Nat) (x : Engine) : (s.setEngine k x).banks = s.banks := rfl
@[simp] theorem State.setEngine_hauls (k : Nat) (x : Engine) : (s.setEngine k x).hauls = s.hauls := rfl
@[simp] theorem State.setEngine_mem (k : Nat) (x : Engine) : (s.setEngine k x).mem = s.mem := rfl
@[simp] theorem State.setEngine_tags (k : Nat) (x : Engine) : (s.setEngine k x).tags = s.tags := rfl
@[simp] theorem State.setEngine_seals (k : Nat) (x : Engine) : (s.setEngine k x).seals = s.seals := rfl
@[simp] theorem State.setEngine_pages (k : Nat) (x : Engine) : (s.setEngine k x).pages = s.pages := rfl
@[simp] theorem State.setEngine_pageChanges (k : Nat) (x : Engine) : (s.setEngine k x).pageChanges = s.pageChanges := rfl
@[simp] theorem State.setEngine_tiles (k : Nat) (x : Engine) : (s.setEngine k x).tiles = s.tiles := rfl
@[simp] theorem State.setEngine_hbmLost (k : Nat) (x : Engine) : (s.setEngine k x).hbmLost = s.hbmLost := rfl
@[simp] theorem State.setEngine_carts (k : Nat) (x : Engine) : (s.setEngine k x).carts = s.carts := rfl
@[simp] theorem State.setEngine_feed (k : Nat) (x : Engine) : (s.setEngine k x).feed = s.feed := rfl
@[simp] theorem State.setEngine_loops (k : Nat) (x : Engine) : (s.setEngine k x).loops = s.loops := rfl
@[simp] theorem State.setEngine_ringTrim (k : Nat) (x : Engine) : (s.setEngine k x).ringTrim = s.ringTrim := rfl
@[simp] theorem State.setEngine_xtalk (k : Nat) (x : Engine) : (s.setEngine k x).xtalk = s.xtalk := rfl
@[simp] theorem State.setEngine_xstage (k : Nat) (x : Engine) : (s.setEngine k x).xstage = s.xstage := rfl
@[simp] theorem State.setEngine_xcommit (k : Nat) (x : Engine) : (s.setEngine k x).xcommit = s.xcommit := rfl
@[simp] theorem State.setEngine_power (k : Nat) (x : Engine) : (s.setEngine k x).power = s.power := rfl
@[simp] theorem State.setEngine_pmbus (k : Nat) (x : Engine) : (s.setEngine k x).pmbus = s.pmbus := rfl
@[simp] theorem State.setEngine_monconv (k : Nat) (x : Engine) : (s.setEngine k x).monconv = s.monconv := rfl
@[simp] theorem State.setEngine_corr (k : Nat) (x : Engine) : (s.setEngine k x).corr = s.corr := rfl
@[simp] theorem State.setEngine_heaters (k : Nat) (x : Engine) : (s.setEngine k x).heaters = s.heaters := rfl
@[simp] theorem State.setEngine_fabric (k : Nat) (x : Engine) : (s.setEngine k x).fabric = s.fabric := rfl
@[simp] theorem State.setEngine_trust (k : Nat) (x : Engine) : (s.setEngine k x).trust = s.trust := rfl
@[simp] theorem State.setEngine_mbx (k : Nat) (x : Engine) : (s.setEngine k x).mbx = s.mbx := rfl
@[simp] theorem State.setEngine_sdio (k : Nat) (x : Engine) : (s.setEngine k x).sdio = s.sdio := rfl
@[simp] theorem State.setEngine_jtag (k : Nat) (x : Engine) : (s.setEngine k x).jtag = s.jtag := rfl
@[simp] theorem State.setEngine_faults (k : Nat) (x : Engine) : (s.setEngine k x).faults = s.faults := rfl
@[simp] theorem State.setEngine_free (k : Nat) (x : Engine) : (s.setEngine k x).free = s.free := rfl

@[simp] theorem State.modEngine_pending (k : Nat) (f : Engine → Engine) : (s.modEngine k f).pending = s.pending := rfl
@[simp] theorem State.modEngine_time (k : Nat) (f : Engine → Engine) : (s.modEngine k f).time = s.time := rfl
@[simp] theorem State.modEngine_clusters (k : Nat) (f : Engine → Engine) : (s.modEngine k f).clusters = s.clusters := rfl
@[simp] theorem State.modEngine_slabs (k : Nat) (f : Engine → Engine) : (s.modEngine k f).slabs = s.slabs := rfl
@[simp] theorem State.modEngine_vec (k : Nat) (f : Engine → Engine) : (s.modEngine k f).vec = s.vec := rfl
@[simp] theorem State.modEngine_banks (k : Nat) (f : Engine → Engine) : (s.modEngine k f).banks = s.banks := rfl
@[simp] theorem State.modEngine_hauls (k : Nat) (f : Engine → Engine) : (s.modEngine k f).hauls = s.hauls := rfl
@[simp] theorem State.modEngine_mem (k : Nat) (f : Engine → Engine) : (s.modEngine k f).mem = s.mem := rfl
@[simp] theorem State.modEngine_tags (k : Nat) (f : Engine → Engine) : (s.modEngine k f).tags = s.tags := rfl
@[simp] theorem State.modEngine_seals (k : Nat) (f : Engine → Engine) : (s.modEngine k f).seals = s.seals := rfl
@[simp] theorem State.modEngine_pages (k : Nat) (f : Engine → Engine) : (s.modEngine k f).pages = s.pages := rfl
@[simp] theorem State.modEngine_pageChanges (k : Nat) (f : Engine → Engine) : (s.modEngine k f).pageChanges = s.pageChanges := rfl
@[simp] theorem State.modEngine_tiles (k : Nat) (f : Engine → Engine) : (s.modEngine k f).tiles = s.tiles := rfl
@[simp] theorem State.modEngine_hbmLost (k : Nat) (f : Engine → Engine) : (s.modEngine k f).hbmLost = s.hbmLost := rfl
@[simp] theorem State.modEngine_carts (k : Nat) (f : Engine → Engine) : (s.modEngine k f).carts = s.carts := rfl
@[simp] theorem State.modEngine_feed (k : Nat) (f : Engine → Engine) : (s.modEngine k f).feed = s.feed := rfl
@[simp] theorem State.modEngine_loops (k : Nat) (f : Engine → Engine) : (s.modEngine k f).loops = s.loops := rfl
@[simp] theorem State.modEngine_ringTrim (k : Nat) (f : Engine → Engine) : (s.modEngine k f).ringTrim = s.ringTrim := rfl
@[simp] theorem State.modEngine_xtalk (k : Nat) (f : Engine → Engine) : (s.modEngine k f).xtalk = s.xtalk := rfl
@[simp] theorem State.modEngine_xstage (k : Nat) (f : Engine → Engine) : (s.modEngine k f).xstage = s.xstage := rfl
@[simp] theorem State.modEngine_xcommit (k : Nat) (f : Engine → Engine) : (s.modEngine k f).xcommit = s.xcommit := rfl
@[simp] theorem State.modEngine_power (k : Nat) (f : Engine → Engine) : (s.modEngine k f).power = s.power := rfl
@[simp] theorem State.modEngine_pmbus (k : Nat) (f : Engine → Engine) : (s.modEngine k f).pmbus = s.pmbus := rfl
@[simp] theorem State.modEngine_monconv (k : Nat) (f : Engine → Engine) : (s.modEngine k f).monconv = s.monconv := rfl
@[simp] theorem State.modEngine_corr (k : Nat) (f : Engine → Engine) : (s.modEngine k f).corr = s.corr := rfl
@[simp] theorem State.modEngine_heaters (k : Nat) (f : Engine → Engine) : (s.modEngine k f).heaters = s.heaters := rfl
@[simp] theorem State.modEngine_fabric (k : Nat) (f : Engine → Engine) : (s.modEngine k f).fabric = s.fabric := rfl
@[simp] theorem State.modEngine_trust (k : Nat) (f : Engine → Engine) : (s.modEngine k f).trust = s.trust := rfl
@[simp] theorem State.modEngine_mbx (k : Nat) (f : Engine → Engine) : (s.modEngine k f).mbx = s.mbx := rfl
@[simp] theorem State.modEngine_sdio (k : Nat) (f : Engine → Engine) : (s.modEngine k f).sdio = s.sdio := rfl
@[simp] theorem State.modEngine_jtag (k : Nat) (f : Engine → Engine) : (s.modEngine k f).jtag = s.jtag := rfl
@[simp] theorem State.modEngine_faults (k : Nat) (f : Engine → Engine) : (s.modEngine k f).faults = s.faults := rfl
@[simp] theorem State.modEngine_free (k : Nat) (f : Engine → Engine) : (s.modEngine k f).free = s.free := rfl

@[simp] theorem State.setBank_pending (k : Nat) (x : Bank) : (s.setBank k x).pending = s.pending := rfl
@[simp] theorem State.setBank_time (k : Nat) (x : Bank) : (s.setBank k x).time = s.time := rfl
@[simp] theorem State.setBank_clusters (k : Nat) (x : Bank) : (s.setBank k x).clusters = s.clusters := rfl
@[simp] theorem State.setBank_slabs (k : Nat) (x : Bank) : (s.setBank k x).slabs = s.slabs := rfl
@[simp] theorem State.setBank_vec (k : Nat) (x : Bank) : (s.setBank k x).vec = s.vec := rfl
@[simp] theorem State.setBank_engines (k : Nat) (x : Bank) : (s.setBank k x).engines = s.engines := rfl
@[simp] theorem State.setBank_hauls (k : Nat) (x : Bank) : (s.setBank k x).hauls = s.hauls := rfl
@[simp] theorem State.setBank_mem (k : Nat) (x : Bank) : (s.setBank k x).mem = s.mem := rfl
@[simp] theorem State.setBank_tags (k : Nat) (x : Bank) : (s.setBank k x).tags = s.tags := rfl
@[simp] theorem State.setBank_seals (k : Nat) (x : Bank) : (s.setBank k x).seals = s.seals := rfl
@[simp] theorem State.setBank_pages (k : Nat) (x : Bank) : (s.setBank k x).pages = s.pages := rfl
@[simp] theorem State.setBank_pageChanges (k : Nat) (x : Bank) : (s.setBank k x).pageChanges = s.pageChanges := rfl
@[simp] theorem State.setBank_tiles (k : Nat) (x : Bank) : (s.setBank k x).tiles = s.tiles := rfl
@[simp] theorem State.setBank_hbmLost (k : Nat) (x : Bank) : (s.setBank k x).hbmLost = s.hbmLost := rfl
@[simp] theorem State.setBank_carts (k : Nat) (x : Bank) : (s.setBank k x).carts = s.carts := rfl
@[simp] theorem State.setBank_feed (k : Nat) (x : Bank) : (s.setBank k x).feed = s.feed := rfl
@[simp] theorem State.setBank_loops (k : Nat) (x : Bank) : (s.setBank k x).loops = s.loops := rfl
@[simp] theorem State.setBank_ringTrim (k : Nat) (x : Bank) : (s.setBank k x).ringTrim = s.ringTrim := rfl
@[simp] theorem State.setBank_xtalk (k : Nat) (x : Bank) : (s.setBank k x).xtalk = s.xtalk := rfl
@[simp] theorem State.setBank_xstage (k : Nat) (x : Bank) : (s.setBank k x).xstage = s.xstage := rfl
@[simp] theorem State.setBank_xcommit (k : Nat) (x : Bank) : (s.setBank k x).xcommit = s.xcommit := rfl
@[simp] theorem State.setBank_power (k : Nat) (x : Bank) : (s.setBank k x).power = s.power := rfl
@[simp] theorem State.setBank_pmbus (k : Nat) (x : Bank) : (s.setBank k x).pmbus = s.pmbus := rfl
@[simp] theorem State.setBank_monconv (k : Nat) (x : Bank) : (s.setBank k x).monconv = s.monconv := rfl
@[simp] theorem State.setBank_corr (k : Nat) (x : Bank) : (s.setBank k x).corr = s.corr := rfl
@[simp] theorem State.setBank_heaters (k : Nat) (x : Bank) : (s.setBank k x).heaters = s.heaters := rfl
@[simp] theorem State.setBank_fabric (k : Nat) (x : Bank) : (s.setBank k x).fabric = s.fabric := rfl
@[simp] theorem State.setBank_trust (k : Nat) (x : Bank) : (s.setBank k x).trust = s.trust := rfl
@[simp] theorem State.setBank_mbx (k : Nat) (x : Bank) : (s.setBank k x).mbx = s.mbx := rfl
@[simp] theorem State.setBank_sdio (k : Nat) (x : Bank) : (s.setBank k x).sdio = s.sdio := rfl
@[simp] theorem State.setBank_jtag (k : Nat) (x : Bank) : (s.setBank k x).jtag = s.jtag := rfl
@[simp] theorem State.setBank_faults (k : Nat) (x : Bank) : (s.setBank k x).faults = s.faults := rfl
@[simp] theorem State.setBank_free (k : Nat) (x : Bank) : (s.setBank k x).free = s.free := rfl

@[simp] theorem State.modBank_pending (k : Nat) (f : Bank → Bank) : (s.modBank k f).pending = s.pending := rfl
@[simp] theorem State.modBank_time (k : Nat) (f : Bank → Bank) : (s.modBank k f).time = s.time := rfl
@[simp] theorem State.modBank_clusters (k : Nat) (f : Bank → Bank) : (s.modBank k f).clusters = s.clusters := rfl
@[simp] theorem State.modBank_slabs (k : Nat) (f : Bank → Bank) : (s.modBank k f).slabs = s.slabs := rfl
@[simp] theorem State.modBank_vec (k : Nat) (f : Bank → Bank) : (s.modBank k f).vec = s.vec := rfl
@[simp] theorem State.modBank_engines (k : Nat) (f : Bank → Bank) : (s.modBank k f).engines = s.engines := rfl
@[simp] theorem State.modBank_hauls (k : Nat) (f : Bank → Bank) : (s.modBank k f).hauls = s.hauls := rfl
@[simp] theorem State.modBank_mem (k : Nat) (f : Bank → Bank) : (s.modBank k f).mem = s.mem := rfl
@[simp] theorem State.modBank_tags (k : Nat) (f : Bank → Bank) : (s.modBank k f).tags = s.tags := rfl
@[simp] theorem State.modBank_seals (k : Nat) (f : Bank → Bank) : (s.modBank k f).seals = s.seals := rfl
@[simp] theorem State.modBank_pages (k : Nat) (f : Bank → Bank) : (s.modBank k f).pages = s.pages := rfl
@[simp] theorem State.modBank_pageChanges (k : Nat) (f : Bank → Bank) : (s.modBank k f).pageChanges = s.pageChanges := rfl
@[simp] theorem State.modBank_tiles (k : Nat) (f : Bank → Bank) : (s.modBank k f).tiles = s.tiles := rfl
@[simp] theorem State.modBank_hbmLost (k : Nat) (f : Bank → Bank) : (s.modBank k f).hbmLost = s.hbmLost := rfl
@[simp] theorem State.modBank_carts (k : Nat) (f : Bank → Bank) : (s.modBank k f).carts = s.carts := rfl
@[simp] theorem State.modBank_feed (k : Nat) (f : Bank → Bank) : (s.modBank k f).feed = s.feed := rfl
@[simp] theorem State.modBank_loops (k : Nat) (f : Bank → Bank) : (s.modBank k f).loops = s.loops := rfl
@[simp] theorem State.modBank_ringTrim (k : Nat) (f : Bank → Bank) : (s.modBank k f).ringTrim = s.ringTrim := rfl
@[simp] theorem State.modBank_xtalk (k : Nat) (f : Bank → Bank) : (s.modBank k f).xtalk = s.xtalk := rfl
@[simp] theorem State.modBank_xstage (k : Nat) (f : Bank → Bank) : (s.modBank k f).xstage = s.xstage := rfl
@[simp] theorem State.modBank_xcommit (k : Nat) (f : Bank → Bank) : (s.modBank k f).xcommit = s.xcommit := rfl
@[simp] theorem State.modBank_power (k : Nat) (f : Bank → Bank) : (s.modBank k f).power = s.power := rfl
@[simp] theorem State.modBank_pmbus (k : Nat) (f : Bank → Bank) : (s.modBank k f).pmbus = s.pmbus := rfl
@[simp] theorem State.modBank_monconv (k : Nat) (f : Bank → Bank) : (s.modBank k f).monconv = s.monconv := rfl
@[simp] theorem State.modBank_corr (k : Nat) (f : Bank → Bank) : (s.modBank k f).corr = s.corr := rfl
@[simp] theorem State.modBank_heaters (k : Nat) (f : Bank → Bank) : (s.modBank k f).heaters = s.heaters := rfl
@[simp] theorem State.modBank_fabric (k : Nat) (f : Bank → Bank) : (s.modBank k f).fabric = s.fabric := rfl
@[simp] theorem State.modBank_trust (k : Nat) (f : Bank → Bank) : (s.modBank k f).trust = s.trust := rfl
@[simp] theorem State.modBank_mbx (k : Nat) (f : Bank → Bank) : (s.modBank k f).mbx = s.mbx := rfl
@[simp] theorem State.modBank_sdio (k : Nat) (f : Bank → Bank) : (s.modBank k f).sdio = s.sdio := rfl
@[simp] theorem State.modBank_jtag (k : Nat) (f : Bank → Bank) : (s.modBank k f).jtag = s.jtag := rfl
@[simp] theorem State.modBank_faults (k : Nat) (f : Bank → Bank) : (s.modBank k f).faults = s.faults := rfl
@[simp] theorem State.modBank_free (k : Nat) (f : Bank → Bank) : (s.modBank k f).free = s.free := rfl

@[simp] theorem State.modHaul_pending (k : Nat) (f : Haul → Haul) : (s.modHaul k f).pending = s.pending := rfl
@[simp] theorem State.modHaul_time (k : Nat) (f : Haul → Haul) : (s.modHaul k f).time = s.time := rfl
@[simp] theorem State.modHaul_clusters (k : Nat) (f : Haul → Haul) : (s.modHaul k f).clusters = s.clusters := rfl
@[simp] theorem State.modHaul_slabs (k : Nat) (f : Haul → Haul) : (s.modHaul k f).slabs = s.slabs := rfl
@[simp] theorem State.modHaul_vec (k : Nat) (f : Haul → Haul) : (s.modHaul k f).vec = s.vec := rfl
@[simp] theorem State.modHaul_engines (k : Nat) (f : Haul → Haul) : (s.modHaul k f).engines = s.engines := rfl
@[simp] theorem State.modHaul_banks (k : Nat) (f : Haul → Haul) : (s.modHaul k f).banks = s.banks := rfl
@[simp] theorem State.modHaul_mem (k : Nat) (f : Haul → Haul) : (s.modHaul k f).mem = s.mem := rfl
@[simp] theorem State.modHaul_tags (k : Nat) (f : Haul → Haul) : (s.modHaul k f).tags = s.tags := rfl
@[simp] theorem State.modHaul_seals (k : Nat) (f : Haul → Haul) : (s.modHaul k f).seals = s.seals := rfl
@[simp] theorem State.modHaul_pages (k : Nat) (f : Haul → Haul) : (s.modHaul k f).pages = s.pages := rfl
@[simp] theorem State.modHaul_pageChanges (k : Nat) (f : Haul → Haul) : (s.modHaul k f).pageChanges = s.pageChanges := rfl
@[simp] theorem State.modHaul_tiles (k : Nat) (f : Haul → Haul) : (s.modHaul k f).tiles = s.tiles := rfl
@[simp] theorem State.modHaul_hbmLost (k : Nat) (f : Haul → Haul) : (s.modHaul k f).hbmLost = s.hbmLost := rfl
@[simp] theorem State.modHaul_carts (k : Nat) (f : Haul → Haul) : (s.modHaul k f).carts = s.carts := rfl
@[simp] theorem State.modHaul_feed (k : Nat) (f : Haul → Haul) : (s.modHaul k f).feed = s.feed := rfl
@[simp] theorem State.modHaul_loops (k : Nat) (f : Haul → Haul) : (s.modHaul k f).loops = s.loops := rfl
@[simp] theorem State.modHaul_ringTrim (k : Nat) (f : Haul → Haul) : (s.modHaul k f).ringTrim = s.ringTrim := rfl
@[simp] theorem State.modHaul_xtalk (k : Nat) (f : Haul → Haul) : (s.modHaul k f).xtalk = s.xtalk := rfl
@[simp] theorem State.modHaul_xstage (k : Nat) (f : Haul → Haul) : (s.modHaul k f).xstage = s.xstage := rfl
@[simp] theorem State.modHaul_xcommit (k : Nat) (f : Haul → Haul) : (s.modHaul k f).xcommit = s.xcommit := rfl
@[simp] theorem State.modHaul_power (k : Nat) (f : Haul → Haul) : (s.modHaul k f).power = s.power := rfl
@[simp] theorem State.modHaul_pmbus (k : Nat) (f : Haul → Haul) : (s.modHaul k f).pmbus = s.pmbus := rfl
@[simp] theorem State.modHaul_monconv (k : Nat) (f : Haul → Haul) : (s.modHaul k f).monconv = s.monconv := rfl
@[simp] theorem State.modHaul_corr (k : Nat) (f : Haul → Haul) : (s.modHaul k f).corr = s.corr := rfl
@[simp] theorem State.modHaul_heaters (k : Nat) (f : Haul → Haul) : (s.modHaul k f).heaters = s.heaters := rfl
@[simp] theorem State.modHaul_fabric (k : Nat) (f : Haul → Haul) : (s.modHaul k f).fabric = s.fabric := rfl
@[simp] theorem State.modHaul_trust (k : Nat) (f : Haul → Haul) : (s.modHaul k f).trust = s.trust := rfl
@[simp] theorem State.modHaul_mbx (k : Nat) (f : Haul → Haul) : (s.modHaul k f).mbx = s.mbx := rfl
@[simp] theorem State.modHaul_sdio (k : Nat) (f : Haul → Haul) : (s.modHaul k f).sdio = s.sdio := rfl
@[simp] theorem State.modHaul_jtag (k : Nat) (f : Haul → Haul) : (s.modHaul k f).jtag = s.jtag := rfl
@[simp] theorem State.modHaul_faults (k : Nat) (f : Haul → Haul) : (s.modHaul k f).faults = s.faults := rfl
@[simp] theorem State.modHaul_free (k : Nat) (f : Haul → Haul) : (s.modHaul k f).free = s.free := rfl

@[simp] theorem State.setPage_pending (k : Nat) (x : Page) : (s.setPage k x).pending = s.pending := rfl
@[simp] theorem State.setPage_time (k : Nat) (x : Page) : (s.setPage k x).time = s.time := rfl
@[simp] theorem State.setPage_clusters (k : Nat) (x : Page) : (s.setPage k x).clusters = s.clusters := rfl
@[simp] theorem State.setPage_slabs (k : Nat) (x : Page) : (s.setPage k x).slabs = s.slabs := rfl
@[simp] theorem State.setPage_vec (k : Nat) (x : Page) : (s.setPage k x).vec = s.vec := rfl
@[simp] theorem State.setPage_engines (k : Nat) (x : Page) : (s.setPage k x).engines = s.engines := rfl
@[simp] theorem State.setPage_banks (k : Nat) (x : Page) : (s.setPage k x).banks = s.banks := rfl
@[simp] theorem State.setPage_hauls (k : Nat) (x : Page) : (s.setPage k x).hauls = s.hauls := rfl
@[simp] theorem State.setPage_mem (k : Nat) (x : Page) : (s.setPage k x).mem = s.mem := rfl
@[simp] theorem State.setPage_tags (k : Nat) (x : Page) : (s.setPage k x).tags = s.tags := rfl
@[simp] theorem State.setPage_seals (k : Nat) (x : Page) : (s.setPage k x).seals = s.seals := rfl
@[simp] theorem State.setPage_pageChanges (k : Nat) (x : Page) : (s.setPage k x).pageChanges = s.pageChanges := rfl
@[simp] theorem State.setPage_tiles (k : Nat) (x : Page) : (s.setPage k x).tiles = s.tiles := rfl
@[simp] theorem State.setPage_hbmLost (k : Nat) (x : Page) : (s.setPage k x).hbmLost = s.hbmLost := rfl
@[simp] theorem State.setPage_carts (k : Nat) (x : Page) : (s.setPage k x).carts = s.carts := rfl
@[simp] theorem State.setPage_feed (k : Nat) (x : Page) : (s.setPage k x).feed = s.feed := rfl
@[simp] theorem State.setPage_loops (k : Nat) (x : Page) : (s.setPage k x).loops = s.loops := rfl
@[simp] theorem State.setPage_ringTrim (k : Nat) (x : Page) : (s.setPage k x).ringTrim = s.ringTrim := rfl
@[simp] theorem State.setPage_xtalk (k : Nat) (x : Page) : (s.setPage k x).xtalk = s.xtalk := rfl
@[simp] theorem State.setPage_xstage (k : Nat) (x : Page) : (s.setPage k x).xstage = s.xstage := rfl
@[simp] theorem State.setPage_xcommit (k : Nat) (x : Page) : (s.setPage k x).xcommit = s.xcommit := rfl
@[simp] theorem State.setPage_power (k : Nat) (x : Page) : (s.setPage k x).power = s.power := rfl
@[simp] theorem State.setPage_pmbus (k : Nat) (x : Page) : (s.setPage k x).pmbus = s.pmbus := rfl
@[simp] theorem State.setPage_monconv (k : Nat) (x : Page) : (s.setPage k x).monconv = s.monconv := rfl
@[simp] theorem State.setPage_corr (k : Nat) (x : Page) : (s.setPage k x).corr = s.corr := rfl
@[simp] theorem State.setPage_heaters (k : Nat) (x : Page) : (s.setPage k x).heaters = s.heaters := rfl
@[simp] theorem State.setPage_fabric (k : Nat) (x : Page) : (s.setPage k x).fabric = s.fabric := rfl
@[simp] theorem State.setPage_trust (k : Nat) (x : Page) : (s.setPage k x).trust = s.trust := rfl
@[simp] theorem State.setPage_mbx (k : Nat) (x : Page) : (s.setPage k x).mbx = s.mbx := rfl
@[simp] theorem State.setPage_sdio (k : Nat) (x : Page) : (s.setPage k x).sdio = s.sdio := rfl
@[simp] theorem State.setPage_jtag (k : Nat) (x : Page) : (s.setPage k x).jtag = s.jtag := rfl
@[simp] theorem State.setPage_faults (k : Nat) (x : Page) : (s.setPage k x).faults = s.faults := rfl
@[simp] theorem State.setPage_free (k : Nat) (x : Page) : (s.setPage k x).free = s.free := rfl

@[simp] theorem State.modCart_pending (k : Nat) (f : Cart → Cart) : (s.modCart k f).pending = s.pending := rfl
@[simp] theorem State.modCart_time (k : Nat) (f : Cart → Cart) : (s.modCart k f).time = s.time := rfl
@[simp] theorem State.modCart_clusters (k : Nat) (f : Cart → Cart) : (s.modCart k f).clusters = s.clusters := rfl
@[simp] theorem State.modCart_slabs (k : Nat) (f : Cart → Cart) : (s.modCart k f).slabs = s.slabs := rfl
@[simp] theorem State.modCart_vec (k : Nat) (f : Cart → Cart) : (s.modCart k f).vec = s.vec := rfl
@[simp] theorem State.modCart_engines (k : Nat) (f : Cart → Cart) : (s.modCart k f).engines = s.engines := rfl
@[simp] theorem State.modCart_banks (k : Nat) (f : Cart → Cart) : (s.modCart k f).banks = s.banks := rfl
@[simp] theorem State.modCart_hauls (k : Nat) (f : Cart → Cart) : (s.modCart k f).hauls = s.hauls := rfl
@[simp] theorem State.modCart_mem (k : Nat) (f : Cart → Cart) : (s.modCart k f).mem = s.mem := rfl
@[simp] theorem State.modCart_tags (k : Nat) (f : Cart → Cart) : (s.modCart k f).tags = s.tags := rfl
@[simp] theorem State.modCart_seals (k : Nat) (f : Cart → Cart) : (s.modCart k f).seals = s.seals := rfl
@[simp] theorem State.modCart_pages (k : Nat) (f : Cart → Cart) : (s.modCart k f).pages = s.pages := rfl
@[simp] theorem State.modCart_pageChanges (k : Nat) (f : Cart → Cart) : (s.modCart k f).pageChanges = s.pageChanges := rfl
@[simp] theorem State.modCart_tiles (k : Nat) (f : Cart → Cart) : (s.modCart k f).tiles = s.tiles := rfl
@[simp] theorem State.modCart_hbmLost (k : Nat) (f : Cart → Cart) : (s.modCart k f).hbmLost = s.hbmLost := rfl
@[simp] theorem State.modCart_feed (k : Nat) (f : Cart → Cart) : (s.modCart k f).feed = s.feed := rfl
@[simp] theorem State.modCart_loops (k : Nat) (f : Cart → Cart) : (s.modCart k f).loops = s.loops := rfl
@[simp] theorem State.modCart_ringTrim (k : Nat) (f : Cart → Cart) : (s.modCart k f).ringTrim = s.ringTrim := rfl
@[simp] theorem State.modCart_xtalk (k : Nat) (f : Cart → Cart) : (s.modCart k f).xtalk = s.xtalk := rfl
@[simp] theorem State.modCart_xstage (k : Nat) (f : Cart → Cart) : (s.modCart k f).xstage = s.xstage := rfl
@[simp] theorem State.modCart_xcommit (k : Nat) (f : Cart → Cart) : (s.modCart k f).xcommit = s.xcommit := rfl
@[simp] theorem State.modCart_power (k : Nat) (f : Cart → Cart) : (s.modCart k f).power = s.power := rfl
@[simp] theorem State.modCart_pmbus (k : Nat) (f : Cart → Cart) : (s.modCart k f).pmbus = s.pmbus := rfl
@[simp] theorem State.modCart_monconv (k : Nat) (f : Cart → Cart) : (s.modCart k f).monconv = s.monconv := rfl
@[simp] theorem State.modCart_corr (k : Nat) (f : Cart → Cart) : (s.modCart k f).corr = s.corr := rfl
@[simp] theorem State.modCart_heaters (k : Nat) (f : Cart → Cart) : (s.modCart k f).heaters = s.heaters := rfl
@[simp] theorem State.modCart_fabric (k : Nat) (f : Cart → Cart) : (s.modCart k f).fabric = s.fabric := rfl
@[simp] theorem State.modCart_trust (k : Nat) (f : Cart → Cart) : (s.modCart k f).trust = s.trust := rfl
@[simp] theorem State.modCart_mbx (k : Nat) (f : Cart → Cart) : (s.modCart k f).mbx = s.mbx := rfl
@[simp] theorem State.modCart_sdio (k : Nat) (f : Cart → Cart) : (s.modCart k f).sdio = s.sdio := rfl
@[simp] theorem State.modCart_jtag (k : Nat) (f : Cart → Cart) : (s.modCart k f).jtag = s.jtag := rfl
@[simp] theorem State.modCart_faults (k : Nat) (f : Cart → Cart) : (s.modCart k f).faults = s.faults := rfl
@[simp] theorem State.modCart_free (k : Nat) (f : Cart → Cart) : (s.modCart k f).free = s.free := rfl

@[simp] theorem State.setLoop_pending (k : Nat) (x : Loop) : (s.setLoop k x).pending = s.pending := rfl
@[simp] theorem State.setLoop_time (k : Nat) (x : Loop) : (s.setLoop k x).time = s.time := rfl
@[simp] theorem State.setLoop_clusters (k : Nat) (x : Loop) : (s.setLoop k x).clusters = s.clusters := rfl
@[simp] theorem State.setLoop_slabs (k : Nat) (x : Loop) : (s.setLoop k x).slabs = s.slabs := rfl
@[simp] theorem State.setLoop_vec (k : Nat) (x : Loop) : (s.setLoop k x).vec = s.vec := rfl
@[simp] theorem State.setLoop_engines (k : Nat) (x : Loop) : (s.setLoop k x).engines = s.engines := rfl
@[simp] theorem State.setLoop_banks (k : Nat) (x : Loop) : (s.setLoop k x).banks = s.banks := rfl
@[simp] theorem State.setLoop_hauls (k : Nat) (x : Loop) : (s.setLoop k x).hauls = s.hauls := rfl
@[simp] theorem State.setLoop_mem (k : Nat) (x : Loop) : (s.setLoop k x).mem = s.mem := rfl
@[simp] theorem State.setLoop_tags (k : Nat) (x : Loop) : (s.setLoop k x).tags = s.tags := rfl
@[simp] theorem State.setLoop_seals (k : Nat) (x : Loop) : (s.setLoop k x).seals = s.seals := rfl
@[simp] theorem State.setLoop_pages (k : Nat) (x : Loop) : (s.setLoop k x).pages = s.pages := rfl
@[simp] theorem State.setLoop_pageChanges (k : Nat) (x : Loop) : (s.setLoop k x).pageChanges = s.pageChanges := rfl
@[simp] theorem State.setLoop_tiles (k : Nat) (x : Loop) : (s.setLoop k x).tiles = s.tiles := rfl
@[simp] theorem State.setLoop_hbmLost (k : Nat) (x : Loop) : (s.setLoop k x).hbmLost = s.hbmLost := rfl
@[simp] theorem State.setLoop_carts (k : Nat) (x : Loop) : (s.setLoop k x).carts = s.carts := rfl
@[simp] theorem State.setLoop_feed (k : Nat) (x : Loop) : (s.setLoop k x).feed = s.feed := rfl
@[simp] theorem State.setLoop_ringTrim (k : Nat) (x : Loop) : (s.setLoop k x).ringTrim = s.ringTrim := rfl
@[simp] theorem State.setLoop_xtalk (k : Nat) (x : Loop) : (s.setLoop k x).xtalk = s.xtalk := rfl
@[simp] theorem State.setLoop_xstage (k : Nat) (x : Loop) : (s.setLoop k x).xstage = s.xstage := rfl
@[simp] theorem State.setLoop_xcommit (k : Nat) (x : Loop) : (s.setLoop k x).xcommit = s.xcommit := rfl
@[simp] theorem State.setLoop_power (k : Nat) (x : Loop) : (s.setLoop k x).power = s.power := rfl
@[simp] theorem State.setLoop_pmbus (k : Nat) (x : Loop) : (s.setLoop k x).pmbus = s.pmbus := rfl
@[simp] theorem State.setLoop_monconv (k : Nat) (x : Loop) : (s.setLoop k x).monconv = s.monconv := rfl
@[simp] theorem State.setLoop_corr (k : Nat) (x : Loop) : (s.setLoop k x).corr = s.corr := rfl
@[simp] theorem State.setLoop_heaters (k : Nat) (x : Loop) : (s.setLoop k x).heaters = s.heaters := rfl
@[simp] theorem State.setLoop_fabric (k : Nat) (x : Loop) : (s.setLoop k x).fabric = s.fabric := rfl
@[simp] theorem State.setLoop_trust (k : Nat) (x : Loop) : (s.setLoop k x).trust = s.trust := rfl
@[simp] theorem State.setLoop_mbx (k : Nat) (x : Loop) : (s.setLoop k x).mbx = s.mbx := rfl
@[simp] theorem State.setLoop_sdio (k : Nat) (x : Loop) : (s.setLoop k x).sdio = s.sdio := rfl
@[simp] theorem State.setLoop_jtag (k : Nat) (x : Loop) : (s.setLoop k x).jtag = s.jtag := rfl
@[simp] theorem State.setLoop_faults (k : Nat) (x : Loop) : (s.setLoop k x).faults = s.faults := rfl
@[simp] theorem State.setLoop_free (k : Nat) (x : Loop) : (s.setLoop k x).free = s.free := rfl

@[simp] theorem State.modLoop_pending (k : Nat) (f : Loop → Loop) : (s.modLoop k f).pending = s.pending := rfl
@[simp] theorem State.modLoop_time (k : Nat) (f : Loop → Loop) : (s.modLoop k f).time = s.time := rfl
@[simp] theorem State.modLoop_clusters (k : Nat) (f : Loop → Loop) : (s.modLoop k f).clusters = s.clusters := rfl
@[simp] theorem State.modLoop_slabs (k : Nat) (f : Loop → Loop) : (s.modLoop k f).slabs = s.slabs := rfl
@[simp] theorem State.modLoop_vec (k : Nat) (f : Loop → Loop) : (s.modLoop k f).vec = s.vec := rfl
@[simp] theorem State.modLoop_engines (k : Nat) (f : Loop → Loop) : (s.modLoop k f).engines = s.engines := rfl
@[simp] theorem State.modLoop_banks (k : Nat) (f : Loop → Loop) : (s.modLoop k f).banks = s.banks := rfl
@[simp] theorem State.modLoop_hauls (k : Nat) (f : Loop → Loop) : (s.modLoop k f).hauls = s.hauls := rfl
@[simp] theorem State.modLoop_mem (k : Nat) (f : Loop → Loop) : (s.modLoop k f).mem = s.mem := rfl
@[simp] theorem State.modLoop_tags (k : Nat) (f : Loop → Loop) : (s.modLoop k f).tags = s.tags := rfl
@[simp] theorem State.modLoop_seals (k : Nat) (f : Loop → Loop) : (s.modLoop k f).seals = s.seals := rfl
@[simp] theorem State.modLoop_pages (k : Nat) (f : Loop → Loop) : (s.modLoop k f).pages = s.pages := rfl
@[simp] theorem State.modLoop_pageChanges (k : Nat) (f : Loop → Loop) : (s.modLoop k f).pageChanges = s.pageChanges := rfl
@[simp] theorem State.modLoop_tiles (k : Nat) (f : Loop → Loop) : (s.modLoop k f).tiles = s.tiles := rfl
@[simp] theorem State.modLoop_hbmLost (k : Nat) (f : Loop → Loop) : (s.modLoop k f).hbmLost = s.hbmLost := rfl
@[simp] theorem State.modLoop_carts (k : Nat) (f : Loop → Loop) : (s.modLoop k f).carts = s.carts := rfl
@[simp] theorem State.modLoop_feed (k : Nat) (f : Loop → Loop) : (s.modLoop k f).feed = s.feed := rfl
@[simp] theorem State.modLoop_ringTrim (k : Nat) (f : Loop → Loop) : (s.modLoop k f).ringTrim = s.ringTrim := rfl
@[simp] theorem State.modLoop_xtalk (k : Nat) (f : Loop → Loop) : (s.modLoop k f).xtalk = s.xtalk := rfl
@[simp] theorem State.modLoop_xstage (k : Nat) (f : Loop → Loop) : (s.modLoop k f).xstage = s.xstage := rfl
@[simp] theorem State.modLoop_xcommit (k : Nat) (f : Loop → Loop) : (s.modLoop k f).xcommit = s.xcommit := rfl
@[simp] theorem State.modLoop_power (k : Nat) (f : Loop → Loop) : (s.modLoop k f).power = s.power := rfl
@[simp] theorem State.modLoop_pmbus (k : Nat) (f : Loop → Loop) : (s.modLoop k f).pmbus = s.pmbus := rfl
@[simp] theorem State.modLoop_monconv (k : Nat) (f : Loop → Loop) : (s.modLoop k f).monconv = s.monconv := rfl
@[simp] theorem State.modLoop_corr (k : Nat) (f : Loop → Loop) : (s.modLoop k f).corr = s.corr := rfl
@[simp] theorem State.modLoop_heaters (k : Nat) (f : Loop → Loop) : (s.modLoop k f).heaters = s.heaters := rfl
@[simp] theorem State.modLoop_fabric (k : Nat) (f : Loop → Loop) : (s.modLoop k f).fabric = s.fabric := rfl
@[simp] theorem State.modLoop_trust (k : Nat) (f : Loop → Loop) : (s.modLoop k f).trust = s.trust := rfl
@[simp] theorem State.modLoop_mbx (k : Nat) (f : Loop → Loop) : (s.modLoop k f).mbx = s.mbx := rfl
@[simp] theorem State.modLoop_sdio (k : Nat) (f : Loop → Loop) : (s.modLoop k f).sdio = s.sdio := rfl
@[simp] theorem State.modLoop_jtag (k : Nat) (f : Loop → Loop) : (s.modLoop k f).jtag = s.jtag := rfl
@[simp] theorem State.modLoop_faults (k : Nat) (f : Loop → Loop) : (s.modLoop k f).faults = s.faults := rfl
@[simp] theorem State.modLoop_free (k : Nat) (f : Loop → Loop) : (s.modLoop k f).free = s.free := rfl

@[simp] theorem State.setFeed_pending (k v : Nat) : (s.setFeed k v).pending = s.pending := rfl
@[simp] theorem State.setFeed_time (k v : Nat) : (s.setFeed k v).time = s.time := rfl
@[simp] theorem State.setFeed_clusters (k v : Nat) : (s.setFeed k v).clusters = s.clusters := rfl
@[simp] theorem State.setFeed_slabs (k v : Nat) : (s.setFeed k v).slabs = s.slabs := rfl
@[simp] theorem State.setFeed_vec (k v : Nat) : (s.setFeed k v).vec = s.vec := rfl
@[simp] theorem State.setFeed_engines (k v : Nat) : (s.setFeed k v).engines = s.engines := rfl
@[simp] theorem State.setFeed_banks (k v : Nat) : (s.setFeed k v).banks = s.banks := rfl
@[simp] theorem State.setFeed_hauls (k v : Nat) : (s.setFeed k v).hauls = s.hauls := rfl
@[simp] theorem State.setFeed_mem (k v : Nat) : (s.setFeed k v).mem = s.mem := rfl
@[simp] theorem State.setFeed_tags (k v : Nat) : (s.setFeed k v).tags = s.tags := rfl
@[simp] theorem State.setFeed_seals (k v : Nat) : (s.setFeed k v).seals = s.seals := rfl
@[simp] theorem State.setFeed_pages (k v : Nat) : (s.setFeed k v).pages = s.pages := rfl
@[simp] theorem State.setFeed_pageChanges (k v : Nat) : (s.setFeed k v).pageChanges = s.pageChanges := rfl
@[simp] theorem State.setFeed_tiles (k v : Nat) : (s.setFeed k v).tiles = s.tiles := rfl
@[simp] theorem State.setFeed_hbmLost (k v : Nat) : (s.setFeed k v).hbmLost = s.hbmLost := rfl
@[simp] theorem State.setFeed_carts (k v : Nat) : (s.setFeed k v).carts = s.carts := rfl
@[simp] theorem State.setFeed_loops (k v : Nat) : (s.setFeed k v).loops = s.loops := rfl
@[simp] theorem State.setFeed_ringTrim (k v : Nat) : (s.setFeed k v).ringTrim = s.ringTrim := rfl
@[simp] theorem State.setFeed_xtalk (k v : Nat) : (s.setFeed k v).xtalk = s.xtalk := rfl
@[simp] theorem State.setFeed_xstage (k v : Nat) : (s.setFeed k v).xstage = s.xstage := rfl
@[simp] theorem State.setFeed_xcommit (k v : Nat) : (s.setFeed k v).xcommit = s.xcommit := rfl
@[simp] theorem State.setFeed_power (k v : Nat) : (s.setFeed k v).power = s.power := rfl
@[simp] theorem State.setFeed_pmbus (k v : Nat) : (s.setFeed k v).pmbus = s.pmbus := rfl
@[simp] theorem State.setFeed_monconv (k v : Nat) : (s.setFeed k v).monconv = s.monconv := rfl
@[simp] theorem State.setFeed_corr (k v : Nat) : (s.setFeed k v).corr = s.corr := rfl
@[simp] theorem State.setFeed_heaters (k v : Nat) : (s.setFeed k v).heaters = s.heaters := rfl
@[simp] theorem State.setFeed_fabric (k v : Nat) : (s.setFeed k v).fabric = s.fabric := rfl
@[simp] theorem State.setFeed_trust (k v : Nat) : (s.setFeed k v).trust = s.trust := rfl
@[simp] theorem State.setFeed_mbx (k v : Nat) : (s.setFeed k v).mbx = s.mbx := rfl
@[simp] theorem State.setFeed_sdio (k v : Nat) : (s.setFeed k v).sdio = s.sdio := rfl
@[simp] theorem State.setFeed_jtag (k v : Nat) : (s.setFeed k v).jtag = s.jtag := rfl
@[simp] theorem State.setFeed_faults (k v : Nat) : (s.setFeed k v).faults = s.faults := rfl
@[simp] theorem State.setFeed_free (k v : Nat) : (s.setFeed k v).free = s.free := rfl

@[simp] theorem State.modMc_pending (k : Nat) (f : Monconv → Monconv) : (s.modMc k f).pending = s.pending := rfl
@[simp] theorem State.modMc_time (k : Nat) (f : Monconv → Monconv) : (s.modMc k f).time = s.time := rfl
@[simp] theorem State.modMc_clusters (k : Nat) (f : Monconv → Monconv) : (s.modMc k f).clusters = s.clusters := rfl
@[simp] theorem State.modMc_slabs (k : Nat) (f : Monconv → Monconv) : (s.modMc k f).slabs = s.slabs := rfl
@[simp] theorem State.modMc_vec (k : Nat) (f : Monconv → Monconv) : (s.modMc k f).vec = s.vec := rfl
@[simp] theorem State.modMc_engines (k : Nat) (f : Monconv → Monconv) : (s.modMc k f).engines = s.engines := rfl
@[simp] theorem State.modMc_banks (k : Nat) (f : Monconv → Monconv) : (s.modMc k f).banks = s.banks := rfl
@[simp] theorem State.modMc_hauls (k : Nat) (f : Monconv → Monconv) : (s.modMc k f).hauls = s.hauls := rfl
@[simp] theorem State.modMc_mem (k : Nat) (f : Monconv → Monconv) : (s.modMc k f).mem = s.mem := rfl
@[simp] theorem State.modMc_tags (k : Nat) (f : Monconv → Monconv) : (s.modMc k f).tags = s.tags := rfl
@[simp] theorem State.modMc_seals (k : Nat) (f : Monconv → Monconv) : (s.modMc k f).seals = s.seals := rfl
@[simp] theorem State.modMc_pages (k : Nat) (f : Monconv → Monconv) : (s.modMc k f).pages = s.pages := rfl
@[simp] theorem State.modMc_pageChanges (k : Nat) (f : Monconv → Monconv) : (s.modMc k f).pageChanges = s.pageChanges := rfl
@[simp] theorem State.modMc_tiles (k : Nat) (f : Monconv → Monconv) : (s.modMc k f).tiles = s.tiles := rfl
@[simp] theorem State.modMc_hbmLost (k : Nat) (f : Monconv → Monconv) : (s.modMc k f).hbmLost = s.hbmLost := rfl
@[simp] theorem State.modMc_carts (k : Nat) (f : Monconv → Monconv) : (s.modMc k f).carts = s.carts := rfl
@[simp] theorem State.modMc_feed (k : Nat) (f : Monconv → Monconv) : (s.modMc k f).feed = s.feed := rfl
@[simp] theorem State.modMc_loops (k : Nat) (f : Monconv → Monconv) : (s.modMc k f).loops = s.loops := rfl
@[simp] theorem State.modMc_ringTrim (k : Nat) (f : Monconv → Monconv) : (s.modMc k f).ringTrim = s.ringTrim := rfl
@[simp] theorem State.modMc_xtalk (k : Nat) (f : Monconv → Monconv) : (s.modMc k f).xtalk = s.xtalk := rfl
@[simp] theorem State.modMc_xstage (k : Nat) (f : Monconv → Monconv) : (s.modMc k f).xstage = s.xstage := rfl
@[simp] theorem State.modMc_xcommit (k : Nat) (f : Monconv → Monconv) : (s.modMc k f).xcommit = s.xcommit := rfl
@[simp] theorem State.modMc_power (k : Nat) (f : Monconv → Monconv) : (s.modMc k f).power = s.power := rfl
@[simp] theorem State.modMc_pmbus (k : Nat) (f : Monconv → Monconv) : (s.modMc k f).pmbus = s.pmbus := rfl
@[simp] theorem State.modMc_corr (k : Nat) (f : Monconv → Monconv) : (s.modMc k f).corr = s.corr := rfl
@[simp] theorem State.modMc_heaters (k : Nat) (f : Monconv → Monconv) : (s.modMc k f).heaters = s.heaters := rfl
@[simp] theorem State.modMc_fabric (k : Nat) (f : Monconv → Monconv) : (s.modMc k f).fabric = s.fabric := rfl
@[simp] theorem State.modMc_trust (k : Nat) (f : Monconv → Monconv) : (s.modMc k f).trust = s.trust := rfl
@[simp] theorem State.modMc_mbx (k : Nat) (f : Monconv → Monconv) : (s.modMc k f).mbx = s.mbx := rfl
@[simp] theorem State.modMc_sdio (k : Nat) (f : Monconv → Monconv) : (s.modMc k f).sdio = s.sdio := rfl
@[simp] theorem State.modMc_jtag (k : Nat) (f : Monconv → Monconv) : (s.modMc k f).jtag = s.jtag := rfl
@[simp] theorem State.modMc_faults (k : Nat) (f : Monconv → Monconv) : (s.modMc k f).faults = s.faults := rfl
@[simp] theorem State.modMc_free (k : Nat) (f : Monconv → Monconv) : (s.modMc k f).free = s.free := rfl

@[simp] theorem State.modCorr_pending (k : Nat) (f : ConvCorr → ConvCorr) : (s.modCorr k f).pending = s.pending := rfl
@[simp] theorem State.modCorr_time (k : Nat) (f : ConvCorr → ConvCorr) : (s.modCorr k f).time = s.time := rfl
@[simp] theorem State.modCorr_clusters (k : Nat) (f : ConvCorr → ConvCorr) : (s.modCorr k f).clusters = s.clusters := rfl
@[simp] theorem State.modCorr_slabs (k : Nat) (f : ConvCorr → ConvCorr) : (s.modCorr k f).slabs = s.slabs := rfl
@[simp] theorem State.modCorr_vec (k : Nat) (f : ConvCorr → ConvCorr) : (s.modCorr k f).vec = s.vec := rfl
@[simp] theorem State.modCorr_engines (k : Nat) (f : ConvCorr → ConvCorr) : (s.modCorr k f).engines = s.engines := rfl
@[simp] theorem State.modCorr_banks (k : Nat) (f : ConvCorr → ConvCorr) : (s.modCorr k f).banks = s.banks := rfl
@[simp] theorem State.modCorr_hauls (k : Nat) (f : ConvCorr → ConvCorr) : (s.modCorr k f).hauls = s.hauls := rfl
@[simp] theorem State.modCorr_mem (k : Nat) (f : ConvCorr → ConvCorr) : (s.modCorr k f).mem = s.mem := rfl
@[simp] theorem State.modCorr_tags (k : Nat) (f : ConvCorr → ConvCorr) : (s.modCorr k f).tags = s.tags := rfl
@[simp] theorem State.modCorr_seals (k : Nat) (f : ConvCorr → ConvCorr) : (s.modCorr k f).seals = s.seals := rfl
@[simp] theorem State.modCorr_pages (k : Nat) (f : ConvCorr → ConvCorr) : (s.modCorr k f).pages = s.pages := rfl
@[simp] theorem State.modCorr_pageChanges (k : Nat) (f : ConvCorr → ConvCorr) : (s.modCorr k f).pageChanges = s.pageChanges := rfl
@[simp] theorem State.modCorr_tiles (k : Nat) (f : ConvCorr → ConvCorr) : (s.modCorr k f).tiles = s.tiles := rfl
@[simp] theorem State.modCorr_hbmLost (k : Nat) (f : ConvCorr → ConvCorr) : (s.modCorr k f).hbmLost = s.hbmLost := rfl
@[simp] theorem State.modCorr_carts (k : Nat) (f : ConvCorr → ConvCorr) : (s.modCorr k f).carts = s.carts := rfl
@[simp] theorem State.modCorr_feed (k : Nat) (f : ConvCorr → ConvCorr) : (s.modCorr k f).feed = s.feed := rfl
@[simp] theorem State.modCorr_loops (k : Nat) (f : ConvCorr → ConvCorr) : (s.modCorr k f).loops = s.loops := rfl
@[simp] theorem State.modCorr_ringTrim (k : Nat) (f : ConvCorr → ConvCorr) : (s.modCorr k f).ringTrim = s.ringTrim := rfl
@[simp] theorem State.modCorr_xtalk (k : Nat) (f : ConvCorr → ConvCorr) : (s.modCorr k f).xtalk = s.xtalk := rfl
@[simp] theorem State.modCorr_xstage (k : Nat) (f : ConvCorr → ConvCorr) : (s.modCorr k f).xstage = s.xstage := rfl
@[simp] theorem State.modCorr_xcommit (k : Nat) (f : ConvCorr → ConvCorr) : (s.modCorr k f).xcommit = s.xcommit := rfl
@[simp] theorem State.modCorr_power (k : Nat) (f : ConvCorr → ConvCorr) : (s.modCorr k f).power = s.power := rfl
@[simp] theorem State.modCorr_pmbus (k : Nat) (f : ConvCorr → ConvCorr) : (s.modCorr k f).pmbus = s.pmbus := rfl
@[simp] theorem State.modCorr_monconv (k : Nat) (f : ConvCorr → ConvCorr) : (s.modCorr k f).monconv = s.monconv := rfl
@[simp] theorem State.modCorr_heaters (k : Nat) (f : ConvCorr → ConvCorr) : (s.modCorr k f).heaters = s.heaters := rfl
@[simp] theorem State.modCorr_fabric (k : Nat) (f : ConvCorr → ConvCorr) : (s.modCorr k f).fabric = s.fabric := rfl
@[simp] theorem State.modCorr_trust (k : Nat) (f : ConvCorr → ConvCorr) : (s.modCorr k f).trust = s.trust := rfl
@[simp] theorem State.modCorr_mbx (k : Nat) (f : ConvCorr → ConvCorr) : (s.modCorr k f).mbx = s.mbx := rfl
@[simp] theorem State.modCorr_sdio (k : Nat) (f : ConvCorr → ConvCorr) : (s.modCorr k f).sdio = s.sdio := rfl
@[simp] theorem State.modCorr_jtag (k : Nat) (f : ConvCorr → ConvCorr) : (s.modCorr k f).jtag = s.jtag := rfl
@[simp] theorem State.modCorr_faults (k : Nat) (f : ConvCorr → ConvCorr) : (s.modCorr k f).faults = s.faults := rfl
@[simp] theorem State.modCorr_free (k : Nat) (f : ConvCorr → ConvCorr) : (s.modCorr k f).free = s.free := rfl

@[simp] theorem State.modPort_pending (k : Nat) (f : Port → Port) : (s.modPort k f).pending = s.pending := rfl
@[simp] theorem State.modPort_time (k : Nat) (f : Port → Port) : (s.modPort k f).time = s.time := rfl
@[simp] theorem State.modPort_clusters (k : Nat) (f : Port → Port) : (s.modPort k f).clusters = s.clusters := rfl
@[simp] theorem State.modPort_slabs (k : Nat) (f : Port → Port) : (s.modPort k f).slabs = s.slabs := rfl
@[simp] theorem State.modPort_vec (k : Nat) (f : Port → Port) : (s.modPort k f).vec = s.vec := rfl
@[simp] theorem State.modPort_engines (k : Nat) (f : Port → Port) : (s.modPort k f).engines = s.engines := rfl
@[simp] theorem State.modPort_banks (k : Nat) (f : Port → Port) : (s.modPort k f).banks = s.banks := rfl
@[simp] theorem State.modPort_hauls (k : Nat) (f : Port → Port) : (s.modPort k f).hauls = s.hauls := rfl
@[simp] theorem State.modPort_mem (k : Nat) (f : Port → Port) : (s.modPort k f).mem = s.mem := rfl
@[simp] theorem State.modPort_tags (k : Nat) (f : Port → Port) : (s.modPort k f).tags = s.tags := rfl
@[simp] theorem State.modPort_seals (k : Nat) (f : Port → Port) : (s.modPort k f).seals = s.seals := rfl
@[simp] theorem State.modPort_pages (k : Nat) (f : Port → Port) : (s.modPort k f).pages = s.pages := rfl
@[simp] theorem State.modPort_pageChanges (k : Nat) (f : Port → Port) : (s.modPort k f).pageChanges = s.pageChanges := rfl
@[simp] theorem State.modPort_tiles (k : Nat) (f : Port → Port) : (s.modPort k f).tiles = s.tiles := rfl
@[simp] theorem State.modPort_hbmLost (k : Nat) (f : Port → Port) : (s.modPort k f).hbmLost = s.hbmLost := rfl
@[simp] theorem State.modPort_carts (k : Nat) (f : Port → Port) : (s.modPort k f).carts = s.carts := rfl
@[simp] theorem State.modPort_feed (k : Nat) (f : Port → Port) : (s.modPort k f).feed = s.feed := rfl
@[simp] theorem State.modPort_loops (k : Nat) (f : Port → Port) : (s.modPort k f).loops = s.loops := rfl
@[simp] theorem State.modPort_ringTrim (k : Nat) (f : Port → Port) : (s.modPort k f).ringTrim = s.ringTrim := rfl
@[simp] theorem State.modPort_xtalk (k : Nat) (f : Port → Port) : (s.modPort k f).xtalk = s.xtalk := rfl
@[simp] theorem State.modPort_xstage (k : Nat) (f : Port → Port) : (s.modPort k f).xstage = s.xstage := rfl
@[simp] theorem State.modPort_xcommit (k : Nat) (f : Port → Port) : (s.modPort k f).xcommit = s.xcommit := rfl
@[simp] theorem State.modPort_power (k : Nat) (f : Port → Port) : (s.modPort k f).power = s.power := rfl
@[simp] theorem State.modPort_pmbus (k : Nat) (f : Port → Port) : (s.modPort k f).pmbus = s.pmbus := rfl
@[simp] theorem State.modPort_monconv (k : Nat) (f : Port → Port) : (s.modPort k f).monconv = s.monconv := rfl
@[simp] theorem State.modPort_corr (k : Nat) (f : Port → Port) : (s.modPort k f).corr = s.corr := rfl
@[simp] theorem State.modPort_heaters (k : Nat) (f : Port → Port) : (s.modPort k f).heaters = s.heaters := rfl
@[simp] theorem State.modPort_trust (k : Nat) (f : Port → Port) : (s.modPort k f).trust = s.trust := rfl
@[simp] theorem State.modPort_mbx (k : Nat) (f : Port → Port) : (s.modPort k f).mbx = s.mbx := rfl
@[simp] theorem State.modPort_sdio (k : Nat) (f : Port → Port) : (s.modPort k f).sdio = s.sdio := rfl
@[simp] theorem State.modPort_jtag (k : Nat) (f : Port → Port) : (s.modPort k f).jtag = s.jtag := rfl
@[simp] theorem State.modPort_faults (k : Nat) (f : Port → Port) : (s.modPort k f).faults = s.faults := rfl
@[simp] theorem State.modPort_free (k : Nat) (f : Port → Port) : (s.modPort k f).free = s.free := rfl

@[simp] theorem State.setPartner_pending (k : Nat) (x : BitVec 512) : (s.setPartner k x).pending = s.pending := rfl
@[simp] theorem State.setPartner_time (k : Nat) (x : BitVec 512) : (s.setPartner k x).time = s.time := rfl
@[simp] theorem State.setPartner_clusters (k : Nat) (x : BitVec 512) : (s.setPartner k x).clusters = s.clusters := rfl
@[simp] theorem State.setPartner_slabs (k : Nat) (x : BitVec 512) : (s.setPartner k x).slabs = s.slabs := rfl
@[simp] theorem State.setPartner_vec (k : Nat) (x : BitVec 512) : (s.setPartner k x).vec = s.vec := rfl
@[simp] theorem State.setPartner_engines (k : Nat) (x : BitVec 512) : (s.setPartner k x).engines = s.engines := rfl
@[simp] theorem State.setPartner_banks (k : Nat) (x : BitVec 512) : (s.setPartner k x).banks = s.banks := rfl
@[simp] theorem State.setPartner_hauls (k : Nat) (x : BitVec 512) : (s.setPartner k x).hauls = s.hauls := rfl
@[simp] theorem State.setPartner_mem (k : Nat) (x : BitVec 512) : (s.setPartner k x).mem = s.mem := rfl
@[simp] theorem State.setPartner_tags (k : Nat) (x : BitVec 512) : (s.setPartner k x).tags = s.tags := rfl
@[simp] theorem State.setPartner_seals (k : Nat) (x : BitVec 512) : (s.setPartner k x).seals = s.seals := rfl
@[simp] theorem State.setPartner_pages (k : Nat) (x : BitVec 512) : (s.setPartner k x).pages = s.pages := rfl
@[simp] theorem State.setPartner_pageChanges (k : Nat) (x : BitVec 512) : (s.setPartner k x).pageChanges = s.pageChanges := rfl
@[simp] theorem State.setPartner_tiles (k : Nat) (x : BitVec 512) : (s.setPartner k x).tiles = s.tiles := rfl
@[simp] theorem State.setPartner_hbmLost (k : Nat) (x : BitVec 512) : (s.setPartner k x).hbmLost = s.hbmLost := rfl
@[simp] theorem State.setPartner_carts (k : Nat) (x : BitVec 512) : (s.setPartner k x).carts = s.carts := rfl
@[simp] theorem State.setPartner_feed (k : Nat) (x : BitVec 512) : (s.setPartner k x).feed = s.feed := rfl
@[simp] theorem State.setPartner_loops (k : Nat) (x : BitVec 512) : (s.setPartner k x).loops = s.loops := rfl
@[simp] theorem State.setPartner_ringTrim (k : Nat) (x : BitVec 512) : (s.setPartner k x).ringTrim = s.ringTrim := rfl
@[simp] theorem State.setPartner_xtalk (k : Nat) (x : BitVec 512) : (s.setPartner k x).xtalk = s.xtalk := rfl
@[simp] theorem State.setPartner_xstage (k : Nat) (x : BitVec 512) : (s.setPartner k x).xstage = s.xstage := rfl
@[simp] theorem State.setPartner_xcommit (k : Nat) (x : BitVec 512) : (s.setPartner k x).xcommit = s.xcommit := rfl
@[simp] theorem State.setPartner_power (k : Nat) (x : BitVec 512) : (s.setPartner k x).power = s.power := rfl
@[simp] theorem State.setPartner_pmbus (k : Nat) (x : BitVec 512) : (s.setPartner k x).pmbus = s.pmbus := rfl
@[simp] theorem State.setPartner_monconv (k : Nat) (x : BitVec 512) : (s.setPartner k x).monconv = s.monconv := rfl
@[simp] theorem State.setPartner_corr (k : Nat) (x : BitVec 512) : (s.setPartner k x).corr = s.corr := rfl
@[simp] theorem State.setPartner_heaters (k : Nat) (x : BitVec 512) : (s.setPartner k x).heaters = s.heaters := rfl
@[simp] theorem State.setPartner_trust (k : Nat) (x : BitVec 512) : (s.setPartner k x).trust = s.trust := rfl
@[simp] theorem State.setPartner_mbx (k : Nat) (x : BitVec 512) : (s.setPartner k x).mbx = s.mbx := rfl
@[simp] theorem State.setPartner_sdio (k : Nat) (x : BitVec 512) : (s.setPartner k x).sdio = s.sdio := rfl
@[simp] theorem State.setPartner_jtag (k : Nat) (x : BitVec 512) : (s.setPartner k x).jtag = s.jtag := rfl
@[simp] theorem State.setPartner_faults (k : Nat) (x : BitVec 512) : (s.setPartner k x).faults = s.faults := rfl
@[simp] theorem State.setPartner_free (k : Nat) (x : BitVec 512) : (s.setPartner k x).free = s.free := rfl

@[simp] theorem State.modDyn_pending (k : Nat) (f : PartnerDyn → PartnerDyn) : (s.modDyn k f).pending = s.pending := rfl
@[simp] theorem State.modDyn_time (k : Nat) (f : PartnerDyn → PartnerDyn) : (s.modDyn k f).time = s.time := rfl
@[simp] theorem State.modDyn_clusters (k : Nat) (f : PartnerDyn → PartnerDyn) : (s.modDyn k f).clusters = s.clusters := rfl
@[simp] theorem State.modDyn_slabs (k : Nat) (f : PartnerDyn → PartnerDyn) : (s.modDyn k f).slabs = s.slabs := rfl
@[simp] theorem State.modDyn_vec (k : Nat) (f : PartnerDyn → PartnerDyn) : (s.modDyn k f).vec = s.vec := rfl
@[simp] theorem State.modDyn_engines (k : Nat) (f : PartnerDyn → PartnerDyn) : (s.modDyn k f).engines = s.engines := rfl
@[simp] theorem State.modDyn_banks (k : Nat) (f : PartnerDyn → PartnerDyn) : (s.modDyn k f).banks = s.banks := rfl
@[simp] theorem State.modDyn_hauls (k : Nat) (f : PartnerDyn → PartnerDyn) : (s.modDyn k f).hauls = s.hauls := rfl
@[simp] theorem State.modDyn_mem (k : Nat) (f : PartnerDyn → PartnerDyn) : (s.modDyn k f).mem = s.mem := rfl
@[simp] theorem State.modDyn_tags (k : Nat) (f : PartnerDyn → PartnerDyn) : (s.modDyn k f).tags = s.tags := rfl
@[simp] theorem State.modDyn_seals (k : Nat) (f : PartnerDyn → PartnerDyn) : (s.modDyn k f).seals = s.seals := rfl
@[simp] theorem State.modDyn_pages (k : Nat) (f : PartnerDyn → PartnerDyn) : (s.modDyn k f).pages = s.pages := rfl
@[simp] theorem State.modDyn_pageChanges (k : Nat) (f : PartnerDyn → PartnerDyn) : (s.modDyn k f).pageChanges = s.pageChanges := rfl
@[simp] theorem State.modDyn_tiles (k : Nat) (f : PartnerDyn → PartnerDyn) : (s.modDyn k f).tiles = s.tiles := rfl
@[simp] theorem State.modDyn_hbmLost (k : Nat) (f : PartnerDyn → PartnerDyn) : (s.modDyn k f).hbmLost = s.hbmLost := rfl
@[simp] theorem State.modDyn_carts (k : Nat) (f : PartnerDyn → PartnerDyn) : (s.modDyn k f).carts = s.carts := rfl
@[simp] theorem State.modDyn_feed (k : Nat) (f : PartnerDyn → PartnerDyn) : (s.modDyn k f).feed = s.feed := rfl
@[simp] theorem State.modDyn_loops (k : Nat) (f : PartnerDyn → PartnerDyn) : (s.modDyn k f).loops = s.loops := rfl
@[simp] theorem State.modDyn_ringTrim (k : Nat) (f : PartnerDyn → PartnerDyn) : (s.modDyn k f).ringTrim = s.ringTrim := rfl
@[simp] theorem State.modDyn_xtalk (k : Nat) (f : PartnerDyn → PartnerDyn) : (s.modDyn k f).xtalk = s.xtalk := rfl
@[simp] theorem State.modDyn_xstage (k : Nat) (f : PartnerDyn → PartnerDyn) : (s.modDyn k f).xstage = s.xstage := rfl
@[simp] theorem State.modDyn_xcommit (k : Nat) (f : PartnerDyn → PartnerDyn) : (s.modDyn k f).xcommit = s.xcommit := rfl
@[simp] theorem State.modDyn_power (k : Nat) (f : PartnerDyn → PartnerDyn) : (s.modDyn k f).power = s.power := rfl
@[simp] theorem State.modDyn_pmbus (k : Nat) (f : PartnerDyn → PartnerDyn) : (s.modDyn k f).pmbus = s.pmbus := rfl
@[simp] theorem State.modDyn_monconv (k : Nat) (f : PartnerDyn → PartnerDyn) : (s.modDyn k f).monconv = s.monconv := rfl
@[simp] theorem State.modDyn_corr (k : Nat) (f : PartnerDyn → PartnerDyn) : (s.modDyn k f).corr = s.corr := rfl
@[simp] theorem State.modDyn_heaters (k : Nat) (f : PartnerDyn → PartnerDyn) : (s.modDyn k f).heaters = s.heaters := rfl
@[simp] theorem State.modDyn_trust (k : Nat) (f : PartnerDyn → PartnerDyn) : (s.modDyn k f).trust = s.trust := rfl
@[simp] theorem State.modDyn_mbx (k : Nat) (f : PartnerDyn → PartnerDyn) : (s.modDyn k f).mbx = s.mbx := rfl
@[simp] theorem State.modDyn_sdio (k : Nat) (f : PartnerDyn → PartnerDyn) : (s.modDyn k f).sdio = s.sdio := rfl
@[simp] theorem State.modDyn_jtag (k : Nat) (f : PartnerDyn → PartnerDyn) : (s.modDyn k f).jtag = s.jtag := rfl
@[simp] theorem State.modDyn_faults (k : Nat) (f : PartnerDyn → PartnerDyn) : (s.modDyn k f).faults = s.faults := rfl
@[simp] theorem State.modDyn_free (k : Nat) (f : PartnerDyn → PartnerDyn) : (s.modDyn k f).free = s.free := rfl

@[simp] theorem State.modTenant_pending (k : Nat) (f : Tenant → Tenant) : (s.modTenant k f).pending = s.pending := rfl
@[simp] theorem State.modTenant_time (k : Nat) (f : Tenant → Tenant) : (s.modTenant k f).time = s.time := rfl
@[simp] theorem State.modTenant_clusters (k : Nat) (f : Tenant → Tenant) : (s.modTenant k f).clusters = s.clusters := rfl
@[simp] theorem State.modTenant_slabs (k : Nat) (f : Tenant → Tenant) : (s.modTenant k f).slabs = s.slabs := rfl
@[simp] theorem State.modTenant_vec (k : Nat) (f : Tenant → Tenant) : (s.modTenant k f).vec = s.vec := rfl
@[simp] theorem State.modTenant_engines (k : Nat) (f : Tenant → Tenant) : (s.modTenant k f).engines = s.engines := rfl
@[simp] theorem State.modTenant_banks (k : Nat) (f : Tenant → Tenant) : (s.modTenant k f).banks = s.banks := rfl
@[simp] theorem State.modTenant_hauls (k : Nat) (f : Tenant → Tenant) : (s.modTenant k f).hauls = s.hauls := rfl
@[simp] theorem State.modTenant_mem (k : Nat) (f : Tenant → Tenant) : (s.modTenant k f).mem = s.mem := rfl
@[simp] theorem State.modTenant_tags (k : Nat) (f : Tenant → Tenant) : (s.modTenant k f).tags = s.tags := rfl
@[simp] theorem State.modTenant_seals (k : Nat) (f : Tenant → Tenant) : (s.modTenant k f).seals = s.seals := rfl
@[simp] theorem State.modTenant_pages (k : Nat) (f : Tenant → Tenant) : (s.modTenant k f).pages = s.pages := rfl
@[simp] theorem State.modTenant_pageChanges (k : Nat) (f : Tenant → Tenant) : (s.modTenant k f).pageChanges = s.pageChanges := rfl
@[simp] theorem State.modTenant_tiles (k : Nat) (f : Tenant → Tenant) : (s.modTenant k f).tiles = s.tiles := rfl
@[simp] theorem State.modTenant_hbmLost (k : Nat) (f : Tenant → Tenant) : (s.modTenant k f).hbmLost = s.hbmLost := rfl
@[simp] theorem State.modTenant_carts (k : Nat) (f : Tenant → Tenant) : (s.modTenant k f).carts = s.carts := rfl
@[simp] theorem State.modTenant_feed (k : Nat) (f : Tenant → Tenant) : (s.modTenant k f).feed = s.feed := rfl
@[simp] theorem State.modTenant_loops (k : Nat) (f : Tenant → Tenant) : (s.modTenant k f).loops = s.loops := rfl
@[simp] theorem State.modTenant_ringTrim (k : Nat) (f : Tenant → Tenant) : (s.modTenant k f).ringTrim = s.ringTrim := rfl
@[simp] theorem State.modTenant_xtalk (k : Nat) (f : Tenant → Tenant) : (s.modTenant k f).xtalk = s.xtalk := rfl
@[simp] theorem State.modTenant_xstage (k : Nat) (f : Tenant → Tenant) : (s.modTenant k f).xstage = s.xstage := rfl
@[simp] theorem State.modTenant_xcommit (k : Nat) (f : Tenant → Tenant) : (s.modTenant k f).xcommit = s.xcommit := rfl
@[simp] theorem State.modTenant_power (k : Nat) (f : Tenant → Tenant) : (s.modTenant k f).power = s.power := rfl
@[simp] theorem State.modTenant_pmbus (k : Nat) (f : Tenant → Tenant) : (s.modTenant k f).pmbus = s.pmbus := rfl
@[simp] theorem State.modTenant_monconv (k : Nat) (f : Tenant → Tenant) : (s.modTenant k f).monconv = s.monconv := rfl
@[simp] theorem State.modTenant_corr (k : Nat) (f : Tenant → Tenant) : (s.modTenant k f).corr = s.corr := rfl
@[simp] theorem State.modTenant_heaters (k : Nat) (f : Tenant → Tenant) : (s.modTenant k f).heaters = s.heaters := rfl
@[simp] theorem State.modTenant_fabric (k : Nat) (f : Tenant → Tenant) : (s.modTenant k f).fabric = s.fabric := rfl
@[simp] theorem State.modTenant_mbx (k : Nat) (f : Tenant → Tenant) : (s.modTenant k f).mbx = s.mbx := rfl
@[simp] theorem State.modTenant_sdio (k : Nat) (f : Tenant → Tenant) : (s.modTenant k f).sdio = s.sdio := rfl
@[simp] theorem State.modTenant_jtag (k : Nat) (f : Tenant → Tenant) : (s.modTenant k f).jtag = s.jtag := rfl
@[simp] theorem State.modTenant_faults (k : Nat) (f : Tenant → Tenant) : (s.modTenant k f).faults = s.faults := rfl
@[simp] theorem State.modTenant_free (k : Nat) (f : Tenant → Tenant) : (s.modTenant k f).free = s.free := rfl

@[simp] theorem State.modCa_pending (k : Nat) (f : Ca → Ca) : (s.modCa k f).pending = s.pending := rfl
@[simp] theorem State.modCa_time (k : Nat) (f : Ca → Ca) : (s.modCa k f).time = s.time := rfl
@[simp] theorem State.modCa_clusters (k : Nat) (f : Ca → Ca) : (s.modCa k f).clusters = s.clusters := rfl
@[simp] theorem State.modCa_slabs (k : Nat) (f : Ca → Ca) : (s.modCa k f).slabs = s.slabs := rfl
@[simp] theorem State.modCa_vec (k : Nat) (f : Ca → Ca) : (s.modCa k f).vec = s.vec := rfl
@[simp] theorem State.modCa_engines (k : Nat) (f : Ca → Ca) : (s.modCa k f).engines = s.engines := rfl
@[simp] theorem State.modCa_banks (k : Nat) (f : Ca → Ca) : (s.modCa k f).banks = s.banks := rfl
@[simp] theorem State.modCa_hauls (k : Nat) (f : Ca → Ca) : (s.modCa k f).hauls = s.hauls := rfl
@[simp] theorem State.modCa_mem (k : Nat) (f : Ca → Ca) : (s.modCa k f).mem = s.mem := rfl
@[simp] theorem State.modCa_tags (k : Nat) (f : Ca → Ca) : (s.modCa k f).tags = s.tags := rfl
@[simp] theorem State.modCa_seals (k : Nat) (f : Ca → Ca) : (s.modCa k f).seals = s.seals := rfl
@[simp] theorem State.modCa_pages (k : Nat) (f : Ca → Ca) : (s.modCa k f).pages = s.pages := rfl
@[simp] theorem State.modCa_pageChanges (k : Nat) (f : Ca → Ca) : (s.modCa k f).pageChanges = s.pageChanges := rfl
@[simp] theorem State.modCa_tiles (k : Nat) (f : Ca → Ca) : (s.modCa k f).tiles = s.tiles := rfl
@[simp] theorem State.modCa_hbmLost (k : Nat) (f : Ca → Ca) : (s.modCa k f).hbmLost = s.hbmLost := rfl
@[simp] theorem State.modCa_carts (k : Nat) (f : Ca → Ca) : (s.modCa k f).carts = s.carts := rfl
@[simp] theorem State.modCa_feed (k : Nat) (f : Ca → Ca) : (s.modCa k f).feed = s.feed := rfl
@[simp] theorem State.modCa_loops (k : Nat) (f : Ca → Ca) : (s.modCa k f).loops = s.loops := rfl
@[simp] theorem State.modCa_ringTrim (k : Nat) (f : Ca → Ca) : (s.modCa k f).ringTrim = s.ringTrim := rfl
@[simp] theorem State.modCa_xtalk (k : Nat) (f : Ca → Ca) : (s.modCa k f).xtalk = s.xtalk := rfl
@[simp] theorem State.modCa_xstage (k : Nat) (f : Ca → Ca) : (s.modCa k f).xstage = s.xstage := rfl
@[simp] theorem State.modCa_xcommit (k : Nat) (f : Ca → Ca) : (s.modCa k f).xcommit = s.xcommit := rfl
@[simp] theorem State.modCa_power (k : Nat) (f : Ca → Ca) : (s.modCa k f).power = s.power := rfl
@[simp] theorem State.modCa_pmbus (k : Nat) (f : Ca → Ca) : (s.modCa k f).pmbus = s.pmbus := rfl
@[simp] theorem State.modCa_monconv (k : Nat) (f : Ca → Ca) : (s.modCa k f).monconv = s.monconv := rfl
@[simp] theorem State.modCa_corr (k : Nat) (f : Ca → Ca) : (s.modCa k f).corr = s.corr := rfl
@[simp] theorem State.modCa_heaters (k : Nat) (f : Ca → Ca) : (s.modCa k f).heaters = s.heaters := rfl
@[simp] theorem State.modCa_fabric (k : Nat) (f : Ca → Ca) : (s.modCa k f).fabric = s.fabric := rfl
@[simp] theorem State.modCa_mbx (k : Nat) (f : Ca → Ca) : (s.modCa k f).mbx = s.mbx := rfl
@[simp] theorem State.modCa_sdio (k : Nat) (f : Ca → Ca) : (s.modCa k f).sdio = s.sdio := rfl
@[simp] theorem State.modCa_jtag (k : Nat) (f : Ca → Ca) : (s.modCa k f).jtag = s.jtag := rfl
@[simp] theorem State.modCa_faults (k : Nat) (f : Ca → Ca) : (s.modCa k f).faults = s.faults := rfl
@[simp] theorem State.modCa_free (k : Nat) (f : Ca → Ca) : (s.modCa k f).free = s.free := rfl

@[simp] theorem State.modRing_pending (k : Nat) (f : RingState → RingState) : (s.modRing k f).pending = s.pending := rfl
@[simp] theorem State.modRing_time (k : Nat) (f : RingState → RingState) : (s.modRing k f).time = s.time := rfl
@[simp] theorem State.modRing_clusters (k : Nat) (f : RingState → RingState) : (s.modRing k f).clusters = s.clusters := rfl
@[simp] theorem State.modRing_slabs (k : Nat) (f : RingState → RingState) : (s.modRing k f).slabs = s.slabs := rfl
@[simp] theorem State.modRing_vec (k : Nat) (f : RingState → RingState) : (s.modRing k f).vec = s.vec := rfl
@[simp] theorem State.modRing_engines (k : Nat) (f : RingState → RingState) : (s.modRing k f).engines = s.engines := rfl
@[simp] theorem State.modRing_banks (k : Nat) (f : RingState → RingState) : (s.modRing k f).banks = s.banks := rfl
@[simp] theorem State.modRing_hauls (k : Nat) (f : RingState → RingState) : (s.modRing k f).hauls = s.hauls := rfl
@[simp] theorem State.modRing_mem (k : Nat) (f : RingState → RingState) : (s.modRing k f).mem = s.mem := rfl
@[simp] theorem State.modRing_tags (k : Nat) (f : RingState → RingState) : (s.modRing k f).tags = s.tags := rfl
@[simp] theorem State.modRing_seals (k : Nat) (f : RingState → RingState) : (s.modRing k f).seals = s.seals := rfl
@[simp] theorem State.modRing_pages (k : Nat) (f : RingState → RingState) : (s.modRing k f).pages = s.pages := rfl
@[simp] theorem State.modRing_pageChanges (k : Nat) (f : RingState → RingState) : (s.modRing k f).pageChanges = s.pageChanges := rfl
@[simp] theorem State.modRing_tiles (k : Nat) (f : RingState → RingState) : (s.modRing k f).tiles = s.tiles := rfl
@[simp] theorem State.modRing_hbmLost (k : Nat) (f : RingState → RingState) : (s.modRing k f).hbmLost = s.hbmLost := rfl
@[simp] theorem State.modRing_carts (k : Nat) (f : RingState → RingState) : (s.modRing k f).carts = s.carts := rfl
@[simp] theorem State.modRing_feed (k : Nat) (f : RingState → RingState) : (s.modRing k f).feed = s.feed := rfl
@[simp] theorem State.modRing_loops (k : Nat) (f : RingState → RingState) : (s.modRing k f).loops = s.loops := rfl
@[simp] theorem State.modRing_ringTrim (k : Nat) (f : RingState → RingState) : (s.modRing k f).ringTrim = s.ringTrim := rfl
@[simp] theorem State.modRing_xtalk (k : Nat) (f : RingState → RingState) : (s.modRing k f).xtalk = s.xtalk := rfl
@[simp] theorem State.modRing_xstage (k : Nat) (f : RingState → RingState) : (s.modRing k f).xstage = s.xstage := rfl
@[simp] theorem State.modRing_xcommit (k : Nat) (f : RingState → RingState) : (s.modRing k f).xcommit = s.xcommit := rfl
@[simp] theorem State.modRing_power (k : Nat) (f : RingState → RingState) : (s.modRing k f).power = s.power := rfl
@[simp] theorem State.modRing_pmbus (k : Nat) (f : RingState → RingState) : (s.modRing k f).pmbus = s.pmbus := rfl
@[simp] theorem State.modRing_monconv (k : Nat) (f : RingState → RingState) : (s.modRing k f).monconv = s.monconv := rfl
@[simp] theorem State.modRing_corr (k : Nat) (f : RingState → RingState) : (s.modRing k f).corr = s.corr := rfl
@[simp] theorem State.modRing_heaters (k : Nat) (f : RingState → RingState) : (s.modRing k f).heaters = s.heaters := rfl
@[simp] theorem State.modRing_fabric (k : Nat) (f : RingState → RingState) : (s.modRing k f).fabric = s.fabric := rfl
@[simp] theorem State.modRing_trust (k : Nat) (f : RingState → RingState) : (s.modRing k f).trust = s.trust := rfl
@[simp] theorem State.modRing_sdio (k : Nat) (f : RingState → RingState) : (s.modRing k f).sdio = s.sdio := rfl
@[simp] theorem State.modRing_jtag (k : Nat) (f : RingState → RingState) : (s.modRing k f).jtag = s.jtag := rfl
@[simp] theorem State.modRing_faults (k : Nat) (f : RingState → RingState) : (s.modRing k f).faults = s.faults := rfl
@[simp] theorem State.modRing_free (k : Nat) (f : RingState → RingState) : (s.modRing k f).free = s.free := rfl

@[simp] theorem State.modSensor_pending (k : Nat) (f : Sensor → Sensor) : (s.modSensor k f).pending = s.pending := rfl
@[simp] theorem State.modSensor_time (k : Nat) (f : Sensor → Sensor) : (s.modSensor k f).time = s.time := rfl
@[simp] theorem State.modSensor_clusters (k : Nat) (f : Sensor → Sensor) : (s.modSensor k f).clusters = s.clusters := rfl
@[simp] theorem State.modSensor_slabs (k : Nat) (f : Sensor → Sensor) : (s.modSensor k f).slabs = s.slabs := rfl
@[simp] theorem State.modSensor_vec (k : Nat) (f : Sensor → Sensor) : (s.modSensor k f).vec = s.vec := rfl
@[simp] theorem State.modSensor_engines (k : Nat) (f : Sensor → Sensor) : (s.modSensor k f).engines = s.engines := rfl
@[simp] theorem State.modSensor_banks (k : Nat) (f : Sensor → Sensor) : (s.modSensor k f).banks = s.banks := rfl
@[simp] theorem State.modSensor_hauls (k : Nat) (f : Sensor → Sensor) : (s.modSensor k f).hauls = s.hauls := rfl
@[simp] theorem State.modSensor_mem (k : Nat) (f : Sensor → Sensor) : (s.modSensor k f).mem = s.mem := rfl
@[simp] theorem State.modSensor_tags (k : Nat) (f : Sensor → Sensor) : (s.modSensor k f).tags = s.tags := rfl
@[simp] theorem State.modSensor_seals (k : Nat) (f : Sensor → Sensor) : (s.modSensor k f).seals = s.seals := rfl
@[simp] theorem State.modSensor_pages (k : Nat) (f : Sensor → Sensor) : (s.modSensor k f).pages = s.pages := rfl
@[simp] theorem State.modSensor_pageChanges (k : Nat) (f : Sensor → Sensor) : (s.modSensor k f).pageChanges = s.pageChanges := rfl
@[simp] theorem State.modSensor_tiles (k : Nat) (f : Sensor → Sensor) : (s.modSensor k f).tiles = s.tiles := rfl
@[simp] theorem State.modSensor_hbmLost (k : Nat) (f : Sensor → Sensor) : (s.modSensor k f).hbmLost = s.hbmLost := rfl
@[simp] theorem State.modSensor_carts (k : Nat) (f : Sensor → Sensor) : (s.modSensor k f).carts = s.carts := rfl
@[simp] theorem State.modSensor_feed (k : Nat) (f : Sensor → Sensor) : (s.modSensor k f).feed = s.feed := rfl
@[simp] theorem State.modSensor_loops (k : Nat) (f : Sensor → Sensor) : (s.modSensor k f).loops = s.loops := rfl
@[simp] theorem State.modSensor_ringTrim (k : Nat) (f : Sensor → Sensor) : (s.modSensor k f).ringTrim = s.ringTrim := rfl
@[simp] theorem State.modSensor_xtalk (k : Nat) (f : Sensor → Sensor) : (s.modSensor k f).xtalk = s.xtalk := rfl
@[simp] theorem State.modSensor_xstage (k : Nat) (f : Sensor → Sensor) : (s.modSensor k f).xstage = s.xstage := rfl
@[simp] theorem State.modSensor_xcommit (k : Nat) (f : Sensor → Sensor) : (s.modSensor k f).xcommit = s.xcommit := rfl
@[simp] theorem State.modSensor_pmbus (k : Nat) (f : Sensor → Sensor) : (s.modSensor k f).pmbus = s.pmbus := rfl
@[simp] theorem State.modSensor_monconv (k : Nat) (f : Sensor → Sensor) : (s.modSensor k f).monconv = s.monconv := rfl
@[simp] theorem State.modSensor_corr (k : Nat) (f : Sensor → Sensor) : (s.modSensor k f).corr = s.corr := rfl
@[simp] theorem State.modSensor_heaters (k : Nat) (f : Sensor → Sensor) : (s.modSensor k f).heaters = s.heaters := rfl
@[simp] theorem State.modSensor_fabric (k : Nat) (f : Sensor → Sensor) : (s.modSensor k f).fabric = s.fabric := rfl
@[simp] theorem State.modSensor_trust (k : Nat) (f : Sensor → Sensor) : (s.modSensor k f).trust = s.trust := rfl
@[simp] theorem State.modSensor_mbx (k : Nat) (f : Sensor → Sensor) : (s.modSensor k f).mbx = s.mbx := rfl
@[simp] theorem State.modSensor_sdio (k : Nat) (f : Sensor → Sensor) : (s.modSensor k f).sdio = s.sdio := rfl
@[simp] theorem State.modSensor_jtag (k : Nat) (f : Sensor → Sensor) : (s.modSensor k f).jtag = s.jtag := rfl
@[simp] theorem State.modSensor_faults (k : Nat) (f : Sensor → Sensor) : (s.modSensor k f).faults = s.faults := rfl
@[simp] theorem State.modSensor_free (k : Nat) (f : Sensor → Sensor) : (s.modSensor k f).free = s.free := rfl

@[simp] theorem State.modMbx_pending (f : Mailbox → Mailbox) : (s.modMbx f).pending = s.pending := rfl
@[simp] theorem State.modMbx_time (f : Mailbox → Mailbox) : (s.modMbx f).time = s.time := rfl
@[simp] theorem State.modMbx_clusters (f : Mailbox → Mailbox) : (s.modMbx f).clusters = s.clusters := rfl
@[simp] theorem State.modMbx_slabs (f : Mailbox → Mailbox) : (s.modMbx f).slabs = s.slabs := rfl
@[simp] theorem State.modMbx_vec (f : Mailbox → Mailbox) : (s.modMbx f).vec = s.vec := rfl
@[simp] theorem State.modMbx_engines (f : Mailbox → Mailbox) : (s.modMbx f).engines = s.engines := rfl
@[simp] theorem State.modMbx_banks (f : Mailbox → Mailbox) : (s.modMbx f).banks = s.banks := rfl
@[simp] theorem State.modMbx_hauls (f : Mailbox → Mailbox) : (s.modMbx f).hauls = s.hauls := rfl
@[simp] theorem State.modMbx_mem (f : Mailbox → Mailbox) : (s.modMbx f).mem = s.mem := rfl
@[simp] theorem State.modMbx_tags (f : Mailbox → Mailbox) : (s.modMbx f).tags = s.tags := rfl
@[simp] theorem State.modMbx_seals (f : Mailbox → Mailbox) : (s.modMbx f).seals = s.seals := rfl
@[simp] theorem State.modMbx_pages (f : Mailbox → Mailbox) : (s.modMbx f).pages = s.pages := rfl
@[simp] theorem State.modMbx_pageChanges (f : Mailbox → Mailbox) : (s.modMbx f).pageChanges = s.pageChanges := rfl
@[simp] theorem State.modMbx_tiles (f : Mailbox → Mailbox) : (s.modMbx f).tiles = s.tiles := rfl
@[simp] theorem State.modMbx_hbmLost (f : Mailbox → Mailbox) : (s.modMbx f).hbmLost = s.hbmLost := rfl
@[simp] theorem State.modMbx_carts (f : Mailbox → Mailbox) : (s.modMbx f).carts = s.carts := rfl
@[simp] theorem State.modMbx_feed (f : Mailbox → Mailbox) : (s.modMbx f).feed = s.feed := rfl
@[simp] theorem State.modMbx_loops (f : Mailbox → Mailbox) : (s.modMbx f).loops = s.loops := rfl
@[simp] theorem State.modMbx_ringTrim (f : Mailbox → Mailbox) : (s.modMbx f).ringTrim = s.ringTrim := rfl
@[simp] theorem State.modMbx_xtalk (f : Mailbox → Mailbox) : (s.modMbx f).xtalk = s.xtalk := rfl
@[simp] theorem State.modMbx_xstage (f : Mailbox → Mailbox) : (s.modMbx f).xstage = s.xstage := rfl
@[simp] theorem State.modMbx_xcommit (f : Mailbox → Mailbox) : (s.modMbx f).xcommit = s.xcommit := rfl
@[simp] theorem State.modMbx_power (f : Mailbox → Mailbox) : (s.modMbx f).power = s.power := rfl
@[simp] theorem State.modMbx_pmbus (f : Mailbox → Mailbox) : (s.modMbx f).pmbus = s.pmbus := rfl
@[simp] theorem State.modMbx_monconv (f : Mailbox → Mailbox) : (s.modMbx f).monconv = s.monconv := rfl
@[simp] theorem State.modMbx_corr (f : Mailbox → Mailbox) : (s.modMbx f).corr = s.corr := rfl
@[simp] theorem State.modMbx_heaters (f : Mailbox → Mailbox) : (s.modMbx f).heaters = s.heaters := rfl
@[simp] theorem State.modMbx_fabric (f : Mailbox → Mailbox) : (s.modMbx f).fabric = s.fabric := rfl
@[simp] theorem State.modMbx_trust (f : Mailbox → Mailbox) : (s.modMbx f).trust = s.trust := rfl
@[simp] theorem State.modMbx_mbx (f : Mailbox → Mailbox) : (s.modMbx f).mbx = f s.mbx := rfl
@[simp] theorem State.modMbx_sdio (f : Mailbox → Mailbox) : (s.modMbx f).sdio = s.sdio := rfl
@[simp] theorem State.modMbx_jtag (f : Mailbox → Mailbox) : (s.modMbx f).jtag = s.jtag := rfl
@[simp] theorem State.modMbx_faults (f : Mailbox → Mailbox) : (s.modMbx f).faults = s.faults := rfl
@[simp] theorem State.modMbx_free (f : Mailbox → Mailbox) : (s.modMbx f).free = s.free := rfl

@[simp] theorem State.modPower_pending (f : Power → Power) : (s.modPower f).pending = s.pending := rfl
@[simp] theorem State.modPower_time (f : Power → Power) : (s.modPower f).time = s.time := rfl
@[simp] theorem State.modPower_clusters (f : Power → Power) : (s.modPower f).clusters = s.clusters := rfl
@[simp] theorem State.modPower_slabs (f : Power → Power) : (s.modPower f).slabs = s.slabs := rfl
@[simp] theorem State.modPower_vec (f : Power → Power) : (s.modPower f).vec = s.vec := rfl
@[simp] theorem State.modPower_engines (f : Power → Power) : (s.modPower f).engines = s.engines := rfl
@[simp] theorem State.modPower_banks (f : Power → Power) : (s.modPower f).banks = s.banks := rfl
@[simp] theorem State.modPower_hauls (f : Power → Power) : (s.modPower f).hauls = s.hauls := rfl
@[simp] theorem State.modPower_mem (f : Power → Power) : (s.modPower f).mem = s.mem := rfl
@[simp] theorem State.modPower_tags (f : Power → Power) : (s.modPower f).tags = s.tags := rfl
@[simp] theorem State.modPower_seals (f : Power → Power) : (s.modPower f).seals = s.seals := rfl
@[simp] theorem State.modPower_pages (f : Power → Power) : (s.modPower f).pages = s.pages := rfl
@[simp] theorem State.modPower_pageChanges (f : Power → Power) : (s.modPower f).pageChanges = s.pageChanges := rfl
@[simp] theorem State.modPower_tiles (f : Power → Power) : (s.modPower f).tiles = s.tiles := rfl
@[simp] theorem State.modPower_hbmLost (f : Power → Power) : (s.modPower f).hbmLost = s.hbmLost := rfl
@[simp] theorem State.modPower_carts (f : Power → Power) : (s.modPower f).carts = s.carts := rfl
@[simp] theorem State.modPower_feed (f : Power → Power) : (s.modPower f).feed = s.feed := rfl
@[simp] theorem State.modPower_loops (f : Power → Power) : (s.modPower f).loops = s.loops := rfl
@[simp] theorem State.modPower_ringTrim (f : Power → Power) : (s.modPower f).ringTrim = s.ringTrim := rfl
@[simp] theorem State.modPower_xtalk (f : Power → Power) : (s.modPower f).xtalk = s.xtalk := rfl
@[simp] theorem State.modPower_xstage (f : Power → Power) : (s.modPower f).xstage = s.xstage := rfl
@[simp] theorem State.modPower_xcommit (f : Power → Power) : (s.modPower f).xcommit = s.xcommit := rfl
@[simp] theorem State.modPower_power (f : Power → Power) : (s.modPower f).power = f s.power := rfl
@[simp] theorem State.modPower_pmbus (f : Power → Power) : (s.modPower f).pmbus = s.pmbus := rfl
@[simp] theorem State.modPower_monconv (f : Power → Power) : (s.modPower f).monconv = s.monconv := rfl
@[simp] theorem State.modPower_corr (f : Power → Power) : (s.modPower f).corr = s.corr := rfl
@[simp] theorem State.modPower_heaters (f : Power → Power) : (s.modPower f).heaters = s.heaters := rfl
@[simp] theorem State.modPower_fabric (f : Power → Power) : (s.modPower f).fabric = s.fabric := rfl
@[simp] theorem State.modPower_trust (f : Power → Power) : (s.modPower f).trust = s.trust := rfl
@[simp] theorem State.modPower_mbx (f : Power → Power) : (s.modPower f).mbx = s.mbx := rfl
@[simp] theorem State.modPower_sdio (f : Power → Power) : (s.modPower f).sdio = s.sdio := rfl
@[simp] theorem State.modPower_jtag (f : Power → Power) : (s.modPower f).jtag = s.jtag := rfl
@[simp] theorem State.modPower_faults (f : Power → Power) : (s.modPower f).faults = s.faults := rfl
@[simp] theorem State.modPower_free (f : Power → Power) : (s.modPower f).free = s.free := rfl

@[simp] theorem State.modFabric_pending (f : Fabric → Fabric) : (s.modFabric f).pending = s.pending := rfl
@[simp] theorem State.modFabric_time (f : Fabric → Fabric) : (s.modFabric f).time = s.time := rfl
@[simp] theorem State.modFabric_clusters (f : Fabric → Fabric) : (s.modFabric f).clusters = s.clusters := rfl
@[simp] theorem State.modFabric_slabs (f : Fabric → Fabric) : (s.modFabric f).slabs = s.slabs := rfl
@[simp] theorem State.modFabric_vec (f : Fabric → Fabric) : (s.modFabric f).vec = s.vec := rfl
@[simp] theorem State.modFabric_engines (f : Fabric → Fabric) : (s.modFabric f).engines = s.engines := rfl
@[simp] theorem State.modFabric_banks (f : Fabric → Fabric) : (s.modFabric f).banks = s.banks := rfl
@[simp] theorem State.modFabric_hauls (f : Fabric → Fabric) : (s.modFabric f).hauls = s.hauls := rfl
@[simp] theorem State.modFabric_mem (f : Fabric → Fabric) : (s.modFabric f).mem = s.mem := rfl
@[simp] theorem State.modFabric_tags (f : Fabric → Fabric) : (s.modFabric f).tags = s.tags := rfl
@[simp] theorem State.modFabric_seals (f : Fabric → Fabric) : (s.modFabric f).seals = s.seals := rfl
@[simp] theorem State.modFabric_pages (f : Fabric → Fabric) : (s.modFabric f).pages = s.pages := rfl
@[simp] theorem State.modFabric_pageChanges (f : Fabric → Fabric) : (s.modFabric f).pageChanges = s.pageChanges := rfl
@[simp] theorem State.modFabric_tiles (f : Fabric → Fabric) : (s.modFabric f).tiles = s.tiles := rfl
@[simp] theorem State.modFabric_hbmLost (f : Fabric → Fabric) : (s.modFabric f).hbmLost = s.hbmLost := rfl
@[simp] theorem State.modFabric_carts (f : Fabric → Fabric) : (s.modFabric f).carts = s.carts := rfl
@[simp] theorem State.modFabric_feed (f : Fabric → Fabric) : (s.modFabric f).feed = s.feed := rfl
@[simp] theorem State.modFabric_loops (f : Fabric → Fabric) : (s.modFabric f).loops = s.loops := rfl
@[simp] theorem State.modFabric_ringTrim (f : Fabric → Fabric) : (s.modFabric f).ringTrim = s.ringTrim := rfl
@[simp] theorem State.modFabric_xtalk (f : Fabric → Fabric) : (s.modFabric f).xtalk = s.xtalk := rfl
@[simp] theorem State.modFabric_xstage (f : Fabric → Fabric) : (s.modFabric f).xstage = s.xstage := rfl
@[simp] theorem State.modFabric_xcommit (f : Fabric → Fabric) : (s.modFabric f).xcommit = s.xcommit := rfl
@[simp] theorem State.modFabric_power (f : Fabric → Fabric) : (s.modFabric f).power = s.power := rfl
@[simp] theorem State.modFabric_pmbus (f : Fabric → Fabric) : (s.modFabric f).pmbus = s.pmbus := rfl
@[simp] theorem State.modFabric_monconv (f : Fabric → Fabric) : (s.modFabric f).monconv = s.monconv := rfl
@[simp] theorem State.modFabric_corr (f : Fabric → Fabric) : (s.modFabric f).corr = s.corr := rfl
@[simp] theorem State.modFabric_heaters (f : Fabric → Fabric) : (s.modFabric f).heaters = s.heaters := rfl
@[simp] theorem State.modFabric_fabric (f : Fabric → Fabric) : (s.modFabric f).fabric = f s.fabric := rfl
@[simp] theorem State.modFabric_trust (f : Fabric → Fabric) : (s.modFabric f).trust = s.trust := rfl
@[simp] theorem State.modFabric_mbx (f : Fabric → Fabric) : (s.modFabric f).mbx = s.mbx := rfl
@[simp] theorem State.modFabric_sdio (f : Fabric → Fabric) : (s.modFabric f).sdio = s.sdio := rfl
@[simp] theorem State.modFabric_jtag (f : Fabric → Fabric) : (s.modFabric f).jtag = s.jtag := rfl
@[simp] theorem State.modFabric_faults (f : Fabric → Fabric) : (s.modFabric f).faults = s.faults := rfl
@[simp] theorem State.modFabric_free (f : Fabric → Fabric) : (s.modFabric f).free = s.free := rfl

@[simp] theorem State.modTrust_pending (f : Trust → Trust) : (s.modTrust f).pending = s.pending := rfl
@[simp] theorem State.modTrust_time (f : Trust → Trust) : (s.modTrust f).time = s.time := rfl
@[simp] theorem State.modTrust_clusters (f : Trust → Trust) : (s.modTrust f).clusters = s.clusters := rfl
@[simp] theorem State.modTrust_slabs (f : Trust → Trust) : (s.modTrust f).slabs = s.slabs := rfl
@[simp] theorem State.modTrust_vec (f : Trust → Trust) : (s.modTrust f).vec = s.vec := rfl
@[simp] theorem State.modTrust_engines (f : Trust → Trust) : (s.modTrust f).engines = s.engines := rfl
@[simp] theorem State.modTrust_banks (f : Trust → Trust) : (s.modTrust f).banks = s.banks := rfl
@[simp] theorem State.modTrust_hauls (f : Trust → Trust) : (s.modTrust f).hauls = s.hauls := rfl
@[simp] theorem State.modTrust_mem (f : Trust → Trust) : (s.modTrust f).mem = s.mem := rfl
@[simp] theorem State.modTrust_tags (f : Trust → Trust) : (s.modTrust f).tags = s.tags := rfl
@[simp] theorem State.modTrust_seals (f : Trust → Trust) : (s.modTrust f).seals = s.seals := rfl
@[simp] theorem State.modTrust_pages (f : Trust → Trust) : (s.modTrust f).pages = s.pages := rfl
@[simp] theorem State.modTrust_pageChanges (f : Trust → Trust) : (s.modTrust f).pageChanges = s.pageChanges := rfl
@[simp] theorem State.modTrust_tiles (f : Trust → Trust) : (s.modTrust f).tiles = s.tiles := rfl
@[simp] theorem State.modTrust_hbmLost (f : Trust → Trust) : (s.modTrust f).hbmLost = s.hbmLost := rfl
@[simp] theorem State.modTrust_carts (f : Trust → Trust) : (s.modTrust f).carts = s.carts := rfl
@[simp] theorem State.modTrust_feed (f : Trust → Trust) : (s.modTrust f).feed = s.feed := rfl
@[simp] theorem State.modTrust_loops (f : Trust → Trust) : (s.modTrust f).loops = s.loops := rfl
@[simp] theorem State.modTrust_ringTrim (f : Trust → Trust) : (s.modTrust f).ringTrim = s.ringTrim := rfl
@[simp] theorem State.modTrust_xtalk (f : Trust → Trust) : (s.modTrust f).xtalk = s.xtalk := rfl
@[simp] theorem State.modTrust_xstage (f : Trust → Trust) : (s.modTrust f).xstage = s.xstage := rfl
@[simp] theorem State.modTrust_xcommit (f : Trust → Trust) : (s.modTrust f).xcommit = s.xcommit := rfl
@[simp] theorem State.modTrust_power (f : Trust → Trust) : (s.modTrust f).power = s.power := rfl
@[simp] theorem State.modTrust_pmbus (f : Trust → Trust) : (s.modTrust f).pmbus = s.pmbus := rfl
@[simp] theorem State.modTrust_monconv (f : Trust → Trust) : (s.modTrust f).monconv = s.monconv := rfl
@[simp] theorem State.modTrust_corr (f : Trust → Trust) : (s.modTrust f).corr = s.corr := rfl
@[simp] theorem State.modTrust_heaters (f : Trust → Trust) : (s.modTrust f).heaters = s.heaters := rfl
@[simp] theorem State.modTrust_fabric (f : Trust → Trust) : (s.modTrust f).fabric = s.fabric := rfl
@[simp] theorem State.modTrust_trust (f : Trust → Trust) : (s.modTrust f).trust = f s.trust := rfl
@[simp] theorem State.modTrust_mbx (f : Trust → Trust) : (s.modTrust f).mbx = s.mbx := rfl
@[simp] theorem State.modTrust_sdio (f : Trust → Trust) : (s.modTrust f).sdio = s.sdio := rfl
@[simp] theorem State.modTrust_jtag (f : Trust → Trust) : (s.modTrust f).jtag = s.jtag := rfl
@[simp] theorem State.modTrust_faults (f : Trust → Trust) : (s.modTrust f).faults = s.faults := rfl
@[simp] theorem State.modTrust_free (f : Trust → Trust) : (s.modTrust f).free = s.free := rfl

@[simp] theorem State.modTime_pending (f : TimeState → TimeState) : (s.modTime f).pending = s.pending := rfl
@[simp] theorem State.modTime_time (f : TimeState → TimeState) : (s.modTime f).time = f s.time := rfl
@[simp] theorem State.modTime_clusters (f : TimeState → TimeState) : (s.modTime f).clusters = s.clusters := rfl
@[simp] theorem State.modTime_slabs (f : TimeState → TimeState) : (s.modTime f).slabs = s.slabs := rfl
@[simp] theorem State.modTime_vec (f : TimeState → TimeState) : (s.modTime f).vec = s.vec := rfl
@[simp] theorem State.modTime_engines (f : TimeState → TimeState) : (s.modTime f).engines = s.engines := rfl
@[simp] theorem State.modTime_banks (f : TimeState → TimeState) : (s.modTime f).banks = s.banks := rfl
@[simp] theorem State.modTime_hauls (f : TimeState → TimeState) : (s.modTime f).hauls = s.hauls := rfl
@[simp] theorem State.modTime_mem (f : TimeState → TimeState) : (s.modTime f).mem = s.mem := rfl
@[simp] theorem State.modTime_tags (f : TimeState → TimeState) : (s.modTime f).tags = s.tags := rfl
@[simp] theorem State.modTime_seals (f : TimeState → TimeState) : (s.modTime f).seals = s.seals := rfl
@[simp] theorem State.modTime_pages (f : TimeState → TimeState) : (s.modTime f).pages = s.pages := rfl
@[simp] theorem State.modTime_pageChanges (f : TimeState → TimeState) : (s.modTime f).pageChanges = s.pageChanges := rfl
@[simp] theorem State.modTime_tiles (f : TimeState → TimeState) : (s.modTime f).tiles = s.tiles := rfl
@[simp] theorem State.modTime_hbmLost (f : TimeState → TimeState) : (s.modTime f).hbmLost = s.hbmLost := rfl
@[simp] theorem State.modTime_carts (f : TimeState → TimeState) : (s.modTime f).carts = s.carts := rfl
@[simp] theorem State.modTime_feed (f : TimeState → TimeState) : (s.modTime f).feed = s.feed := rfl
@[simp] theorem State.modTime_loops (f : TimeState → TimeState) : (s.modTime f).loops = s.loops := rfl
@[simp] theorem State.modTime_ringTrim (f : TimeState → TimeState) : (s.modTime f).ringTrim = s.ringTrim := rfl
@[simp] theorem State.modTime_xtalk (f : TimeState → TimeState) : (s.modTime f).xtalk = s.xtalk := rfl
@[simp] theorem State.modTime_xstage (f : TimeState → TimeState) : (s.modTime f).xstage = s.xstage := rfl
@[simp] theorem State.modTime_xcommit (f : TimeState → TimeState) : (s.modTime f).xcommit = s.xcommit := rfl
@[simp] theorem State.modTime_power (f : TimeState → TimeState) : (s.modTime f).power = s.power := rfl
@[simp] theorem State.modTime_pmbus (f : TimeState → TimeState) : (s.modTime f).pmbus = s.pmbus := rfl
@[simp] theorem State.modTime_monconv (f : TimeState → TimeState) : (s.modTime f).monconv = s.monconv := rfl
@[simp] theorem State.modTime_corr (f : TimeState → TimeState) : (s.modTime f).corr = s.corr := rfl
@[simp] theorem State.modTime_heaters (f : TimeState → TimeState) : (s.modTime f).heaters = s.heaters := rfl
@[simp] theorem State.modTime_fabric (f : TimeState → TimeState) : (s.modTime f).fabric = s.fabric := rfl
@[simp] theorem State.modTime_trust (f : TimeState → TimeState) : (s.modTime f).trust = s.trust := rfl
@[simp] theorem State.modTime_mbx (f : TimeState → TimeState) : (s.modTime f).mbx = s.mbx := rfl
@[simp] theorem State.modTime_sdio (f : TimeState → TimeState) : (s.modTime f).sdio = s.sdio := rfl
@[simp] theorem State.modTime_jtag (f : TimeState → TimeState) : (s.modTime f).jtag = s.jtag := rfl
@[simp] theorem State.modTime_faults (f : TimeState → TimeState) : (s.modTime f).faults = s.faults := rfl
@[simp] theorem State.modTime_free (f : TimeState → TimeState) : (s.modTime f).free = s.free := rfl

@[simp] theorem State.modDomain_pending (f : Domain → Domain) : (s.modDomain f).pending = s.pending := rfl
@[simp] theorem State.modDomain_time (f : Domain → Domain) : (s.modDomain f).time = s.time := rfl
@[simp] theorem State.modDomain_clusters (f : Domain → Domain) : (s.modDomain f).clusters = s.clusters := rfl
@[simp] theorem State.modDomain_slabs (f : Domain → Domain) : (s.modDomain f).slabs = s.slabs := rfl
@[simp] theorem State.modDomain_vec (f : Domain → Domain) : (s.modDomain f).vec = s.vec := rfl
@[simp] theorem State.modDomain_engines (f : Domain → Domain) : (s.modDomain f).engines = s.engines := rfl
@[simp] theorem State.modDomain_banks (f : Domain → Domain) : (s.modDomain f).banks = s.banks := rfl
@[simp] theorem State.modDomain_hauls (f : Domain → Domain) : (s.modDomain f).hauls = s.hauls := rfl
@[simp] theorem State.modDomain_mem (f : Domain → Domain) : (s.modDomain f).mem = s.mem := rfl
@[simp] theorem State.modDomain_tags (f : Domain → Domain) : (s.modDomain f).tags = s.tags := rfl
@[simp] theorem State.modDomain_seals (f : Domain → Domain) : (s.modDomain f).seals = s.seals := rfl
@[simp] theorem State.modDomain_pages (f : Domain → Domain) : (s.modDomain f).pages = s.pages := rfl
@[simp] theorem State.modDomain_pageChanges (f : Domain → Domain) : (s.modDomain f).pageChanges = s.pageChanges := rfl
@[simp] theorem State.modDomain_tiles (f : Domain → Domain) : (s.modDomain f).tiles = s.tiles := rfl
@[simp] theorem State.modDomain_hbmLost (f : Domain → Domain) : (s.modDomain f).hbmLost = s.hbmLost := rfl
@[simp] theorem State.modDomain_carts (f : Domain → Domain) : (s.modDomain f).carts = s.carts := rfl
@[simp] theorem State.modDomain_feed (f : Domain → Domain) : (s.modDomain f).feed = s.feed := rfl
@[simp] theorem State.modDomain_loops (f : Domain → Domain) : (s.modDomain f).loops = s.loops := rfl
@[simp] theorem State.modDomain_ringTrim (f : Domain → Domain) : (s.modDomain f).ringTrim = s.ringTrim := rfl
@[simp] theorem State.modDomain_xtalk (f : Domain → Domain) : (s.modDomain f).xtalk = s.xtalk := rfl
@[simp] theorem State.modDomain_xstage (f : Domain → Domain) : (s.modDomain f).xstage = s.xstage := rfl
@[simp] theorem State.modDomain_xcommit (f : Domain → Domain) : (s.modDomain f).xcommit = s.xcommit := rfl
@[simp] theorem State.modDomain_power (f : Domain → Domain) : (s.modDomain f).power = s.power := rfl
@[simp] theorem State.modDomain_pmbus (f : Domain → Domain) : (s.modDomain f).pmbus = s.pmbus := rfl
@[simp] theorem State.modDomain_monconv (f : Domain → Domain) : (s.modDomain f).monconv = s.monconv := rfl
@[simp] theorem State.modDomain_corr (f : Domain → Domain) : (s.modDomain f).corr = s.corr := rfl
@[simp] theorem State.modDomain_heaters (f : Domain → Domain) : (s.modDomain f).heaters = s.heaters := rfl
@[simp] theorem State.modDomain_trust (f : Domain → Domain) : (s.modDomain f).trust = s.trust := rfl
@[simp] theorem State.modDomain_mbx (f : Domain → Domain) : (s.modDomain f).mbx = s.mbx := rfl
@[simp] theorem State.modDomain_sdio (f : Domain → Domain) : (s.modDomain f).sdio = s.sdio := rfl
@[simp] theorem State.modDomain_jtag (f : Domain → Domain) : (s.modDomain f).jtag = s.jtag := rfl
@[simp] theorem State.modDomain_faults (f : Domain → Domain) : (s.modDomain f).faults = s.faults := rfl
@[simp] theorem State.modDomain_free (f : Domain → Domain) : (s.modDomain f).free = s.free := rfl

@[simp] theorem State.modRelay_pending (f : RelayState → RelayState) : (s.modRelay f).pending = s.pending := rfl
@[simp] theorem State.modRelay_time (f : RelayState → RelayState) : (s.modRelay f).time = s.time := rfl
@[simp] theorem State.modRelay_clusters (f : RelayState → RelayState) : (s.modRelay f).clusters = s.clusters := rfl
@[simp] theorem State.modRelay_slabs (f : RelayState → RelayState) : (s.modRelay f).slabs = s.slabs := rfl
@[simp] theorem State.modRelay_vec (f : RelayState → RelayState) : (s.modRelay f).vec = s.vec := rfl
@[simp] theorem State.modRelay_engines (f : RelayState → RelayState) : (s.modRelay f).engines = s.engines := rfl
@[simp] theorem State.modRelay_banks (f : RelayState → RelayState) : (s.modRelay f).banks = s.banks := rfl
@[simp] theorem State.modRelay_hauls (f : RelayState → RelayState) : (s.modRelay f).hauls = s.hauls := rfl
@[simp] theorem State.modRelay_mem (f : RelayState → RelayState) : (s.modRelay f).mem = s.mem := rfl
@[simp] theorem State.modRelay_tags (f : RelayState → RelayState) : (s.modRelay f).tags = s.tags := rfl
@[simp] theorem State.modRelay_seals (f : RelayState → RelayState) : (s.modRelay f).seals = s.seals := rfl
@[simp] theorem State.modRelay_pages (f : RelayState → RelayState) : (s.modRelay f).pages = s.pages := rfl
@[simp] theorem State.modRelay_pageChanges (f : RelayState → RelayState) : (s.modRelay f).pageChanges = s.pageChanges := rfl
@[simp] theorem State.modRelay_tiles (f : RelayState → RelayState) : (s.modRelay f).tiles = s.tiles := rfl
@[simp] theorem State.modRelay_hbmLost (f : RelayState → RelayState) : (s.modRelay f).hbmLost = s.hbmLost := rfl
@[simp] theorem State.modRelay_carts (f : RelayState → RelayState) : (s.modRelay f).carts = s.carts := rfl
@[simp] theorem State.modRelay_feed (f : RelayState → RelayState) : (s.modRelay f).feed = s.feed := rfl
@[simp] theorem State.modRelay_loops (f : RelayState → RelayState) : (s.modRelay f).loops = s.loops := rfl
@[simp] theorem State.modRelay_ringTrim (f : RelayState → RelayState) : (s.modRelay f).ringTrim = s.ringTrim := rfl
@[simp] theorem State.modRelay_xtalk (f : RelayState → RelayState) : (s.modRelay f).xtalk = s.xtalk := rfl
@[simp] theorem State.modRelay_xstage (f : RelayState → RelayState) : (s.modRelay f).xstage = s.xstage := rfl
@[simp] theorem State.modRelay_xcommit (f : RelayState → RelayState) : (s.modRelay f).xcommit = s.xcommit := rfl
@[simp] theorem State.modRelay_power (f : RelayState → RelayState) : (s.modRelay f).power = s.power := rfl
@[simp] theorem State.modRelay_pmbus (f : RelayState → RelayState) : (s.modRelay f).pmbus = s.pmbus := rfl
@[simp] theorem State.modRelay_monconv (f : RelayState → RelayState) : (s.modRelay f).monconv = s.monconv := rfl
@[simp] theorem State.modRelay_corr (f : RelayState → RelayState) : (s.modRelay f).corr = s.corr := rfl
@[simp] theorem State.modRelay_heaters (f : RelayState → RelayState) : (s.modRelay f).heaters = s.heaters := rfl
@[simp] theorem State.modRelay_trust (f : RelayState → RelayState) : (s.modRelay f).trust = s.trust := rfl
@[simp] theorem State.modRelay_mbx (f : RelayState → RelayState) : (s.modRelay f).mbx = s.mbx := rfl
@[simp] theorem State.modRelay_sdio (f : RelayState → RelayState) : (s.modRelay f).sdio = s.sdio := rfl
@[simp] theorem State.modRelay_jtag (f : RelayState → RelayState) : (s.modRelay f).jtag = s.jtag := rfl
@[simp] theorem State.modRelay_faults (f : RelayState → RelayState) : (s.modRelay f).faults = s.faults := rfl
@[simp] theorem State.modRelay_free (f : RelayState → RelayState) : (s.modRelay f).free = s.free := rfl

@[simp] theorem State.takeFree_pending : s.takeFree.pending = s.pending := rfl
@[simp] theorem State.takeFree_time : s.takeFree.time = s.time := rfl
@[simp] theorem State.takeFree_clusters : s.takeFree.clusters = s.clusters := rfl
@[simp] theorem State.takeFree_slabs : s.takeFree.slabs = s.slabs := rfl
@[simp] theorem State.takeFree_vec : s.takeFree.vec = s.vec := rfl
@[simp] theorem State.takeFree_engines : s.takeFree.engines = s.engines := rfl
@[simp] theorem State.takeFree_banks : s.takeFree.banks = s.banks := rfl
@[simp] theorem State.takeFree_hauls : s.takeFree.hauls = s.hauls := rfl
@[simp] theorem State.takeFree_mem : s.takeFree.mem = s.mem := rfl
@[simp] theorem State.takeFree_tags : s.takeFree.tags = s.tags := rfl
@[simp] theorem State.takeFree_seals : s.takeFree.seals = s.seals := rfl
@[simp] theorem State.takeFree_pages : s.takeFree.pages = s.pages := rfl
@[simp] theorem State.takeFree_pageChanges : s.takeFree.pageChanges = s.pageChanges := rfl
@[simp] theorem State.takeFree_tiles : s.takeFree.tiles = s.tiles := rfl
@[simp] theorem State.takeFree_hbmLost : s.takeFree.hbmLost = s.hbmLost := rfl
@[simp] theorem State.takeFree_carts : s.takeFree.carts = s.carts := rfl
@[simp] theorem State.takeFree_feed : s.takeFree.feed = s.feed := rfl
@[simp] theorem State.takeFree_loops : s.takeFree.loops = s.loops := rfl
@[simp] theorem State.takeFree_ringTrim : s.takeFree.ringTrim = s.ringTrim := rfl
@[simp] theorem State.takeFree_xtalk : s.takeFree.xtalk = s.xtalk := rfl
@[simp] theorem State.takeFree_xstage : s.takeFree.xstage = s.xstage := rfl
@[simp] theorem State.takeFree_xcommit : s.takeFree.xcommit = s.xcommit := rfl
@[simp] theorem State.takeFree_power : s.takeFree.power = s.power := rfl
@[simp] theorem State.takeFree_pmbus : s.takeFree.pmbus = s.pmbus := rfl
@[simp] theorem State.takeFree_monconv : s.takeFree.monconv = s.monconv := rfl
@[simp] theorem State.takeFree_corr : s.takeFree.corr = s.corr := rfl
@[simp] theorem State.takeFree_heaters : s.takeFree.heaters = s.heaters := rfl
@[simp] theorem State.takeFree_fabric : s.takeFree.fabric = s.fabric := rfl
@[simp] theorem State.takeFree_trust : s.takeFree.trust = s.trust := rfl
@[simp] theorem State.takeFree_mbx : s.takeFree.mbx = s.mbx := rfl
@[simp] theorem State.takeFree_sdio : s.takeFree.sdio = s.sdio := rfl
@[simp] theorem State.takeFree_jtag : s.takeFree.jtag = s.jtag := rfl
@[simp] theorem State.takeFree_faults : s.takeFree.faults = s.faults := rfl
@[simp] theorem State.takeFree_free : s.takeFree.free = s.free + 1 := rfl

@[simp] theorem State.elapse_pending (dt : Nat) : (s.elapse dt).pending = s.pending := rfl
@[simp] theorem State.elapse_clusters (dt : Nat) : (s.elapse dt).clusters = s.clusters := rfl
@[simp] theorem State.elapse_slabs (dt : Nat) : (s.elapse dt).slabs = s.slabs := rfl
@[simp] theorem State.elapse_vec (dt : Nat) : (s.elapse dt).vec = s.vec := rfl
@[simp] theorem State.elapse_engines (dt : Nat) : (s.elapse dt).engines = s.engines := rfl
@[simp] theorem State.elapse_banks (dt : Nat) : (s.elapse dt).banks = s.banks := rfl
@[simp] theorem State.elapse_hauls (dt : Nat) : (s.elapse dt).hauls = s.hauls := rfl
@[simp] theorem State.elapse_mem (dt : Nat) : (s.elapse dt).mem = s.mem := rfl
@[simp] theorem State.elapse_tags (dt : Nat) : (s.elapse dt).tags = s.tags := rfl
@[simp] theorem State.elapse_seals (dt : Nat) : (s.elapse dt).seals = s.seals := rfl
@[simp] theorem State.elapse_pages (dt : Nat) : (s.elapse dt).pages = s.pages := rfl
@[simp] theorem State.elapse_pageChanges (dt : Nat) : (s.elapse dt).pageChanges = s.pageChanges := rfl
@[simp] theorem State.elapse_tiles (dt : Nat) : (s.elapse dt).tiles = s.tiles := rfl
@[simp] theorem State.elapse_hbmLost (dt : Nat) : (s.elapse dt).hbmLost = s.hbmLost := rfl
@[simp] theorem State.elapse_carts (dt : Nat) : (s.elapse dt).carts = s.carts := rfl
@[simp] theorem State.elapse_feed (dt : Nat) : (s.elapse dt).feed = s.feed := rfl
@[simp] theorem State.elapse_loops (dt : Nat) : (s.elapse dt).loops = s.loops := rfl
@[simp] theorem State.elapse_ringTrim (dt : Nat) : (s.elapse dt).ringTrim = s.ringTrim := rfl
@[simp] theorem State.elapse_xtalk (dt : Nat) : (s.elapse dt).xtalk = s.xtalk := rfl
@[simp] theorem State.elapse_xstage (dt : Nat) : (s.elapse dt).xstage = s.xstage := rfl
@[simp] theorem State.elapse_xcommit (dt : Nat) : (s.elapse dt).xcommit = s.xcommit := rfl
@[simp] theorem State.elapse_power (dt : Nat) : (s.elapse dt).power = s.power := rfl
@[simp] theorem State.elapse_pmbus (dt : Nat) : (s.elapse dt).pmbus = s.pmbus := rfl
@[simp] theorem State.elapse_monconv (dt : Nat) : (s.elapse dt).monconv = s.monconv := rfl
@[simp] theorem State.elapse_corr (dt : Nat) : (s.elapse dt).corr = s.corr := rfl
@[simp] theorem State.elapse_heaters (dt : Nat) : (s.elapse dt).heaters = s.heaters := rfl
@[simp] theorem State.elapse_fabric (dt : Nat) : (s.elapse dt).fabric = s.fabric := rfl
@[simp] theorem State.elapse_trust (dt : Nat) : (s.elapse dt).trust = s.trust := rfl
@[simp] theorem State.elapse_mbx (dt : Nat) : (s.elapse dt).mbx = s.mbx := rfl
@[simp] theorem State.elapse_sdio (dt : Nat) : (s.elapse dt).sdio = s.sdio := rfl
@[simp] theorem State.elapse_jtag (dt : Nat) : (s.elapse dt).jtag = s.jtag := rfl
@[simp] theorem State.elapse_faults (dt : Nat) : (s.elapse dt).faults = s.faults := rfl
@[simp] theorem State.elapse_free (dt : Nat) : (s.elapse dt).free = s.free := rfl

@[simp] theorem State.store_pending (k : Nat) (bs : List Byte) : (s.store k bs).pending = s.pending := rfl
@[simp] theorem State.store_time (k : Nat) (bs : List Byte) : (s.store k bs).time = s.time := rfl
@[simp] theorem State.store_clusters (k : Nat) (bs : List Byte) : (s.store k bs).clusters = s.clusters := rfl
@[simp] theorem State.store_slabs (k : Nat) (bs : List Byte) : (s.store k bs).slabs = s.slabs := rfl
@[simp] theorem State.store_vec (k : Nat) (bs : List Byte) : (s.store k bs).vec = s.vec := rfl
@[simp] theorem State.store_engines (k : Nat) (bs : List Byte) : (s.store k bs).engines = s.engines := rfl
@[simp] theorem State.store_banks (k : Nat) (bs : List Byte) : (s.store k bs).banks = s.banks := rfl
@[simp] theorem State.store_hauls (k : Nat) (bs : List Byte) : (s.store k bs).hauls = s.hauls := rfl
@[simp] theorem State.store_mem (k : Nat) (bs : List Byte) : (s.store k bs).mem = memStore s.mem k bs := rfl
@[simp] theorem State.store_tags (k : Nat) (bs : List Byte) : (s.store k bs).tags = s.tags := rfl
@[simp] theorem State.store_seals (k : Nat) (bs : List Byte) : (s.store k bs).seals = s.seals := rfl
@[simp] theorem State.store_pages (k : Nat) (bs : List Byte) : (s.store k bs).pages = s.pages := rfl
@[simp] theorem State.store_pageChanges (k : Nat) (bs : List Byte) : (s.store k bs).pageChanges = s.pageChanges := rfl
@[simp] theorem State.store_tiles (k : Nat) (bs : List Byte) : (s.store k bs).tiles = s.tiles := rfl
@[simp] theorem State.store_hbmLost (k : Nat) (bs : List Byte) : (s.store k bs).hbmLost = s.hbmLost := rfl
@[simp] theorem State.store_carts (k : Nat) (bs : List Byte) : (s.store k bs).carts = s.carts := rfl
@[simp] theorem State.store_feed (k : Nat) (bs : List Byte) : (s.store k bs).feed = s.feed := rfl
@[simp] theorem State.store_loops (k : Nat) (bs : List Byte) : (s.store k bs).loops = s.loops := rfl
@[simp] theorem State.store_ringTrim (k : Nat) (bs : List Byte) : (s.store k bs).ringTrim = s.ringTrim := rfl
@[simp] theorem State.store_xtalk (k : Nat) (bs : List Byte) : (s.store k bs).xtalk = s.xtalk := rfl
@[simp] theorem State.store_xstage (k : Nat) (bs : List Byte) : (s.store k bs).xstage = s.xstage := rfl
@[simp] theorem State.store_xcommit (k : Nat) (bs : List Byte) : (s.store k bs).xcommit = s.xcommit := rfl
@[simp] theorem State.store_power (k : Nat) (bs : List Byte) : (s.store k bs).power = s.power := rfl
@[simp] theorem State.store_pmbus (k : Nat) (bs : List Byte) : (s.store k bs).pmbus = s.pmbus := rfl
@[simp] theorem State.store_monconv (k : Nat) (bs : List Byte) : (s.store k bs).monconv = s.monconv := rfl
@[simp] theorem State.store_corr (k : Nat) (bs : List Byte) : (s.store k bs).corr = s.corr := rfl
@[simp] theorem State.store_heaters (k : Nat) (bs : List Byte) : (s.store k bs).heaters = s.heaters := rfl
@[simp] theorem State.store_fabric (k : Nat) (bs : List Byte) : (s.store k bs).fabric = s.fabric := rfl
@[simp] theorem State.store_trust (k : Nat) (bs : List Byte) : (s.store k bs).trust = s.trust := rfl
@[simp] theorem State.store_mbx (k : Nat) (bs : List Byte) : (s.store k bs).mbx = s.mbx := rfl
@[simp] theorem State.store_sdio (k : Nat) (bs : List Byte) : (s.store k bs).sdio = s.sdio := rfl
@[simp] theorem State.store_jtag (k : Nat) (bs : List Byte) : (s.store k bs).jtag = s.jtag := rfl
@[simp] theorem State.store_faults (k : Nat) (bs : List Byte) : (s.store k bs).faults = s.faults := rfl
@[simp] theorem State.store_free (k : Nat) (bs : List Byte) : (s.store k bs).free = s.free := rfl

@[simp] theorem State.wipe_pending (p : Nat → Bool) : (s.wipe p).pending = s.pending := rfl
@[simp] theorem State.wipe_time (p : Nat → Bool) : (s.wipe p).time = s.time := rfl
@[simp] theorem State.wipe_clusters (p : Nat → Bool) : (s.wipe p).clusters = s.clusters := rfl
@[simp] theorem State.wipe_slabs (p : Nat → Bool) : (s.wipe p).slabs = s.slabs := rfl
@[simp] theorem State.wipe_vec (p : Nat → Bool) : (s.wipe p).vec = s.vec := rfl
@[simp] theorem State.wipe_engines (p : Nat → Bool) : (s.wipe p).engines = s.engines := rfl
@[simp] theorem State.wipe_banks (p : Nat → Bool) : (s.wipe p).banks = s.banks := rfl
@[simp] theorem State.wipe_hauls (p : Nat → Bool) : (s.wipe p).hauls = s.hauls := rfl
@[simp] theorem State.wipe_tags (p : Nat → Bool) : (s.wipe p).tags = s.tags := rfl
@[simp] theorem State.wipe_seals (p : Nat → Bool) : (s.wipe p).seals = s.seals := rfl
@[simp] theorem State.wipe_pages (p : Nat → Bool) : (s.wipe p).pages = s.pages := rfl
@[simp] theorem State.wipe_pageChanges (p : Nat → Bool) : (s.wipe p).pageChanges = s.pageChanges := rfl
@[simp] theorem State.wipe_tiles (p : Nat → Bool) : (s.wipe p).tiles = s.tiles := rfl
@[simp] theorem State.wipe_hbmLost (p : Nat → Bool) : (s.wipe p).hbmLost = s.hbmLost := rfl
@[simp] theorem State.wipe_carts (p : Nat → Bool) : (s.wipe p).carts = s.carts := rfl
@[simp] theorem State.wipe_feed (p : Nat → Bool) : (s.wipe p).feed = s.feed := rfl
@[simp] theorem State.wipe_loops (p : Nat → Bool) : (s.wipe p).loops = s.loops := rfl
@[simp] theorem State.wipe_ringTrim (p : Nat → Bool) : (s.wipe p).ringTrim = s.ringTrim := rfl
@[simp] theorem State.wipe_xtalk (p : Nat → Bool) : (s.wipe p).xtalk = s.xtalk := rfl
@[simp] theorem State.wipe_xstage (p : Nat → Bool) : (s.wipe p).xstage = s.xstage := rfl
@[simp] theorem State.wipe_xcommit (p : Nat → Bool) : (s.wipe p).xcommit = s.xcommit := rfl
@[simp] theorem State.wipe_power (p : Nat → Bool) : (s.wipe p).power = s.power := rfl
@[simp] theorem State.wipe_pmbus (p : Nat → Bool) : (s.wipe p).pmbus = s.pmbus := rfl
@[simp] theorem State.wipe_monconv (p : Nat → Bool) : (s.wipe p).monconv = s.monconv := rfl
@[simp] theorem State.wipe_corr (p : Nat → Bool) : (s.wipe p).corr = s.corr := rfl
@[simp] theorem State.wipe_heaters (p : Nat → Bool) : (s.wipe p).heaters = s.heaters := rfl
@[simp] theorem State.wipe_fabric (p : Nat → Bool) : (s.wipe p).fabric = s.fabric := rfl
@[simp] theorem State.wipe_trust (p : Nat → Bool) : (s.wipe p).trust = s.trust := rfl
@[simp] theorem State.wipe_mbx (p : Nat → Bool) : (s.wipe p).mbx = s.mbx := rfl
@[simp] theorem State.wipe_sdio (p : Nat → Bool) : (s.wipe p).sdio = s.sdio := rfl
@[simp] theorem State.wipe_jtag (p : Nat → Bool) : (s.wipe p).jtag = s.jtag := rfl
@[simp] theorem State.wipe_faults (p : Nat → Bool) : (s.wipe p).faults = s.faults := rfl
@[simp] theorem State.wipe_free (p : Nat → Bool) : (s.wipe p).free = s.free := rfl

@[simp] theorem State.cluster_setCluster_same (k : Nat) (x : Cluster) : (s.setCluster k x).cluster k = x :=
  tabGet_tabSet_same _ s.clusters k x
theorem State.cluster_setCluster_other {k j : Nat} (x : Cluster) (h : j ≠ k) : (s.setCluster k x).cluster j = s.cluster j :=
  tabGet_tabSet_other _ _ _ x h

@[simp] theorem State.slab_setSlab_same (k : Nat) (x : Slab) : (s.setSlab k x).slab k = x :=
  tabGet_tabSet_same _ s.slabs k x
theorem State.slab_setSlab_other {k j : Nat} (x : Slab) (h : j ≠ k) : (s.setSlab k x).slab j = s.slab j :=
  tabGet_tabSet_other _ _ _ x h

@[simp] theorem State.engine_setEngine_same (k : Nat) (x : Engine) : (s.setEngine k x).engine k = x :=
  tabGet_tabSet_same _ s.engines k x
theorem State.engine_setEngine_other {k j : Nat} (x : Engine) (h : j ≠ k) : (s.setEngine k x).engine j = s.engine j :=
  tabGet_tabSet_other _ _ _ x h

@[simp] theorem State.bank_setBank_same (k : Nat) (x : Bank) : (s.setBank k x).bank k = x :=
  tabGet_tabSet_same _ s.banks k x
theorem State.bank_setBank_other {k j : Nat} (x : Bank) (h : j ≠ k) : (s.setBank k x).bank j = s.bank j :=
  tabGet_tabSet_other _ _ _ x h

@[simp] theorem State.loop_setLoop_same (k : Nat) (x : Loop) : (s.setLoop k x).loop k = x :=
  tabGet_tabSet_same _ s.loops k x
theorem State.loop_setLoop_other {k j : Nat} (x : Loop) (h : j ≠ k) : (s.setLoop k x).loop j = s.loop j :=
  tabGet_tabSet_other _ _ _ x h

@[simp] theorem State.page_setPage_same (k : Nat) (x : Page) : (s.setPage k x).page k = x :=
  tabGet_tabSet_same _ s.pages k x
theorem State.page_setPage_other {k j : Nat} (x : Page) (h : j ≠ k) : (s.setPage k x).page j = s.page j :=
  tabGet_tabSet_other _ _ _ x h

@[simp] theorem State.cluster_modCluster_same (k : Nat) (f : Cluster → Cluster) :
    (s.modCluster k f).cluster k = f (s.cluster k) :=
  tabGet_tabSet_same _ s.clusters k _
theorem State.cluster_modCluster_other {k j : Nat} (f : Cluster → Cluster) (h : j ≠ k) : (s.modCluster k f).cluster j = s.cluster j :=
  tabGet_tabSet_other _ _ _ _ h

@[simp] theorem State.slab_modSlab_same (k : Nat) (f : Slab → Slab) :
    (s.modSlab k f).slab k = f (s.slab k) :=
  tabGet_tabSet_same _ s.slabs k _
theorem State.slab_modSlab_other {k j : Nat} (f : Slab → Slab) (h : j ≠ k) : (s.modSlab k f).slab j = s.slab j :=
  tabGet_tabSet_other _ _ _ _ h

@[simp] theorem State.vecStatus_modVec_same (k : Nat) (f : W1c → W1c) :
    (s.modVec k f).vecStatus k = f (s.vecStatus k) :=
  tabGet_tabSet_same _ s.vec k _
theorem State.vecStatus_modVec_other {k j : Nat} (f : W1c → W1c) (h : j ≠ k) : (s.modVec k f).vecStatus j = s.vecStatus j :=
  tabGet_tabSet_other _ _ _ _ h

@[simp] theorem State.engine_modEngine_same (k : Nat) (f : Engine → Engine) :
    (s.modEngine k f).engine k = f (s.engine k) :=
  tabGet_tabSet_same _ s.engines k _
theorem State.engine_modEngine_other {k j : Nat} (f : Engine → Engine) (h : j ≠ k) : (s.modEngine k f).engine j = s.engine j :=
  tabGet_tabSet_other _ _ _ _ h

@[simp] theorem State.bank_modBank_same (k : Nat) (f : Bank → Bank) :
    (s.modBank k f).bank k = f (s.bank k) :=
  tabGet_tabSet_same _ s.banks k _
theorem State.bank_modBank_other {k j : Nat} (f : Bank → Bank) (h : j ≠ k) : (s.modBank k f).bank j = s.bank j :=
  tabGet_tabSet_other _ _ _ _ h

@[simp] theorem State.haul_modHaul_same (k : Nat) (f : Haul → Haul) :
    (s.modHaul k f).haul k = f (s.haul k) :=
  tabGet_tabSet_same _ s.hauls k _
theorem State.haul_modHaul_other {k j : Nat} (f : Haul → Haul) (h : j ≠ k) : (s.modHaul k f).haul j = s.haul j :=
  tabGet_tabSet_other _ _ _ _ h

@[simp] theorem State.cart_modCart_same (k : Nat) (f : Cart → Cart) :
    (s.modCart k f).cart k = f (s.cart k) :=
  tabGet_tabSet_same _ s.carts k _
theorem State.cart_modCart_other {k j : Nat} (f : Cart → Cart) (h : j ≠ k) : (s.modCart k f).cart j = s.cart j :=
  tabGet_tabSet_other _ _ _ _ h

@[simp] theorem State.loop_modLoop_same (k : Nat) (f : Loop → Loop) :
    (s.modLoop k f).loop k = f (s.loop k) :=
  tabGet_tabSet_same _ s.loops k _
theorem State.loop_modLoop_other {k j : Nat} (f : Loop → Loop) (h : j ≠ k) : (s.modLoop k f).loop j = s.loop j :=
  tabGet_tabSet_other _ _ _ _ h

@[simp] theorem State.mc_modMc_same (k : Nat) (f : Monconv → Monconv) :
    (s.modMc k f).mc k = f (s.mc k) :=
  tabGet_tabSet_same _ s.monconv k _
theorem State.mc_modMc_other {k j : Nat} (f : Monconv → Monconv) (h : j ≠ k) : (s.modMc k f).mc j = s.mc j :=
  tabGet_tabSet_other _ _ _ _ h

@[simp] theorem State.convCorr_modCorr_same (k : Nat) (f : ConvCorr → ConvCorr) :
    (s.modCorr k f).convCorr k = f (s.convCorr k) :=
  tabGet_tabSet_same _ s.corr k _
theorem State.convCorr_modCorr_other {k j : Nat} (f : ConvCorr → ConvCorr) (h : j ≠ k) : (s.modCorr k f).convCorr j = s.convCorr j :=
  tabGet_tabSet_other _ _ _ _ h

@[simp] theorem State.port_modPort_same (k : Nat) (f : Port → Port) :
    (s.modPort k f).port k = f (s.port k) :=
  tabGet_tabSet_same _ s.fabric.ports k _
theorem State.port_modPort_other {k j : Nat} (f : Port → Port) (h : j ≠ k) : (s.modPort k f).port j = s.port j :=
  tabGet_tabSet_other _ _ _ _ h

@[simp] theorem State.dyn_modDyn_same (k : Nat) (f : PartnerDyn → PartnerDyn) :
    (s.modDyn k f).dyn k = f (s.dyn k) :=
  tabGet_tabSet_same _ s.fabric.dyn k _
theorem State.dyn_modDyn_other {k j : Nat} (f : PartnerDyn → PartnerDyn) (h : j ≠ k) : (s.modDyn k f).dyn j = s.dyn j :=
  tabGet_tabSet_other _ _ _ _ h

@[simp] theorem State.tenant_modTenant_same (k : Nat) (f : Tenant → Tenant) :
    (s.modTenant k f).tenant k = f (s.tenant k) :=
  tabGet_tabSet_same _ s.trust.tenants k _
theorem State.tenant_modTenant_other {k j : Nat} (f : Tenant → Tenant) (h : j ≠ k) : (s.modTenant k f).tenant j = s.tenant j :=
  tabGet_tabSet_other _ _ _ _ h

@[simp] theorem State.ca_modCa_same (k : Nat) (f : Ca → Ca) :
    (s.modCa k f).ca k = f (s.ca k) :=
  tabGet_tabSet_same _ s.trust.cas k _
theorem State.ca_modCa_other {k j : Nat} (f : Ca → Ca) (h : j ≠ k) : (s.modCa k f).ca j = s.ca j :=
  tabGet_tabSet_other _ _ _ _ h

@[simp] theorem State.ring_modRing_same (k : Nat) (f : RingState → RingState) :
    (s.modRing k f).ring k = f (s.ring k) :=
  tabGet_tabSet_same _ s.mbx.rings k _
theorem State.ring_modRing_other {k j : Nat} (f : RingState → RingState) (h : j ≠ k) : (s.modRing k f).ring j = s.ring j :=
  tabGet_tabSet_other _ _ _ _ h

@[simp] theorem State.sensor_modSensor_same (k : Nat) (f : Sensor → Sensor) :
    (s.modSensor k f).sensor k = f (s.sensor k) :=
  tabGet_tabSet_same _ s.power.sensors k _
theorem State.sensor_modSensor_other {k j : Nat} (f : Sensor → Sensor) (h : j ≠ k) : (s.modSensor k f).sensor j = s.sensor j :=
  tabGet_tabSet_other _ _ _ _ h

end Sys2Proof.Machine
end

