-- ==== Sys2Proof/Laws/Events.lean ====
section
/-! SUPPORT. Posting an event changes the books of the event log and nothing else. -/

namespace Sys2Proof.Machine

theorem EventsOnly.refl (s : State) : EventsOnly s s := ⟨rfl, fun _ _ => rfl, fun _ => rfl⟩

theorem EventsOnly.trans {s t u : State} (h : EventsOnly s t) (g : EventsOnly t u) : EventsOnly s u := by
  obtain ⟨h1, h2, h3⟩ := h
  obtain ⟨g1, g2, g3⟩ := g
  refine ⟨?_, fun i hi => (g2 i hi).trans (h2 i hi), fun k => ?_⟩
  · rw [g1]
    conv_lhs => rw [h1]
  · rw [g3 k]
    conv_lhs => rw [h3 k]

/-- A tenant's log position and LOST total change. -/
theorem EventsOnly.modTenant {s : State} (k : Nat) (f : Tenant → Tenant)
    (hf : f (s.tenant k) = { s.tenant k with pos := (f (s.tenant k)).pos, lost := (f (s.tenant k)).lost }) :
    EventsOnly s (s.modTenant k f) := by
  refine ⟨rfl, fun _ _ => rfl, fun j => ?_⟩
  by_cases e : j = k
  · subst e
    rw [State.tenant_modTenant_same]
    exact hf
  · rw [State.tenant_modTenant_other _ _ e]

theorem EventsOnly.forEach {α : Type} (l : List α) (g : State → α → State) (hg : ∀ s a, EventsOnly s (g s a)) (s : State) :
    EventsOnly s (forEach l s g) := by
  unfold Machine.forEach
  induction l generalizing s with
  | nil => exact EventsOnly.refl s
  | cons a l ih =>
    rw [List.foldl_cons]
    exact (hg s a).trans (ih _)

theorem dropOldest_eventsOnly (s : State) : EventsOnly s s.dropOldest := by
  unfold State.dropOldest
  split
  · exact EventsOnly.refl s
  · split
    · exact EventsOnly.refl s
    · refine EventsOnly.forEach _ _ (fun s k => ?_) s
      split
      · exact EventsOnly.modTenant k _ rfl
      · exact EventsOnly.refl s

theorem W1c.has_hit (w : W1c) (i j : Nat) : (w.hit i).has j = (w.has j || (decide (j < 64) && decide (i = j))) := by
  unfold W1c.hit W1c.has
  simp only [BitVec.getLsbD_or, BitVec.natCast_eq_ofNat, BitVec.getLsbD_ofNat, Nat.one_shiftLeft, Nat.testBit_two_pow]

theorem W1c.has_hit_other (w : W1c) {i j : Nat} (h : j ≠ i) : (w.hit i).has j = w.has j := by
  simp [W1c.has_hit, Ne.symm h]

/-- Setting a flag sets it. -/
theorem W1c.has_hit_same (w : W1c) {i : Nat} (h : i < 64) : (w.hit i).has i = true := by
  simp [W1c.has_hit, h]

theorem append_eventsOnly (s : State) (e : Event) : EventsOnly s (s.append e) := by
  refine (dropOldest_eventsOnly s).trans ?_
  exact ⟨rfl, fun i hi => W1c.has_hit_other _ hi, fun _ => rfl⟩

theorem post_eventsOnly (s : State) (e : Event) : EventsOnly s (s.post e) := by
  unfold State.post
  split
  · exact append_eventsOnly s e
  · refine ⟨?_, fun i _ => ?_, fun _ => rfl⟩ <;> simp only [State.modMbx] <;> split <;> rfl

/-- Posting an event changes only the books of the event log. -/
theorem raise_eventsOnly (s : State) (cls tenant : Nat) (module injected : Bool) (payload : Nat) :
    EventsOnly s (s.raise cls tenant module injected payload) := post_eventsOnly s _

theorem EventsOnly.books {s t : State} (r : Nat) (h : EventsOnly s t) : Books r s t := by
  obtain ⟨h1, h2, h3⟩ := h
  refine ⟨?_, fun k => ?_, fun q _ => ?_⟩
  · conv_lhs => rw [h1]
    conv_rhs => rw [h1]
  · conv_lhs => rw [h3 k]
    conv_rhs => rw [h3 k]
  · rw [h1]
    rfl

theorem Books.refl (r : Nat) (s : State) : Books r s s := ⟨rfl, fun _ => rfl, fun _ _ => rfl⟩

theorem Books.trans {r : Nat} {s t u : State} (h : Books r s t) (g : Books r t u) : Books r s u := by
  obtain ⟨h1, h2, h3⟩ := h
  obtain ⟨g1, g2, g3⟩ := g
  refine ⟨?_, fun k => ?_, fun q hq => (g3 q hq).trans (h3 q hq)⟩
  · rw [g1]
    conv_lhs => rw [h1]
  · rw [g2 k]
    conv_lhs => rw [h2 k]

end Sys2Proof.Machine
end

