-- ==== Sys2Proof/Laws/Mailbox.lean ====
section
/-! SUPPORT. The mailbox: what accepting, starting and completing a command changes beside its own effect, and what a command's
own row does on a ring that is ready. -/

namespace Sys2Proof.Machine

theorem Books.modTenant {s : State} (r k : Nat) (f : Tenant → Tenant)
    (hf : f (s.tenant k) = { s.tenant k with
      session := (f (s.tenant k)).session, pos := (f (s.tenant k)).pos, lost := (f (s.tenant k)).lost }) :
    Books r s (s.modTenant k f) := by
  refine ⟨rfl, fun j => ?_, fun _ _ => rfl⟩
  by_cases e : j = k
  · subst e
    rw [State.tenant_modTenant_same]
    exact hf
  · rw [State.tenant_modTenant_other _ _ e]

theorem Books.modRing {s : State} (r : Nat) (f : RingState → RingState) : Books r s (s.modRing r f) :=
  ⟨rfl, fun _ => rfl, fun _ hq => State.ring_modRing_other s f hq⟩

theorem closeSession_books (r : Nat) (s : State) (t reason : Nat) : Books r s (s.closeSession t reason) := by
  unfold State.closeSession
  split
  · exact Books.refl r s
  · exact (Books.modTenant r t _ rfl).trans ((raise_eventsOnly _ _ _ _ _ _).books r)

theorem useSeq_books (r : Nat) (s : State) (t chan : Nat) : Books r s (s.useSeq t chan) := by
  unfold State.useSeq
  split
  · exact Books.refl r s
  · dsimp only
    split
    · exact (Books.modTenant r t _ rfl).trans (closeSession_books r _ _ _)
    · exact Books.modTenant r t _ rfl

theorem sealOn_books (r : Nat) (s : State) (t chan : Nat) (l : List Byte) : Books r s (s.sealOn t chan l).2 := by
  unfold State.sealOn
  split
  · exact Books.refl r s
  · exact useSeq_books r s t chan

theorem goodEnvelope_books (r : Nat) (s : State) (t chan : Nat) : Books r s (s.goodEnvelope t chan) :=
  (Books.modTenant r t _ rfl).trans (useSeq_books r _ t chan)

theorem openEnvelopes_books (r : Nat) (s : State) (h : CmdHdr) : Books r s (s.openEnvelopes h) := by
  unfold State.openEnvelopes
  split
  · rename_i t _
    generalize List.range (ceilDiv h.bulk.length 32768) = l
    refine Books.trans (goodEnvelope_books r s t.val 0) ?_
    generalize s.goodEnvelope t.val 0 = u
    induction l generalizing u with
    | nil => exact Books.refl r u
    | cons a l ih =>
      rw [List.foldl_cons]
      exact (goodEnvelope_books r u t.val 2).trans (ih _)
  · exact Books.refl r s

theorem served_books (r q : Nat) (s : State) : Books r s (s.served q) := by
  unfold State.served
  split
  · exact Books.refl r s
  · exact ⟨rfl, fun _ => rfl, fun _ _ => rfl⟩

/-- Accepting a command changes only the books of the mailbox. -/
theorem found_books (s : State) (h : CmdHdr) : Books (ringNo h.ring) s (s.found h) :=
  ((openEnvelopes_books _ s h).trans (Books.modRing _ _)).trans (served_books _ _ _)

theorem taken_books (s : State) (dt : Nat) (h : CmdHdr) : Books (ringNo h.ring) (s.elapse dt) (s.taken dt h) :=
  found_books _ h

theorem bulkOut_books (r : Nat) (s : State) (n : Option TenantId) (out : List Byte) : Books r s (s.bulkOut n out) := by
  unfold State.bulkOut
  split
  · exact Books.refl r s
  · dsimp only
    cases n with
    | none => exact ⟨rfl, fun _ => rfl, fun _ _ => rfl⟩
    | some t =>
      dsimp only
      generalize chunks 32768 (ceilDiv out.length 32768) out = l
      suffices H : ∀ (l : List (List Byte)) (u : State), Books r s u → Books r s (l.foldl (fun (s : State) b =>
          let e := s.sealOn t.val 3 b
          { e.2 with mbx := { e.2.mbx with boutFifo := e.2.mbx.boutFifo ++ e.1 } }) u) by
        exact (H l s (Books.refl r s)).trans ⟨rfl, fun _ => rfl, fun _ _ => rfl⟩
      intro l
      induction l with
      | nil => exact fun u hu => hu
      | cons a l ih =>
        intro u hu
        rw [List.foldl_cons]
        exact ih _ ((hu.trans (sealOn_books r u t.val 3 a)).trans ⟨rfl, fun _ => rfl, fun _ _ => rfl⟩)

theorem f3Out_books (r : Nat) (s : State) (n : Option TenantId) (out : List Byte) : Books r s (s.f3Out n out) := by
  unfold State.f3Out
  split
  · exact Books.refl r s
  · cases n with
    | none => exact ⟨rfl, fun _ => rfl, fun _ _ => rfl⟩
    | some t => exact (sealOn_books r s t.val 4 out).trans ⟨rfl, fun _ => rfl, fun _ _ => rfl⟩

theorem postCpl_books (r : Nat) (s : State) (c : Cpl) : Books r s (s.postCpl r c) := by
  unfold State.postCpl
  cases c.session with
  | none => exact (Books.modRing r _).trans ⟨rfl, fun _ => rfl, fun _ _ => rfl⟩
  | some t => exact ((sealOn_books r s t.val 1 _).trans (Books.modRing r _)).trans ⟨rfl, fun _ => rfl, fun _ _ => rfl⟩

/-- Completing a command changes only the books of the mailbox beside the effect of its answer. -/
theorem finish_books (s : State) (h : CmdHdr) (op : Nat) (clear : Bool) (a : Answer) :
    Books (ringNo h.ring) (a.after s) (s.finish h op clear a) := by
  unfold State.finish
  refine Books.trans ?_ (postCpl_books _ _ _)
  split
  · exact f3Out_books _ _ _ _
  · exact bulkOut_books _ _ _ _

theorem deliver_books (s : State) (h : CmdHdr) (c : HostCmd) (a : Answer) :
    Books (ringNo h.ring) (a.after s) (s.deliver none h c a) := by
  refine (finish_books s h (opcodeOf c) (clearCpl (opcodeOf c)) a).trans ?_
  simp only [State.deliver]
  generalize s.finish h (opcodeOf c) (clearCpl (opcodeOf c)) a = u
  unfold afterFinish
  split
  · split
    · exact closeSession_books _ _ _ _
    · exact Books.refl _ _
  · exact Books.refl _ _

/-- What a completed command leaves is its effect, but for the books of the mailbox. -/
theorem ended_books (f u : State) (h : CmdHdr) (c : HostCmd) (result : Nat) (out : List Byte) :
    Books (ringNo h.ring) u (f.ended u h c result out) := by
  have := deliver_books f h c { Answer.okR u result with out := out }
  simpa [State.ended, Answer.after, Answer.okR, Answer.ok, stOk] using this

theorem raise_rings (s : State) (a b : Nat) (c d : Bool) (e : Nat) : (s.raise a b c d e).mbx.rings = s.mbx.rings := by
  rw [(raise_eventsOnly s a b c d e).1]

theorem raise_bout (s : State) (a b : Nat) (c d : Bool) (e : Nat) : (s.raise a b c d e).mbx.boutFifo = s.mbx.boutFifo := by
  rw [(raise_eventsOnly s a b c d e).1]

theorem closeSession_rings (s : State) (t n : Nat) : (s.closeSession t n).mbx.rings = s.mbx.rings := by
  unfold State.closeSession
  split
  · rfl
  · exact raise_rings _ _ _ _ _ _

theorem closeSession_bout (s : State) (t n : Nat) : (s.closeSession t n).mbx.boutFifo = s.mbx.boutFifo := by
  unfold State.closeSession
  split
  · rfl
  · exact raise_bout _ _ _ _ _ _

theorem useSeq_rings (s : State) (t chan : Nat) : (s.useSeq t chan).mbx.rings = s.mbx.rings := by
  unfold State.useSeq
  split
  · rfl
  · dsimp only
    split
    · exact closeSession_rings _ _ _
    · rfl

theorem useSeq_bout (s : State) (t chan : Nat) : (s.useSeq t chan).mbx.boutFifo = s.mbx.boutFifo := by
  unfold State.useSeq
  split
  · rfl
  · dsimp only
    split
    · exact closeSession_bout _ _ _
    · rfl

theorem sealOn_rings (s : State) (t chan : Nat) (l : List Byte) : (s.sealOn t chan l).2.mbx.rings = s.mbx.rings := by
  unfold State.sealOn
  split
  · rfl
  · exact useSeq_rings _ _ _

/-- A completion joins the ring's completions. -/
theorem postCpl_cpls (r : Nat) (s : State) (c : Cpl) :
    ∃ w, ((s.postCpl r c).ring r).cpls = (s.ring r).cpls ++ [{ c with wire := w }] := by
  unfold State.postCpl
  cases c.session with
  | none => exact ⟨_, by simp [State.modRing, State.ring, tabGet_tabSet_same]; rfl⟩
  | some t => exact ⟨_, by simp [State.modRing, State.ring, tabGet_tabSet_same, sealOn_rings]; rfl⟩

theorem bulkOut_rings (s : State) (n : Option TenantId) (out : List Byte) : (s.bulkOut n out).mbx.rings = s.mbx.rings := by
  unfold State.bulkOut
  split
  · rfl
  · dsimp only
    cases n with
    | none => rfl
    | some t =>
      dsimp only
      generalize chunks 32768 (ceilDiv out.length 32768) out = l
      induction l generalizing s with
      | nil => rfl
      | cons a l ih =>
        rw [List.foldl_cons]
        exact (ih _).trans (sealOn_rings s t.val 3 a)

/-- A completed command's completion is the newest of its ring: OK with its opcode, CMD_ID, RESULT and output length (R680). -/
theorem ended_cpl (f u : State) (h : CmdHdr) (c : HostCmd) (result : Nat) (out : List Byte) :
    ∃ k : Cpl, ((f.ended u h c result out).ring (ringNo h.ring)).cpls = (u.ring (ringNo h.ring)).cpls ++ [k]
      ∧ k.status = 0 ∧ k.opcode = opcodeOf c ∧ k.id = h.id ∧ k.result = BitVec.ofNat 128 result ∧ k.outLen = out.length := by
  have e : ∀ v : State, (afterFinish c h 0 v).mbx.rings = v.mbx.rings := by
    intro v
    unfold afterFinish
    split
    · split
      · exact closeSession_rings _ _ _
      · rfl
    · rfl
  unfold State.ended State.deliver State.finish
  simp only [Answer.okR, Answer.ok, Answer.after, stOk, or_true, true_or, if_true, Bool.false_eq_true, if_false]
  have q : ∀ v w : State, v.mbx.rings = w.mbx.rings → v.ring (ringNo h.ring) = w.ring (ringNo h.ring) := by
    intro v w hv
    unfold State.ring
    rw [hv]
  rw [q _ _ (e _)]
  obtain ⟨w, hw⟩ := postCpl_cpls (ringNo h.ring) (u.bulkOut h.session out)
    { status := 0, applied := false, inF3 := false && !out.isEmpty, opcode := opcodeOf c, id := h.id, outLen := out.length,
      detail := if (false && !out.isEmpty) = true then f.mbx.wptr else 0, result := BitVec.ofNat 128 result,
      session := if clearCpl (opcodeOf c) then none else h.session, wire := [] }
  rw [q _ _ (bulkOut_rings u h.session out)] at hw
  exact ⟨_, hw, rfl, rfl, rfl, rfl, rfl⟩

/-- No output fits whenever the FIFO holds no more than its size. -/
theorem fits_nil (s : State) (n : Option TenantId) (f3 : Bool) (h : s.mbx.boutFifo.length ≤ 65536) : s.fits n f3 0 = true := by
  cases f3 <;> cases n <;> simp [State.fits, f3Len, bulkOutLen, ceilDiv, h]

/-- Accepting a command leaves the output FIFO as it is. -/
theorem taken_bout (s : State) (dt : Nat) (h : CmdHdr) : (s.taken dt h).mbx.boutFifo = s.mbx.boutFifo := by
  have hserved : ∀ (s : State) r, (s.served r).mbx.boutFifo = s.mbx.boutFifo := by
    intro s r
    unfold State.served
    split <;> rfl
  have hgood : ∀ (s : State) t c, (s.goodEnvelope t c).mbx.boutFifo = s.mbx.boutFifo := by
    intro s t c
    exact useSeq_bout _ _ _
  unfold State.taken State.found
  rw [hserved]
  show ((s.elapse dt).openEnvelopes h).mbx.boutFifo = _
  unfold State.openEnvelopes
  split
  · rename_i t _
    generalize List.range (ceilDiv h.bulk.length 32768) = l
    have : ((s.elapse dt).goodEnvelope t.val 0).mbx.boutFifo = s.mbx.boutFifo := hgood _ _ _
    revert this
    generalize (s.elapse dt).goodEnvelope t.val 0 = u
    induction l generalizing u with
    | nil => exact fun e => e
    | cons a l ih =>
      intro e
      rw [List.foldl_cons]
      exact ih _ ((hgood u t.val 2).trans e)
  · rfl

/-- What a command's own row does on a ring that is ready, once its answer on the state it runs on is known. -/
theorem submit_ready {s f : State} {dt : Nat} {h : CmdHdr} {c : HostCmd} (e : f = s.taken dt h) (hr : Ready s dt h c)
    {a : Answer} (ha : runHostCmd c h f = a) (hf : a.stay = true ∨ f.fits h.session a.f3 a.out.length = true) :
    (s.elapse dt).submit h c = f.started none h c a := by
  obtain ⟨h1, h2, h3, h4, -, h6⟩ := hr
  have h1' : (s.elapse dt).hostLink = true := h1
  have h2' : ((s.elapse dt).ring (ringNo h.ring)).free ≠ 0 := h2
  have h3' : (s.elapse dt).sessionOpen h = true := h3
  have h4' : (s.elapse dt).idleRing (ringNo h.ring) = true := h4
  have e' : (s.elapse dt).found h = f := e.symm
  have e2 : f.answer false h c = a := by
    unfold State.answer
    rw [e, h6, ← e]
    exact ha
  have e3 : (a.stay || f.answerFits none h a) = true := by
    unfold State.answerFits
    rcases hf with hf | hf <;> simp [hf]
  unfold State.submit
  simp only [h1', h2', h3', h4', e', e2, e3, Bool.not_true, Bool.false_eq_true, if_false, Bool.and_self, if_true]

/-- The state a command runs on has room for a command without output. -/
theorem Ready.fits_nil {s f : State} {dt : Nat} {h : CmdHdr} {c : HostCmd} (e : f = s.taken dt h) (hr : Ready s dt h c) :
    f.fits h.session false 0 = true :=
  Machine.fits_nil _ _ _ (by rw [e, taken_bout]; exact hr.2.2.2.2.1)

/-- A command that completes at once. -/
theorem submit_ended {s f : State} {dt : Nat} {h : CmdHdr} {c : HostCmd} (e : f = s.taken dt h) (hr : Ready s dt h c)
    {u : State} {result : Nat} (ha : runHostCmd c h f = Answer.okR u result) :
    (s.elapse dt).submit h c = f.ended u h c result [] := by
  rw [submit_ready e hr ha (.inr (hr.fits_nil e))]
  rfl

/-- A command that completes at once without a RESULT. -/
theorem submit_ok {s f : State} {dt : Nat} {h : CmdHdr} {c : HostCmd} (e : f = s.taken dt h) (hr : Ready s dt h c)
    {u : State} (ha : runHostCmd c h f = Answer.ok u) : (s.elapse dt).submit h c = f.ended u h c 0 [] :=
  submit_ended e hr ha

/-- A command that completes at once with output. -/
theorem submit_ended_out {s f : State} {dt : Nat} {h : CmdHdr} {c : HostCmd} (e : f = s.taken dt h) (hr : Ready s dt h c)
    {u : State} {result : Nat} {out : List Byte} (ha : runHostCmd c h f = { Answer.okR u result with out := out })
    (hf : f.fits h.session false out.length = true) :
    (s.elapse dt).submit h c = f.ended u h c result out := by
  rw [submit_ready e hr ha (.inr hf)]
  rfl

/-- A command that completes at once with output in the F3 window. -/
theorem submit_endedF3 {s f : State} {dt : Nat} {h : CmdHdr} {c : HostCmd} (e : f = s.taken dt h) (hr : Ready s dt h c)
    {u : State} {result : Nat} {out : List Byte}
    (ha : runHostCmd c h f = { Answer.okR u result with out := out, f3 := true })
    (hf : f.fits h.session true out.length = true) :
    (s.elapse dt).submit h c = f.endedF3 u h c result out := by
  rw [submit_ready e hr ha (.inr hf)]
  rfl

/-- A command whose own checks fail. -/
theorem submit_failed {s f : State} {dt : Nat} {h : CmdHdr} {c : HostCmd} (e : f = s.taken dt h) (hr : Ready s dt h c)
    {status detail : Nat} (ha : runHostCmd c h f = Answer.errD f status detail) :
    (s.elapse dt).submit h c = f.failed h c status detail := by
  rw [submit_ready e hr ha (.inr (hr.fits_nil e))]
  rfl

/-- A command that stays in execution. -/
theorem submit_staying {s f : State} {dt : Nat} {h : CmdHdr} {c : HostCmd} (e : f = s.taken dt h) (hr : Ready s dt h c)
    {u : State} {left : Nat} (ha : runHostCmd c h f = Answer.wait u left) :
    (s.elapse dt).submit h c = f.staying u h c left := by
  rw [submit_ready e hr ha (.inl rfl)]
  rfl

end Sys2Proof.Machine
end

