-- ==== Sys2Proof/Laws/Memory.lean ====
section
/-! SUPPORT. Memory: every operation keeps the canonical form; a read of stored bytes gives them, a read elsewhere what it
gave before. -/

namespace Sys2Proof.Machine

/-- All keys of a table lie below a bound. -/
def keysBelow (t : List Host.Cell) (hi : Nat) : Prop := ∀ x ∈ t, x.1 < hi

theorem wfFrom_append {lo hi : Nat} {a b : List Host.Cell} (ha : tabWfFrom (fun _ => memDefault) lo a = true)
    (hk : keysBelow a hi) (hl : lo ≤ hi) (hb : tabWfFrom (fun _ => memDefault) hi b = true) :
    tabWfFrom (fun _ => memDefault) lo (a ++ b) = true := by
  induction a generalizing lo with
  | nil => exact tabWfFrom_mono _ b hb hl
  | cons x a ih =>
    obtain ⟨i, w⟩ := x
    simp only [List.cons_append, tabWfFrom, Bool.and_eq_true, decide_eq_true_eq] at ha ⊢
    have hi' : i < hi := hk (i, w) (List.mem_cons_self ..)
    exact ⟨ha.1, ih ha.2 (fun x hx => hk x (List.mem_cons_of_mem _ hx)) (by omega)⟩

theorem wfFrom_takeWhile {lo : Nat} {m : List Host.Cell} (p : Host.Cell → Bool)
    (h : tabWfFrom (fun _ => memDefault) lo m = true) : tabWfFrom (fun _ => memDefault) lo (m.takeWhile p) = true := by
  induction m generalizing lo with
  | nil => rfl
  | cons x m ih =>
    obtain ⟨i, w⟩ := x
    simp only [tabWfFrom, Bool.and_eq_true, decide_eq_true_eq] at h
    rw [List.takeWhile_cons]
    split
    · simp only [tabWfFrom, Bool.and_eq_true, decide_eq_true_eq]
      exact ⟨h.1, ih h.2⟩
    · rfl

theorem keysBelow_takeWhile (m : List Host.Cell) (k : Nat) : keysBelow (m.takeWhile (fun x => decide (x.1 < k))) k := by
  intro x hx
  have := List.mem_takeWhile_imp hx
  simpa using this

/-- What is left after the keys below a bound rises above the bound. -/
theorem wfFrom_dropWhile {lo : Nat} {m : List Host.Cell} (k : Nat)
    (h : tabWfFrom (fun _ => memDefault) lo m = true) :
    tabWfFrom (fun _ => memDefault) k (m.dropWhile (fun x => decide (x.1 < k))) = true := by
  induction m generalizing lo with
  | nil => rfl
  | cons x m ih =>
    obtain ⟨i, w⟩ := x
    simp only [tabWfFrom, Bool.and_eq_true, decide_eq_true_eq] at h
    rw [List.dropWhile_cons]
    split
    · exact ih h.2
    · rename_i e
      simp only [decide_eq_true_eq, not_lt] at e
      simp only [tabWfFrom, Bool.and_eq_true, decide_eq_true_eq]
      exact ⟨⟨e, h.1.2⟩, h.2⟩

theorem wfFrom_cellsFrom (k : Nat) (bs : List Byte) : tabWfFrom (fun _ => memDefault) k (cellsFrom k bs) = true := by
  induction bs generalizing k with
  | nil => rfl
  | cons b bs ih =>
    unfold cellsFrom
    split
    · exact tabWfFrom_mono _ _ (ih (k + 1)) (by omega)
    · rename_i e
      simp only [tabWfFrom, Bool.and_eq_true, decide_eq_true_eq]
      exact ⟨⟨le_refl _, e⟩, ih (k + 1)⟩

theorem keysBelow_cellsFrom (k : Nat) (bs : List Byte) : keysBelow (cellsFrom k bs) (k + bs.length) := by
  induction bs generalizing k with
  | nil => simp [cellsFrom, keysBelow]
  | cons b bs ih =>
    unfold cellsFrom
    intro x hx
    have h := ih (k + 1)
    rw [List.length_cons]
    split at hx
    · have := h x hx
      omega
    · rcases List.mem_cons.mp hx with e | e
      · subst e
        simp only
        omega
      · have := h x e
        omega

/-- Storing bytes keeps the canonical form. -/
theorem memStore_wf {m : List Host.Cell} (k : Nat) (bs : List Byte) (h : Memory.wf m = true) :
    Memory.wf (memStore m k bs) = true := by
  unfold Memory.wf tabWf memStore at *
  rw [List.append_assoc]
  refine wfFrom_append (wfFrom_takeWhile _ h) (keysBelow_takeWhile m k) (Nat.zero_le _) ?_
  refine wfFrom_append (wfFrom_cellsFrom k bs) (keysBelow_cellsFrom k bs) (by omega) ?_
  exact wfFrom_dropWhile _ (wfFrom_dropWhile k h)

theorem wfFrom_filter {lo : Nat} {m : List Host.Cell} (p : Host.Cell → Bool)
    (h : tabWfFrom (fun _ => memDefault) lo m = true) : tabWfFrom (fun _ => memDefault) lo (m.filter p) = true := by
  induction m generalizing lo with
  | nil => rfl
  | cons x m ih =>
    obtain ⟨i, w⟩ := x
    simp only [tabWfFrom, Bool.and_eq_true, decide_eq_true_eq] at h
    rw [List.filter_cons]
    split
    · simp only [tabWfFrom, Bool.and_eq_true, decide_eq_true_eq]
      exact ⟨h.1, ih h.2⟩
    · exact tabWfFrom_mono _ _ (ih h.2) (by omega)

/-- Zeroising keeps the canonical form. -/
theorem State.wipe_wf {s : State} (p : Nat → Bool) (h : Memory.wf s.mem = true) : Memory.wf (s.wipe p).mem = true :=
  wfFrom_filter _ h

theorem tabFind_append (a b : List Host.Cell) (k : Nat) :
    tabFind (a ++ b) k = (tabFind a k).or (tabFind b k) := by
  induction a with
  | nil => simp [tabFind]
  | cons x a ih =>
    obtain ⟨i, w⟩ := x
    simp only [List.cons_append, tabFind]
    split
    · simp
    · exact ih

theorem tabFind_keysBelow {a : List Host.Cell} {hi k : Nat} (h : keysBelow a hi) (hk : hi ≤ k) : tabFind a k = none := by
  induction a with
  | nil => rfl
  | cons x a ih =>
    obtain ⟨i, w⟩ := x
    have hi' : i < hi := h (i, w) (List.mem_cons_self ..)
    have : i ≠ k := by omega
    simp only [tabFind, if_neg this]
    exact ih (fun x hx => h x (List.mem_cons_of_mem _ hx))

theorem tabFind_takeWhile_lt (m : List Host.Cell) {lo k a : Nat} (h : tabWfFrom (fun _ => memDefault) lo m = true)
    (ha : a < k) : tabFind (m.takeWhile (fun x => decide (x.1 < k))) a = tabFind m a := by
  induction m generalizing lo with
  | nil => rfl
  | cons x m ih =>
    obtain ⟨i, w⟩ := x
    simp only [tabWfFrom, Bool.and_eq_true, decide_eq_true_eq] at h
    rw [List.takeWhile_cons]
    split
    · simp only [tabFind]
      split
      · rfl
      · exact ih h.2
    · rename_i e
      simp only [decide_eq_true_eq, not_lt] at e
      have : i ≠ a := by omega
      simp only [tabFind, if_neg this]
      exact (tabFind_below _ m h.2 (by omega)).symm

theorem tabFind_dropWhile_ge (m : List Host.Cell) {k a : Nat} (ha : k ≤ a) :
    tabFind (m.dropWhile (fun x => decide (x.1 < k))) a = tabFind m a := by
  induction m with
  | nil => rfl
  | cons x m ih =>
    obtain ⟨i, w⟩ := x
    rw [List.dropWhile_cons]
    split
    · rename_i e
      simp only [decide_eq_true_eq] at e
      have : i ≠ a := by omega
      simp only [tabFind, if_neg this]
      exact ih
    · rfl

theorem tabGet_cellsFrom (k : Nat) (bs : List Byte) (i : Nat) :
    tabGet memDefault (cellsFrom k bs) (k + i) = bs.getD i memDefault := by
  induction bs generalizing k i with
  | nil => simp [cellsFrom, tabGet, tabFind]
  | cons b bs ih =>
    unfold cellsFrom
    cases i with
    | zero =>
      split
      · rename_i e
        subst e
        have := tabFind_below (fun _ => memDefault) _ (wfFrom_cellsFrom (k + 1) bs) (show k < k + 1 by omega)
        simp [tabGet, this]
      · simp [tabGet, tabFind]
    | succ i =>
      have h := ih (k + 1) i
      rw [show k + 1 + i = k + (i + 1) by omega] at h
      rw [List.getD_cons_succ]
      split
      · exact h
      · have : k ≠ k + (i + 1) := by omega
        unfold tabGet at h ⊢
        simp only [tabFind, if_neg this]
        exact h

/-- A byte outside what is stored reads as before. -/
theorem memRead_memStore_other {m : List Host.Cell} {k a : Nat} (bs : List Byte) (h : Memory.wf m = true)
    (ha : a < k ∨ k + bs.length ≤ a) : memRead (memStore m k bs) a = memRead m a := by
  unfold memRead tabGet memStore
  rw [List.append_assoc, tabFind_append, tabFind_append]
  rcases ha with ha | ha
  · rw [tabFind_takeWhile_lt m h ha, tabFind_below _ _ (wfFrom_cellsFrom k bs) ha,
      tabFind_below _ _ (wfFrom_dropWhile (k + bs.length) (wfFrom_dropWhile k h)) (by omega)]
    simp
  · rw [tabFind_keysBelow (keysBelow_takeWhile m k) (by omega), tabFind_keysBelow (keysBelow_cellsFrom k bs) ha,
      tabFind_dropWhile_ge _ ha, tabFind_dropWhile_ge _ (by omega)]
    simp

/-- A byte that is stored reads as stored. -/
theorem memRead_memStore_same {m : List Host.Cell} {k i : Nat} (bs : List Byte) (h : Memory.wf m = true)
    (hi : i < bs.length) : memRead (memStore m k bs) (k + i) = bs.getD i memDefault := by
  unfold memRead
  rw [← tabGet_cellsFrom k bs i]
  unfold tabGet memStore
  rw [List.append_assoc, tabFind_append, tabFind_append, tabFind_keysBelow (keysBelow_takeWhile m k) (by omega),
    tabFind_below _ _ (wfFrom_dropWhile (k + bs.length) (wfFrom_dropWhile k h)) (by omega)]
  simp

/-- Zeroised bytes read zero, others as before. -/
theorem State.byte_wipe {s : State} (p : Nat → Bool) (a : Nat) (h : Memory.wf s.mem = true) :
    (s.wipe p).byte a = if p a then memDefault else s.byte a := by
  unfold State.byte State.wipe memRead tabGet
  generalize s.mem = m at h ⊢
  unfold Memory.wf tabWf at h
  generalize 0 = lo at h
  induction m generalizing lo with
  | nil => simp [tabFind]
  | cons x m ih =>
    obtain ⟨i, w⟩ := x
    simp only [tabWfFrom, Bool.and_eq_true, decide_eq_true_eq] at h
    have e := ih _ h.2
    by_cases ha : i = a
    · subst ha
      rw [tabFind_below _ m h.2 (by omega)] at e
      by_cases hp : p i
      · simp only [List.filter_cons, hp, Bool.not_true, if_true]
        simpa [hp] using e
      · simp [hp, tabFind]
    · by_cases hp : p i <;> simpa [List.filter_cons, hp, tabFind, ha] using e

end Sys2Proof.Machine
end

