-- ==== Sys2Proof/Tests/Slice0.lean ====
section
/-! SUPPORT. Tests of the model: for every clause of an obligation that has hypotheses, operands and a state that meet them all; a
malformed command for every check of `Instr.wellFormed`; and the worked examples of the spec. -/

namespace Sys2Proof.Tests

open Sys2Proof Sys2Proof.Machine

set_option Elab.async false

/-! ## States and operands -/


/-- A header on the operator's session. -/
def hd (r : Ring) (b : List Byte) : CmdHdr := { ring := r, id := 1, session := some 0, bulk := b }

/-- Zero bytes. -/
def zs (n : Nat) : List Byte := List.replicate n 0

/-- Tenant 0 with its session open. -/
def openTenant : Tenant := { Tenant.init 0 with session := some Session.init }

/-- The firmware runs and the operator's session is open. -/
def sRun : State :=
  { State.reset with
    mbx := { Mailbox.init with fw := .running }
    trust := { Trust.init with puf := some 0, tenants := [(0, openTenant)] } }

def anIdentity : Identity := { fingerprint := 1, modulus := [1], serial := 7 }

/-- The boot ROM waits for an image, with its keys there. -/
def sBoot : State := { sRun with mbx := Mailbox.init, trust := { sRun.trust with identity := some anIdentity, ak := some [1], xk := some [1] } }

/-- CA 16 has its keys. -/
def secure (s : State) : State := { s with trust := { s.trust with cas := [(16, { Ca.init with cak := some [], sak := some [] })] } }

/-- A SESSION partner of tenant 0 on cluster 0. -/
def anEntry : BitVec 512 := BitVec.ofNat 512 (1 + 1 <<< 4 + 16 <<< 192 + 0x100000 <<< 224 + 4096 <<< 320 + 1 <<< 368)

/-- The same, of kind SESSION, SHED. -/
def shedEntry : BitVec 512 := BitVec.ofNat 512 (2 + 1 <<< 4 + 16 <<< 192 + 0x100000 <<< 224 + 4096 <<< 320 + 1 <<< 368)

/-- A zero-task RT plan of generation 1 at P1000. -/
def emptyPlan : Plan := { header := BitVec.ofNat 64 (1 + 4 <<< 49 + 63 <<< 56), tasks := [], bufs := [] }

/-- A plan with these tasks, RT or batch. -/
def planOf (batch : Bool) (l : List (BitVec 512)) : Plan :=
  { header := BitVec.ofNat 64 (1 + l.length <<< 32 + batch.toNat <<< 48 + 4 <<< 49 + 63 <<< 56), tasks := l, bufs := [] }

/-- A state in which a page holds the map of a tile without outputs, mapped for tenant 0 under TILE_ID 5. -/
def sTile : State :=
  { sRun with
    pages := [(0, { Page.init with kind := 1 })]
    tiles := [{ tenant := 0, tileId := 5, page := 0, ofs := 0, notBefore := none }]
    mem := cellsFrom (hbmKey 0 0) (List.replicate 256 [0, 0x0C]).flatten }


/-- A command waiting in a ring. -/
def waiting (b : List Byte) : Accepted := { bytes := b, session := none, headAt := 0, relay := none, direct := false, bulk := [] }

/-- A lit cartridge 0 with every laser on and own feeds. -/
def litCart : Cart :=
  { Cart.init with
    present := true, intlk := true, returnOk := true, lit := true, powered := true
    lasers := (List.range 64).map (fun n => (n, .on)) }
def sLit : State := { (sRun.modCart 0 (fun _ => litCart)).modCart 1 (fun _ => litCart) with feed := (List.range 128).map (fun n => (n, 0)) }

def aSource (k : SrcKind) : TickSource :=
  { kind := k, port := 3, dst := false, qualified := false, run := 0, since := 0, last := none, zero := none }

/-- The running module at a clock, with these sources listed. -/
def sAt (clock : Nat) (l : List TickSource) : State :=
  { sRun with time := { TimeState.init with clock := clock, sources := l } }

/-- The running module in a domain, as its manager or as a worker of member 7. -/
def sDomain (manager : Bool) : State :=
  ((secure { sRun with mbx := { sRun.mbx with manager := manager } }).setPartner (if manager then 2 else 8) anEntry).modDomain (fun d => { d with
    joined := true, index := if manager then 7 else 1, managerIndex := 7
    members := [{ index := if manager then 1 else 7, cluster := 0, ca := 16, fp := 0 }] })

/-- Port 3's partners have their keys. -/
def saked (s : State) : State := { s with trust := { s.trust with cas := [(3, { Ca.init with sak := some [] })] } }

/-- MACsec of a frame under CA 16. -/
def under16 : Protection := { ca := some 16 }

/-- A PTP frame of port 3, and the master that it follows. -/
def aPtp : PtpHdr := { prot := { ca := some 3 } }
def aMaster : PtpAnnounce := { clockClass := 6, accuracy := 0x21, variance := 0x4E5D, priority2 := 128, identity := 1, steps := 1 }
def ptpPort (x : Port) : Port := { x with up := true, synceLock := true, dnu := false, master := some aMaster }

def anExec (r : Ring) (c : HostCmd) : Exec := { hdr := hd r [], cmd := c, since := 0, left := 0, relay := none }

def anySilicon : Silicon :=
  { ok := true, key1 := [], key2 := [], sig := [], plain := none, count := 0, lowest := 0, codes := [] }

/-- LOCK_ACQUIRE of loop 0, which is locked, in execution. -/
def sAcquire : State :=
  (sRun.modRing 1 (fun y => { y with exec := some (anExec .ctl (.lockAcquire { first := 0, count := 1 })) })).modLoop 0
    (fun x => { x with phase := .locked })

/-- The module waits for its firmware, with its test port free. -/
def sTest : State := { sRun with mbx := { sRun.mbx with fw := .waitImage } }

def aPageLoad : PageLoadParams := { page := 5, kind := 1, source := 2, pageOfs := 0, length := 64, partner := 257 }

/-- A descriptor of a kind, of local core 0, in its tick from 0 to a deadline, without predecessors; other fields in `more`. -/
def task (kind deadline more : Nat) : BitVec 512 :=
  BitVec.ofNat 512 (kind <<< 16 + deadline <<< 96 + 0xFFFFFFFFFFFFFFFF <<< 128 + more)

def aRun (ph : RunPhase) : TaskRun := { TaskRun.init with phase := ph, begun := true }

/-- Cluster 0 runs a plan of one task, which stands in a phase. -/
def sTask (batch : Bool) (d : BitVec 512) (ph : RunPhase) : State :=
  sRun.modCluster 0 (fun x => { x with active := some (planOf batch [d]), runs := [(0, aRun ph)] })

/-- The same with the task not yet dispatched. -/
def sReady (batch : Bool) (d : BitVec 512) : State :=
  sRun.modCluster 0 (fun x => { x with active := some (planOf batch [d]) })

/-- A fill of 64 bytes from page 0 into cluster memory. -/
def fill : BitVec 512 := task 6 1000 (0x100000 <<< 224 + 64 <<< 256 + 1 <<< 448)

/-- A VECTOR ADD of one tile, in core 0's scratch. -/
def vecAdd : BitVec 512 := task 4 1000 (4128 <<< 256 + 0x8000 <<< 224 + 1 <<< 336 + 0x4000 <<< 384 + 1 <<< 448)

/-- A CORE_HAUL of one row of 8 bytes. -/
def rowHaul : BitVec 512 := task 5 1000 (0x100000 <<< 224 + 8 <<< 256 + 1 <<< 384)

/-- A ROUTER_SEND of 64 bytes to cluster 1 in any phase. -/
def send : BitVec 512 := task 7 1000 (0x100000 <<< 192 + 0x100000 <<< 224 + 64 <<< 256 + (1 + 0x1F <<< 8) <<< 336)

/-- An EGRESS of 64 bytes to partner 257. -/
def egress : BitVec 512 := task 9 1000 (0x100000 <<< 192 + 64 <<< 256 + 257 <<< 352)

/-- An INGRESS_WAIT for symbol 3 of partner 257. -/
def ingress : BitVec 512 := task 8 0 (257 <<< 352 + 3 <<< 384)

/-- A SLAB_MVM of one row on slab 0, drained. -/
def slabMvm : BitVec 512 := task 1 1000 (1 <<< 40 + 64 <<< 336 + 1 <<< 384 + 0x2000 <<< 224 + 4128 <<< 256)

def optMvm : BitVec 512 := task 2 1000 (0x100000 <<< 192 + 0x102000 <<< 224 + 4128 <<< 256 + (1 <<< 4 + 1 <<< 8) <<< 336 + 1 <<< 384)

/-- A fill into a buffer of two copies, its current pass done, its next pass free. -/
def sAhead : State :=
  { sRun.modCluster 0 (fun x => { x with
      active := some { planOf true [fill] with bufs := [BitVec.ofNat 128 (0x100000 + 64 <<< 32 + 1 <<< 64 + 2 <<< 72 + 0xFF <<< 80)] }
      runs := [(0, aRun .done)] }) with
    pages := [(0, { Page.init with kind := 2 })] }

/-- Cluster 1 receives from cluster 0 on its receiver 0, locked. -/
def routed (s : State) : State :=
  ((s.modFabric (fun f => { f with phaseMap := [{ start := 0, entries := zs 4 ++ [0x80] ++ zs 251 }] })).modCluster 1 (fun x =>
    { x with locked := 1 }))

/-- A slab in service with a map that has no outputs. -/
def readySlab : Slab := { Slab.init with dress := .ready, bound := true, master := some (0, 0) }

def aTag : Tag := { epoch := 5, spoiled := true }

/-- Loop 7 in a phase. -/
def sLoop (f : Loop → Loop) : State := sRun.modLoop 7 f

def quiet : Measurements :=
  { temps := [], counts := [], hbm := [], carts := [], power := 500, current := 100, voltage := 4800, lockin := [], outWindow := [],
    linePower := [], underruns := [] }

/-- Port 0 is up. -/
def onPort0 (s : State) : State := s.modPort 0 (fun x => { x with up := true })

def aHdr (partner seq : Nat) : JoryarHdr :=
  { last := true, srcModule := 1, dstModule := 7, dstPartner := BitVec.ofNat 17 partner, seq := BitVec.ofNat 32 seq, offset := 4032, tag := 3, ack := 0
    prot := under16 }

/-- A FRONTHAUL partner of one stream of 273 PRBs, ACTIVE or SHED. -/
def frontEntry (state : Nat) : BitVec 512 :=
  BitVec.ofNat 512 (state + 16 <<< 192 + 0x100000 <<< 224 + 1 <<< 272 + 1 <<< 280 + 273 <<< 304 + 0x3C00 <<< 352)

def aPrb : Prb := { exponent := 15, iq := List.replicate 24 0x100 }
def aSection (prb : Nat) : Section :=
  { mac := 0, vlan := none, eaxc := 0, frameId := 0, subframe := 0, slot := 0, symbol := 13, compHdr := none, startPrb := prb, prbs := [aPrb]
    prot := under16 }

/-- The manager waits for the completion of a command that it sent to worker 1. -/
def aRelay : Relay := { worker := 1, tag := 3, hdr := none, cmd := zs 64, data := [], cpl := none, since := 0, limit := 10000000 }
def sManager : State :=
  onPort0 ((sDomain true).modDomain (fun d => { d with relays := [aRelay] }))
def sWorker : State := onPort0 (sDomain false)

/-- A frame that partner 131,071 has not acknowledged. -/
def keptFrame : TxFrame :=
  { port := 0, kind := 0, type := 1, partner := 131071, tag := 0, seq := 0, offset := 0, last := true, payload := [] }

/-- Its size, whatever MACsec adds, is a frame's. -/
theorem keptFrame_fits (l : List TxFrame) (h : l = [keptFrame]) :
    ∀ f ∈ l, f.kind = 0 ∧ f.partner = (131071 : PartnerId).val ∧ f.size ≤ frameMax := by
  subst h
  intro f hf
  rw [List.mem_singleton.mp hf]
  have := Nat.mod_lt (Config.frameOverhead 0) (show 0 < 37 by decide)
  refine ⟨rfl, rfl, ?_⟩
  show max 64 (0 + 18 + Config.frameOverhead 0 % 37) ≤ 9216
  omega

/-- A packet on its way from cluster 0 to cluster 1, which listens. -/
def aPacket (addr n : Nat) : Packet := { dest := 1, rx := 0, addr := addr, src := 0, tag := 0, data := zs n }
def sPacket (addr n : Nat) : State :=
  (routed sRun).modFabric (fun f => { f with packets := [aPacket addr n] })

/-- Tenant 0 re-encrypts page 5 from generation 1 to generation 2. -/
def sRekey (n : Nat) : State :=
  { sRun with
    trust := { sRun.trust with tenants := [(0, { openTenant with genCur := 2, genOld := some 1, rekey := [(0, (5, n))] })] }
    pages := [(5, { Page.init with kind := 2, keyGen := 1 })] }

def aStrip (running : Bool) : Strip := { target := 0, notBefore := 1000, running := running, startedAt := 0, delete := false }

/-! ## Every hypothesis is met somewhere -/

theorem test_StepRunsFrontCommand_1 :
    ∃ (s : State),
      s.pending = [] :=
  ⟨sRun,
    by decide +kernel⟩

theorem test_WellFormedCommandsComplete_0 :
    ∃ (i : Instr),
      i.wellFormed = true :=
  ⟨.mkaFrame 0 5 (some (zs 32)),
    by decide +kernel⟩

theorem test_WellFormedCommandsComplete_1 :
    ∃ (i : Instr),
      i.wellFormed = false :=
  ⟨.mkaFrame 0 5 (some (zs 31)),
    by decide +kernel⟩

theorem test_RefusedCommandHasNoEffect_0 :
    ∃ (s : State) (dt : Nat) (h : CmdHdr) (c : HostCmd) (e : Nat × Nat),
      (commandRow dt h c).wellFormed = true ∧
      s.hostLink = true ∧
      (s.ring (ringNo h.ring)).free ≠ 0 ∧
      s.sessionOpen h = true ∧
      s.idleRing (ringNo h.ring) = true ∧
      s.mbx.boutFifo.length ≤ 65536 ∧
      (s.taken dt h).refuses false h c = some e ∧
      e.1 ≠ 0 ∧
      e.1 ≠ 10 :=
  ⟨sRun, 0, { hd .ctl [] with session := none }, .slabPin 0, (4, 0),
    by decide +kernel⟩

theorem test_IdentityAndSessionCommands_0 :
    ∃ (s : State) (dt : Nat) (h : CmdHdr) (f : State) (i : Identity),
      f = s.taken dt h ∧
      Ready s dt h .devIdentify ∧
      f.trust.identity = some i ∧
      f.fits h.session false 416 = true :=
  ⟨sBoot, 0, hd .blk [], _, anIdentity, rfl,
    by unfold Ready; decide +kernel⟩

theorem test_IdentityAndSessionCommands_1 :
    ∃ (s : State) (dt : Nat) (h : CmdHdr) (f : State),
      f = s.taken dt h ∧
      Ready s dt h .devIdentify ∧
      f.trust.identity = none ∧
      h.bulk.length = 3136 ∧
      leAt h.bulk 0 2 = 1 ∧
      leAt h.bulk 4 4 = 3136 :=
  ⟨{ sBoot with trust := { sBoot.trust with identity := none } }, 0, hd .blk ([1, 0, 0, 0, 0x40, 0x0C, 0, 0] ++ zs 3128),
    _, rfl,
    by unfold Ready; decide +kernel⟩

theorem test_IdentityAndSessionCommands_2 :
    ∃ (s : State) (dt : Nat) (h : CmdHdr) (f : State) (p : _),
      f = s.taken dt h ∧
      Ready s dt h (.devAttest p) ∧
      f.trust.ak.isSome = true ∧
      (f.tenant p.tenant.toNat).exist = true :=
  ⟨sBoot, 0, hd .blk [], _, { tenant := 0, nonce := 0 }, rfl,
    by unfold Ready; decide +kernel⟩

theorem test_IdentityAndSessionCommands_3 :
    ∃ (s : State) (dt : Nat) (h : CmdHdr) (f : State) (t : _),
      f = s.taken dt h ∧
      Ready s dt h (.devSessionOpen t) ∧
      h.bulk.length = (if t = 0 then 384 else 768) ∧
      f.trust.xk.isSome = true ∧
      (f.tenant t.toNat).session = none ∧
      (f.tenant t.toNat).exist = true :=
  ⟨{ sBoot with trust := { sBoot.trust with tenants := [] } }, 0, { hd .blk (zs 384) with session := none }, _, 0, rfl,
    by unfold Ready; decide +kernel⟩

theorem test_IdentityAndSessionCommands_4 :
    ∃ (s : State) (dt : Nat) (h : CmdHdr),
      Ready s dt h .devSessionClose :=
  ⟨sRun, 0, hd .ctl [],
    by unfold Ready; decide +kernel⟩

theorem test_IdentityAndSessionCommands_5 :
    ∃ (s : State) (dt : Nat) (h : CmdHdr) (t : _),
      Ready s dt h .devSessionClose ∧
      h.session = some t :=
  ⟨sRun, 0, hd .ctl [], 0,
    by unfold Ready; decide +kernel⟩

theorem test_IdentityAndSessionCommands_6 :
    ∃ (s : State) (dt : Nat) (h : CmdHdr),
      Ready s dt h .devReset :=
  ⟨sRun, 0, hd .ctl [],
    by unfold Ready; decide +kernel⟩

theorem test_TickCommands_0 :
    ∃ (s : State) (dt : Nat) (h : CmdHdr) (f : State) (p : _),
      f = s.taken dt h ∧
      Ready s dt h (.tickSourceSet p) ∧
      p.period.toNat ≤ 4 ∧
      (p.ptpDomain = 0 ∨ (24 ≤ p.ptpDomain.toNat ∧ p.ptpDomain.toNat ≤ 43)) ∧
      p.frameOffset.toNat ≤ 9999999 ∧
      badSource f.mbx.manager (srcsOf p) = none ∧
      (p.period.toNat = f.time.period ∨ ((∀ c, c < 64 → (f.cluster c).busyRt = false) ∧ f.fronthaulActive = false)) :=
  ⟨sRun, 0, hd .ctl [], _,
    { period := 4, nsrc := 1, ptpDomain := 43, frameOffset := 9999999, src0 := 1, src1 := 0, src2 := 0 }, rfl,
    by unfold Ready; decide +kernel⟩

theorem test_TickCommands_1 :
    ∃ (s : State) (dt : Nat) (h : CmdHdr) (f : State) (p : _) (plan : _),
      f = s.taken dt h ∧
      plan = { header := p.header, tasks := takeDescs (hdrCount p.header) h.bulk, bufs := takeBufs p.bufCount.toNat (h.bulk.drop (64 * hdrCount p.header)) } ∧
      Ready s dt h (.tickPlanLoad p) ∧
      hdrCount p.header ≤ 4096 ∧
      p.bufCount.toNat ≤ 64 ∧
      h.bulk.length = 64 * hdrCount p.header + 16 * p.bufCount.toNat ∧
      planReserved plan.tasks plan.bufs = none ∧
      (∀ c ∈ checkedClusters p, planLengths c (f.loadTop p) plan = none ∧ planRules c plan = none) ∧
      planCapOk p = true ∧
      (∀ c ∈ maskBits p.clusters, capAfter p (f.cluster c) = (f.cluster c).planCap ∨ (f.cluster c).busy = false) ∧
      (∀ c ∈ maskBits p.clusters, hdrCount p.header ≤ capAfter p (f.cluster c) ∧ (f.cluster c).armed = none ∧ f.banksUp c 0xFF 0x100000 (64 * hdrCount p.header) = true) :=
  ⟨sRun, 0, hd .blk [], _, { clusters := 0x8000000000000001, header := emptyPlan.header, bufCount := 0, planCap := 64 }, _,
    rfl, rfl,
    by unfold Ready; decide +kernel⟩

theorem test_TickCommands_2 :
    ∃ (s : State) (dt : Nat) (h : CmdHdr) (f : State) (p : _) (t : _),
      f = s.taken dt h ∧
      Ready s dt h (.tickPlanArm p) ∧
      (p.named = true → p.tick.toNat < ticksPerFrame f.time.period) ∧
      (∀ c ∈ maskBits p.clusters, f.armCheck c = none) ∧
      f.armTarget p = some t :=
  ⟨{ sRun.modCluster 0 (fun x => { x with shadow := some emptyPlan }) with time := { TimeState.init with srcState := .locked } },
    0, hd .urg [], _, { clusters := 1, named := false, tick := 0, frame := 0, armGen := 0 }, .next 5000 0, rfl,
    by unfold Ready; decide +kernel⟩

theorem test_TickCommands_3 :
    ∃ (s : State) (dt : Nat) (h : CmdHdr) (m : _),
      Ready s dt h (.tickPlanDisarm m) :=
  ⟨sRun.modCluster 0 (fun x => { x with active := some emptyPlan }), 0, hd .urg [], 1,
    by unfold Ready; decide +kernel⟩

theorem test_TickCommands_4 :
    ∃ (s : State) (dt : Nat) (h : CmdHdr),
      Ready s dt h .tickStatus :=
  ⟨sRun, 0, hd .dia [],
    by unfold Ready; decide +kernel⟩

theorem test_PartnerCommands_0 :
    ∃ (s : State) (dt : Nat) (h : CmdHdr) (f : State) (x : Entry) (i : _),
      f = s.taken dt h ∧
      x = bytesToBv 512 h.bulk ∧
      Ready s dt h .partnerAttach ∧
      h.bulk.length = 64 ∧
      f.freeIndex = some i ∧
      f.entryCheck h i x true = none :=
  ⟨sRun.modPort 0 (fun x => { x with up := true }), 0, hd .blk (toLe 64 anEntry.toNat), _, _, 257, rfl, rfl,
    by unfold Ready; decide +kernel⟩

theorem test_PartnerCommands_1 :
    ∃ (s : State) (dt : Nat) (h : CmdHdr) (f : State) (x : Entry) (p : _),
      f = s.taken dt h ∧
      x = bytesToBv 512 h.bulk ∧
      Ready s dt h (.partnerModify p) ∧
      h.bulk.length = 64 ∧
      257 ≤ p.index.toNat ∧
      peState (f.partner p.index.toNat) ≠ psFree ∧
      peKind x = peKind (f.partner p.index.toNat) ∧
      peTenant x = peTenant (f.partner p.index.toNat) ∧
      f.entryCheck h p.index.toNat x (peState (f.partner p.index.toNat) == psActive || p.resume) = none :=
  ⟨sRun.setPartner 257 anEntry, 0, hd .blk (toLe 64 anEntry.toNat), _, _, { index := 257, resume := true }, rfl, rfl,
    by unfold Ready; decide +kernel⟩

theorem test_PartnerCommands_2 :
    ∃ (s : State) (dt : Nat) (h : CmdHdr) (f : State) (i : _),
      f = s.taken dt h ∧
      Ready s dt h (.partnerDetach i) ∧
      257 ≤ i.toNat ∧
      peState (f.partner i.toNat) ≠ psFree :=
  ⟨sRun.setPartner 131071 anEntry, 0, hd .ctl [], _, 131071, rfl,
    by unfold Ready; decide +kernel⟩

theorem test_PartnerCommands_3 :
    ∃ (s : State) (dt : Nat) (h : CmdHdr) (f : State) (n : _),
      f = s.taken dt h ∧
      Ready s dt h (.phaseMapLoad n) ∧
      0 < n.toNat ∧
      n.toNat ≤ 16 ∧
      h.bulk.length = 264 * n.toNat ∧
      ((phasesOf n.toNat h.bulk).head?.map (fun p => p.start)) = some 0 ∧
      phasesAscend (phasesOf n.toNat h.bulk) = true ∧
      (∀ p ∈ phasesOf n.toNat h.bulk, p.start < periodNs f.time.period ∧ p.bad = false) :=
  ⟨sRun, 0, hd .blk (zs 264), _, 1, rfl,
    by unfold Ready; decide +kernel⟩

theorem test_ModelAndSlabCommands_0 :
    ∃ (s : State) (dt : Nat) (h : CmdHdr) (f : State) (n : _) (cs : _) (rs : _),
      f = s.taken dt h ∧
      n = leAt h.bulk 4 2 % 2048 ∧
      cs = maskBits (BitVec.ofNat 64 (leAt h.bulk 8 8)) ∧
      rs = scaleRecords n (h.bulk.drop 32) ∧
      Ready s dt h .modelDeclare ∧
      n ≤ 1024 ∧
      h.bulk.length = 32 + 16 * n ∧
      leAt h.bulk 0 2 ≠ 0xFFFF ∧
      (∀ r ∈ rs, scaleFault r = none) ∧
      (∀ c ∈ cs, (f.cluster c).scaleCount = n ∨ (f.cluster c).busy = false) ∧
      (rs.filter (fun r => decide (leAt r 4 1 % 32 ≠ 0))).length ≤ 64 ∧
      (∀ c ∈ cs, f.banksUp c 0xFF 0x100000 (16 * n) = true) :=
  ⟨sRun, 0, hd .blk (zs 8 ++ [1] ++ zs 23), _, _, _, _, rfl, rfl, rfl, rfl,
    by unfold Ready; decide +kernel⟩

theorem test_ModelAndSlabCommands_1 :
    ∃ (s : State) (dt : Nat) (h : CmdHdr) (f : State) (p : _) (rs : _),
      f = s.taken dt h ∧
      rs = tileRecords p.count.toNat h.bulk ∧
      Ready s dt h (.modelMapPages p) ∧
      0 < p.count.toNat ∧
      p.count.toNat ≤ 4096 ∧
      h.bulk.length = 16 * p.count.toNat ∧
      (∀ r ∈ rs, trOfs r + 102400 ≤ 2 ^ 23 ∧ trOfs r % 64 = 0 ∧ trPage r < 98304 ∧ f.managerPage (trPage r) = false ∧ (f.page (trPage r)).kind = 1 ∧ (f.page (trPage r)).tenant = sessionTenant h) :=
  ⟨sTile, 0, hd .blk (zs 16), _, { model := 0, count := 1 }, _, rfl, rfl,
    by unfold Ready; decide +kernel⟩

theorem test_ModelAndSlabCommands_2 :
    ∃ (s : State) (dt : Nat) (h : CmdHdr) (f : State) (p : _) (loc : _),
      f = s.taken dt h ∧
      Ready s dt h (.slabDress p) ∧
      (f.slab p.slab.toNat).pinned = false ∧
      f.tileAt (f.cluster (slabCluster p.slab.toNat)).tenant p.tileId = some loc ∧
      f.hbmOn = true ∧
      mapFault (f.copyMap loc.1 loc.2) = none :=
  ⟨sTile, 0, hd .ctl [], _, { slab := 3, seamThresh := 0, redressAge := 0, tileId := 5, model := 0 }, (0, 0), rfl,
    by unfold Ready; decide +kernel⟩

theorem test_ModelAndSlabCommands_3 :
    ∃ (s : State) (dt : Nat) (h : CmdHdr) (f : State) (k : _),
      f = s.taken dt h ∧
      Ready s dt h (.slabRelease k) ∧
      (f.slab k.toNat).recon = [] :=
  ⟨sRun.modSlab 3 (fun x => { x with pinned := true }), 0, hd .ctl [], _, 3, rfl,
    by unfold Ready; decide +kernel⟩

theorem test_ModelAndSlabCommands_4 :
    ∃ (s : State) (dt : Nat) (h : CmdHdr) (f : State) (k : _) (j : _) (js : _),
      f = s.taken dt h ∧
      Ready s dt h (.slabRelease k) ∧
      (f.slab k.toNat).pinned = true ∧
      (f.slab k.toNat).recon = j :: js :=
  ⟨sRun.modSlab 3 (fun x => { x with pinned := true, bound := true, dress := .ready, recon := [5, 40] }), 0, hd .ctl [], _,
    3, 5, [40], rfl,
    by unfold Ready; decide +kernel⟩

theorem test_SlabPinIsChecked_0 :
    ∃ (s : State) (dt : Nat) (h : CmdHdr) (k : BitVec 14) (f : State),
      f = s.taken dt h ∧
      Ready s dt h (.slabPin k) ∧
      (∃ i, i < 4 ∧ k.toNat / 4 * 4 + i ≠ k.toNat ∧ (f.slab (k.toNat / 4 * 4 + i)).pinned = true) ∧
      (f.slab k.toNat).dress = .ready ∧
      (f.slab k.toNat).bound = true :=
  ⟨(sRun.modSlab 16383 (fun x => { x with dress := .ready, bound := true })).modSlab 16380 (fun x => { x with pinned := true }),
    0, hd .ctl [], 16383, _, rfl,
    by unfold Ready; decide +kernel⟩

theorem test_SlabPinIsChecked_1 :
    ∃ (s : State) (dt : Nat) (h : CmdHdr) (k : BitVec 14) (f : State),
      f = s.taken dt h ∧
      Ready s dt h (.slabPin k) ∧
      (∀ i, i < 4 → k.toNat / 4 * 4 + i ≠ k.toNat → (f.slab (k.toNat / 4 * 4 + i)).pinned = false) ∧
      ((f.slab k.toNat).dress ≠ .ready ∨ (f.slab k.toNat).bound = false) :=
  ⟨sRun.modSlab 16379 (fun x => { x with pinned := true }), 0, hd .ctl [], 16380, _, rfl,
    by unfold Ready; decide +kernel⟩

theorem test_SlabPinIsChecked_2 :
    ∃ (s : State) (dt : Nat) (h : CmdHdr) (k : BitVec 14) (f : State),
      f = s.taken dt h ∧
      Ready s dt h (.slabPin k) ∧
      (∀ i, i < 4 → k.toNat / 4 * 4 + i ≠ k.toNat → (f.slab (k.toNat / 4 * 4 + i)).pinned = false) ∧
      (f.slab k.toNat).dress = .ready ∧
      (f.slab k.toNat).bound = true :=
  ⟨(sRun.modSlab 16383 (fun x => { x with dress := .ready, bound := true })), 0, hd .ctl [], 16383, _, rfl,
    by unfold Ready; decide +kernel⟩

theorem test_SlabPinIsChecked_3 :
    ∃ (s : State) (dt : Nat) (h : CmdHdr) (k : BitVec 14),
      Ready s dt h (.slabPin k) :=
  ⟨(sRun.modSlab 16383 (fun x => { x with dress := .ready, bound := true })), 0, hd .ctl [], 16383,
    by unfold Ready; decide +kernel⟩

theorem test_MemoryCommands_0 :
    ∃ (s : State) (dt : Nat) (h : CmdHdr) (f : State) (p : _) (l : _),
      f = s.taken dt h ∧
      l = namedBanks p.cluster.toNat p.mem.toNat p.mask ∧
      Ready s dt h (.bankAssign p) ∧
      bankNames p.mem.toNat p.mask = none ∧
      ownerRefused p.mem.toNat p.owner.toNat p.ownerCore.toNat = false ∧
      (∀ k ∈ l, (f.bank k).owner ≠ 5 ∧ (f.bank k).pending = none) :=
  ⟨sRun, 0, hd .ctl [], _, { cluster := 63, mem := 0xFF, mask := 0x80000001, owner := 4, ownerCore := 0 }, _, rfl, rfl,
    by unfold Ready; decide +kernel⟩

theorem test_MemoryCommands_1 :
    ∃ (s : State) (dt : Nat) (h : CmdHdr) (f : State) (p : _) (l : _),
      f = s.taken dt h ∧
      l = namedBanks p.cluster.toNat p.mem.toNat p.mask ∧
      Ready s dt h (.bankPower p) ∧
      bankNames p.mem.toNat p.mask = none ∧
      p.power ≠ 3 ∧
      (∀ k ∈ l, (f.bank k).owner ≠ 5 ∧ (f.bank k).pending = none) :=
  ⟨sRun, 0, hd .ctl [], _, { cluster := 0, mem := 63, mask := 0xFF, power := 2 }, _, rfl, rfl,
    by unfold Ready; decide +kernel⟩

theorem test_MemoryCommands_2 :
    ∃ (s : State) (dt : Nat) (h : CmdHdr) (f : State) (p : _),
      f = s.taken dt h ∧
      Ready s dt h (.pageLoad p) ∧
      p.pageOfs.toNat + p.length.toNat ≤ 2 ^ 23 ∧
      (p.source = 1 → h.bulk.length = p.length.toNat) ∧
      p.page.toNat < 98304 ∧
      (p.kind = 1 ∨ p.kind = 2) ∧
      p.source ≠ 3 ∧
      p.pageOfs.toNat % 64 = 0 ∧
      f.managerPage p.page.toNat = false ∧
      (f.pageKind p.page.toNat = 0 ∨ f.pageKind p.page.toNat = p.kind.toNat) ∧
      f.hbmOn = true ∧
      0 < p.length.toNat :=
  ⟨sRun, 0, hd .blk [1, 2, 3, 4], _, { page := 98303, kind := 1, source := 1, pageOfs := 0, length := 4, partner := 0 },
    rfl,
    by unfold Ready; decide +kernel⟩

theorem test_MemoryCommands_3 :
    ∃ (s : State) (dt : Nat) (h : CmdHdr) (f : State) (p : _),
      f = s.taken dt h ∧
      Ready s dt h (.pageRelease p) ∧
      p.page.toNat + p.count.toNat ≤ 98304 ∧
      (∀ x ∈ f.slabs, x.2.bound = true → ∀ m, x.2.master = some m → ¬ (p.page.toNat ≤ m.1 ∧ m.1 < p.page.toNat + p.count.toNat)) :=
  ⟨sTile, 0, hd .ctl [], _, { page := 0, count := 98304 }, rfl,
    by
  refine ⟨?_, by decide, ?_⟩
  · unfold Ready; decide +kernel
  · intro x hx; exact absurd hx List.not_mem_nil⟩

theorem test_TenantCommands_0 :
    ∃ (s : State) (dt : Nat) (h : CmdHdr) (f : State) (t : _),
      f = s.taken dt h ∧
      Ready s dt h (.tenantCreate t) ∧
      h.bulk.length = 384 ∧
      t ≠ 0 ∧
      (f.tenant t.toNat).exist = false :=
  ⟨sRun, 0, hd .blk (zs 384), _, 15, rfl,
    by unfold Ready; decide +kernel⟩

theorem test_TenantCommands_1 :
    ∃ (s : State) (dt : Nat) (h : CmdHdr) (f : State) (m : _) (t : _),
      f = s.taken dt h ∧
      Ready s dt h (.tenantAssign m t) ∧
      (f.tenant t.toNat).exist = true ∧
      (f.tenant t.toNat).deleting = false ∧
      (∀ c ∈ maskBits m, (f.cluster c).strip = none) :=
  ⟨sRun, 0, hd .ctl [], _, 3, 0, rfl,
    by unfold Ready; decide +kernel⟩

theorem test_TenantCommands_2 :
    ∃ (s : State) (dt : Nat) (h : CmdHdr) (f : State) (p : _) (cs : _),
      f = s.taken dt h ∧
      cs = (maskBits p.clusters).filter (fun c => ((List.range 64).filter (fun c => decide ((f.cluster c).tenant = p.tenant.toNat))).contains c) ∧
      Ready s dt h (.tenantStrip p) ∧
      p.delete = false ∧
      (f.tenant p.tenant.toNat).exist = true ∧
      (∀ c ∈ cs, (f.cluster c).strip = none) :=
  ⟨sRun.modCluster 0 (fun x => { x with tenant := 1 }), 0, hd .ctl [], _, { clusters := 3, tenant := 0, delete := false },
    _, rfl, rfl,
    by unfold Ready; decide +kernel⟩

theorem test_TenantCommands_3 :
    ∃ (s : State) (dt : Nat) (h : CmdHdr) (f : State) (t : _),
      f = s.taken dt h ∧
      Ready s dt h (.keyRotate t) ∧
      (f.tenant t.toNat).genOld = none ∧
      (f.tenant t.toNat).rotate = none :=
  ⟨sRun, 0, hd .ctl [], _, 0, rfl,
    by unfold Ready; decide +kernel⟩

theorem test_TenantCommands_4 :
    ∃ (s : State) (dt : Nat) (h : CmdHdr) (f : State) (p : _),
      f = s.taken dt h ∧
      Ready s dt h (.keyImport p) ∧
      0 < p.cknLen.toNat ∧
      p.cknLen.toNat ≤ 32 ∧
      h.bulk.length = 32 + p.cknLen.toNat ∧
      (p.ca.toNat < 16 → sessionTenant h = 0) ∧
      ((f.ca p.ca.toNat).cak = none ∨ (f.ca p.ca.toNat).tenant = sessionTenant h) :=
  ⟨sRun, 0, hd .blk (zs 64), _, { ca := 0, cknLen := 32 }, rfl,
    by unfold Ready; decide +kernel⟩

theorem test_LightPowerAndConverterCommands_0 :
    ∃ (s : State) (dt : Nat) (h : CmdHdr),
      Ready s dt h .lightStatus :=
  ⟨sRun, 0, hd .dia [],
    by unfold Ready; decide +kernel⟩

theorem test_LightPowerAndConverterCommands_1 :
    ∃ (s : State) (dt : Nat) (h : CmdHdr) (f : State) (p : _) (k : _) (t : _),
      f = s.taken dt h ∧
      k = (if p.cart then 1 else 0) ∧
      t = f.time.occurrence p.frame.toNat p.tick.toNat f.timeNat ∧
      Ready s dt h (.lineAssignSpare p) ∧
      p.policy ≠ 3 ∧
      (p.switch = true → p.tick.toNat < ticksPerFrame f.time.period ∧ (f.cart k).waits p.line.toNat = true ∧ f.timeNat + 5000 ≤ t ∧ t ≤ f.timeNat + 5120000000) :=
  ⟨sRun.modCart 0 (fun x => { x with relit := [(5, true)] }), 0, hd .urg [], _,
    { cart := false, switch := true, policy := 1, line := 5, frame := 1, tick := 9 }, _, _, rfl, rfl, rfl,
    by unfold Ready; decide +kernel⟩

theorem test_LightPowerAndConverterCommands_2 :
    ∃ (s : State) (dt : Nat) (h : CmdHdr) (f : State) (p : _),
      f = s.taken dt h ∧
      Ready s dt h (.lockAcquire p) ∧
      p.first.toNat + p.count.toNat ≤ 5120 ∧
      0 < p.count.toNat ∧
      (∀ k ∈ loopRange p, f.loopRowState k ≠ some .service ∧ (f.loop k).frozen = false) ∧
      f.lasersOn = true :=
  ⟨sRun.modCart 0 (fun x => { x with lit := true, powered := true }), 0, hd .dia [], _, { first := 5119, count := 1 }, rfl,
    by unfold Ready; decide +kernel⟩

theorem test_LightPowerAndConverterCommands_3 :
    ∃ (s : State) (dt : Nat) (h : CmdHdr) (f : State) (e : _),
      f = s.taken dt h ∧
      Ready s dt h (.engineCalibrate e) ∧
      (f.cluster e.toNat).busy = false ∧
      f.clusterDetours e.toNat = false ∧
      f.lasersOn = true ∧
      f.power.pstate ≠ .ps2 :=
  ⟨sRun.modCart 0 (fun x => { x with lit := true, powered := true }), 0, hd .dia [], _, 63, rfl,
    by unfold Ready; decide +kernel⟩

theorem test_LightPowerAndConverterCommands_4 :
    ∃ (s : State) (dt : Nat) (h : CmdHdr) (f : State) (st : _),
      f = s.taken dt h ∧
      Ready s dt h (.powerStateSet st) ∧
      st.toNat ≤ 5 ∧
      (st ≠ 0 → f.power.stop = false) ∧
      (st = 0 → f.released = true) :=
  ⟨sRun, 0, hd .ctl [], _, 5, rfl,
    by unfold Ready; decide +kernel⟩

theorem test_LightPowerAndConverterCommands_5 :
    ∃ (s : State) (dt : Nat) (h : CmdHdr) (f : State) (p : _),
      f = s.taken dt h ∧
      Ready s dt h (.monconvConfigure p) ∧
      f.convertersOn = true :=
  ⟨sRun, 0, hd .ctl [], _, { mc := 3, refmode := false, continuous := true, scanMask := 1 }, rfl,
    by unfold Ready; decide +kernel⟩

theorem test_LightPowerAndConverterCommands_6 :
    ∃ (s : State) (dt : Nat) (h : CmdHdr) (f : State) (p : _),
      f = s.taken dt h ∧
      Ready s dt h (.monconvInject p) ∧
      f.convertersOn = true ∧
      (f.mc p.mc.toNat).inj.length < 4 :=
  ⟨sRun, 0, hd .ctl [], _, { mc := 3, channel := 31 }, rfl,
    by unfold Ready; decide +kernel⟩

theorem test_ControlCommands_0 :
    ∃ (s : State) (dt : Nat) (h : CmdHdr) (f : State) (p : _) (n : _),
      f = s.taken dt h ∧
      Ready s dt h (.loopWrite p) ∧
      p.loop.toNat ≤ 5128 ∧
      loopField p.offset.toNat = some n ∧
      p.value.toNat < 2 ^ n ∧
      (p.offset.toNat = 0x1A → p.value.toNat / 4 ≠ 3) ∧
      (isLock p.loop.toNat = false → 0x18 ≤ p.offset.toNat → p.value.toNat = 0) ∧
      coBad (coPut (f.loop p.loop.toNat).base p.offset.toNat p.value.toNat) = false ∧
      (isLock p.loop.toNat = true → p.offset.toNat = 0x1A → f.toneClash f.xtActive p.loop.toNat [p.value.toNat % 4] = false ∧ (f.xcommit.contains (p.loop.toNat / 2560) = true → f.toneClash f.xtStaged p.loop.toNat [p.value.toNat % 4] = false)) :=
  ⟨sRun, 0, hd .ctl [], _, { loop := 5128, offset := 0x0E, value := 200 }, 16, rfl,
    by unfold Ready; decide +kernel⟩

theorem test_ControlCommands_1 :
    ∃ (s : State) (dt : Nat) (h : CmdHdr) (f : State) (p : _),
      f = s.taken dt h ∧
      Ready s dt h (.loopFreeze p) ∧
      p.first.toNat + p.count.toNat ≤ 5129 ∧
      (∀ k ∈ loopRange p, (f.loop k).phase ≠ .sweep) ∧
      (5120 ∈ loopRange p → 14000 ≤ f.power.tl) :=
  ⟨sRun, 0, hd .ctl [], _, { first := 5128, count := 1 }, rfl,
    by unfold Ready; decide +kernel⟩

theorem test_ControlCommands_2 :
    ∃ (s : State) (dt : Nat) (h : CmdHdr) (f : State) (p : _),
      f = s.taken dt h ∧
      Ready s dt h (.loopRelease p) ∧
      p.first.toNat + p.count.toNat ≤ 5129 ∧
      (∀ k ∈ loopRange p, (f.loop k).frozen = true → coBad (f.loop k).base = false) :=
  ⟨sRun, 0, hd .ctl [], _, { first := 0, count := 2 }, rfl,
    by unfold Ready; decide +kernel⟩

theorem test_ControlCommands_3 :
    ∃ (s : State) (dt : Nat) (h : CmdHdr) (f : State) (p : _) (u : _),
      f = s.taken dt h ∧
      u = f.stageXtalk ((if p.die then 1 else 0) * 2560 + p.first.toNat) (indexed (xtRecords p.count.toNat h.bulk)) ∧
      Ready s dt h (.xtalkLoad p) ∧
      p.first.toNat + p.count.toNat ≤ 2560 ∧
      h.bulk.length = 32 * p.count.toNat ∧
      (∀ e ∈ indexed (xtRecords p.count.toNat h.bulk), xtBad (p.first.toNat + e.1) e.2 = false) ∧
      (∀ e ∈ indexed (xtRecords p.count.toNat h.bulk), u.toneClash u.xtStaged ((if p.die then 1 else 0) * 2560 + p.first.toNat + e.1) (u.loop ((if p.die then 1 else 0) * 2560 + p.first.toNat + e.1)).tones = false) ∧
      (p.commit = true → u.stageClash (if p.die then 1 else 0) = false) :=
  ⟨sRun, 0, hd .blk [], _, { die := true, commit := true, first := 2560, count := 0 }, _, rfl, rfl,
    by unfold Ready; decide +kernel⟩

theorem test_ControlCommands_4 :
    ∃ (s : State) (dt : Nat) (h : CmdHdr) (p : _),
      Ready s dt h (.powerLimitSet p) ∧
      4000 ≤ p.pwr.toNat ∧
      p.pwr.toNat ≤ 14000 ∧
      1000 ≤ p.iin.toNat ∧
      p.iin.toNat ≤ 3600 :=
  ⟨sRun, 0, hd .ctl [], { pwr := 4000, iin := 3600 },
    by unfold Ready; decide +kernel⟩

theorem test_ControlCommands_5 :
    ∃ (s : State) (dt : Nat) (h : CmdHdr) (l : _),
      Ready s dt h (.thermalLimitsSet l) ∧
      l.length = 7 ∧
      (∀ x ∈ indexed l, x.2 = 0xFFFF ∨ (80 ≤ x.2.toNat ∧ x.2.toNat ≤ setpointMax x.1)) :=
  ⟨sRun, 0, hd .ctl [], [368, 80, 368, 368, 340, 240, 0xFFFF],
    by unfold Ready; decide +kernel⟩

theorem test_ReadCommands_0 :
    ∃ (s : State) (dt : Nat) (h : CmdHdr) (f : State) (p : _) (x : _),
      f = s.taken dt h ∧
      Ready s dt h (.stateRead p) ∧
      classOf p.cls.toNat = some x ∧
      x.bytes = false ∧
      0 < p.count.toNat ∧
      p.count.toNat * x.size ≤ 32768 ∧
      p.index.toNat + p.count.toNat ≤ x.count ∧
      (p.clear = true → x.w1c ≠ []) ∧
      (∀ j, j < p.count.toNat → f.readDenied h x p.cls.toNat (p.index.toNat + j) 0 0 = none) ∧
      f.readWait p = none ∧
      f.fits h.session true (f.readObjects p.cls.toNat p.clear p.index.toNat p.count.toNat).1.length = true ∧
      x.vis ≠ .data :=
  ⟨sRun, 0, hd .ctl [], _, { cls := 0x8001, clear := false, index := 0, count := 64, offset := 0, length := 0 },
    { count := 64, size := 16, bytes := false, vis := .module, w1c := [] }, rfl,
    by unfold Ready; decide +kernel⟩

theorem test_ReadCommands_1 :
    ∃ (s : State) (dt : Nat) (h : CmdHdr) (f : State) (p : _) (out : _),
      f = s.taken dt h ∧
      Ready s dt h (.stateList p) ∧
      p.max.toNat ≤ 8192 ∧
      (p.cls = 0xFFFF → out = classList.flatMap classRow) ∧
      (p.cls ≠ 0xFFFF → ∃ x, classOf p.cls.toNat = some x ∧ out = (f.listIndices p.cls.toNat x p.start.toNat p.max.toNat).flatMap (fun i => toLe 4 i)) ∧
      f.fits h.session true out.length = true :=
  ⟨sRun, 0, hd .dia [], _, { cls := 0xFFFF, start := 0, max := 8192 }, classList.flatMap classRow, rfl,
    by
  refine ⟨?_, by decide, fun _ => rfl, fun h => absurd rfl h, by decide +kernel⟩
  unfold Ready; decide +kernel⟩

theorem test_ReadCommands_2 :
    ∃ (s : State) (dt : Nat) (h : CmdHdr) (f : State) (m : _) (t : _) (r : _),
      f = s.taken dt h ∧
      t = sessionTenant h ∧
      r = takeRecords t m.toNat (f.tenant t).pos (f.mbx.since (f.tenant t).pos) ∧
      Ready s dt h (.eventRead m) ∧
      0 < m.toNat ∧
      m.toNat ≤ 1024 ∧
      f.fits h.session true (r.1.flatMap (fun y => y.2.bytes y.1)).length = true :=
  ⟨sRun, 0, hd .urg [], _, 1024, _, _, rfl, rfl, rfl,
    by unfold Ready; decide +kernel⟩

theorem test_DiagnosticAndFirmwareCommands_0 :
    ∃ (s : State) (dt : Nat) (h : CmdHdr) (f : State) (p : _),
      f = s.taken dt h ∧
      Ready s dt h (.faultInject p) ∧
      1 ≤ p.kind.toNat ∧
      p.kind.toNat ≤ 7 ∧
      p.target.toNat < injTargets p.kind.toNat ∧
      (p.kind = 3 → ((f.slab (p.target.toNat / 272)).columnOf (p.target.toNat % 272)).isSome = true) :=
  ⟨sRun, 0, hd .dia [], _, { kind := 7, target := 0, holdUs := 0 }, rfl,
    by unfold Ready; decide +kernel⟩

theorem test_DiagnosticAndFirmwareCommands_1 :
    ∃ (s : State) (dt : Nat) (h : CmdHdr) (f : State) (p : _),
      f = s.taken dt h ∧
      Ready s dt h (.selftestRun p) ∧
      p.test = 1 ∧
      p.target.toNat < 34816 ∧
      (f.bank p.target.toNat).owner ≠ 5 ∧
      (f.bank p.target.toNat).pending = none ∧
      f.bankUp p.target.toNat = true :=
  ⟨sRun, 0, hd .dia [], _, { test := 1, target := 34815 }, rfl,
    by unfold Ready; decide +kernel⟩

theorem test_DiagnosticAndFirmwareCommands_2 :
    ∃ (s : State) (dt : Nat) (h : CmdHdr) (f : State) (p : _),
      f = s.taken dt h ∧
      Ready s dt h (.selftestRun p) ∧
      2 ≤ p.test.toNat ∧
      p.test.toNat ≤ 4 ∧
      p.target.toNat < selftestUnits p.test.toNat ∧
      (p.test = 3 → f.lasersOn = true) ∧
      (p.test ≠ 3 → f.convertersOn = true) :=
  ⟨sRun, 0, hd .dia [], _, { test := 2, target := 0 }, rfl,
    by unfold Ready; decide +kernel⟩

theorem test_DiagnosticAndFirmwareCommands_3 :
    ∃ (s : State) (dt : Nat) (h : CmdHdr) (f : State) (n : _),
      f = s.taken dt h ∧
      Ready s dt h (.fwLoadBegin n) ∧
      1024 ≤ n.toNat ∧
      n.toNat ≤ 4194304 ∧
      n.toNat % 512 = 0 ∧
      f.trust.identity.isSome = true :=
  ⟨sBoot, 0, hd .blk [], _, 1024, rfl,
    by unfold Ready; decide +kernel⟩

theorem test_DiagnosticAndFirmwareCommands_9 :
    ∃ (s : State) (dt : Nat) (h : CmdHdr) (f : State) (o : _),
      f = s.taken dt h ∧
      Ready s dt h (.fwLoadBlock o) ∧
      h.bulk.length ≤ 262144 ∧
      f.mbx.fw = .loading ∧
      o.toNat + h.bulk.length ≤ f.mbx.imageLen ∧
      o.toNat = f.mbx.image.length :=
  ⟨{ sBoot with mbx := { sBoot.mbx with fw := .loading, imageLen := 1024 } }, 0, hd .blk (zs 4), _, 0, rfl,
    by unfold Ready; decide +kernel⟩

theorem test_DiagnosticAndFirmwareCommands_10 :
    ∃ (s : State) (dt : Nat) (h : CmdHdr) (f : State),
      f = s.taken dt h ∧
      Ready s dt h .fwLoadEnd ∧
      f.mbx.fw = .loading ∧
      f.mbx.image.length = f.mbx.imageLen ∧
      imageHeaderOk f.mbx = true :=
  ⟨{ sBoot with mbx := { sBoot.mbx with fw := .loading, imageLen := 12, image := [0x31, 0x57, 0x46, 0x50, 1, 0, 0, 0, 12, 0, 0, 0] } },
    0, hd .blk [], _, rfl,
    by unfold Ready; decide +kernel⟩

theorem test_DomainCommands_0 :
    ∃ (s : State) (dt : Nat) (h : CmdHdr) (f : State),
      f = s.taken dt h ∧
      Ready s dt h .domainJoin ∧
      leAt h.bulk 4 2 ≤ 256 ∧
      h.bulk.length = 160 + 64 * leAt h.bulk 4 2 ∧
      (∀ r ∈ memberRecords (leAt h.bulk 4 2) (h.bulk.drop 160), 16 ≤ leAt r 2 2 ∧ ((f.ca (leAt r 2 2 % 4096)).cak = none ∨ (f.ca (leAt r 2 2 % 4096)).tenant = 0)) :=
  ⟨sRun, 0, hd .blk ([0, 0, 0, 0, 1, 0] ++ zs 154 ++ [1, 0, 16] ++ zs 61), _, rfl,
    by unfold Ready; decide +kernel⟩

theorem test_DomainCommands_1 :
    ∃ (s : State) (dt : Nat) (h : CmdHdr),
      Ready s dt h .domainLeave :=
  ⟨sRun, 0, hd .ctl [],
    by unfold Ready; decide +kernel⟩

theorem test_DomainCommands_2 :
    ∃ (s : State) (dt : Nat) (h : CmdHdr) (f : State) (w : _),
      f = s.taken dt h ∧
      Ready s dt h (.domainRelay w) ∧
      relayedLen h.bulk ≤ h.bulk.length ∧
      f.mbx.manager = true ∧
      (∃ m ∈ f.fabric.domain.members, m.index = w.toNat) ∧
      f.fabric.domain.outstanding w.toNat < 8 :=
  ⟨{ sRun with mbx := { sRun.mbx with manager := true } }.modDomain (fun d => { d with joined := true, index := 0, members := [{ index := 1, cluster := 0, ca := 16, fp := 0 }] }),
    0, hd .blk ([1, 2] ++ zs 62), _, 1, rfl,
    by unfold Ready; decide +kernel⟩

theorem test_DomainCommands_3 :
    ∃ (s : State) (dt : Nat) (h : CmdHdr) (f : State) (m : _),
      f = s.taken dt h ∧
      Ready s dt h (.roleSet m) ∧
      (m = true → ∀ x ∈ f.time.sources, x.kind ≠ .relay) ∧
      (m = true → f.mbx.manager = false → f.managerPageTaken = false) :=
  ⟨sRun, 0, hd .ctl [], _, true, rfl,
    by unfold Ready; decide +kernel⟩

theorem test_PortPushes_0 :
    ∃ (s : State) (r : Ring) (bytes : List Byte),
      s.hostLink = true ∧
      bytes.length = 64 ∧
      (s.ring (ringNo r)).free ≠ 0 :=
  ⟨sRun, .dia, zs 64,
    by decide +kernel⟩

theorem test_PortPushes_1 :
    ∃ (s : State) (r : Ring) (bytes : List Byte),
      s.hostLink = true ∧
      bytes.length = 64 ∧
      (s.ring (ringNo r)).free = 0 :=
  ⟨sRun.modRing 1 (fun y => { y with cmds := List.replicate 256 (waiting []) }), .ctl, zs 64,
    by decide +kernel⟩

theorem test_PortPushes_2 :
    ∃ (s : State) (bytes : List Byte),
      s.hostLink = true ∧
      bytes.length ≠ 64 :=
  ⟨sRun, zs 65,
    by decide +kernel⟩

theorem test_PortPushes_3 :
    ∃ (s : State) (r : Ring) (bytes : List Byte),
      s.hostLink = true ∧
      bytes.length = 96 ∧
      (s.ring (ringNo r)).free = 0 :=
  ⟨sRun.modRing 1 (fun y => { y with cmds := List.replicate 256 (waiting []) }), .ctl, zs 96,
    by decide +kernel⟩

theorem test_PortPushes_4 :
    ∃ (s : State) (bytes : List Byte),
      s.hostLink = true ∧
      bytes.length ≠ 96 :=
  ⟨sRun, zs 95,
    by decide +kernel⟩

theorem test_PortPushes_5 :
    ∃ (s : State) (r : Ring) (plain : List Byte) (n : Nat) (x : _) (q : Nat),
      s.hostLink = true ∧
      plain.length = 64 ∧
      (s.ring (ringNo r)).free ≠ 0 ∧
      n < 16 ∧
      (s.tenant n).session = some x ∧
      tabGet 0 x.seq 0 = q ∧
      q < 2 ^ 64 :=
  ⟨sRun, .blk, [7] ++ zs 63, 0, Session.init, 0,
    by decide +kernel⟩

theorem test_PortPushes_6 :
    ∃ (s : State) (dt : Nat) (r : Ring) (u : State) (bytes : _) (n : _),
      u = s.elapse dt ∧
      n = envSession bytes ∧
      s.hostLink = true ∧
      bytes.length = 96 ∧
      (s.ring (ringNo r)).free ≠ 0 ∧
      envLength bytes ≤ 64 ∧
      u.openEnv n 0 bytes = none :=
  ⟨sRun, 0, .ctl, _, ([0, 0, 64, 0] ++ zs 92), _, rfl, rfl,
    by decide +kernel⟩

theorem test_FifoAccess_0 :
    ∃ (s : State) (r : _) (c : _) (rest : _),
      s.hostLink = true ∧
      (s.ring (ringNo r)).cpls = c :: rest :=
  ⟨sRun.modRing 0 (fun y => { y with cpls := [{ status := 0, applied := false, inF3 := false, opcode := 1, id := 1, outLen := 0, detail := 0, result := 0, session := none, wire := zs 64 }] }),
    .urg,
    { status := 0, applied := false, inF3 := false, opcode := 1, id := 1, outLen := 0, detail := 0, result := 0, session := none, wire := zs 64 },
    [],
    by decide +kernel⟩

theorem test_FifoAccess_1 :
    ∃ (s : State),
      s.hostLink = true :=
  ⟨sRun,
    by decide +kernel⟩

theorem test_FifoAccess_2 :
    ∃ (s : State),
      s.hostLink = true :=
  ⟨sRun,
    by decide +kernel⟩

theorem test_RegisterWrites_0 :
    ∃ (s : State) (a : BitVec 17),
      s.hostLink = true ∧
      a = 0x08 :=
  ⟨sRun.modMbx (fun m => { m with int := m.int.hit 4 }), 0x08,
    by decide +kernel⟩

theorem test_RegisterWrites_1 :
    ∃ (s : State) (a : BitVec 17),
      s.hostLink = true ∧
      a = 0x0C :=
  ⟨sRun, 0x0C,
    by decide +kernel⟩

theorem test_RegisterWrites_2 :
    ∃ (s : State) (a : BitVec 17) (r : Fin 4),
      s.hostLink = true ∧
      a.toNat = 0x10 + 4 * r.val :=
  ⟨sRun, 0x1C, 3,
    by decide +kernel⟩

theorem test_RegisterWrites_3 :
    ∃ (s : State) (a : BitVec 17),
      s.hostLink = true ∧
      a = 0x2C :=
  ⟨sRun, 0x2C,
    by decide +kernel⟩

theorem test_RegisterWrites_4 :
    ∃ (a : BitVec 17),
      a.toNat ∉ [0x08, 0x0C, 0x10, 0x14, 0x18, 0x1C, 0x2C] :=
  ⟨0x30,
    by decide +kernel⟩

theorem test_RegisterWrites_5 :
    ∃ (s : State),
      s.hostLink = false :=
  ⟨{ sRun with sdio := { sRun.sdio with ioReady := false } },
    by decide +kernel⟩

theorem test_RegisterWrites_6 :
    ∃ (s : State) (r : _),
      s.hostLink = true ∧
      (s.ring (ringNo r)).cpls = [] :=
  ⟨sRun, .dia,
    by decide +kernel⟩

theorem test_CommandsStartAndEnd_0 :
    ∃ (s : State) (dt : Nat) (u : State) (a : _) (rest : _) (t : _),
      u = s.elapse dt ∧
      s.mailboxOn = true ∧
      s.mbx.fw ≠ .restarting ∧
      (s.ring 0).exec = none ∧
      (s.ring 0).cmds = a :: rest ∧
      u.startHead 0 a [] = some t :=
  ⟨sRun.modRing 0 (fun y => { y with cmds := [waiting (zs 64)] }), 0, _, waiting (zs 64), [],
    (((sRun.modRing 0 (fun y => { y with cmds := [waiting (zs 64)] })).elapse 0).startHead 0 (waiting (zs 64)) []).getD sRun,
    rfl,
    by decide +kernel⟩

theorem test_CommandsStartAndEnd_1 :
    ∃ (s : State) (dt : Nat) (u : State) (r : _) (si : _) (x : _) (a : _),
      u = s.elapse dt ∧
      s.mailboxOn = true ∧
      s.mbx.fw ≠ .restarting ∧
      (s.ring (ringNo r)).exec = some x ∧
      x.ends si u = some a ∧
      u.answerFits x.relay x.hdr a = true :=
  ⟨sAcquire, 0, _, .ctl, anySilicon, anExec .ctl (.lockAcquire { first := 0, count := 1 }),
    ((anExec .ctl (.lockAcquire { first := 0, count := 1 })).ends anySilicon (sAcquire.elapse 0)).getD (Answer.ok sRun),
    rfl,
    by decide +kernel⟩

theorem test_CommandsStartAndEnd_2 :
    ∃ (s : State) (dt : Nat) (u : State) (a : _) (rest : _),
      u = s.elapse dt ∧
      s.mailboxOn = true ∧
      s.mbx.fw ≠ .restarting ∧
      (s.ring 2).exec = none ∧
      (s.ring 2).cmds = a :: rest ∧
      a.direct = false ∧
      a.session = none ∧
      a.relay = none ∧
      s.mbx.binFifo.length < a.bulkLen ∧
      a.headAt + 100000000 ≤ u.now :=
  ⟨sRun.modRing 2 (fun y => { y with cmds := [waiting (zs 8 ++ [1] ++ zs 55)] }), 100000000, _,
    waiting (zs 8 ++ [1] ++ zs 55), [], rfl,
    by decide +kernel⟩

theorem test_CommandsStartAndEnd_3 :
    ∃ (s : State) (dt : Nat) (u : State) (a : _) (rest : _) (c : _),
      u = s.elapse dt ∧
      s.mailboxOn = true ∧
      s.mbx.fw ≠ .restarting ∧
      (s.ring 2).exec = none ∧
      (s.ring 2).cmds = a :: rest ∧
      a.direct = false ∧
      a.session = none ∧
      a.relay = none ∧
      s.mbx.binFifo.length < a.bulkLen ∧
      a.headAt + 100000000 ≤ u.now ∧
      u.serves .blk (leAt a.bytes 0 2) = true ∧
      checkBytes .blk a.bytes = .ok c ∧
      cmdReserved c = none ∧
      u.permits false { ring := .blk, id := BitVec.ofNat 32 (leAt a.bytes 4 4), session := none, bulk := [] } c = true :=
  ⟨sRun.modRing 2 (fun y => { y with cmds := [waiting ([3, 1, 0, 0, 0, 0, 0, 0, 0x80, 1] ++ zs 54)] }), 100000000, _,
    waiting ([3, 1, 0, 0, 0, 0, 0, 0, 0x80, 1] ++ zs 54), [], .devSessionOpen 0, rfl,
    by decide +kernel⟩

theorem test_CommandsStartAndEnd_4 :
    ∃ (s : State) (dt : Nat) (u : State) (r : _) (x : _) (p : _),
      u = s.elapse dt ∧
      s.mailboxOn = true ∧
      s.mbx.fw ≠ .restarting ∧
      s.mbx.fw = .running ∧
      s.ringExecuting (fun c => match c with | .pageLoad _ => true | _ => false) = some r ∧
      (s.ring r).exec = some x ∧
      x.cmd = .pageLoad p ∧
      x.since + 1000000000 ≤ u.now :=
  ⟨sRun.modRing 2 (fun y => { y with exec := some (anExec .blk (.pageLoad aPageLoad)) }), 1000000000, _, 2,
    anExec .blk (.pageLoad aPageLoad), aPageLoad, rfl,
    by decide +kernel⟩

theorem test_CommandsStartAndEnd_5 :
    ∃ (s : State) (x : Exec) (t : BitVec 4) (p : List Byte) (si : Silicon) (k : Nat),
      s.mailboxOn = true ∧
      s.mbx.fw ≠ .restarting ∧
      x.cmd = .devSessionOpen t ∧
      si.plain = some p ∧
      p.length = 40 ∧
      leAt p 0x20 4 = t.toNat ∧
      leAt p 0x24 4 = k ∧
      s.trust.nextSerial = k ∧
      (t ≠ 0 → si.ok = true) :=
  ⟨{ sRun with trust := { sRun.trust with nextSerial := 2 } }, anExec .blk (.devSessionOpen 0), 0, zs 36 ++ [2, 0, 0, 0],
    { anySilicon with plain := some (zs 36 ++ [2, 0, 0, 0]) }, 2,
    by decide +kernel⟩

theorem test_CommandsStartAndEnd_6 :
    ∃ (s : State) (x : Exec) (f : BitVec 256),
      s.mailboxOn = true ∧
      s.mbx.fw ≠ .restarting ∧
      x.cmd = .devIdentify ∧
      s.trust.puf.isSome = true ∧
      f = bytesToBv 256 ((x.hdr.bulk.drop 8).take 32) :=
  ⟨sRun, anExec .blk .devIdentify, 0,
    by decide +kernel⟩

theorem test_CardInterface_0 :
    ∃ (s : State),
      s.cardAnswers = true ∧
      s.power.pstate ≠ .ps5 :=
  ⟨sRun,
    by decide +kernel⟩

theorem test_CardInterface_1 :
    ∃ (s : State),
      s.cardAnswers = true ∧
      s.power.pstate = .ps5 :=
  ⟨sRun.modPower (fun p => { p with pstate := .ps5 }),
    by decide +kernel⟩

theorem test_CardInterface_2 :
    ∃ (s : State),
      s.cardAnswers = true ∧
      s.sdio.s18 = true ∧
      s.power.pstate ≠ .ps5 :=
  ⟨{ sRun with sdio := { Sdio.init with s18 := true } },
    by decide +kernel⟩

theorem test_CardInterface_5 :
    ∃ (s : State),
      s.cardAnswers = true ∧
      s.sdio.ioReady = true :=
  ⟨sRun,
    by decide +kernel⟩

theorem test_StartAndReset_0 :
    ∃ (s : State),
      s.power.boot = .unpowered :=
  ⟨{ State.reset with power := { Power.init with boot := .unpowered } },
    by decide +kernel⟩

theorem test_StartAndReset_1 :
    ∃ (s : State),
      s.power.boot = .inReset :=
  ⟨{ State.reset with power := { Power.init with boot := .inReset } },
    by decide +kernel⟩

theorem test_StartAndReset_2 :
    ∃ (s : State) (dt : Nat) (u : State) (temps : List Int),
      u = s.elapse dt ∧
      temps.length = 256 ∧
      s.power.boot = .sensors ∧
      u.stepDue ∧
      (∀ x ∈ temps, x < 360) :=
  ⟨{ State.reset with power := { Power.init with boot := .sensors } }, 100000000, _, List.replicate 256 359, rfl,
    by unfold State.stepDue; decide +kernel⟩

theorem test_StartAndReset_3 :
    ∃ (s : State) (dt : Nat) (u : State) (temps : List Int),
      u = s.elapse dt ∧
      temps.length = 256 ∧
      s.power.boot = .sensors ∧
      u.stepDue ∧
      s.power.tripped = true ∧
      (∀ x ∈ temps, x < 360) :=
  ⟨{ State.reset with power := { Power.init with boot := .sensors, tripped := true } }, 100000000, _,
    List.replicate 256 359, rfl,
    by unfold State.stepDue; decide +kernel⟩

theorem test_StartAndReset_4 :
    ∃ (s : State),
      s.power.boot = .refclk :=
  ⟨{ State.reset with power := { Power.init with boot := .refclk } },
    by decide +kernel⟩

theorem test_StartAndReset_5 :
    ∃ (s : State) (dt : Nat) (u : State),
      u = s.elapse dt ∧
      s.power.boot = .rails ∧
      s.power.refAt + 22000000 ≤ u.now :=
  ⟨{ State.reset with power := { Power.init with boot := .rails } }, 22000000, _, rfl,
    by decide +kernel⟩

theorem test_StartAndReset_6 :
    ∃ (s : State) (dt : Nat) (u : State) (k : CartId) (p1 : _) (p2 : _),
      u = s.elapse dt ∧
      u.mayPower k = true ∧
      (s.cart k).lit = false ∧
      (s.cart k).probedAt = none ∧
      ((s.cart k).powered = true → (s.cart k).starting = true) ∧
      u.lightingTime k (p1 && p2) = true :=
  ⟨State.reset.modCart 1 (fun x => { x with present := true, intlk := true }), 117000000, _, 1, true, true, rfl,
    by decide +kernel⟩

theorem test_StartAndReset_7 :
    ∃ (s : State) (n : _),
      2000 ≤ n ∧
      s.power.boot ≠ .unpowered :=
  ⟨sRun, 2000,
    by decide +kernel⟩

theorem test_StartAndReset_10 :
    ∃ (s : State),
      s.power.boot = .serving ∧
      s.power.pstate ≠ .ps5 :=
  ⟨sRun,
    by decide +kernel⟩

theorem test_StartAndReset_11 :
    ∃ (s : State),
      s.powered = true ∧
      s.power.tripped = false :=
  ⟨sRun,
    by decide +kernel⟩

theorem test_ThrottleStepMovesLimit_0 :
    ∃ (s : State) (dt : Nat) (u : State),
      u = s.elapse dt ∧
      u.throttleDue = true :=
  ⟨sRun, 0, _, rfl,
    by decide +kernel⟩

theorem test_PmbusAnswers_0 :
    ∃ (s : State),
      s.powered = true :=
  ⟨sRun,
    by decide +kernel⟩

theorem test_PmbusAnswers_22 :
    ∃ (s : State) (c : _),
      s.powered = true ∧
      c ≠ 0x03 :=
  ⟨sRun, 0x04,
    by decide +kernel⟩

theorem test_PmbusAnswers_23 :
    ∃ (s : State) (c : Byte),
      s.powered = true ∧
      c.toNat ∉ pmCommands :=
  ⟨sRun, 0x01,
    by decide +kernel⟩

theorem test_TestAccessPort_0 :
    ∃ (s : State) (dt : Nat) (u : State),
      u = s.elapse dt ∧
      u.powered = false :=
  ⟨{ State.reset with power := { Power.init with boot := .unpowered } }, 0, _, rfl,
    by decide +kernel⟩

theorem test_TestAccessPort_7 :
    ∃ (s : State) (dt : Nat) (u : State),
      u = s.elapse dt ∧
      u.powered = true ∧
      u.mbx.fw = .waitImage ∧ u.power.boot = .serving ∧ u.power.pstate ≠ .ps5 :=
  ⟨sTest, 0, _, rfl,
    by decide +kernel⟩

theorem test_TestAccessPort_9 :
    ∃ (s : State) (dt : Nat) (u : State),
      u = s.elapse dt ∧
      u.powered = true ∧
      ¬ (u.mbx.fw = .waitImage ∧ u.power.boot = .serving ∧ u.power.pstate ≠ .ps5) :=
  ⟨{ sRun with jtag := { Jtag.init with inEffect := true } }, 0, _, rfl,
    by decide +kernel⟩

theorem test_TestAccessPort_11 :
    ∃ (s : State) (dt : Nat) (u : State),
      u = s.elapse dt ∧
      u.powered = true :=
  ⟨{ sTest with jtag := { Jtag.init with inEffect := true } }, 0, _, rfl,
    by decide +kernel⟩

theorem test_TickInAndPps_0 :
    ∃ (s : State) (dt : Nat) (u : State) (x : _) (e : _),
      u = s.elapse dt ∧
      s.disciplined = true ∧
      s.time.sources.find? (fun y => y.kind == .tickIn) = some x ∧
      x.last = some e ∧
      x.qualified = true ∧
      inWindow (periodNs s.time.period) e u.now = true :=
  ⟨sAt 2000000 [{ aSource .tickIn with qualified := true, run := 9, last := some 1000000 }], 1000, _,
    { aSource .tickIn with qualified := true, run := 9, last := some 1000000 }, 1000000, rfl,
    by decide +kernel⟩

theorem test_TickInAndPps_1 :
    ∃ (s : State) (dt : Nat) (u : State) (x : _) (e : _),
      u = s.elapse dt ∧
      s.disciplined = true ∧
      s.time.sources.find? (fun y => y.kind == .tickIn) = some x ∧
      x.last = some e ∧
      x.qualified = false ∧
      3 ≤ x.run ∧
      inWindow (periodNs s.time.period) e u.now = true ∧
      u.ppsPresent = false :=
  ⟨sAt 2000000 [{ aSource .tickIn with run := 3, last := some 1000000 }], 0, _,
    { aSource .tickIn with run := 3, last := some 1000000 }, 1000000, rfl,
    by decide +kernel⟩

theorem test_TickInAndPps_2 :
    ∃ (s : State) (dt : Nat) (u : State) (x : _) (e : _),
      u = s.elapse dt ∧
      s.disciplined = true ∧
      s.time.sources.find? (fun y => y.kind == .tickIn) = some x ∧
      x.last = some e ∧
      e + periodNs s.time.period + 1000 ≤ u.now :=
  ⟨sAt 2001000 [{ aSource .tickIn with qualified := true, run := 3, last := some 1000000 }], 0, _,
    { aSource .tickIn with qualified := true, run := 3, last := some 1000000 }, 1000000, rfl,
    by decide +kernel⟩

theorem test_TickInAndPps_3 :
    ∃ (s : State),
      s.disciplined = true ∧
      (∀ y ∈ s.time.sources, y.kind ≠ .tickIn) :=
  ⟨sRun,
    by decide +kernel⟩

theorem test_PtpAndSyncE_0 :
    ∃ (s : State) (dt : Nat) (p : PortId) (u : State) (h : PtpHdr) (x : _) (m : PtpAnnounce) (ofs : _),
      u = s.elapse dt ∧
      s.disciplined = true ∧
      (s.port p).up = true ∧
      u.rxFault p h.prot = none ∧
      h.domain.toNat = s.time.ptpDomain ∧
      x ∈ s.time.sources ∧
      x.kind = .ptp ∧
      x.port = p.val ∧
      x.dst = h.peer ∧
      (s.port p).master = some m ∧
      -100 ≤ ofs ∧
      ofs ≤ 100 ∧
      (s.port p).synced = true ∧
      15 ≤ x.run :=
  ⟨(saked (sAt 5 [{ aSource .ptp with run := 15 }])).modPort 3 ptpPort, 0, 3, _, aPtp, { aSource .ptp with run := 15 },
    aMaster, -100, rfl,
    by decide +kernel⟩

theorem test_PtpAndSyncE_1 :
    ∃ (s : State) (dt : Nat) (p : PortId) (u : State) (h : PtpHdr) (x : _) (m : PtpAnnounce) (ofs : _),
      u = s.elapse dt ∧
      s.disciplined = true ∧
      (s.port p).up = true ∧
      u.rxFault p h.prot = none ∧
      h.domain.toNat = s.time.ptpDomain ∧
      x ∈ s.time.sources ∧
      x.kind = .ptp ∧
      x.port = p.val ∧
      x.dst = h.peer ∧
      (s.port p).master = some m ∧
      (ofs < -1000 ∨ 1000 < ofs) :=
  ⟨(saked (sAt 5 [{ aSource .ptp with run := 15, qualified := true }])).modPort 3 ptpPort, 0, 3, _, aPtp,
    { aSource .ptp with run := 15, qualified := true }, aMaster, 1001, rfl,
    by decide +kernel⟩

theorem test_PtpAndSyncE_2 :
    ∃ (s : State) (dt : Nat) (p : PortId) (u : State) (h : PtpHdr) (x : _),
      u = s.elapse dt ∧
      s.disciplined = true ∧
      (s.port p).up = true ∧
      u.rxFault p h.prot = none ∧
      h.domain.toNat = s.time.ptpDomain ∧
      x ∈ s.time.sources ∧
      x.kind = .ptp ∧
      x.port = p.val ∧
      x.dst = h.peer :=
  ⟨(saked (sAt 5 [{ aSource .ptp with run := 15, qualified := true }])).modPort 3 ptpPort, 0, 3, _, aPtp,
    { aSource .ptp with run := 15, qualified := true }, rfl,
    by decide +kernel⟩

theorem test_PtpAndSyncE_3 :
    ∃ (s : State),
      s.disciplined = true :=
  ⟨saked (sAt 5 [{ aSource .ptp with run := 15, qualified := true }]),
    by decide +kernel⟩

theorem test_PtpAndSyncE_4 :
    ∃ (s : State),
      s.disciplined = true :=
  ⟨(saked (sAt 5 [{ aSource .ptp with run := 16 }])).modPort 3 (fun x => { x with up := true, dnu := false }),
    by decide +kernel⟩

theorem test_SourceChanges_0 :
    ∃ (s : State) (dt : Nat) (phase : Int) (i : Nat) (x : TickSource) (u : State),
      u = s.elapse dt ∧
      s.disciplined = true ∧
      s.time.srcState ≠ .held ∧
      s.time.srcState ≠ .free ∧
      s.time.taiSeen = true ∧
      u.time.pick u.now = some i ∧
      s.time.sources[i]? = some x ∧
      x.kind ≠ .tickIn ∧
      -1000 ≤ phase ∧
      phase ≤ 1000 :=
  ⟨{ sRun with time := { TimeState.init with clock := 20000000000, timeNs := 5000000, taiSeen := true, srcState := .holdover, sources := [{ aSource .ptp with qualified := true }] } },
    0, 1000, 0, { aSource .ptp with qualified := true }, _, rfl,
    by decide +kernel⟩

theorem test_SourceChanges_1 :
    ∃ (s : State) (dt : Nat) (phase : Int) (i : Nat) (x : TickSource) (u : State),
      u = s.elapse dt ∧
      s.disciplined = true ∧
      s.time.srcState ≠ .held ∧
      s.time.srcState ≠ .free ∧
      s.time.taiSeen = true ∧
      u.time.pick u.now = some i ∧
      s.time.sources[i]? = some x ∧
      x.kind ≠ .tickIn ∧
      (phase < -1000 ∨ 1000 < phase) :=
  ⟨{ sRun with time := { TimeState.init with clock := 20000000000, timeNs := 5000000, taiSeen := true, srcState := .holdover, sources := [{ aSource .ptp with qualified := true }] } },
    0, 1001, 0, { aSource .ptp with qualified := true }, _, rfl,
    by decide +kernel⟩

theorem test_TickRelay_0 :
    ∃ (s : State),
      s.domainOn = true ∧
      s.mbx.manager = true ∧
      s.jtag.inEffect = false ∧
      (∀ m ∈ s.fabric.domain.members, s.secured (1 + m.index) = true ∧ (s.ca (peCa (s.partner (1 + m.index)))).txPn + s.fabric.domain.members.length ≤ 2 ^ 62) :=
  ⟨sDomain true,
    by decide +kernel⟩

theorem test_TickRelay_1 :
    ∃ (s : State) (dt : Nat) (u : State) (m : Byte) (pr : Protection) (p : RelayPayload),
      u = s.elapse dt ∧
      s.domainOn = true ∧
      s.mbx.manager = false ∧
      m.toNat = s.fabric.domain.managerIndex ∧
      s.secured (1 + m.toNat) = true ∧
      peState (s.partner (1 + m.toNat)) = psActive ∧
      u.rxFault (peCa (s.partner (1 + m.toNat))) pr = none ∧
      (s.port (s.replyPort (1 + m.toNat))).up = true ∧
      s.jtag.inEffect = false ∧
      p.period.toNat = s.time.period :=
  ⟨(sDomain false).modPort 0 (fun x => { x with up := true }), 0, _, 7, under16,
    { boundaryNs := 0, txNs := 0, frame := 0, tick := 0, period := 4, armGen := 0 }, rfl,
    by decide +kernel⟩

theorem test_TickRelay_2 :
    ∃ (s : State),
      s.disciplined = true ∧
      s.mbx.manager = false ∧
      s.fabric.domain.joined = true :=
  ⟨{ sDomain false with time := { TimeState.init with sources := [aSource .relay] } },
    by decide +kernel⟩

theorem test_TickRelay_3 :
    ∃ (s : State) (dt : Nat) (u : State) (w : Byte) (pr : Protection),
      u = s.elapse dt ∧
      s.domainOn = true ∧
      s.mbx.manager = true ∧
      peState (s.partner (1 + w.toNat)) = psActive ∧
      u.rxFault (peCa (s.partner (1 + w.toNat))) pr = none :=
  ⟨sDomain true, 0, _, 1, under16, rfl,
    by decide +kernel⟩

theorem test_TickRelay_4 :
    ∃ (s : State) (w : Byte),
      s.mbx.manager = true ∧
      8 ≤ tabGet 0 s.fabric.relay.unanswered w.toNat ∧
      tabGet 0 s.fabric.relay.unanswered w.toNat < 2 ^ 32 :=
  ⟨(sDomain true).modRelay (fun r => { r with unanswered := [(1, 8)] }), 1,
    by decide +kernel⟩

theorem test_TickRelay_5 :
    ∃ (s : State),
      s.domainOn = true ∧
      s.mbx.manager = false ∧
      s.fabric.relay.delayFrom ≤ s.time.tickCount ∧
      s.secured (1 + s.fabric.domain.managerIndex) = true :=
  ⟨sDomain false,
    by decide +kernel⟩

theorem test_TickRelay_6 :
    ∃ (s : State) (dt : Nat) (u : State) (m : Byte) (pr : Protection),
      u = s.elapse dt ∧
      s.domainOn = true ∧
      peState (s.partner (1 + m.toNat)) = psActive ∧
      u.rxFault (peCa (s.partner (1 + m.toNat))) pr = none ∧
      s.fabric.domain.members.any (fun x => decide (x.index = m.toNat)) = true :=
  ⟨sDomain true, 0, _, 1, under16, rfl,
    by decide +kernel⟩

theorem test_TickRelay_8 :
    ∃ (s : State) (dt : Nat) (u : State) (m : Byte) (pr : Protection),
      u = s.elapse dt ∧
      s.domainOn = true ∧
      s.mbx.manager = false ∧
      m.toNat = s.fabric.domain.managerIndex ∧
      peState (s.partner (1 + m.toNat)) = psActive ∧
      u.rxFault (peCa (s.partner (1 + m.toNat))) pr = none ∧
      s.fabric.relay.asked = true :=
  ⟨(sDomain false).modRelay (fun r => { r with asked := true }), 0, _, 7, under16, rfl,
    by decide +kernel⟩

theorem test_BoundaryBegins_0 :
    ∃ (s : State) (dt : Nat) (u : State),
      u = s.elapse dt ∧
      u.boundaryDue = true ∧
      (s.time.inHk = true ∨ ∀ c ∈ s.listed, (s.cluster c).active = none ∨ (s.cluster c).batch = true) :=
  ⟨{ sAt 999000 [] with time := { (sAt 999000 []).time with timeNs := 999000 } }, 1000, _, rfl,
    by decide +kernel⟩

theorem test_BoundaryEffects_0 :
    ∃ (s : State) (k : _) (p : _),
      (s.bank k).pending = some p ∧
      p.notBefore ≤ s.now :=
  ⟨sRun.modBank 33 (fun b => { b with pending := some { notBefore := 0, owner := some (4, 0), power := some .off } }), 33,
    { notBefore := 0, owner := some (4, 0), power := some .off },
    by decide +kernel⟩

theorem test_BoundaryEffects_3 :
    ∃ (s : State) (k : _) (p : _) (j : _),
      (s.bank k).pending = some p ∧
      p.notBefore ≤ s.now ∧
      j ≠ k :=
  ⟨sRun.modBank 33 (fun b => { b with pending := some { notBefore := 0, owner := some (4, 0), power := some .off } }), 33,
    { notBefore := 0, owner := some (4, 0), power := some .off }, 34,
    by decide +kernel⟩

theorem test_BoundaryEffects_4 :
    ∃ (s : State) (c : _),
      (∀ w ∈ (s.cluster c).scaleWrites, w.1 ≤ s.now → s.banksUp c 0xFF (0x100000 + (s.cluster c).scaleAt w.2.1) 16 = true) :=
  ⟨sRun.modCluster 2 (fun x => { x with scaleWrites := [(0, 1, Scale.init), (9, 2, Scale.init)] }), 2,
    by decide +kernel⟩

theorem test_BoundaryEffects_5 :
    ∃ (s : State) (t : _) (n : _),
      (s.tenant t).rotate = some n ∧
      n ≤ s.now ∧
      t < 16 :=
  ⟨sRun.modTenant 0 (fun x => { x with rotate := some 0 }), 0, 0,
    by decide +kernel⟩

theorem test_BoundaryEffects_7 :
    ∃ (s : State) (c : _) (n : _),
      (s.cluster c).armed = some (.next n 0) ∧
      n ≤ s.now ∧
      s.time.srcState ≠ .held ∧
      (s.cluster c).disarm = none ∧
      (s.cluster c).active = none ∧
      (s.cluster c).runs = [] ∧
      (s.cluster c).ahead = [] :=
  ⟨sRun.modCluster 5 (fun x => { x with armed := some (.next 0 0), shadow := some emptyPlan }), 5, 0,
    by decide +kernel⟩

theorem test_BoundaryEffects_11 :
    ∃ (s : State) (c : _),
      (s.cluster c).armed = none ∧
      (s.cluster c).disarm = none ∧
      (s.cluster c).active.isSome = true ∧
      (s.cluster c).batch = false :=
  ⟨sRun.modCluster 5 (fun x => { x with active := some emptyPlan }), 5,
    by decide +kernel⟩

theorem test_HousekeepingSlots_0 :
    ∃ (s : State) (dt : Nat) (u : State),
      u = s.elapse dt ∧
      u.slotDue = true :=
  ⟨sRun, 997500, _, rfl,
    by decide +kernel⟩

theorem test_HousekeepingSlots_1 :
    ∃ (s : State) (dt : Nat) (u : State),
      u = s.elapse dt ∧
      s.time.inHk = true ∧
      u.time.tickEnd ≤ u.timeNat + 50 :=
  ⟨{ sRun with time := { TimeState.init with inHk := true } }, 1000000, _, rfl,
    by decide +kernel⟩

theorem test_LinesAndSpares_0 :
    ∃ (s : State) (k : CartId) (n : LineId),
      fedOwn (s.feedOf (k.val * 64 + n.val)) = true :=
  ⟨sLit, 1, 63,
    by decide +kernel⟩

theorem test_LinesAndSpares_1 :
    ∃ (s : State) (dt : Nat) (k : CartId) (n : LineId) (u : State) (c : _),
      u = s.elapse dt ∧
      tabFind (s.cart k).failedAt n = some c ∧
      c + 39000 ≤ u.now ∧
      (s.cart (1 - k.val)).gives n = true :=
  ⟨sLit.modCart 0 (fun x => { x with failedAt := [(63, 0)] }), 39000, 0, 63, _, 0, rfl,
    by decide +kernel⟩

theorem test_LinesAndSpares_2 :
    ∃ (s : State) (dt : Nat) (k : CartId) (n : LineId) (u : State),
      u = s.elapse dt ∧
      (s.cart k).ramp = none ∧
      (s.cart k).spares.any (fun y => y.line == some n.val && !y.verified && !y.inService && !y.failed && decide (y.tunedAt + 1000000 ≤ u.now)) = true :=
  ⟨sLit.modCart 0 (fun x => { x with spares := [{ Spare.init with line := some 9 }] }), 1000000, 0, 9, _, rfl,
    by decide +kernel⟩

theorem test_LinesAndSpares_3 :
    ∃ (s : State) (dt : Nat) (k : CartId) (n : LineId) (u : State),
      u = s.elapse dt ∧
      (s.cart k).due n u.timeNat = true ∧
      tabFind (s.cart k).relit n = some true :=
  ⟨sLit.modCart 0 (fun x => { x with relit := [(9, true)], named := [(9, 0)] }), 0, 0, 9, _, rfl,
    by decide +kernel⟩

theorem test_LinesAndSpares_4 :
    ∃ (s : State) (dt : Nat) (k : CartId) (n : LineId) (u : State) (i : _) (y : _),
      u = s.elapse dt ∧
      (s.cart k).due n u.timeNat = true ∧
      tabFind (s.cart k).relit n = none ∧
      i < 4 ∧
      (s.cart k).spares[i]? = some y ∧
      y.line = some n.val ∧
      y.verified = true ∧
      y.inService = false ∧
      (∀ j z, j < i → (s.cart k).spares[j]? = some z → z.line ≠ some n.val) :=
  ⟨sLit.modCart 0 (fun x => { x with spares := [Spare.init, Spare.init, Spare.init, { Spare.init with line := some 9, verified := true }], named := [(9, 0)] }),
    0, 0, 9, _, 3, { Spare.init with line := some 9, verified := true }, rfl,
    by decide +kernel, by decide +kernel, by decide, by decide +kernel, rfl, rfl, rfl, by
      intro j z hj hz
      match j, hj with
      | 0, _ => injection hz with h; subst h; decide
      | 1, _ => injection hz with h; subst h; decide
      | 2, _ => injection hz with h; subst h; decide⟩

theorem test_CartridgesAndEyeSafety_0 :
    ∃ (s : State) (k : CartId),
      (s.cart k).present = false :=
  ⟨sRun, 0,
    by decide +kernel⟩

theorem test_CartridgesAndEyeSafety_1 :
    ∃ (s : State) (k : CartId),
      (s.cart k).present = true ∧
      (s.cart k).intlk = false :=
  ⟨sRun.modCart 0 (fun x => { x with present := true }), 0,
    by decide +kernel⟩

theorem test_CartridgesAndEyeSafety_3 :
    ∃ (s : State) (k : CartId),
      (s.cart k).lit = true :=
  ⟨sLit, 1,
    by decide +kernel⟩

theorem test_CartridgesAndEyeSafety_4 :
    ∃ (s : State) (k : CartId),
      (s.cart k).powered = true :=
  ⟨sLit, 0,
    by decide +kernel⟩

theorem test_CartridgesAndEyeSafety_5 :
    ∃ (s : State) (dt : Nat) (k : CartId) (u : State),
      u = s.elapse dt ∧
      u.mayPower k = true ∧
      (s.cart k).lit = false ∧
      (s.cart k).ramp = none ∧
      (∀ c, (s.cart k).probedAt = some c → c + 1000000000 ≤ u.now) :=
  ⟨sRun.modCart 1 (fun x => { x with present := true, intlk := true }), 100000000, 1, _, rfl,
    by decide +kernel⟩

theorem test_CartridgesAndEyeSafety_6 :
    ∃ (s : State) (dt : Nat) (k : CartId) (u : State),
      u = s.elapse dt ∧
      u.mayPower k = true ∧
      (s.cart k).lit = false ∧
      (s.cart k).ramp = none ∧
      (∀ c, (s.cart k).probedAt = some c → c + 1000000000 ≤ u.now) ∧
      (s.cart k).probes = 0 :=
  ⟨sRun.modCart 1 (fun x => { x with present := true, intlk := true }), 100000000, 1, _, rfl,
    by decide +kernel⟩

theorem test_CartridgesAndEyeSafety_7 :
    ∃ (s : State) (dt : Nat) (k : CartId) (u : State),
      u = s.elapse dt ∧
      u.mayPower k = true ∧
      (s.cart k).lit = false ∧
      (s.cart k).ramp = none ∧
      (∀ c, (s.cart k).probedAt = some c → c + 1000000000 ≤ u.now) ∧
      (s.cart k).probes = 1 :=
  ⟨sRun.modCart 1 (fun x => { x with present := true, intlk := true, probes := 1 }), 100000000, 1, _, rfl,
    by decide +kernel⟩

theorem test_CartridgesAndEyeSafety_8 :
    ∃ (s : State) (dt : Nat) (k : CartId) (u : State) (r : _),
      u = s.elapse dt ∧
      u.mayPower k = true ∧
      (s.cart k).ramp = some r ∧
      r.1 ≤ u.now :=
  ⟨sRun.modCart 1 (fun x => { x with present := true, intlk := true, ramp := some (0, 17) }), 100000000, 1, _, (0, 17),
    rfl,
    by decide +kernel⟩

theorem test_TasksAreDispatched_0 :
    ∃ (s : State) (dt : Nat) (c : ClusterId) (i : Fin 4096) (u : State) (x : Cluster) (k : _) (r : _) (q : _),
      u = s.elapse dt ∧
      x = s.cluster c ∧
      k = x.dispatchKey i ∧
      r = (x.run k).getD { TaskRun.init with pass := x.pass, at_ := u.now } ∧
      q = { r with replayed := r.phase == .replay } ∧
      u.sequencing c = true ∧
      x.active.isSome = true ∧
      i.val < x.taskCount ∧
      r.phase.waits = true ∧
      (x.batch = true ∨ (r.phase = .replay ∨ dStart (x.task i) ≤ u.inTick) ∧ u.inTick < dDeadline (x.task i)) ∧
      x.predsDone k = true ∧
      x.skips (dLcore (x.task i)) = false ∧
      u.outranked c k q.replayed = false ∧
      u.hasPlace c k = true ∧
      u.heldBack c k q = false ∧
      u.queuedBefore c k q = false ∧
      (u.outputUnconf c k r.pass && x.logFull && !x.logged k r.pass) = false ∧
      (r.phase = .replay ∨ x.inputsFull k r.pass = true ∧ x.outputsFree k r.pass = true) :=
  ⟨sReady true fill |>.setPage 0 { Page.init with kind := 2 }, 0, 0, 0, _, _, _, _, _, rfl, rfl, rfl, rfl, rfl,
    by decide +kernel⟩

theorem test_TasksAreDispatched_2 :
    ∃ (s : State) (dt : Nat) (c : ClusterId) (i : Fin 4096) (u : State) (x : Cluster) (k : _) (r : _),
      u = s.elapse dt ∧
      x = s.cluster c ∧
      k = x.dispatchKey i ∧
      r = (x.run k).getD { TaskRun.init with pass := x.pass, at_ := u.now } ∧
      u.sequencing c = true ∧
      x.active.isSome = true ∧
      i.val < x.taskCount ∧
      r.phase.waits = true ∧
      x.predsDone k = true ∧
      x.batch = false ∧
      (r.phase = .replay ∨ dStart (x.task i) ≤ u.inTick) ∧
      dDeadline (x.task i) ≤ u.inTick :=
  ⟨sReady false (task 4 0 0), 0, 0, 0, _, _, _, _, rfl, rfl, rfl, rfl,
    by decide +kernel⟩

theorem test_TasksAreDispatched_3 :
    ∃ (s : State) (dt : Nat) (c : ClusterId) (i : Fin 4096) (u : State) (x : Cluster) (r : _),
      u = s.elapse dt ∧
      x = s.cluster c ∧
      u.sequencing c = true ∧
      x.run i = some r ∧
      r.phase = .waitSlots ∧
      r.replayed = false ∧
      (x.batch = true ∨ u.inTick < dDeadline (x.task i)) ∧
      x.skips (dLcore (x.task i)) = false ∧
      u.outranked c i false = false ∧
      u.hasPlace c i = true ∧
      u.heldBack c i r = false ∧
      u.queuedBefore c i r = false ∧
      (u.outputUnconf c i r.pass && x.logFull && !x.logged i r.pass) = false ∧
      x.inputsFull i r.pass = true ∧
      x.outputsFree i r.pass = true :=
  ⟨sTask true vecAdd .waitSlots, 0, 0, 0, _, _, aRun .waitSlots, rfl, rfl,
    by decide +kernel⟩

theorem test_TasksAreDispatched_4 :
    ∃ (s : State) (dt : Nat) (c : ClusterId) (i : Fin 4096) (u : State) (x : Cluster) (r : _),
      u = s.elapse dt ∧
      x = s.cluster c ∧
      u.sequencing c = true ∧
      x.run i = some r ∧
      r.phase = .waitSlots ∧
      x.batch = false ∧
      dDeadline (x.task i) ≤ u.inTick :=
  ⟨sTask false (task 4 0 0) .waitSlots, 0, 0, 0, _, _, aRun .waitSlots, rfl, rfl,
    by decide +kernel⟩

theorem test_TasksAreDispatched_5 :
    ∃ (s : State) (dt : Nat) (c : ClusterId) (i : Fin 4096) (u : State) (x : Cluster) (r : _),
      u = s.elapse dt ∧
      x = s.cluster c ∧
      u.sequencing c = true ∧
      x.run i = some r ∧
      r.phase = .waitConfirm ∧
      u.inputTag c i r.pass = none ∧
      (s.haul (u.haulKey c (x.task i))).outstanding < 8 ∧
      (dKind (x.task i) = kEgress → u.lateBy c i = none) :=
  ⟨sTask false send .waitConfirm, 0, 0, 0, _, _, aRun .waitConfirm, rfl, rfl,
    by decide +kernel⟩

theorem test_TasksAreDispatched_6 :
    ∃ (s : State) (dt : Nat) (c : ClusterId) (i : Fin 4096) (u : State) (x : Cluster) (a : Fin 2),
      u = s.elapse dt ∧
      x = s.cluster c ∧
      u.plansRun c = true ∧
      x.skips (dLcore (x.task i)) = false ∧
      (s.haul (u.haulKey c (x.task i))).outstanding < (if dKind (x.task i) = kCoreHaul then 4 else 8) ∧
      i.val < x.taskCount ∧
      u.canAhead c i (a.val + 1) = true ∧
      u.transferReady c i = false ∧
      (∀ j m, j < x.taskCount → (m = 1 ∧ a.val = 1 ∨ m = a.val + 1 ∧ j < i.val) → u.haulKey c (x.task j) = u.haulKey c (x.task i) → u.canAhead c j m = false) :=
  ⟨sAhead, 0, 0, 0, _, _, 0, rfl, rfl,
    by
      refine ⟨by decide +kernel, by decide +kernel, by decide +kernel, by decide +kernel, by decide +kernel, by decide +kernel, ?_⟩
      intro j m _ h
      exact absurd h (by intro h; cases h with
        | inl h => exact absurd h.2 (by decide)
        | inr h => exact absurd h.2 (Nat.not_lt_zero _))⟩

theorem test_VectorsAndHaulsComplete_0 :
    ∃ (s : State) (dt : Nat) (c : ClusterId) (i : Fin 4096) (u : State) (x : Cluster) (r : _),
      u = s.elapse dt ∧
      x = s.cluster c ∧
      u.running c i = some r ∧
      dKind (x.task i) = kVector ∧
      u.heldBack c i r = false :=
  ⟨sTask true vecAdd .running, 0, 0, 0, _, _, aRun .running, rfl, rfl,
    by decide +kernel⟩

theorem test_VectorsAndHaulsComplete_1 :
    ∃ (s : State) (dt : Nat) (c : ClusterId) (i : Fin 4096) (u : State) (x : Cluster) (r : _),
      u = s.elapse dt ∧
      x = s.cluster c ∧
      u.running c i = some r ∧
      dKind (x.task i) = kCoreHaul ∧
      u.haulBlocked c i r.pass = false ∧
      u.heldBack c i r = false ∧
      u.chunkWait c i r.pass = false :=
  ⟨sTask true rowHaul .running, 0, 0, 0, _, _, aRun .running, rfl, rfl,
    by decide +kernel⟩

theorem test_VectorsAndHaulsComplete_2 :
    ∃ (s : State) (dt : Nat) (c : ClusterId) (i : Fin 4096) (u : State) (x : Cluster) (r : _),
      u = s.elapse dt ∧
      x = s.cluster c ∧
      u.running c i = some r ∧
      dKind (x.task i) = kClusterHaul ∧
      u.haulBlocked c i r.pass = false ∧
      u.heldBack c i r = false ∧
      u.chunkWait c i r.pass = false :=
  ⟨sTask true fill .running, 0, 0, 0, _, _, aRun .running, rfl, rfl,
    by decide +kernel⟩

theorem test_VectorsAndHaulsComplete_3 :
    ∃ (s : State) (dt : Nat) (c : ClusterId) (i : Fin 4096) (u : State) (x : Cluster) (a : _),
      u = s.elapse dt ∧
      x = s.cluster c ∧
      u.running c i = none ∧
      u.running c (oldKey i) = none ∧
      dKind (x.task i) = kClusterHaul ∧
      x.ahead.find? (fun b => decide (b.task = i.val) && !b.done) = some a ∧
      u.heldBack c i { TaskRun.init with pass := a.pass } = false ∧
      u.chunkWait c i a.pass = false :=
  ⟨sAhead.modCluster 0 (fun x => { x with ahead := [{ task := 0, pass := 1, done := false, clashes := [] }] }), 0, 0, 0, _,
    _, { task := 0, pass := 1, done := false, clashes := [] }, rfl, rfl,
    by decide +kernel⟩

theorem test_RowsAreCopied_0 :
    ∃ (s : State) (a : Nat) (b : Nat) (n : Nat) (o : _),
      s.MemOk ∧
      0x100000 ≤ a ∧
      a + n ≤ 0x200000 ∧
      0x100000 ≤ b ∧
      b + n ≤ 0x200000 ∧
      (a + n ≤ b ∨ b + n ≤ a) ∧
      o < n :=
  ⟨{ sRun with mem := [(16, 9)] }, 0x100010, 0x1FFFF0, 16, 0,
    by unfold State.MemOk; decide +kernel⟩

theorem test_RowsAreCopied_1 :
    ∃ (s : State) (c : Nat) (a : Nat) (b : Nat) (n : Nat) (k : _),
      s.MemOk ∧
      0x100000 ≤ a ∧
      a + n ≤ 0x200000 ∧
      0x100000 ≤ b ∧
      b + n ≤ 0x200000 ∧
      (a + n ≤ b ∨ b + n ≤ a) ∧
      (k < cmKey c (b - 0x100000) ∨ cmKey c (b - 0x100000) + n ≤ k) :=
  ⟨{ sRun with mem := [(16, 9)] }, 0, 0x100010, 0x1FFFF0, 16, 16,
    by unfold State.MemOk; decide +kernel⟩

theorem test_FabricTasksComplete_0 :
    ∃ (s : State) (dt : Nat) (c : ClusterId) (i : Fin 4096) (u : State) (d : BitVec 512) (r : _),
      u = s.elapse dt ∧
      d = (s.cluster c).task i ∧
      u.running c i = some r ∧
      dKind d = kRouter ∧
      u.sendFits c d r u.now = packetCount d :=
  ⟨routed (sTask true send .running), 3100, 0, 0, _, _, aRun .running, rfl, rfl,
    by decide +kernel⟩

theorem test_FabricTasksComplete_1 :
    ∃ (s : State) (dt : Nat) (c : ClusterId) (i : Fin 4096) (u : State) (d : BitVec 512) (r : _),
      u = s.elapse dt ∧
      d = (s.cluster c).task i ∧
      u.running c i = some r ∧
      dKind d = kEgress ∧
      u.lateBy c i = none ∧
      u.badCplane c i r = false ∧
      u.canSend (dPartner d) = true ∧
      u.egressCount c i ≤ u.egressRoom c i r :=
  ⟨((secure (sTask true egress .running)).setPartner 257 anEntry).modPort 0 (fun x => { x with up := true }), 0, 0, 0, _,
    _, aRun .running, rfl, rfl,
    by decide +kernel⟩

theorem test_FabricTasksComplete_2 :
    ∃ (s : State) (dt : Nat) (c : ClusterId) (i : Fin 4096) (u : State) (d : BitVec 512) (r : _),
      u = s.elapse dt ∧
      d = (s.cluster c).task i ∧
      (s.cluster c).run i = some r ∧
      dKind d = kEgress ∧
      (s.cluster c).batch = false ∧
      dDeadline d ≤ u.inTick ∧
      (r.phase = .running ∨ r.phase = .waitConfirm) :=
  ⟨((sTask false egress .waitConfirm).setPartner 257 anEntry).modTime (fun t => { t with timeNs := 1000 }), 0, 0, 0, _, _,
    aRun .waitConfirm, rfl, rfl,
    by decide +kernel⟩

theorem test_FabricTasksComplete_3 :
    ∃ (s : State) (dt : Nat) (c : ClusterId) (i : Fin 4096) (u : State) (d : BitVec 512) (r : _),
      u = s.elapse dt ∧
      d = (s.cluster c).task i ∧
      u.running c i = some r ∧
      dKind d = kIngress ∧
      (s.cluster c).batch = false ∧
      dDeadline d ≤ u.inTick :=
  ⟨(sTask false ingress .running).setPartner 257 anEntry, 0, 0, 0, _, _, aRun .running, rfl, rfl,
    by decide +kernel⟩

theorem test_SlabTasks_0 :
    ∃ (s : State) (dt : Nat) (c : ClusterId) (i : Fin 4096) (noise : List Int) (u : State) (d : BitVec 512) (r : _),
      u = s.elapse dt ∧
      d = (s.cluster c).task i ∧
      u.running c i = some r ∧
      dKind d = kSlab ∧
      r.detour = false ∧
      r.begun = true ∧
      u.slabEnd c i r ≤ u.issue ∧
      u.heldBack c i r = false ∧
      (∀ j ∈ (s.cluster c).slabsOf c i, (s.slab j).mismatch = none ∧ ((s.cluster c).onSlabs c j).head? = some i.val) ∧
      (∀ j ∈ indexed ((s.cluster c).slabsOf c i), (u.slab j.2).firstMismatch (u.seamForced j.2) (benchSeq d (segOf d j.1 r.input)) (u.coarse j.2 (fun no p => nth 0 noise (noiseIndex d j.1 no p))) = none) :=
  ⟨(sTask true slabMvm .running).setSlab 0 readySlab, 100000, 0, 0, [], _, _, aRun .running, rfl, rfl,
    by decide +kernel⟩

theorem test_SlabTasks_1 :
    ∃ (s : State) (dt : Nat) (c : ClusterId) (i : Fin 4096) (noise : List Int) (u : State) (d : BitVec 512) (r : _) (m : _) (j : _),
      u = s.elapse dt ∧
      d = (s.cluster c).task i ∧
      u.running c i = some r ∧
      dKind d = kSlab ∧
      r.detour = false ∧
      r.begun = true ∧
      (s.cluster c).slabsOf c i = [j] ∧
      u.slabEnd c i r ≤ u.issue ∧
      u.heldBack c i r = false ∧
      (s.slab j).mismatch = none ∧
      ((s.cluster c).onSlabs c j).head? = some i.val ∧
      (u.slab j).firstMismatch (u.seamForced j) (benchSeq d (segOf d 0 r.input)) (u.coarse j (fun no p => nth 0 noise (noiseIndex d 0 no p))) = some m :=
  ⟨{ ((sTask true slabMvm .running).setSlab 0 readySlab).modCluster 0 (fun x => { x with runs := [(0, { aRun .running with input := [1] })] }) with faults := [{ kind := 3, target := 0, until_ := none }] },
    100000, 0, 0, [], _, _, { aRun .running with input := [1] }, (0, 0), 0, rfl, rfl,
    by decide +kernel⟩

theorem test_SlabTasks_2 :
    ∃ (s : State) (k : SlabId) (reads : List Int) (m : _),
      (s.slab k).mismatch = some m ∧
      reads.length = 33 :=
  ⟨sRun.setSlab 0 { readySlab with mismatch := some (0, 7) }, 0, List.replicate 33 0, (0, 7),
    by decide +kernel⟩

theorem test_SlabTasks_3 :
    ∃ (s : State) (k : SlabId),
      (s.slab k).dress = .detour ∧
      (s.slab k).detourReady = false ∧
      (s.slab k).master.isSome = true ∧
      s.hbmOn = true :=
  ⟨sRun.setSlab 16383 { readySlab with dress := .detour }, 16383,
    by decide +kernel⟩

theorem test_SlabTasks_4 :
    ∃ (s : State) (dt : Nat) (c : ClusterId) (u : State) (b0 : _) (r0 : _),
      u = s.elapse dt ∧
      (s.engine c).batch.head? = some b0 ∧
      (s.cluster c).run b0.2 = some r0 ∧
      batchNs (s.engine c).batch.length (u.batchBlocks c (s.engine c).batch) ≤ u.ran r0 + u.tailRest 1 ∧
      (∀ b ∈ (s.engine c).batch, ∀ r, (s.cluster c).run b.2 = some r → u.heldBack c b.2 r = false) :=
  ⟨(sTask true slabMvm .running).modEngine 0 (fun g => { g with batch := [(0, 0)] }), 100000, 0, _, (0, 0), aRun .running,
    rfl,
    by decide +kernel⟩

theorem test_OpticalTasks_0 :
    ∃ (s : State) (dt : Nat) (c : ClusterId) (i : Fin 4096) (u : State) (d : BitVec 512) (r : _) (n : _),
      u = s.elapse dt ∧
      d = (s.cluster c).task i ∧
      u.running c i = some r ∧
      dKind d = kOptical ∧
      r.begun = true ∧
      omNs d r.replayed + n ≤ u.ran r + u.tailRest (omRate d) ∧
      u.heldBack c i r = false :=
  ⟨sTask true optMvm .running, 100000, 0, 0, _, _, aRun .running, 1000, rfl, rfl,
    by decide +kernel⟩

theorem test_OpticalTasks_1 :
    ∃ (s : State) (dt : Nat) (c : ClusterId) (i : Fin 4096) (u : State) (d : BitVec 512) (r : _),
      u = s.elapse dt ∧
      d = (s.cluster c).task i ∧
      u.running c i = some r ∧
      dKind d = kWeight ∧
      (s.engine c).batch = [] ∧
      (s.engine c).calDue = none ∧
      max r.at_ (s.engine c).refreshUntil + 64 ≤ u.now :=
  ⟨sTask true (task 3 1000 (0x100000 <<< 192 + 4128 <<< 256)) .running, 64, 0, 0, _, _, aRun .running, rfl, rfl,
    by decide +kernel⟩

theorem test_OpticalTasks_2 :
    ∃ (s : State) (dt : Nat) (c : ClusterId) (u : State),
      u = s.elapse dt ∧
      (s.engine c).active.loaded = true ∧
      ((s.engine c).active.since + 100000 ≤ u.now ∨ (s.engine c).refreshDue = true) ∧
      (s.engine c).batch = [] ∧
      (s.engine c).refreshUntil ≤ u.now ∧
      (u.engineBusy c = false ∨ u.inSlot = true ∨ (s.engine c).active.since + 150000 ≤ u.now) :=
  ⟨sRun.modEngine 0 (fun g => { g with active := { g.active with loaded := true } }), 100000, 0, _, rfl,
    by decide +kernel⟩

theorem test_EpochVerdicts_0 :
    ∃ (s : State) (dt : Nat) (e : EngineId) (u : State) (ep : _),
      u = s.elapse dt ∧
      s.clocksOn = true ∧
      u.lastEnded 10000 = some ep ∧
      (u.lastEnded 20001).any (fun l => epLe ep l) = false ∧
      (u.engine e).dueEpochs ep u.epochNow = [ep] ∧
      (s.engine e).spoilDue = none :=
  ⟨{ sRun with time := { TimeState.init with timeNs := 30000, clock := 30000 } }, 0, 63, _, 1, rfl,
    by decide +kernel⟩

theorem test_EpochVerdicts_1 :
    ∃ (s : State) (dt : Nat) (e : EngineId) (u : State) (ep : _),
      u = s.elapse dt ∧
      s.clocksOn = true ∧
      u.lastEnded 20000 = some ep ∧
      (u.engine e).dueEpochs ep u.epochNow = [ep] ∧
      (s.engine e).spoilDue = none :=
  ⟨{ sRun with time := { TimeState.init with timeNs := 30000, clock := 30000 } }, 0, 63, _, 0, rfl,
    by decide +kernel⟩

theorem test_EpochVerdicts_2 :
    ∃ (s : State) (e : EngineId) (w : _) (ep : _) (y : _),
      w ∈ (s.confirmTo e ep).tags ∧
      w.2 = y ∧
      lineCluster w.1 = e.val :=
  ⟨{ sRun with tags := [(0, aTag)] }, 0, (0, aTag), 5, aTag,
    by decide +kernel⟩

theorem test_EpochVerdicts_3 :
    ∃ (s : State) (e : EngineId) (w : _) (ep : _) (y : _),
      w ∈ (s.spoilFrom e ep).tags ∧
      w.2 = y ∧
      lineCluster w.1 = e.val ∧
      epLe ep y.epoch = true :=
  ⟨{ sRun with tags := [(0, { aTag with spoiled := false })] }, 0, (0, aTag), 5, aTag,
    by decide +kernel⟩

theorem test_EpochVerdicts_4 :
    ∃ (s : State) (e : EngineId) (ep : _) (inj : _),
      (s.engine e).spoilDue = some (ep, inj) :=
  ⟨sRun.modEngine 63 (fun g => { g with spoilDue := some (5, false) }), 63, 5, false,
    by decide +kernel⟩

theorem test_FrozenLoopResumes_0 :
    ∃ (s : State) (dt : Nat) (k : LoopId) (u : State),
      u = s.elapse dt ∧
      (s.loop k).frozen = true ∧
      (s.loop k).frozenAt + 1000000000 ≤ u.now :=
  ⟨sRun.modLoop 5128 (fun x => { x with frozen := true }), 1000000000, 5128, _, rfl,
    by decide +kernel⟩

theorem test_LockLoops_0 :
    ∃ (s : State) (k : LoopId),
      s.sensorsOn = true ∧
      (s.loop k).phase = .locked ∧
      3 ≤ (s.loop k).outTicks :=
  ⟨sLoop (fun x => { x with phase := .locked, outTicks := 3 }), 7,
    by decide +kernel⟩

theorem test_LockLoops_1 :
    ∃ (s : State) (dt : Nat) (k : LoopId) (u : State) (tones : PilotTones),
      u = s.elapse dt ∧
      s.sensorsOn = true ∧
      (s.loop k).phase = .pilotWait ∧
      u.pilotDue k = true ∧
      (s.loop k).waitFrom + 1000000 + (u.timeNat - u.pilotPoint) ≤ u.now ∧
      (∀ o ∈ tones.others, 4 * o ≤ tones.own) ∧
      s.pilotRefOf k ≤ 4 * tones.own :=
  ⟨{ sLoop (fun x => { x with phase := .pilotWait }) with pilotRef := [(7, 16)] }, 1000000, 7, _,
    { own := 4, others := [1] }, rfl,
    by decide +kernel⟩

theorem test_LockLoops_2 :
    ∃ (s : State) (dt : Nat) (k : LoopId) (u : State) (tones : PilotTones),
      u = s.elapse dt ∧
      s.sensorsOn = true ∧
      (s.loop k).phase = .locked ∧
      u.pilotDue k = true ∧
      ((∃ o ∈ tones.others, tones.own < 4 * o) ∨ 4 * tones.own < s.pilotRefOf k) :=
  ⟨{ sLoop (fun x => { x with phase := .locked }) with pilotRef := [(7, 16)] }, 0, 7, _, { own := 7, others := [2] }, rfl,
    by decide +kernel⟩

theorem test_LockLoops_3 :
    ∃ (s : State) (dt : Nat) (k : LoopId) (u : State) (out : SweepOutcome),
      u = s.elapse dt ∧
      s.sensorsOn = true ∧
      (s.loop k).phase = .sweep ∧
      (s.loop k).queued = false ∧
      s.isInjected 2 k = false ∧
      (s.loop k).sweepFrom + 200000 ≤ u.now ∧
      out.closed = true ∧
      u.loopLit k = true :=
  ⟨sLit.modLoop 7 (fun x => { x with phase := .sweep }), 200000, 7, _,
    { closed := true, taps := [3, 900, 4], slope := 12 }, rfl,
    by decide +kernel⟩

theorem test_LockLoops_4 :
    ∃ (s : State) (dt : Nat) (k : LoopId) (u : State) (out : SweepOutcome),
      u = s.elapse dt ∧
      s.sensorsOn = true ∧
      (s.loop k).phase = .sweep ∧
      (s.loop k).queued = false ∧
      s.isInjected 2 k = false ∧
      (s.loop k).sweepFrom + 200000 ≤ u.now ∧
      (out.closed = false ∨ u.loopLit k = false) ∧
      (s.loop k).fails + 1 < 3 :=
  ⟨sLit.modLoop 7 (fun x => { x with phase := .sweep, fails := 1 }), 200000, 7, _,
    { closed := false, taps := [], slope := 0 }, rfl,
    by decide +kernel⟩

theorem test_LockLoops_5 :
    ∃ (s : State) (dt : Nat) (k : LoopId) (u : State) (out : SweepOutcome),
      u = s.elapse dt ∧
      s.sensorsOn = true ∧
      (s.loop k).phase = .sweep ∧
      (s.loop k).queued = false ∧
      s.isInjected 2 k = false ∧
      (s.loop k).sweepFrom + 200000 ≤ u.now ∧
      (out.closed = false ∨ u.loopLit k = false) ∧
      3 ≤ (s.loop k).fails + 1 :=
  ⟨sLoop (fun x => { x with phase := .sweep, fails := 2 }), 200000, 7, _, { closed := true, taps := [], slope := 0 }, rfl,
    by decide +kernel⟩

theorem test_LockLoops_6 :
    ∃ (s : State) (e : EngineId) (p : _),
      (s.engine e).calRow = some p ∧
      (s.engine e).abandoned = true ∧
      (s.engine e).unmapped = [] :=
  ⟨sRun.modEngine 63 (fun g => { g with calRow := some 0 }), 63, 0,
    by decide +kernel⟩

theorem test_ControlTicks_0 :
    ∃ (s : State) (dt : Nat) (m : Measurements) (u : State) (v : State),
      u = s.elapse dt ∧
      v = (((((u.modTime (fun q => { q with controlAt := some u.controlPoint })).readInput m).rampDone 0).rampDone 1).readSensors m).pmSample ∧
      m.wellFormed = true ∧
      s.powered = true ∧
      u.controlDue = true ∧
      s.sensorsOn = true ∧
      (∀ d, d < 4 → v.dieTemp d < 460) :=
  ⟨sRun, 0, { quiet with temps := [459] }, _, _, rfl, rfl,
    by decide +kernel⟩

theorem test_ControlTicks_1 :
    ∃ (s : State) (dt : Nat) (m : Measurements) (u : State) (v : State),
      u = s.elapse dt ∧
      v = (((((u.modTime (fun q => { q with controlAt := some u.controlPoint })).readInput m).rampDone 0).rampDone 1).readSensors m).pmSample ∧
      m.wellFormed = true ∧
      s.powered = true ∧
      u.controlDue = true ∧
      s.sensorsOn = true ∧
      (∃ d, d < 4 ∧ 460 ≤ v.dieTemp d) :=
  ⟨sRun, 0, { quiet with temps := [460, 460] }, _, _, rfl, rfl,
    ⟨by decide +kernel, by decide +kernel, by decide +kernel, by decide +kernel, ⟨0, by decide, by decide +kernel⟩⟩⟩

theorem test_ControlTicks_2 :
    ∃ (s : State) (dt : Nat) (m : Measurements) (u : State),
      u = s.elapse dt ∧
      m.wellFormed = true ∧
      s.powered = true ∧
      u.controlDue = true ∧
      s.sensorsOn = false :=
  ⟨sRun.modPower (fun p => { p with pstate := .ps3 }), 0, quiet, _, rfl,
    by decide +kernel⟩

theorem test_ControlTicks_3 :
    ∃ (s : State) (dt : Nat) (m : Measurements) (u : State) (x : Loop),
      u = s.elapse dt ∧
      m.wellFormed = true ∧
      s.powered = true ∧
      u.controlDue = true ∧
      x.frozen = false :=
  ⟨sRun, 0, quiet, _,
    { Loop.init 7 with coef := 0x00000000000000000000000000000000000000000000000000000000FFFF8000, frozen := false, i := 5, d := 6, p := 7 },
    rfl,
    by decide +kernel⟩

theorem test_ControlTicks_4 :
    ∃ (s : State) (dt : Nat) (m : Measurements) (u : State) (x : Loop),
      u = s.elapse dt ∧
      m.wellFormed = true ∧
      s.powered = true ∧
      u.controlDue = true ∧
      x.frozen = false ∧
      coOutMin x.coef ≤ coOutMax x.coef :=
  ⟨sRun, 0, quiet, _,
    { Loop.init 7 with coef := 0x00000000000000000000000000000000000000000000000000000000FFFF8000, frozen := false, i := 5, d := 6, p := 7 },
    rfl,
    by decide +kernel⟩

theorem test_ControlTicks_6 :
    ∃ (s : State) (dt : Nat) (m : Measurements) (u : State) (x : Loop),
      u = s.elapse dt ∧
      m.wellFormed = true ∧
      s.powered = true ∧
      u.controlDue = true ∧
      x.frozen = true :=
  ⟨sRun, 0, quiet, _,
    { Loop.init 7 with coef := 0x00000000000000000000000000000000000000000000000000000000FFFF8000, frozen := true, i := 5, d := 6, p := 7 },
    rfl,
    by decide +kernel⟩

theorem test_AgeTrimFollowsDrift_0 :
    ∃ (s : State) (k : SlabId) (sum : Nat) (trim : Int),
      (s.slab k).driftPairs = 64 ∧
      (s.slab k).driftSum = sum ∧
      0 < sum ∧
      trim = divRound (0x4000 * (s.slab k).driftBase * 64 * 1048576) sum :=
  ⟨sTile.setSlab 3 { Slab.init with driftPairs := 64, driftSum := 1, driftBase := 1 }, 3, 1, 0x4000 * 64 * 1048576,
    by decide +kernel⟩

theorem test_SlabUpkeep_0 :
    ∃ (s : State) (dt : Nat) (k : SlabId) (u : State) (n : _),
      u = s.elapse dt ∧
      (s.slab k).redressAt = some n ∧
      s.mbx.fw = .running ∧
      (s.slab k).dress ≠ .blank ∧
      (u.slab k).ageValid u.time = true ∧
      n ≤ (u.slab k).age u.time :=
  ⟨{ sTile.setSlab 3 { Slab.init with dress := .ready } with time := { TimeState.init with timeNs := 9900000000000000, tai := true } },
    0, 3, _, 9900000, rfl,
    by decide +kernel⟩

theorem test_SlabUpkeep_1 :
    ∃ (s : State) (dt : Nat) (k : SlabId) (u : State) (q : _) (m : _),
      u = s.elapse dt ∧
      u.atStart = true ∧
      u.dressingOpen = true ∧
      u.dressQueue.find? u.mayDress = some k.val ∧
      (s.slab k).queued = some q ∧
      u.dressSource k = some m ∧
      mapFault (u.copyMap m.1 m.2) = none :=
  ⟨sTile.setSlab 3 { Slab.init with queued := some { cls := 2, queuedAt := 0, order := 0, params := some { tileId := 5, seamThresh := 2880, redressAge := 0, model := 0 } } },
    0, 3, _,
    { cls := 2, queuedAt := 0, order := 0, params := some { tileId := 5, seamThresh := 2880, redressAge := 0, model := 0 } },
    (0, 0), rfl,
    by decide +kernel⟩

theorem test_SlabUpkeep_2 :
    ∃ (s : State) (dt : Nat) (k : SlabId) (u : State) (q : _) (m : _) (col : _),
      u = s.elapse dt ∧
      u.atStart = true ∧
      u.dressingOpen = true ∧
      u.dressQueue.find? u.mayDress = some k.val ∧
      (s.slab k).queued = some q ∧
      u.dressSource k = some m ∧
      mapFault (u.copyMap m.1 m.2) = some col :=
  ⟨{ sTile.setSlab 3 { Slab.init with queued := some { cls := 2, queuedAt := 0, order := 0, params := some { tileId := 5, seamThresh := 2880, redressAge := 0, model := 0 } } } with mem := [] },
    0, 3, _,
    { cls := 2, queuedAt := 0, order := 0, params := some { tileId := 5, seamThresh := 2880, redressAge := 0, model := 0 } },
    (0, 0), 0, rfl,
    by decide +kernel⟩

theorem test_SlabUpkeep_3 :
    ∃ (s : State) (dt : Nat) (k : SlabId) (u : State) (r : _) (o : DressOutcome) (bad : _),
      u = s.elapse dt ∧
      bad = ((({ (s.slab k) with cells := r.goal } : Slab).unverified r (o.reads.filter (fun e => decide (e.2.1 < 264)))).map (fun e => e.2)).dedup ∧
      (s.slab k).running = some r ∧
      r.doneAt = none ∧
      r.retired = none ∧
      r.spares = [] ∧
      (s.slab k).freeSpares.length < bad.length ∧
      r.startedAt + 7900000 ≤ u.now :=
  ⟨sTile.setSlab 3 { Slab.init with dress := .dressing, running := some { params := { tileId := 5, seamThresh := 2880, redressAge := 0, model := 0 }, startedAt := 0, doneAt := none, page := 0, ofs := 0, map := List.replicate 256 0x0C00, digest := 1, codes := [], goal := [], retired := none, spares := [], free := 0 } },
    7900000, 3, _,
    { params := { tileId := 5, seamThresh := 2880, redressAge := 0, model := 0 }, startedAt := 0, doneAt := none, page := 0, ofs := 0, map := List.replicate 256 0x0C00, digest := 1, codes := [], goal := [], retired := none, spares := [], free := 0 },
    { reads := (List.range 9).map (fun j => (0, j, 1000)), b := [] }, _, rfl, rfl,
    by decide +kernel⟩

theorem test_SlabUpkeep_4 :
    ∃ (s : State) (dt : Nat) (k : SlabId) (u : State) (r : _) (o : DressOutcome) (bad : _),
      u = s.elapse dt ∧
      bad = ((({ (s.slab k) with cells := r.goal } : Slab).unverified r (o.reads.filter (fun e => decide (e.2.1 < 264)))).map (fun e => e.2)).dedup ∧
      (s.slab k).running = some r ∧
      r.doneAt = none ∧
      r.retired = none ∧
      r.spares = [] ∧
      bad ≠ [] ∧
      r.startedAt + 4000000 ≤ u.now ∧
      u.now < r.startedAt + 7900000 :=
  ⟨sTile.setSlab 3 { Slab.init with dress := .dressing, running := some { params := { tileId := 5, seamThresh := 2880, redressAge := 0, model := 0 }, startedAt := 0, doneAt := none, page := 0, ofs := 0, map := List.replicate 256 0x0C00, digest := 1, codes := [], goal := [], retired := none, spares := [], free := 0 } },
    4000000, 3, _,
    { params := { tileId := 5, seamThresh := 2880, redressAge := 0, model := 0 }, startedAt := 0, doneAt := none, page := 0, ofs := 0, map := List.replicate 256 0x0C00, digest := 1, codes := [], goal := [], retired := none, spares := [], free := 0 },
    { reads := (List.range 8).map (fun j => (0, j, 1000)), b := [] }, _, rfl, rfl,
    by decide +kernel⟩

theorem test_SlabUpkeep_5 :
    ∃ (s : State) (dt : Nat) (k : SlabId) (u : State) (r : _) (o : DressOutcome) (bad : _),
      u = s.elapse dt ∧
      bad = ((({ (s.slab k) with cells := r.goal } : Slab).unverified r (o.reads.filter (fun e => decide (e.2.1 < 264)))).map (fun e => e.2)).dedup ∧
      (s.slab k).running = some r ∧
      r.doneAt = none ∧
      r.retired = none ∧
      r.spares = [] ∧
      bad.length ≤ (s.slab k).freeSpares.length ∧
      (r.startedAt + 7900000 ≤ u.now ∨ bad = [] ∧ r.startedAt + 4000000 ≤ u.now) ∧
      u.stillMapped k r = true :=
  ⟨sTile.setSlab 3 { Slab.init with dress := .dressing, running := some { params := { tileId := 5, seamThresh := 2880, redressAge := 0, model := 0 }, startedAt := 0, doneAt := none, page := 0, ofs := 0, map := List.replicate 256 0x0C00, digest := 1, codes := [], goal := [], retired := none, spares := [], free := 0 } },
    7900000, 3, _,
    { params := { tileId := 5, seamThresh := 2880, redressAge := 0, model := 0 }, startedAt := 0, doneAt := none, page := 0, ofs := 0, map := List.replicate 256 0x0C00, digest := 1, codes := [], goal := [], retired := none, spares := [], free := 0 },
    { reads := (List.range 8).map (fun j => (0, j, 1000)), b := [] }, _, rfl, rfl,
    by decide +kernel⟩

theorem test_SlabUpkeep_6 :
    ∃ (s : State) (dt : Nat) (k : SlabId) (u : State) (r : _) (n : _),
      u = s.elapse dt ∧
      (s.slab k).dress = .dressing ∧
      (s.slab k).running = some r ∧
      r.doneAt = some n ∧
      u.atStart = true ∧
      n + Config.leadNs ≤ u.startClock :=
  ⟨{ sTile.setSlab 3 { Slab.init with dress := .dressing, running := some { params := { tileId := 5, seamThresh := 2880, redressAge := 0, model := 0 }, startedAt := 0, doneAt := (some 0), page := 0, ofs := 0, map := List.replicate 256 0x0C00, digest := 1, codes := [], goal := [], retired := none, spares := [], free := 0 } } with time := { TimeState.init with clock := 2000000, timeNs := 2000000, tickStart := 2000000 } },
    50, 3, _,
    { params := { tileId := 5, seamThresh := 2880, redressAge := 0, model := 0 }, startedAt := 0, doneAt := (some 0), page := 0, ofs := 0, map := List.replicate 256 0x0C00, digest := 1, codes := [], goal := [], retired := none, spares := [], free := 0 },
    0, rfl,
    by decide +kernel⟩

theorem test_MonitorConverters_0 :
    ∃ (s : State) (dt : Nat) (k : McId) (u : State),
      u = s.elapse dt ∧
      s.convertersOn = true ∧
      (s.mc k).start = true ∧
      (s.mc k).busy = false ∧
      ((s.mc k).continuous = true → 2000 ≤ u.sinceControl ∧ u.sinceControl ≤ 2050) :=
  ⟨sRun.modMc 3 (fun x => { x with start := true, scanMask := 0x80000001 }), 0, 3, _, rfl,
    by decide +kernel⟩

theorem test_MonitorConverters_1 :
    ∃ (s : State) (dt : Nat) (k : McId) (u : State) (y : _) (rest : _),
      u = s.elapse dt ∧
      (s.mc k).todo = y :: rest ∧
      y.2 + 200 ≤ u.now :=
  ⟨sRun.modMc 3 (fun x => { x with todo := [(31, 0)], dataValid := true }), 200, 3, _, (31, 0), [], rfl,
    by decide +kernel⟩

theorem test_MonitorConverters_2 :
    ∃ (s : State) (dt : Nat) (k : McId) (u : State),
      u = s.elapse dt ∧
      (s.mc k).dataValid = true ∧
      u.inLoopWindow = false :=
  ⟨{ sRun.modMc 3 (fun x => { x with dataValid := true, dataCh := 31, data := 9 }) with time := { TimeState.init with timeNs := 2000 } },
    0, 3, _, rfl,
    by decide +kernel⟩

theorem test_MonitorConverters_3 :
    ∃ (s : State) (dt : Nat) (k : McId) (u : State) (y : _) (rest : _),
      u = s.elapse dt ∧
      (s.mc k).inj = y :: rest ∧
      y.2.2 + 200 ≤ u.now :=
  ⟨sRun.modMc 3 (fun x => { x with inj := [(31, .ctl, 0)] }), 200, 3, _, (31, .ctl, 0), [], rfl,
    by decide +kernel⟩

theorem test_MonitorConverters_4 :
    ∃ (s : State) (dt : Nat) (k : McId) (u : State),
      u = s.elapse dt ∧
      (s.mc k).refmode = false ∧
      (s.mc k).refReady = false ∧
      (s.mc k).refFrom + 20000 ≤ u.now :=
  ⟨sRun.modMc 3 (fun x => { x with refmode := false, scanMask := 1 }), 20000, 3, _, rfl,
    by decide +kernel⟩

theorem test_LinksAndLanes_0 :
    ∃ (s : State) (dt : Nat) (p : PortId) (sak : List Byte) (u : State),
      u = s.elapse dt ∧
      sak.length = 32 ∧
      u.portRuns p = true :=
  ⟨onPort0 sRun, 0, 0, zs 32, _, rfl,
    by decide +kernel⟩

theorem test_LinksAndLanes_1 :
    ∃ (s : State) (dt : Nat) (p : PortId) (sak : List Byte) (u : State),
      u = s.elapse dt ∧
      sak.length = 32 ∧
      u.portRuns p = true :=
  ⟨onPort0 sRun, 0, 0, zs 32, _, rfl,
    by decide +kernel⟩

theorem test_LinksAndLanes_7 :
    ∃ (s : State) (ca : BitVec 12) (sak : List Byte),
      sak.length = 32 ∧
      s.linksOn = true ∧
      (s.ca ca.toNat).cak.isSome = true :=
  ⟨{ sRun with trust := { sRun.trust with cas := [(4095, { Ca.init with cak := some [], sak := some [] })] } }, 4095,
    zs 32,
    by decide +kernel⟩

theorem test_LinksAndLanes_9 :
    ∃ (s : State) (ca : BitVec 12) (sak : List Byte),
      sak.length = 32 ∧
      s.linksOn = true ∧
      (s.ca ca.toNat).sak.isSome = true :=
  ⟨{ sRun with trust := { sRun.trust with cas := [(4095, { Ca.init with cak := some [], sak := some [] })] } }, 4095,
    zs 32,
    by decide +kernel⟩

theorem test_LinksAndLanes_11 :
    ∃ (s : State) (dt : Nat) (sak : List Byte) (u : State) (q : DelayRequest) (i : _),
      u = s.elapse dt ∧
      sak.length = 32 ∧
      s.rxOn q.port = true ∧
      s.fronthaulAt q.mac = some i ∧
      q.revision = 1 ∧
      q.concat = false ∧
      q.action.toNat ≤ 1 ∧
      u.rxFault (peCa (s.partner i)) q.prot = none ∧
      peState (s.partner i) = psActive ∧
      s.secured i = true ∧
      (s.port (pePort (s.partner i))).up = true ∧
      s.jtag.inEffect = false :=
  ⟨onPort0 (secure (sRun.setPartner 300 (frontEntry 1))), 0, zs 32, _,
    { port := 0, mac := 0, measurement := 7, prot := under16 }, 300, rfl,
    by decide +kernel⟩

theorem test_LinksAndLanes_12 :
    ∃ (s : State) (p : PortId) (l : Fin 8) (sak : List Byte),
      sak.length = 32 ∧
      s.linksOn = true ∧
      (s.port p).dark.getLsbD l = false :=
  ⟨sRun, 0, 7, zs 32,
    by decide +kernel⟩

theorem test_LinksAndLanes_13 :
    ∃ (s : State) (p : PortId) (l : Fin 8) (sak : List Byte),
      sak.length = 32 ∧
      s.linksOn = true ∧
      (s.port p).dark.getLsbD l = true :=
  ⟨sRun.modPort 0 (fun x => { x with dark := 0x80 }), 0, 7, zs 32,
    by decide +kernel⟩

theorem test_LinksAndLanes_14 :
    ∃ (sak : List Byte),
      sak.length = 32 :=
  ⟨zs 32,
    by decide +kernel⟩

theorem test_UplaneLands_0 :
    ∃ (s : State) (p : PortId) (x : Section) (b : Prb),
      s.rxOn p = true ∧
      x.prbs = [b] ∧
      b.iq.length = 24 ∧
      s.uplanePartner x = none :=
  ⟨onPort0 sRun, 0, aSection 0, aPrb,
    by decide +kernel⟩

theorem test_UplaneLands_1 :
    ∃ (s : State) (dt : Nat) (p : PortId) (x : Section) (i : Nat) (e : BitVec 512) (b : Prb) (mu : Nat) (u : State),
      u = s.elapse dt ∧
      mu = 4 - s.time.period ∧
      s.rxOn p = true ∧
      x.prbs = [b] ∧
      b.iq.length = 24 ∧
      s.uplanePartner x = some (i, e) ∧
      s.time.period ≠ 0 ∧
      x.subframe.toNat < 10 ∧
      x.slot.toNat < 2 ^ mu ∧
      x.symbol.toNat < 14 ∧
      s.partner i = e ∧
      u.rxFault (peCa e) x.prot = none ∧
      unsupported x e = false ∧
      peState e = psShed :=
  ⟨onPort0 (secure (sRun.setPartner 300 (frontEntry 2))), 0, 0, aSection 0, 300, frontEntry 2, aPrb, _, _, rfl, rfl,
    by decide +kernel⟩

theorem test_UplaneLands_2 :
    ∃ (s : State) (dt : Nat) (p : PortId) (x : Section) (i : Nat) (e : BitVec 512) (b : Prb) (mu : Nat) (at_ : Nat) (cur : Nat) (u : State),
      u = s.elapse dt ∧
      mu = 4 - s.time.period ∧
      at_ = x.frameId.toNat * ticksPerFrame s.time.period + (x.subframe.toNat * 2 ^ mu + x.slot.toNat) ∧
      cur = u.frameNow % 256 * ticksPerFrame s.time.period + u.tickNow ∧
      s.rxOn p = true ∧
      x.prbs = [b] ∧
      b.iq.length = 24 ∧
      s.uplanePartner x = some (i, e) ∧
      s.time.period ≠ 0 ∧
      x.subframe.toNat < 10 ∧
      x.slot.toNat < 2 ^ mu ∧
      x.symbol.toNat < 14 ∧
      s.partner i = e ∧
      u.rxFault (peCa e) x.prot = none ∧
      unsupported x e = false ∧
      peState e = psActive ∧
      at_ = cur ∧
      cur < 256 * ticksPerFrame s.time.period ∧
      pePrbFirst e ≤ x.startPrb ∧
      x.startPrb < pePrbFirst e + pePrbCount e ∧
      2 ≤ peStreams e * pePrbCount e ∧
      (s.dyn i).landings = [] :=
  ⟨onPort0 (secure (sRun.setPartner 300 (frontEntry 1))), 0, 0, aSection 272, 300, frontEntry 1, aPrb, _, _, _, _, rfl,
    rfl, rfl, rfl,
    by decide +kernel⟩

theorem test_JoryarTransport_0 :
    ∃ (s : State) (dt : Nat) (p : PortId) (mac : BitVec 48) (h : JoryarHdr) (bs : List Byte) (x : BitVec 512) (u : State),
      u = s.elapse dt ∧
      s.rxOn p = true ∧
      bs.length ≤ 8256 ∧
      s.joryarPartner mac h = some x ∧
      u.rxFault (peCa x) h.prot = none ∧
      peState x = psActive ∧
      s.pageLoader h.dstPartner.toNat h.offset.toNat = none ∧
      h.offset.toNat + bs.length ≤ peLandBytes x ∧
      (peReliable x = true → h.seq.toNat = (s.dyn h.dstPartner.toNat).rxSeq) :=
  ⟨onPort0 (secure (sRun.setPartner 300 anEntry)), 0, 0, 0, aHdr 300 0, zs 64, anEntry, _, rfl,
    by decide +kernel⟩

theorem test_JoryarTransport_1 :
    ∃ (s : State) (dt : Nat) (p : PortId) (mac : BitVec 48) (h : JoryarHdr) (bs : List Byte) (x : BitVec 512) (u : State),
      u = s.elapse dt ∧
      s.rxOn p = true ∧
      bs.length ≤ 8256 ∧
      s.joryarPartner mac h = some x ∧
      u.rxFault (peCa x) h.prot = none ∧
      peState x = psShed :=
  ⟨onPort0 (secure (sRun.setPartner 300 shedEntry)), 0, 0, 0, aHdr 300 0, zs 64, shedEntry, _, rfl,
    by decide +kernel⟩

theorem test_JoryarTransport_2 :
    ∃ (s : State) (dt : Nat) (p : PortId) (mac : BitVec 48) (h : JoryarHdr) (bs : List Byte) (x : BitVec 512) (u : State),
      u = s.elapse dt ∧
      s.rxOn p = true ∧
      bs.length ≤ 8256 ∧
      s.joryarPartner mac h = some x ∧
      u.rxFault (peCa x) h.prot = none ∧
      peState x = psActive ∧
      (s.dyn h.dstPartner.toNat).queued = [] ∧
      ((h.ack.toNat + 2 ^ 32 - (s.dyn h.dstPartner.toNat).txSeq) % 2 ^ 32 = 0 ∨ 4096 < (h.ack.toNat + 2 ^ 32 - (s.dyn h.dstPartner.toNat).txSeq) % 2 ^ 32) :=
  ⟨onPort0 (secure (sRun.setPartner 300 anEntry)), 0, 0, 0, aHdr 300 0, [], anEntry, _, rfl,
    by decide +kernel⟩

theorem test_JoryarTransport_3 :
    ∃ (s : State) (p : PortId) (mac : BitVec 48) (h : JoryarHdr) (bs : List Byte),
      s.rxOn p = true ∧
      bs.length ≤ 8256 ∧
      s.joryarPartner mac h = none :=
  ⟨onPort0 sRun, 0, 0, aHdr 300 0, [],
    by decide +kernel⟩

theorem test_JoryarTransport_4 :
    ∃ (s : State) (i : PartnerId),
      s.linksOn = true ∧
      (s.dyn i).sinceAck ≠ 0 ∧
      s.secured i = true ∧
      (s.port (s.replyPort i)).up = true ∧
      s.jtag.inEffect = false :=
  ⟨(onPort0 (secure (sRun.setPartner 131071 anEntry))).modDyn 131071 (fun d => { d with sinceAck := 1 }), 131071,
    by decide +kernel⟩

theorem test_JoryarTransport_5 :
    ∃ (s : State) (dt : Nat) (u : State) (i : PartnerId),
      u = s.elapse dt ∧
      s.linksOn = true ∧
      (s.dyn i).unacked ≠ [] ∧
      (s.dyn i).ackAt + 100000 ≤ u.now ∧
      s.jtag.inEffect = false ∧
      s.secured i = true ∧
      (s.ca (peCa (s.partner i))).txPn + (s.dyn i).unacked.length ≤ 2 ^ 62 ∧
      (s.port (s.replyPort i)).up = true ∧
      (∀ f ∈ (s.dyn i).unacked, f.kind = 0 ∧ f.partner = i ∧ f.size ≤ frameMax) :=
  ⟨(onPort0 (secure (sRun.setPartner 131071 anEntry))).modDyn 131071 (fun d => { d with unacked := [keptFrame] }), 100000,
    _, 131071, rfl,
    by decide +kernel, by decide +kernel, by decide +kernel, by decide +kernel, by decide +kernel, by decide +kernel, by decide +kernel,
    keptFrame_fits _ (by decide +kernel)⟩

theorem test_RelayedCommands_0 :
    ∃ (s : State) (dt : Nat) (p : PortId) (h : JoryarHdr) (bs : List Byte) (i : Nat) (u : State),
      u = s.elapse dt ∧
      bs.length ≤ 8256 ∧
      h.seq.toNat = (s.dyn i).rxSeq ∧
      u.portRuns p = true ∧
      s.mailboxOn = true ∧
      s.mbx.manager = false ∧
      s.relaySource p h = some i ∧
      (u.relayPasses p i bs.length h).2 = true ∧
      bs.length = 64 ∧
      (s.portsOpen = true ∨ bareOpcode (leAt bs 0 2) = true) ∧
      (s.ring (relayRing (leAt bs 0 2))).free ≠ 0 :=
  ⟨sWorker, 0, 0, { aHdr 8 0 with srcModule := 7 }, zs 64, 8, _, rfl,
    by decide +kernel⟩

theorem test_RelayedCommands_1 :
    ∃ (s : State) (dt : Nat) (p : PortId) (h : JoryarHdr) (bs : List Byte) (i : Nat) (u : State),
      u = s.elapse dt ∧
      bs.length ≤ 8256 ∧
      h.seq.toNat = (s.dyn i).rxSeq ∧
      u.portRuns p = true ∧
      s.mailboxOn = true ∧
      s.mbx.manager = false ∧
      s.relaySource p h = some i ∧
      (u.relayPasses p i bs.length h).2 = true ∧
      s.strayBulk i h = false :=
  ⟨sWorker.modRing 2 (fun y => { y with cmds := [{ waiting [] with relay := some (8, 3), bulk := zs 4032 }] }), 0, 0,
    { aHdr 8 0 with srcModule := 7 }, zs 8256, 8, _, rfl,
    by decide +kernel⟩

theorem test_RelayedCommands_2 :
    ∃ (s : State) (dt : Nat) (p : PortId) (h : JoryarHdr) (bs : List Byte) (i : Nat) (u : State),
      u = s.elapse dt ∧
      bs.length ≤ 8256 ∧
      h.seq.toNat = (s.dyn i).rxSeq ∧
      s.rxOn p = true ∧
      s.fromWorker h = some i ∧
      (u.relayPasses p i bs.length h).2 = true :=
  ⟨sManager, 0, 0, aHdr 2 0, zs 8, 2, _, rfl,
    by decide +kernel⟩

theorem test_RelayedCommands_3 :
    ∃ (s : State) (dt : Nat) (p : PortId) (h : JoryarHdr) (bs : List Byte) (i : Nat) (u : State) (r : _),
      u = s.elapse dt ∧
      bs.length ≤ 8256 ∧
      h.seq.toNat = (s.dyn i).rxSeq ∧
      s.rxOn p = true ∧
      s.fromWorker h = some i ∧
      (u.relayPasses p i bs.length h).2 = true ∧
      s.relayOf h.srcModule.toNat h.tag.toNat = some r ∧
      r.cpl = none ∧
      (∀ q x, s.ringExecuting (fun c => match c with | .domainRelay w => decide (w.toNat = r.worker) | _ => false) = some q → (s.ring q).exec = some x → s.answerFits x.relay x.hdr (Relay.answer { r with cpl := some bs } s) = true) :=
  ⟨sManager, 0, 0, aHdr 2 0, zs 64, 2, _, aRelay, rfl,
    by decide +kernel, by decide +kernel, by decide +kernel, by decide +kernel, by decide +kernel, by decide +kernel, rfl,
    fun q x h _ => nomatch (show (none : Option Nat) = some q from h)⟩

theorem test_RelayedCommands_4 :
    ∃ (s : State) (dt : Nat) (h : JoryarHdr) (bs : List Byte) (i : Nat) (u : State) (w : Byte) (tag : Half) (r : _),
      u = s.elapse dt ∧
      bs.length ≤ 8256 ∧
      h.seq.toNat = (s.dyn i).rxSeq ∧
      s.relayOf w.toNat tag.toNat = some r ∧
      s.mailboxOn = true ∧
      r.cpl = none ∧
      r.since + r.limit ≤ u.now ∧
      s.mbx.boutFifo.length ≤ 65536 :=
  ⟨sManager, 10000000000, aHdr 2 0, [], 2, _, 1, 3, aRelay, rfl,
    by decide +kernel⟩

theorem test_RelayedCommands_5 :
    ∃ (s : State) (dt : Nat) (p : PortId) (h : JoryarHdr) (bs : List Byte) (i : Nat) (u : State),
      u = s.elapse dt ∧
      bs.length ≤ 8256 ∧
      h.seq.toNat = (s.dyn i).rxSeq ∧
      s.rxOn p = true ∧
      s.isJoryar h = true ∧
      peState (s.partner h.dstPartner.toNat) = psActive ∧
      (peKind (s.partner h.dstPartner.toNat) = pkSession ∨ peKind (s.partner h.dstPartner.toNat) = pkPeer) ∧
      u.rxFault (peCa (s.partner h.dstPartner.toNat)) h.prot = none :=
  ⟨onPort0 (secure (sRun.setPartner 300 anEntry)), 0, 0, aHdr 300 0, [], 300, _, rfl,
    by decide +kernel⟩

theorem test_RelayedCommands_6 :
    ∃ (s : State) (dt : Nat) (p : PortId) (h : JoryarHdr) (bs : List Byte) (i : Nat) (u : State) (m : Byte) (pr : Protection) (fp : BitVec 256),
      u = s.elapse dt ∧
      bs.length ≤ 8256 ∧
      h.seq.toNat = (s.dyn i).rxSeq ∧
      s.rxOn p = true ∧
      s.domainOn = true ∧
      s.mbx.manager = false ∧
      fp ≠ 0 ∧
      s.fabric.domain.succFps.contains fp = true ∧
      8 ≤ s.fabric.relay.since ∧
      peState (s.partner (1 + m.toNat)) = psActive ∧
      u.rxFault (peCa (s.partner (1 + m.toNat))) pr = none :=
  ⟨(sWorker.modDomain (fun d => { d with succFps := [0, 5] })).modRelay (fun r => { r with since := 8 }), 0, 0, aHdr 8 0,
    [], 8, _, 7, under16, 5, rfl,
    by decide +kernel⟩

theorem test_PortsAndRouter_0 :
    ∃ (s : State) (dt : Nat) (p : PortId) (u : State) (a : Fin 3),
      u = s.elapse dt ∧
      u.portRuns p = true ∧
      (a.val = 2 → ∃ l ∈ portLoops p, s.ringServes l = false) :=
  ⟨(onPort0 sRun), 0, 0, _, 2, rfl,
    by decide +kernel⟩

theorem test_PortsAndRouter_1 :
    ∃ (s : State) (p : PortId),
      s.linksOn = true ∧
      (s.port p).up = false ∧
      (s.port p).dark = 0 ∧
      s.isInjected 5 p = false ∧
      (∀ l ∈ portLoops p, s.ringServes l = true) :=
  ⟨{ sRun with loops := (List.range 24).map (fun j => (2368 + j, { Loop.init (2368 + j) with phase := .locked })) }, 0,
    by decide +kernel⟩

theorem test_PortsAndRouter_2 :
    ∃ (s : State) (dt : Nat) (u : State) (ph : Phase),
      u = s.elapse dt ∧
      s.clocksOn = true ∧
      s.fabric.phaseMap[s.fabric.curPhase + 1]? = some ph ∧
      ph.start ≤ u.inTick :=
  ⟨sRun.modFabric (fun f => { f with phaseMap := [{ start := 0, entries := [] }, { start := 500, entries := [] }] }), 500,
    _, { start := 500, entries := [] }, rfl,
    by decide +kernel⟩

theorem test_PortsAndRouter_3 :
    ∃ (s : State) (dt : Nat) (c : ClusterId) (k : Fin 4) (u : State),
      u = s.elapse dt ∧
      (s.entrySource s.phaseNow c k).isSome = true ∧
      s.retunes c k = true ∧
      s.fabric.phaseAt + 3000 ≤ u.now ∧
      u.now ≤ s.fabric.phaseAt + 3050 :=
  ⟨routed sRun, 3020, 1, 0, _, rfl,
    by decide +kernel⟩

theorem test_PortsAndRouter_4 :
    ∃ (s : State) (c : ClusterId) (src : ClusterId) (k : Fin 4) (a : Word) (data : List Byte) (pk : Packet),
      data.length ≤ 4096 ∧
      s.fabric.packets.find? (fun q => q.dest == c.val && q.rx == k.val) = some pk ∧
      pk.src = src.val ∧
      pk.addr = a.toNat ∧
      pk.data = data ∧
      s.joins src c = false :=
  ⟨(sPacket 0x100000 256).modCluster 1 (fun x => { x with tenant := 3 }), 1, 0, 0, 0x100000, zs 256, aPacket 0x100000 256,
    by decide +kernel⟩

theorem test_PortsAndRouter_5 :
    ∃ (s : State) (dt : Nat) (c : ClusterId) (src : ClusterId) (k : Fin 4) (u : State) (a : Word) (data : List Byte) (pk : Packet),
      u = s.elapse dt ∧
      data.length ≤ 4096 ∧
      s.fabric.packets.find? (fun q => q.dest == c.val && q.rx == k.val) = some pk ∧
      pk.src = src.val ∧
      pk.addr = a.toNat ∧
      pk.data = data ∧
      s.joins src c = true ∧
      u.barred c .clusterHaul a.toNat data.length = true :=
  ⟨sPacket 0x1FFFFF 2, 3000, 1, 0, 0, _, 0x1FFFFF, zs 2, aPacket 0x1FFFFF 2, rfl,
    by decide +kernel⟩

theorem test_PortsAndRouter_6 :
    ∃ (s : State) (dt : Nat) (c : ClusterId) (src : ClusterId) (k : Fin 4) (u : State) (a : Word) (data : List Byte) (pk : Packet),
      u = s.elapse dt ∧
      data.length ≤ 4096 ∧
      s.fabric.packets.find? (fun q => q.dest == c.val && q.rx == k.val) = some pk ∧
      pk.src = src.val ∧
      pk.addr = a.toNat ∧
      pk.data = data ∧
      s.joins src c = true ∧
      u.barred c .clusterHaul a.toNat data.length = false ∧
      (s.cluster c).isHeld [(cmKey c (a.toNat - 0x100000), data.length)] (fun _ => false) = false :=
  ⟨sPacket 0x100000 256, 3000, 1, 0, 0, _, 0x100000, zs 256, aPacket 0x100000 256, rfl,
    by decide +kernel⟩

theorem test_KeysAndStrips_0 :
    ∃ (s : State) (dt : Nat) (u : State) (t : TenantId) (k : Fin 2) (g : Nat) (p : Nat) (rest : List Nat) (n : Nat) (lo : _) (hi : _),
      u = s.elapse dt ∧
      lo = hbmKey p ((n - 1) * 0x10000) ∧
      hi = hbmKey p (n * 0x10000) ∧
      (s.tenant t).genOld = some g ∧
      s.power.pstate = .ps0 ∧
      s.clocksOn = true ∧
      u.holdOver t k = true ∧
      (s.pagesUnder t g).filter (fun q => pageStack q == k.val) = p :: rest ∧
      ((tabFind (s.tenant t).rekey k = none ∧ n = 1) ∨ (tabFind (s.tenant t).rekey k = some (p, n - 1) ∧ 2 ≤ n ∧ n ≤ 128)) ∧
      u.inFlight lo hi = false :=
  ⟨sRekey 126, 0, _, 0, 0, 1, 5, [], 127, _, _, rfl, rfl, rfl,
    by decide +kernel⟩

theorem test_KeysAndStrips_1 :
    ∃ (s : State) (dt : Nat) (u : State) (t : TenantId) (k : Fin 2) (p : Nat),
      u = s.elapse dt ∧
      tabFind (s.tenant t).rekey k = some (p, 128) ∧
      u.holdOver t k = true :=
  ⟨sRekey 128, 0, _, 0, 0, 5, rfl,
    by decide +kernel⟩

theorem test_KeysAndStrips_2 :
    ∃ (s : State) (dt : Nat) (u : State) (c : ClusterId) (y : Strip),
      u = s.elapse dt ∧
      (s.cluster c).strip = some y ∧
      y.running = false ∧
      u.atStart = true ∧
      y.notBefore ≤ u.now ∧
      s.linksOn = true ∧
      s.strips < 16 ∧
      u.slotsTaken ≤ 960 :=
  ⟨sRun.modCluster 63 (fun x => { x with strip := some { aStrip false with notBefore := 0 } }), 0, _, 63,
    { aStrip false with notBefore := 0 }, rfl,
    by decide +kernel⟩

theorem test_KeysAndStrips_3 :
    ∃ (s : State) (dt : Nat) (u : State) (c : ClusterId) (y : Strip),
      u = s.elapse dt ∧
      (s.cluster c).strip = some y ∧
      y.running = true ∧
      y.startedAt + 15900000 ≤ u.now ∧
      (s.tenant (s.cluster c).tenant).deleting = false :=
  ⟨sRun.modCluster 63 (fun x => { x with strip := some (aStrip true) }), 15900000, _, 63, aStrip true, rfl,
    by decide +kernel⟩

theorem test_FaultsTakeEffect_0 :
    ∃ (s : State) (n : CoreId) (c : Nat) (k : Nat),
      c = n.val / 64 ∧
      k = n.val % 64 ∧
      s.clocksOn = true ∧
      s.runsPlans = true ∧
      (s.cluster c).active.isSome = true ∧
      s.fabric.groupLost.contains (c / 32) = false ∧
      (s.cluster c).hung.any (fun h => h.1 == k) = false :=
  ⟨sRun.modCluster 63 (fun x => { x with active := some emptyPlan }), 4095, _, _, rfl, rfl,
    by decide +kernel⟩

theorem test_FaultsTakeEffect_1 :
    ∃ (s : State) (k : Fin 12),
      s.clocksOn = true ∧
      s.hbmLost.any (fun x => x.1 == k.val) = false :=
  ⟨{ sRun with hbmLost := [(0, none)] }, 11,
    by decide +kernel⟩

theorem test_FaultsTakeEffect_2 :
    ∃ (s : State),
      s.clocksOn = true ∧
      s.fabric.groupLost.contains 1 = false :=
  ⟨sRun,
    by decide +kernel⟩

theorem test_FaultsTakeEffect_3 :
    ∃ (s : State),
      s.clocksOn = true ∧
      s.fabric.groupLost.contains 0 = false :=
  ⟨sRun,
    by decide +kernel⟩

theorem test_FaultsTakeEffect_4 :
    ∃ (s : State) (dt : Nat) (u : State),
      u = s.elapse dt ∧
      s.mailboxOn = true ∧
      s.mbx.fw = .running ∧
      (s.mbx.wdogs.filter (fun n => decide (u.now < n + 1000000000))).length < 2 :=
  ⟨{ sRun with mbx := { sRun.mbx with wdogs := [0, 1] } }, 1000000000, _, rfl,
    by decide +kernel⟩

theorem test_FaultsTakeEffect_5 :
    ∃ (s : State) (dt : Nat) (u : State),
      u = s.elapse dt ∧
      s.mailboxOn = true ∧
      s.mbx.fw = .running ∧
      2 ≤ (s.mbx.wdogs.filter (fun n => decide (u.now < n + 1000000000))).length :=
  ⟨{ sRun with mbx := { sRun.mbx with wdogs := [0, 1] } }, 999999999, _, rfl,
    by decide +kernel⟩

theorem test_FaultsTakeEffect_6 :
    ∃ (s : State),
      s.mailboxOn = true ∧
      s.mbx.fw = .restarting :=
  ⟨{ sRun with mbx := { sRun.mbx with fw := .restarting, restarts := 255 } },
    by decide +kernel⟩

theorem test_FaultsTakeEffect_8 :
    ∃ (s : State) (dt : Nat) (u : State) (k : Byte) (g : Word) (f : Injected) (n : Nat),
      u = s.elapse dt ∧
      f ∈ s.faults ∧
      f.kind = k.toNat ∧
      f.target = g.toNat ∧
      f.until_ = some n ∧
      n ≤ u.now :=
  ⟨{ sRun with faults := [{ kind := 4, target := 255, until_ := some 1000 }] }, 1000, _, 4, 255,
    { kind := 4, target := 255, until_ := some 1000 }, 1000, rfl,
    by decide +kernel⟩

theorem test_SlicesMakeProducts_0 :
    ∃ (w : Int) (x : Int) (f : _),
      -128 ≤ x ∧
      x ≤ 127 ∧
      -128 ≤ w ∧
      w ≤ 127 ∧
      f < 2 :=
  ⟨-128, 127, 1,
    by decide +kernel⟩

theorem test_SlicesMakeProducts_1 :
    ∃ (w : Int) (x : Int),
      -128 ≤ x ∧
      x ≤ 127 ∧
      -8 ≤ w ∧
      w ≤ 7 :=
  ⟨7, -128,
    by decide +kernel⟩

theorem test_EventsArePosted_0 :
    ∃ (s : State),
      s.mbx.fw = .running :=
  ⟨sRun,
    by decide +kernel⟩

theorem test_EventsArePosted_4 :
    ∃ (s : State),
      s.mbx.fw = .running ∧
      s.mbx.log.length ≤ 8192 :=
  ⟨sRun,
    by decide +kernel⟩

theorem test_EventsArePosted_5 :
    ∃ (s : State),
      s.mbx.fw ≠ .running ∧
      s.mbx.hwFifo.length < 1024 :=
  ⟨sBoot,
    by decide +kernel⟩

theorem test_EventsArePosted_6 :
    ∃ (s : State),
      s.mbx.fw ≠ .running ∧
      1024 ≤ s.mbx.hwFifo.length :=
  ⟨{ sBoot with mbx := { Mailbox.init with hwFifo := List.replicate 1024 { time := 0, cls := 0, tenant := 0, module := false, injected := false, payload := 0 } } },
    by decide +kernel⟩

theorem test_EncodedCommandsParse_0 :
    ∃ (h : CmdHdr) (c : HostCmd),
      (ringsOf (opcodeOf c)).contains h.ring = true ∧
      (h.ring = .blk ∨ h.bulk = []) ∧
      (∀ l, c = .thermalLimitsSet l → l.length = 7) :=
  ⟨hd .ctl [], .thermalLimitsSet [1, 2, 3, 4, 5, 6, 7],
    by decide, by decide, fun l h => by cases h; rfl⟩

theorem test_StepKeepsMemoryAndQueue_0 :
    ∃ (s : State) (t : State),
      s.MemOk ∧
      step s = .next t :=
  ⟨{ sRun with pending := [.laneProbe 0 3 7] }, { sRun with pending := [] },
    by unfold State.MemOk; decide +kernel, rfl⟩

/-! ## Ill-formed commands: one for each check of `Instr.wellFormed` -/

theorem test_ill_thermalLimits : (Instr.thermalLimitsSet 0 (hd .ctl []) [1, 2, 3, 4, 5, 6]).wellFormed = false := by decide
theorem test_ill_startupTemps : (Instr.startupSensorRecheck 0 (List.replicate 255 0)).wellFormed = false := by decide +kernel
theorem test_ill_wakeTemps : (Instr.wakeRecheck 0 (List.replicate 257 0)).wellFormed = false := by decide +kernel
theorem test_ill_tickTemps : (Instr.controlTick 0 { quiet with temps := List.replicate 257 0 }).wellFormed = false := by decide +kernel
theorem test_ill_tickCounts : (Instr.controlTick 0 { quiet with counts := List.replicate 257 0 }).wellFormed = false := by decide +kernel
theorem test_ill_tickHbm : (Instr.controlTick 0 { quiet with hbm := List.replicate 13 0 }).wellFormed = false := by decide
theorem test_ill_tickCarts : (Instr.controlTick 0 { quiet with carts := [1, 2, 3] }).wellFormed = false := by decide
theorem test_ill_tickUnderruns : (Instr.controlTick 0 { quiet with underruns := [5120] }).wellFormed = false := by decide
theorem test_ill_seam : (Instr.seamLocalised 0 0 (List.replicate 32 0)).wellFormed = false := by decide
theorem test_ill_prb : (Instr.uplaneRx 0 0 { aSection 0 with prbs := [{ aPrb with iq := [] }] }).wellFormed = false := by decide
theorem test_ill_data : (Instr.joryarData 0 0 0 (aHdr 0 0) (zs 8257)).wellFormed = false := by decide +kernel
theorem test_ill_cmd : (Instr.joryarCmd 0 0 (aHdr 0 0) (zs 8257)).wellFormed = false := by decide +kernel
theorem test_ill_bulk : (Instr.joryarBulk 0 0 (aHdr 0 0) (zs 8257)).wellFormed = false := by decide +kernel
theorem test_ill_output : (Instr.joryarOutput 0 0 (aHdr 0 0) (zs 8257)).wellFormed = false := by decide +kernel
theorem test_ill_cpl : (Instr.joryarCpl 0 0 (aHdr 0 0) (zs 8257) none).wellFormed = false := by decide +kernel
theorem test_ill_packet : (Instr.routerReceive 0 0 0 0 0 (zs 4097)).wellFormed = false := by decide +kernel
theorem test_ill_mka : (Instr.mkaFrame 0 0 (some (zs 31))).wellFormed = false := by decide
theorem test_ill_sak : (Instr.sakReplace 0 0 (some (zs 33))).wellFormed = false := by decide
/-- A malformed command stops the step by name. -/
theorem test_malformed_stops : step { sRun with pending := [.mkaFrame 0 0 (some [])] } = .fault .malformed := rfl

/-! ## The spec's worked examples -/

/-- Worked example of 02: frame 512, tick 6, epoch 50,065,733 at P500; tick 52 at P62_5. -/
theorem test_ex_time :
    let t : TimeState := { TimeState.init with period := 3 }
    t.frameAt 86400003250000 = 512 ∧ t.tickAt 86400003250000 = 6 ∧ t.epochAt 86400003250000 = 50065733
      ∧ ({ t with period := 0 } : TimeState).tickAt 86400003250000 = 52 := by decide +kernel

/-- Worked example of 03: w = -37 as INT8, x = 100: the high phase adds -3,552 and the low phase -148. -/
theorem test_ex_slices : weightStep 0 91 4 6 = -3552 ∧ weightStep 0 91 0 4 = -148 := by decide

/-- Worked example of 04: mean raw difference 7,592 at 65 degC, AGE_TRIM 0x454B, DRIFT_TRIM 0x42A1. -/
theorem test_ex_trims :
    ({ Slab.init with driftBase := 7904, driftPairs := 64, driftSum := 64 * divRound (7592 * 1099511627776) 1090496 } : Slab).trimOf 0 = 0x454B
      ∧ divRound (0x454B * 1048576) 1090496 = 0x42A1 := by decide +kernel

/-- Worked example of 05: ZERO 509, GAIN 0x6530, NORM 0x8400, q = -37: code 388. -/
theorem test_ex_weightCode :
    ({ Engine.init with ringCal := [(9, { RingCal.init with zero := 509, gain := 0x6530 })], norm := [(9, 0x8400)] } : Engine).dLin 0 9 (-37) = 388 := by decide +kernel

/-- Worked example of 06: the feed-forward at 45 and 65 degC. -/
theorem test_ex_feedForward :
    18640 + divRound (-29824 * (180 - 240)) 256 = 25630 ∧ 18640 + divRound (-29824 * (260 - 240)) 256 = 16310 := by decide

/-- Worked example of 07: the ratio 127/200,000 gives S = 11; its M and S rescale 150,000 to 95, and -250,000 to the clamp -127; ties go
away from zero. -/
theorem test_ex_rescale :
    rescale fmtInt8 150000 0xA67620EF 11 = 95 ∧ rescale fmtInt8 (-250000) 0xA67620EF 11 = -127 ∧ rescale fmtInt8 5 0x80000000 1 = 3
      ∧ rescale fmtInt8 (-5) 0x80000000 1 = -3 := by decide +kernel

/-- Worked example of 07: four INT40 partials add up to 5,999. -/
theorem test_ex_partials : vecSum fmtInt64 true [.int 812345, .int (-1204118), .int 96002, .int 301770] = (5999, false) := by decide +kernel

/-- Tracker steps of 07: 5.08 over a history of four gives the scale 0.04, four times 2.54 gives 0.02, in FP32. -/
theorem test_ex_tracker :
    let x0 := { Scale.init with hist := 4, scale := 0x3F800000 }
    let x1 := (x0.step 0).step 0
    let x3 := x1.step 0x40A28F5C
    let x6 := ((x3.step 0x40228F5C).step 0x40228F5C).step 0x40228F5C
    x1.scale = 0x3F800000 ∧ x3.scale = 0x3D23D70A ∧ x6.scale = 0x3D23D70A ∧ (x6.step 0x40228F5C).scale = 0x3CA3D70A := by
  decide +kernel

/-- Example of 08: OWNER_TOP at PLAN_CAP 512 and SCALE_COUNT 100. -/
theorem test_ex_ownerTop : ownerTop 512 100 = 0x1EF900 := by decide

/-- Worked example of 09: 16 streams of 273 PRBs take landing slots of 214,656 bytes. -/
theorem test_ex_landing : landSlotBytes (BitVec.ofNat 512 (16 <<< 272 + 273 <<< 304)) = 214656 := by decide +kernel

end Sys2Proof.Tests
end

section
/-! PROOFS. Writes to the card's registers and pops of a ring (R674, R681): what `State.writeRegister` does at each address. -/

namespace Sys2Proof.Machine

@[simp] theorem State.elapse_hostLink (s : State) (dt : Nat) : (s.elapse dt).hostLink = s.hostLink := rfl

theorem exec_registerWrite (s : State) (dt : Nat) (a : BitVec 17) (v : Word) :
    exec (.registerWrite dt a v) s = .next ((s.elapse dt).writeRegister a.toNat v.toNat) := rfl

theorem exec_cplPortPop (s : State) (dt : Nat) (r : Ring) :
    exec (.cplPortPop dt r) s = .next ((s.elapse dt).popCpl (ringNo r)) := rfl

theorem writeRegister_unlinked {s : State} (hl : s.hostLink = false) (a v : Nat) : s.writeRegister a v = s := by
  simp [State.writeRegister, hl]

section
variable {s : State} (hl : s.hostLink = true) (v : Nat)
include hl

theorem writeRegister_intStatus :
    s.writeRegister 0x08 v = s.modMbx (fun m => { m with int := m.int.clear (BitVec.ofNat 64 (v % 1024)) }) := by
  simp [State.writeRegister, hl]

theorem writeRegister_intEnable :
    s.writeRegister 0x0C v = s.modMbx (fun m => { m with intEnable := BitVec.ofNat 32 (v % 1024) }) := by
  simp [State.writeRegister, hl]

theorem writeRegister_ringStatus (r : Fin 4) :
    s.writeRegister (0x10 + 4 * r.val) v = s.modRing r.val (fun y =>
      { y with status := y.status.clear (BitVec.ofNat 64 (v &&& 0x400000)) }) := by
  match r with
  | 0 | 1 | 2 | 3 => simp [State.writeRegister, hl]

theorem writeRegister_f3Rptr : s.writeRegister 0x2C v = s.modMbx (fun m => { m with rptr := v % 65536 }) := by
  simp [State.writeRegister, hl]

theorem popCpl_of_empty {r : Nat} (he : (s.ring r).cpls = []) :
    s.popCpl r = { s with sdio := { s.sdio with read := [0xFF] } } := by
  simp [State.popCpl, hl, he]

end

theorem writeRegister_other (s : State) {a : Nat} (v : Nat) (ha : a ∉ [0x08, 0x0C, 0x10, 0x14, 0x18, 0x1C, 0x2C]) :
    s.writeRegister a v = s := by
  simp only [List.mem_cons, List.not_mem_nil, or_false, not_or] at ha
  simp [State.writeRegister, ha]

/-- Settles O20, address by address, through what `State.writeRegister` does there. -/
theorem registerWrites : Obligations.RegisterWrites := by
  rintro s dt a v u rfl
  simp only [exec_registerWrite, exec_cplPortPop, Host.Outcome.next.injEq, ← State.elapse_hostLink s dt]
  refine ⟨?intStatus, ?intEnable, ?ringStatus, ?f3Rptr, fun ha => writeRegister_other _ _ ha,
    fun hl => writeRegister_unlinked hl _ _, fun r hl he => popCpl_of_empty hl he⟩
  case intStatus => rintro hl rfl; exact writeRegister_intStatus hl _
  case intEnable => rintro hl rfl; exact writeRegister_intEnable hl _
  case ringStatus => intro r hl ha; rw [ha]; exact writeRegister_ringStatus hl _ r
  case f3Rptr => rintro hl rfl; exact writeRegister_f3Rptr hl _

end Sys2Proof.Machine
end

section
/-! PROOFS. The 64 bytes of a command read back (R7, R696, R699, R700). A command's 512 bits are its header, below bit 128, and
its parameter fields, added in the order of their places. A field is read back unharmed because the fields before it stay below
its place (`add_at_lt`, `rd_add_at_same`) and those after it lie above its end (`rd_add_at_above`). -/

namespace Sys2Proof.Machine

theorem leNat_toLe (n v : Nat) : leNat (toLe n v) = v % 2 ^ (8 * n) := by
  induction n generalizing v with
  | zero => rw [toLe, leNat, Nat.mul_zero, Nat.pow_zero, Nat.mod_one]
  | succ n ih =>
    calc leNat (toLe (n + 1) v) = v % 2 ^ 8 + 2 ^ 8 * (v / 2 ^ 8 % 2 ^ (8 * n)) := by
          rw [toLe, leNat, ih, BitVec.toNat_ofNat]; rfl
      _ = v % 2 ^ (8 * (n + 1)) := by rw [← Nat.mod_mul, ← Nat.pow_add, Nat.mul_succ, Nat.add_comm]

/-! ## One field added on top of others -/

section
variable {lo B b w x B' b' n : Nat}

theorem at_eq_mul : at_ B b w x = x % 2 ^ w * 2 ^ (8 * B + b) := Nat.shiftLeft_eq _ _

theorem add_at_lt {q : Nat} (h : lo < 2 ^ (8 * B + b)) (hq : 8 * B + b + w ≤ q) : lo + at_ B b w x < 2 ^ q := by
  have hx : x % 2 ^ w + 1 ≤ 2 ^ w := Nat.mod_lt x (Nat.two_pow_pos w)
  calc lo + at_ B b w x < 2 ^ (8 * B + b) + x % 2 ^ w * 2 ^ (8 * B + b) := by rw [at_eq_mul]; omega
    _ = (x % 2 ^ w + 1) * 2 ^ (8 * B + b) := by ring
    _ ≤ 2 ^ w * 2 ^ (8 * B + b) := Nat.mul_le_mul_right _ hx
    _ = 2 ^ (8 * B + b + w) := by rw [← Nat.pow_add, Nat.add_comm]
    _ ≤ 2 ^ q := Nat.pow_le_pow_right (by decide) hq

theorem add_at_mod {k : Nat} (h : k ≤ 8 * B + b) : (lo + at_ B b w x) % 2 ^ k = lo % 2 ^ k := by
  have hd : 2 ^ k ∣ at_ B b w x := at_eq_mul ▸ Dvd.dvd.mul_left (Nat.pow_dvd_pow 2 h) _
  rw [Nat.add_mod, Nat.mod_eq_zero_of_dvd hd, Nat.add_zero, Nat.mod_mod]

theorem rd_add_at_same (h : lo < 2 ^ (8 * B + b)) : rd (lo + at_ B b w x) B b w = BitVec.ofNat w x := by
  apply BitVec.eq_of_toNat_eq
  rw [rd, at_eq_mul, Nat.shiftRight_eq_div_pow, Nat.add_mul_div_right _ _ (Nat.two_pow_pos _), Nat.div_eq_of_lt h,
    Nat.zero_add, BitVec.toNat_ofNat, BitVec.toNat_ofNat, Nat.mod_mod]

/-- A field is a slice of what lies below its end. -/
theorem rd_mod_two_pow {v k : Nat} (h : 8 * B + b + n ≤ k) : rd (v % 2 ^ k) B b n = rd v B b n := by
  refine BitVec.eq_of_getLsbD_eq fun i hi => ?_
  have hk : 8 * B + b + i < k := by omega
  simp only [rd, BitVec.getLsbD_ofNat, Nat.testBit_shiftRight, Nat.testBit_mod_two_pow, hk, decide_true, Bool.true_and]

theorem rd_add_at_above (h : 8 * B' + b' + n ≤ 8 * B + b) : rd (lo + at_ B b w x) B' b' n = rd lo B' b' n := by
  rw [← rd_mod_two_pow h, add_at_mod (Nat.le_refl _), rd_mod_two_pow h]

theorem rdB_eq_rd (v : Nat) : rdB v B b = (rd v B b 1).getLsbD 0 := by
  simp only [rdB, bitAt, rd, BitVec.getLsbD_ofNat, Nat.testBit_shiftRight, Nat.add_zero, Nat.zero_lt_one, decide_true,
    Bool.true_and]

theorem rdB_add_at_same {m : Bool} (h : lo < 2 ^ (8 * B + b)) : rdB (lo + at_ B b 1 m.toNat) B b = m := by
  rw [rdB_eq_rd, rd_add_at_same h]
  cases m <;> rfl

theorem rdB_add_at_above (h : 8 * B' + b' + 1 ≤ 8 * B + b) : rdB (lo + at_ B b w x) B' b' = rdB lo B' b' := by
  rw [rdB_eq_rd, rdB_eq_rd, rd_add_at_above h]

end

/-! ## The parameters of each command -/

theorem exists_seven_of_length {l : List Half} (h : l.length = 7) :
    ∃ x0 x1 x2 x3 x4 x5 x6, l = [x0, x1, x2, x3, x4, x5, x6] := by
  match l, h with
  | [x0, x1, x2, x3, x4, x5, x6], _ => exact ⟨x0, x1, x2, x3, x4, x5, x6, rfl⟩

theorem paramBits_thermalLimitsSet (l : List Half) : paramBits (.thermalLimitsSet l) =
    at_ 0x10 0 16 (nth 0 l 0).toNat + at_ 0x12 0 16 (nth 0 l 1).toNat + at_ 0x14 0 16 (nth 0 l 2).toNat
      + at_ 0x16 0 16 (nth 0 l 3).toNat + at_ 0x18 0 16 (nth 0 l 4).toNat + at_ 0x1A 0 16 (nth 0 l 5).toNat
      + at_ 0x1C 0 16 (nth 0 l 6).toNat := by
  rw [← Nat.zero_add (at_ 0x10 0 16 (nth 0 l 0).toNat)]
  rfl

section
variable {lo : Nat} (hlo : lo < 2 ^ 128)
include hlo

theorem parseCmd_thermalLimitsSet {l : List Half} (hl : l.length = 7) :
    parseCmd 0x0803 (lo + paramBits (.thermalLimitsSet l)) = some (.thermalLimitsSet l) := by
  obtain ⟨x0, x1, x2, x3, x4, x5, x6, rfl⟩ := exists_seven_of_length hl
  have hr : List.range 7 = [0, 1, 2, 3, 4, 5, 6] := rfl
  simp (disch := (repeat with_reducible refine add_at_lt ?_ (by omega)); omega) only [parseCmd,
    paramBits_thermalLimitsSet, hr, List.map, ← Nat.add_assoc, rd_add_at_same, rd_add_at_above, nth, List.getD_cons_zero,
    List.getD_cons_succ, BitVec.ofNat_toNat, BitVec.setWidth_eq, Nat.reduceMul, Nat.reduceAdd]

/-- A command's opcode and its parameter fields, above whatever header, spell that command. -/
theorem parseCmd_add_paramBits {c : HostCmd} (hc : ∀ l, c = .thermalLimitsSet l → l.length = 7) :
    parseCmd (opcodeOf c) (lo + paramBits c) = some c := by
  cases c with
  | thermalLimitsSet l => exact parseCmd_thermalLimitsSet hlo (hc l rfl)
  | _ =>
    simp (disch := (repeat with_reducible refine add_at_lt ?_ (by omega)); omega) only [opcodeOf, parseCmd, paramBits,
      ← Nat.add_assoc, rdB_add_at_same, rdB_add_at_above, rd_add_at_same, rd_add_at_above, BitVec.ofNat_toNat,
      BitVec.setWidth_eq]

theorem add_paramBits_lt (c : HostCmd) : lo + paramBits c < 2 ^ (8 * 64) := by
  have h : lo < 2 ^ (8 * 64) := by omega
  cases c with
  | thermalLimitsSet l =>
    simp (disch := (repeat with_reducible refine add_at_lt ?_ (by omega)); omega) only [paramBits_thermalLimitsSet,
      ← Nat.add_assoc, add_at_lt]
  | _ =>
    simp (disch := (repeat with_reducible refine add_at_lt ?_ (by omega)); omega) only [paramBits, ← Nat.add_assoc,
      Nat.add_zero, h, add_at_lt]

end

theorem paramBits_mod (c : HostCmd) : paramBits c % 2 ^ 128 = 0 := by
  rw [← Nat.zero_add (paramBits c)]
  cases c with
  | thermalLimitsSet l =>
    simp (disch := omega) only [paramBits_thermalLimitsSet, ← Nat.add_assoc, add_at_mod, Nat.zero_mod, -Nat.reducePow]
  | _ =>
    simp (disch := omega) only [paramBits, ← Nat.add_assoc, Nat.add_zero, add_at_mod, Nat.zero_mod, -Nat.reducePow]

theorem opcodeOf_lt (c : HostCmd) : opcodeOf c < 2 ^ 16 := by
  cases c <;> simp [opcodeOf]

/-! ## Header and parameters together -/

/-- The first 16 bytes of a command: opcode, CMD_ID and bulk length. -/
def cmdHead (h : CmdHdr) (c : HostCmd) : Nat :=
  opcodeOf c + (h.id.toNat <<< 32) + (h.bulk.length % 2 ^ 32) <<< 64

section
variable (h : CmdHdr) (c : HostCmd)

theorem cmdHead_eq : cmdHead h c = opcodeOf c + h.id.toNat * 2 ^ 32 + h.bulk.length % 2 ^ 32 * 2 ^ 64 := by
  unfold cmdHead
  rw [Nat.shiftLeft_eq, Nat.shiftLeft_eq]

theorem cmdHead_lt : cmdHead h c < 2 ^ 128 := by
  have := opcodeOf_lt c
  have := h.id.isLt
  rw [cmdHead_eq]
  omega

theorem leNat_cmdBytes : leNat (cmdBytes h c) = cmdHead h c + paramBits c := by
  rw [cmdBytes, leNat_toLe]
  exact Nat.mod_eq_of_lt (add_paramBits_lt (cmdHead_lt h c) c)

theorem field_cmd_opcode : field (cmdHead h c + paramBits c) 0 16 = opcodeOf c := by
  have := opcodeOf_lt c
  have := paramBits_mod c
  rw [field, Nat.shiftRight_zero, cmdHead_eq]
  omega

/-- The reserved bytes 2 and 3. -/
theorem field_cmd_byte2 : field (cmdHead h c + paramBits c) 16 16 = 0 := by
  have := opcodeOf_lt c
  have := paramBits_mod c
  rw [field, Nat.shiftRight_eq_div_pow, cmdHead_eq]
  omega

theorem field_cmd_bulkLength : field (cmdHead h c + paramBits c) 64 32 = h.bulk.length % 2 ^ 32 := by
  have := opcodeOf_lt c
  have := h.id.isLt
  have := paramBits_mod c
  rw [field, Nat.shiftRight_eq_div_pow, cmdHead_eq]
  omega

/-- The reserved bytes 12 to 15. -/
theorem field_cmd_byte12 : field (cmdHead h c + paramBits c) 96 32 = 0 := by
  have := opcodeOf_lt c
  have := h.id.isLt
  have := paramBits_mod c
  rw [field, Nat.shiftRight_eq_div_pow, cmdHead_eq]
  omega

theorem paramsReserved_cmd : paramsReserved c (cmdHead h c + paramBits c) = 0 := by
  have hs : (cmdHead h c + paramBits c) >>> 128 = paramBits c >>> 128 := by
    have := cmdHead_lt h c
    have := paramBits_mod c
    rw [Nat.shiftRight_eq_div_pow, Nat.shiftRight_eq_div_pow]
    omega
  rw [paramsReserved, hs, Nat.xor_self]

end

/-- Settles O58: the opcode and the parameters spell the command, and every later check of `checkBytes` passes on the fields
read back. -/
theorem encodedCommandsParse : Obligations.EncodedCommandsParse := by
  intro h c hring hbulk hc
  have hlen : ¬ (h.ring ≠ .blk ∧ h.bulk.length % 2 ^ 32 ≠ 0) := by
    rintro ⟨hr, hl⟩
    exact hl (by rw [hbulk.resolve_left hr]; rfl)
  simp only [checkBytes, leNat_cmdBytes, field_cmd_opcode, parseCmd_add_paramBits (cmdHead_lt h c) hc, hring,
    field_cmd_byte2, field_cmd_bulkLength, hlen, field_cmd_byte12, paramsReserved_cmd, Bool.not_true, Bool.false_eq_true,
    ne_eq, not_true_eq_false, if_false]

end Sys2Proof.Machine
end

section
/-! PROOFS. What reports, and the end, the wait and the miss of a task, leave of a cluster's runs and of the other units. -/

namespace Sys2Proof.Machine

/-- A projection that every step of a fold keeps is kept by the fold. -/
theorem foldl_keeps {α β γ : Type} (g : β → γ) (f : β → α → β) (h : ∀ b a, g (f b a) = g b) (l : List α) (b : β) :
    g (l.foldl f b) = g b := by
  induction l generalizing b with
  | nil => rfl
  | cons a l ih => rw [List.foldl_cons, ih, h]

theorem forEach_keeps {α γ : Type} (g : State → γ) (f : State → α → State) (h : ∀ s a, g (f s a) = g s) (l : List α) (s : State) :
    g (forEach l s f) = g s := foldl_keeps g f h l s

/-- A relation that holds of each step of a run over units holds of the run. -/
theorem forEach_rel {α : Type} {R : State → State → Prop} (hr : ∀ s, R s s) (ht : ∀ {s t u}, R s t → R t u → R s u)
    {f : State → α → State} (h : ∀ s a, R s (f s a)) (l : List α) (s : State) : R s (forEach l s f) := by
  unfold forEach
  induction l generalizing s with
  | nil => exact hr s
  | cons a l ih => exact ht (h s a) (ih _)

section
variable (s : State) (a b : Nat) (m i : Bool) (p : Nat)

@[simp] theorem raise_time : (s.raise a b m i p).time = s.time := by rw [(raise_eventsOnly s a b m i p).1]
@[simp] theorem raise_clusters : (s.raise a b m i p).clusters = s.clusters := by rw [(raise_eventsOnly s a b m i p).1]
@[simp] theorem raise_hauls : (s.raise a b m i p).hauls = s.hauls := by rw [(raise_eventsOnly s a b m i p).1]
@[simp] theorem raise_mem : (s.raise a b m i p).mem = s.mem := by rw [(raise_eventsOnly s a b m i p).1]
@[simp] theorem raise_fabric : (s.raise a b m i p).fabric = s.fabric := by rw [(raise_eventsOnly s a b m i p).1]
end

/-- The cluster of a state depends on its table of clusters alone. -/
theorem State.cluster_congr {s t : State} (h : t.clusters = s.clusters) (c : Nat) : t.cluster c = s.cluster c := by
  rw [State.cluster, h, State.cluster]

/-! ## Runs of a cluster -/

theorem Cluster.run_congr {x y : Cluster} (h : y.runs = x.runs) (k : Nat) : y.run k = x.run k := by
  rw [Cluster.run, h, Cluster.run]

@[simp] theorem Cluster.run_setRun_same (x : Cluster) (k : Nat) (r : TaskRun) : (x.setRun k r).run k = some r :=
  tabFind_tabPut_same x.runs k r

theorem Cluster.run_setRun_other (x : Cluster) {k j : Nat} (r : TaskRun) (h : j ≠ k) : (x.setRun k r).run j = x.run j :=
  tabFind_tabPut_other x.runs r h

@[simp] theorem Cluster.modSlot_runs (x : Cluster) (k : Nat) (f : Slot → Slot) : (x.modSlot k f).runs = x.runs := rfl
@[simp] theorem Cluster.unlog_runs (x : Cluster) (i pass : Nat) : (x.unlog i pass).runs = x.runs := rfl

@[simp] theorem Cluster.releaseSlot_runs (x : Cluster) (k : Nat) : (x.releaseSlot k).runs = x.runs := by
  unfold Cluster.releaseSlot
  split
  · dsimp only
    split <;> rfl
  · rfl

@[simp] theorem Cluster.freeSlots_runs (x : Cluster) (ks : List Nat) : (x.freeSlots ks).runs = x.runs :=
  foldl_keeps Cluster.runs _ (fun x k => x.modSlot_runs k _) ks x

@[simp] theorem Cluster.fillSlots_runs (x : Cluster) (pass : Nat) (ks : List Nat) : (x.fillSlots pass ks).runs = x.runs :=
  foldl_keeps Cluster.runs _ (fun _ _ => by rw [Cluster.releaseSlot_runs, Cluster.modSlot_runs]) ks x

@[simp] theorem Cluster.readDone_runs (x : Cluster) (i pass : Nat) : (x.readDone i pass).runs = x.runs :=
  foldl_keeps Cluster.runs _ Cluster.releaseSlot_runs _ x

@[simp] theorem Cluster.finishSlots_runs (x : Cluster) (i : Nat) (r : TaskRun) : (x.finishSlots i r).runs = x.runs := by
  rw [Cluster.finishSlots, Cluster.readDone_runs, Cluster.fillSlots_runs]

@[simp] theorem Cluster.run_finishSlots (x : Cluster) (i k : Nat) (r : TaskRun) : (x.finishSlots i r).run k = x.run k :=
  Cluster.run_congr (x.finishSlots_runs i r) k

@[simp] theorem Cluster.run_readDone (x : Cluster) (i k pass : Nat) : (x.readDone i pass).run k = x.run k :=
  Cluster.run_congr (x.readDone_runs i pass) k

@[simp] theorem Cluster.run_freeSlots (x : Cluster) (ks : List Nat) (k : Nat) : (x.freeSlots ks).run k = x.run k :=
  Cluster.run_congr (x.freeSlots_runs ks) k

/-! ## A miss (R97) -/

section
variable (s : State) (c cause tag late skipped : Nat)

@[simp] theorem miss_time : (s.miss c cause tag late skipped).time = s.time := by simp [State.miss]
@[simp] theorem miss_hauls : (s.miss c cause tag late skipped).hauls = s.hauls := by simp [State.miss]
@[simp] theorem miss_mem : (s.miss c cause tag late skipped).mem = s.mem := by simp [State.miss]
@[simp] theorem miss_fabric : (s.miss c cause tag late skipped).fabric = s.fabric := by simp [State.miss]

/-- A miss changes of a cluster only its flags. -/
theorem cluster_miss (d : Nat) :
    (s.miss c cause tag late skipped).cluster d = { s.cluster d with tseq := ((s.miss c cause tag late skipped).cluster d).tseq } := by
  have hr : ∀ d, (s.raise 1 (s.cluster c).tenant false false (missPayload c cause tag (s.cluster c).gen s.time.frame s.time.tick late
      skipped)).cluster d = s.cluster d := fun d => State.cluster_congr (raise_clusters ..) d
  unfold State.miss
  by_cases h : d = c
  · subst h
    simp only [State.cluster_modCluster_same, hr]
  · simp only [State.cluster_modCluster_other _ _ h, hr]

@[simp] theorem run_miss (d k : Nat) : ((s.miss c cause tag late skipped).cluster d).run k = (s.cluster d).run k := by
  rw [cluster_miss]
  rfl
end

/-! ## The end of a task -/

section
variable (s : State) (c i : Nat) (r : TaskRun) (t : Option Tag)

/-- A task that completes has changed its cluster, its miss reported or not. -/
theorem complete_cases :
    ∃ u : State, u = s.modCluster c (fun x => ((x.logOutput i r.pass t).setRun i (r.over t)).finishSlots i r) ∧
      (s.complete c i r t = u ∨ ∃ tag n, s.complete c i r t = u.miss c missRunLate tag n 0) := by
  refine ⟨_, rfl, ?_⟩
  unfold State.complete
  dsimp only
  split
  · split
    · exact .inl rfl
    · exact .inr ⟨_, _, rfl⟩
  · exact .inl rfl

/-- A projection that a change of a cluster and a miss keep is kept by the completion of a task. -/
theorem complete_keeps {γ : Type} (g : State → γ) (hc : ∀ s f, g (State.modCluster s c f) = g s)
    (hm : ∀ s tag n, g (State.miss s c missRunLate tag n 0) = g s) : g (s.complete c i r t) = g s := by
  obtain ⟨u, rfl, h | ⟨tag, n, h⟩⟩ := complete_cases s c i r t
  · rw [h, hc]
  · rw [h, hm, hc]

@[simp] theorem complete_mem : (s.complete c i r t).mem = s.mem :=
  complete_keeps s c i r t _ (fun _ _ => rfl) (fun _ _ _ => miss_mem ..)
@[simp] theorem complete_hauls : (s.complete c i r t).hauls = s.hauls :=
  complete_keeps s c i r t _ (fun _ _ => rfl) (fun _ _ _ => miss_hauls ..)
@[simp] theorem complete_fabric : (s.complete c i r t).fabric = s.fabric :=
  complete_keeps s c i r t _ (fun _ _ => rfl) (fun _ _ _ => miss_fabric ..)

@[simp] theorem run_complete : ((s.complete c i r t).cluster c).run i = some (r.over t) := by
  obtain ⟨u, rfl, h | ⟨tag, n, h⟩⟩ := complete_cases s c i r t <;> rw [h] <;> simp

@[simp] theorem run_completeEmpty : ((s.completeEmpty c i r).cluster c).run i = some { r with phase := .done } := by
  simp [State.completeEmpty]

@[simp] theorem run_stopped : ((s.stopped c i r t).cluster c).run i = some { r.over t with stopped := some s.now } := by
  simp [State.stopped]

end

/-! ## Tasks that are not run (R93) -/

/-- Not running a task never makes one that is not run another. -/
theorem Cluster.phase_notRun {x : Cluster} {i k : Nat} {q : TaskRun} (h : x.run k = some q) (hq : q.phase = .notRun) :
    ∃ q, (x.notRun i).run k = some q ∧ q.phase = .notRun := by
  unfold Cluster.notRun
  rw [Cluster.run_readDone, Cluster.run_congr (Cluster.unlog_runs ..)]
  by_cases e : k = i
  · subst e
    exact ⟨_, Cluster.run_setRun_same .., rfl⟩
  · exact ⟨q, (Cluster.run_setRun_other _ _ e).trans h, hq⟩

theorem Cluster.run_notRun_same (x : Cluster) (i : Nat) : ∃ q, (x.notRun i).run i = some q ∧ q.phase = .notRun := by
  unfold Cluster.notRun
  rw [Cluster.run_readDone, Cluster.run_congr (Cluster.unlog_runs ..)]
  exact ⟨_, Cluster.run_setRun_same .., rfl⟩

theorem skip_mem (s : State) (c i : Nat) : (s.skip c i).1.mem = s.mem := rfl

theorem run_skip (s : State) (c i : Nat) : ∃ q, ((s.skip c i).1.cluster c).run i = some q ∧ q.phase = .notRun := by
  unfold State.skip
  rw [State.cluster_modCluster_same]
  generalize (s.cluster c).dependants i = l
  obtain ⟨q, hq⟩ := (s.cluster c).run_notRun_same i
  generalize (s.cluster c).notRun i = x at hq ⊢
  induction l generalizing x q with
  | nil => exact ⟨q, hq⟩
  | cons j l ih =>
    obtain ⟨p, hp⟩ := Cluster.phase_notRun (i := j) hq.1 hq.2
    exact ih _ _ hp

/-- A task that its deadline finds not dispatched is not run, and its miss leaves memory as it is. -/
theorem skipLate_notRun (s : State) (c i : Nat) (r : TaskRun) :
    (∃ q, ((s.skipLate c i r).cluster c).run i = some q ∧ q.phase = .notRun) ∧ (s.skipLate c i r).mem = s.mem := by
  unfold State.skipLate
  dsimp only
  split
  · exact ⟨run_skip s c i, rfl⟩
  · split <;> simp only [run_miss, miss_mem, skip_mem, run_skip, and_self]

end Sys2Proof.Machine
end

section
/-! PROOFS. VECTOR tasks and hauls complete (R94, R402, R497, R502, R526). -/

namespace Sys2Proof.Machine

theorem exec_vectorComplete (s : State) (dt : Nat) (c : ClusterId) (i : Fin 4096) :
    exec (.vectorComplete dt c i) s = .next ((s.elapse dt).vectorDone c ((s.elapse dt).taskKey c i)) := rfl

theorem exec_coreHaulComplete (s : State) (dt : Nat) (c : ClusterId) (i : Fin 4096) (ws : List Clash) :
    exec (.coreHaulComplete dt c i ws) s = .next ((s.elapse dt).haulDone kCoreHaul c ((s.elapse dt).taskKey c i) ws) := rfl

theorem exec_clusterHaulComplete (s : State) (dt : Nat) (c : ClusterId) (i : Fin 4096) (ws : List Clash) :
    exec (.clusterHaulComplete dt c i ws) s = .next ((s.elapse dt).haulDone kClusterHaul c ((s.elapse dt).taskKey c i) ws) := rfl

section
variable {s : State} {c i : Nat}

theorem taskKey_of_running {r : TaskRun} (h : s.running c i = some r) : s.taskKey c i = i := by
  simp [State.taskKey, h]

theorem taskKey_of_neither (h : s.running c (oldKey i) = none) : s.taskKey c i = i := by
  simp [State.taskKey, h]

theorem vecReport_mem (s : State) (c i obs : Nat) (r : TaskRun) (t : Option Tag) : (s.vecReport c i obs r t).mem = s.mem := by
  unfold State.vecReport
  dsimp only
  split <;> rfl

/-- A VECTOR that runs and finds no held line writes all its output tiles and is over. -/
theorem vectorDone_completes {r : TaskRun} (hr : s.running c i = some r) (hk : dKind ((s.cluster c).task i) = kVector)
    (hh : s.heldBack c i r = false) : ∃ q, ((s.vectorDone c i).cluster c).run i = some q ∧ q.phase = .done
      ∧ (s.vectorDone c i).mem = (s.vecWrite c i (vecOutTiles ((s.cluster c).task i) (fmtOf (s.vecTiles c i r.pass))) r
          (r.late || (s.lateBy c i).isSome)).1.mem := by
  have hn : ¬ (dKind ((s.cluster c).task i) ≠ kVector ∨ s.heldBack c i r = true) := by simp [hk, hh]
  simp only [State.vectorDone, hr, if_neg hn, run_complete, complete_mem, vecReport_mem]
  exact ⟨_, rfl, rfl, trivial⟩

/-- A haul of its kind that runs and waits for nothing moves all its units and is over. -/
theorem haulDone_completes {kind : Nat} {r : TaskRun} (ws : List Clash) (hr : s.running c i = some r)
    (hk : dKind ((s.cluster c).task i) = kind) (hb : s.haulBlocked c i r.pass = false) (hh : s.heldBack c i r = false)
    (hw : s.chunkWait c i r.pass = false) : ∃ q, ((s.haulDone kind c i ws).cluster c).run i = some q ∧ q.phase = .done
      ∧ (s.haulDone kind c i ws).mem = (s.haulAll c i r.pass (r.late || (s.lateBy c i).isSome) r.clashes ws).1.mem := by
  have hn : ¬ (s.haulBlocked c i r.pass = true ∨ s.heldBack c i r = true ∨ s.chunkWait c i r.pass = true) := by simp [hb, hh, hw]
  simp only [State.haulDone, hk, ne_eq, not_true_eq_false, if_false, hr, if_neg hn, run_complete, complete_mem]
  exact ⟨_, rfl, rfl, trivial⟩

/-- A fill made ahead that waits for nothing moves all its units. -/
theorem haulDone_ahead_mem {kind : Nat} {a : Ahead} (ws : List Clash) (hr : s.running c i = none)
    (hk : dKind ((s.cluster c).task i) = kind)
    (ha : (s.cluster c).ahead.find? (fun b => decide (b.task = i) && !b.done) = some a)
    (hh : s.heldBack c i { TaskRun.init with pass := a.pass } = false) (hw : s.chunkWait c i a.pass = false) :
    (s.haulDone kind c i ws).mem = (s.haulAll c i a.pass false a.clashes ws).1.mem := by
  simp only [State.haulDone, hk, ne_eq, not_true_eq_false, if_false, hr, State.aheadDone, ha, hh, hw, Bool.or_self,
    Bool.false_eq_true, State.modCluster_mem]

end

/-- Settles O37: a completion writes what `vecWrite` or `haulAll` writes, and the end of the task leaves memory as it is. -/
theorem vectorsAndHaulsComplete : Obligations.VectorsAndHaulsComplete := by
  rintro s dt c i u x rfl rfl
  refine ⟨?vector, ?coreHaul, ?clusterHaul, ?ahead⟩
  case vector =>
    intro r hr hk hh
    rw [exec_vectorComplete, taskKey_of_running hr]
    obtain ⟨q, hq⟩ := vectorDone_completes hr hk hh
    exact ⟨_, q, rfl, hq⟩
  case coreHaul =>
    intro r ws hr hk hb hh hw
    rw [exec_coreHaulComplete, taskKey_of_running hr]
    obtain ⟨q, hq⟩ := haulDone_completes ws hr hk hb hh hw
    exact ⟨_, q, rfl, hq⟩
  case clusterHaul =>
    intro r ws hr hk hb hh hw
    rw [exec_clusterHaulComplete, taskKey_of_running hr]
    obtain ⟨q, hq⟩ := haulDone_completes ws hr hk hb hh hw
    exact ⟨_, q, rfl, hq⟩
  case ahead =>
    intro a ws hr ho hk ha hh hw
    rw [exec_clusterHaulComplete, taskKey_of_neither ho]
    exact ⟨_, rfl, haulDone_ahead_mem ws hr hk ha hh hw⟩

end Sys2Proof.Machine
end

section
/-! PROOFS. Dispatch, slot grants, deadlines and fills made ahead (R84, R85, R93, R296, R497, R517, R521, R525 to R528). A task that is
taken up runs, waits for confirmation or is over, since what the engines do next moves no task from its phase. -/

namespace Sys2Proof.Machine

theorem exec_taskDispatch (s : State) (dt : Nat) (c : ClusterId) (i : Fin 4096) :
    exec (.taskDispatch dt c i) s = .next ((s.elapse dt).dispatch c i) := rfl
theorem exec_slotGrant (s : State) (dt : Nat) (c : ClusterId) (i : Fin 4096) :
    exec (.slotGrant dt c i) s = .next ((s.elapse dt).slotGrant c i) := rfl
theorem exec_dataLate (s : State) (dt : Nat) (c : ClusterId) (i : Fin 4096) :
    exec (.dataLate dt c i) s = .next ((s.elapse dt).dataLate c i) := rfl
theorem exec_confirmedTransferStart (s : State) (dt : Nat) (c : ClusterId) (i : Fin 4096) :
    exec (.confirmedTransferStart dt c i) s = .next ((s.elapse dt).confirmedStart c i) := rfl
theorem exec_aheadIssue (s : State) (dt : Nat) (c : ClusterId) (i : Fin 4096) (a : Fin 2) :
    exec (.aheadIssue dt c i a) s = .next ((s.elapse dt).aheadIssue c i (a.val + 1)) := rfl

/-! ## Phases that the optical engine keeps -/

/-- The phase of task `k` of cluster `c`, where it has a run. -/
def State.phaseOf (s : State) (c k : Nat) : Option RunPhase := ((s.cluster c).run k).map TaskRun.phase

theorem phaseOf_eq_some {s : State} {c k : Nat} {p : RunPhase} (h : s.phaseOf c k = some p) :
    ∃ q, (s.cluster c).run k = some q ∧ q.phase = p := Option.map_eq_some_iff.mp h

theorem phaseOf_congr {s t : State} (h : t.clusters = s.clusters) (c k : Nat) : t.phaseOf c k = s.phaseOf c k := by
  rw [State.phaseOf, State.cluster_congr h, State.phaseOf]

/-- A run replaced by one of the same phase leaves every phase. -/
theorem Cluster.phase_setRun {x : Cluster} {j : Nat} {r r' : TaskRun} (h : x.run j = some r) (hp : r'.phase = r.phase) (k : Nat) :
    ((x.setRun j r').run k).map TaskRun.phase = (x.run k).map TaskRun.phase := by
  by_cases e : k = j
  · subst e
    rw [Cluster.run_setRun_same, h, Option.map_some, Option.map_some, hp]
  · rw [Cluster.run_setRun_other _ _ e]

@[simp] theorem optical_clusters (s : State) (e kind row line epoch detail : Nat) (inj : Bool) :
    (s.optical e kind row line epoch detail inj).clusters = s.clusters := raise_clusters ..

@[simp] theorem opticalFlag_clusters (s : State) (e kind flag row line epoch detail : Nat) :
    (s.opticalFlag e kind flag row line epoch detail).clusters = s.clusters := optical_clusters ..

@[simp] theorem thaw_clusters (s : State) (k detail : Nat) : (s.thaw k detail).clusters = s.clusters := by
  unfold State.thaw
  dsimp only
  split
  · exact raise_clusters ..
  · rfl

@[simp] theorem takeRow_clusters (s : State) (e q k cause old : Nat) (inj : Bool) : (s.takeRow e q k cause old inj).clusters = s.clusters :=
  optical_clusters ..

@[simp] theorem rotateRows_clusters (s : State) (e : Nat) : (s.rotateRows e).clusters = s.clusters := by
  unfold State.rotateRows
  dsimp only
  split
  · split
    · rfl
    · split
      · simp only [State.modEngine_clusters, thaw_clusters, takeRow_clusters]
      · rfl
  · rfl

@[simp] theorem swapSets_clusters (s : State) (e : Nat) (f : Engine → Engine) : (s.swapSets e f).clusters = s.clusters := by
  rw [State.swapSets, rotateRows_clusters, State.modEngine_clusters]

@[simp] theorem takeSet_clusters (s : State) (c i : Nat) (r : TaskRun) : (s.takeSet c i r).clusters = s.clusters := by
  unfold State.takeSet
  dsimp only
  split
  · exact swapSets_clusters ..
  · split
    · rfl
    · split
      · exact opticalFlag_clusters ..
      · exact swapSets_clusters ..

@[simp] theorem phaseOf_releaseHolds (s : State) (c k : Nat) : (s.releaseHolds c).phaseOf c k = s.phaseOf c k := by
  unfold State.releaseHolds
  dsimp only
  split
  · rfl
  · rw [State.phaseOf, State.cluster_modCluster_same]
    rfl

theorem phaseOf_beginOptical {s u : State} {c i : Nat} {r : TaskRun} (start : Nat) (hu : u.clusters = s.clusters)
    (h : (s.cluster c).run i = some r) (k : Nat) : (u.beginOptical c i start r).phaseOf c k = s.phaseOf c k := by
  have hc : (u.takeSet c i r).cluster c = s.cluster c := State.cluster_congr ((takeSet_clusters ..).trans hu) c
  unfold State.beginOptical
  dsimp only
  rw [phaseOf_releaseHolds, phaseOf_congr (State.modEngine_clusters ..), State.phaseOf, State.cluster_modCluster_same, hc]
  refine Cluster.phase_setRun h ?_ k
  rfl

theorem phaseOf_beginBatch (s : State) (c i start k : Nat) : (s.beginBatch c i start).phaseOf c k = s.phaseOf c k := by
  unfold State.beginBatch
  dsimp only
  rw [phaseOf_congr (State.modEngine_clusters ..), State.phaseOf, State.cluster_modCluster_same]
  refine foldl_keeps (fun x : Cluster => (x.run k).map TaskRun.phase) _ (fun x j => ?_) _ _
  split
  · next h =>
    refine Cluster.phase_setRun h ?_ k
    rfl
  · rfl

/-- The engine's next task begins, and every task keeps its phase. -/
theorem phaseOf_engineNext (s : State) (c k : Nat) : (s.engineNext c).phaseOf c k = s.phaseOf c k := by
  unfold State.engineNext
  split
  · rfl
  · split
    · rfl
    · split
      · next h =>
        dsimp only
        split
        · rw [phaseOf_beginBatch, phaseOf_congr (State.modEngine_clusters ..)]
        · exact phaseOf_beginOptical _ (State.modEngine_clusters ..) h k
      · rfl

theorem phaseOf_beginSlab (s : State) (c i k : Nat) : (s.beginSlab c i).phaseOf c k = s.phaseOf c k := by
  unfold State.beginSlab
  dsimp only
  rw [State.phaseOf, State.cluster_modCluster_same]
  split
  · next h =>
    refine Cluster.phase_setRun h ?_ k
    rfl
  · rfl

/-! ## The start of a task -/

theorem raiseHeld_clusters {s : State} (c : Nat) (t : Option Tag) {f : State → State} (h : ∀ u : State, (f u).clusters = u.clusters) :
    (s.raiseHeld c t f).clusters = s.clusters := by
  unfold State.raiseHeld
  split
  · exact h s
  · exact h _

@[simp] theorem number_clusters (s : State) (core kind tag detail addr : Nat) : (s.number core kind tag detail addr).clusters = s.clusters :=
  raise_clusters ..

@[simp] theorem orphans_clusters (s : State) (c core tag addr : Nat) (l : List Nat) (t : Option Tag) :
    (s.orphans c core tag addr l t).clusters = s.clusters := by
  refine forEach_keeps State.clusters _ (fun s i => ?_) l s
  exact raiseHeld_clusters c t (fun u => number_clusters u core nuOrphan tag i addr)

theorem phaseOf_modCluster_setRun (s : State) (c i : Nat) (r : TaskRun) :
    (s.modCluster c (fun x => x.setRun i r)).phaseOf c i = some r.phase := by
  rw [State.phaseOf, State.cluster_modCluster_same, Cluster.run_setRun_same, Option.map_some]

/-- A SLAB_MVM that starts keeps the phase of its run. -/
theorem phaseOf_startSlab (s : State) (c i : Nat) (r : TaskRun) : (s.startSlab c i r).phaseOf c i = some r.phase := by
  unfold State.startSlab
  dsimp only
  split
  · rw [phaseOf_engineNext, phaseOf_congr (orphans_clusters ..), phaseOf_modCluster_setRun]
  · rw [phaseOf_engineNext, phaseOf_beginSlab, phaseOf_congr (orphans_clusters ..), phaseOf_modCluster_setRun]

/-- A phase that a task has once it has been taken up. -/
def RunPhase.takenUp (p : RunPhase) : Prop := p = .running ∨ p = .waitConfirm ∨ p = .done

theorem takenUp_of_phaseOf {s : State} {c i : Nat} {p : RunPhase} (hp : p.takenUp) (h : s.phaseOf c i = some p) :
    ∃ q, (s.cluster c).run i = some q ∧ q.phase.takenUp := by
  obtain ⟨q, hq, rfl⟩ := phaseOf_eq_some h
  exact ⟨q, hq, hp⟩

/-- A task started with a run that is RUNNING runs, waits for confirmation, or is over at once. -/
theorem startTask_takenUp (s : State) (c i : Nat) {r : TaskRun} (hr : r.phase = .running) :
    ∃ q, ((s.startTask c i r).cluster c).run i = some q ∧ q.phase.takenUp := by
  have hdone : ∀ u : State, ∃ q, ((u.completeEmpty c i r).cluster c).run i = some q ∧ q.phase.takenUp := fun u =>
    ⟨_, run_completeEmpty .., .inr (.inr rfl)⟩
  have hset := phaseOf_modCluster_setRun s c i
  have hrun : ∀ u : State, u.phaseOf c i = some r.phase → ∃ q, (u.cluster c).run i = some q ∧ q.phase.takenUp := fun u h =>
    takenUp_of_phaseOf (.inl hr) h
  unfold State.startTask
  dsimp only
  split
  · exact hdone s
  split
  · exact hdone _
  split
  · exact hrun _ (phaseOf_startSlab s c i r)
  · exact hrun _ ((phaseOf_engineNext ..).trans (hset r))
  · refine hrun _ ?_
    rw [State.phaseOf, State.cluster_modCluster_same, State.cluster_modCluster_same]
    exact congrArg _ (Cluster.run_setRun_same ..)
  · exact hrun _ (hset { r with input := _ })
  · split
    · exact ⟨_, run_complete .., .inr (.inr rfl)⟩
    · exact hrun _ (hset r)
  · split
    · exact takenUp_of_phaseOf (.inr (.inl rfl)) (hset { r with phase := .waitConfirm })
    · exact hrun _ (hset r)

theorem takeUp_takenUp (s : State) (c i : Nat) (r : TaskRun) :
    ∃ q, ((s.takeUp c i r).cluster c).run i = some q ∧ q.phase.takenUp := startTask_takenUp _ c i rfl

/-! ## Dispatch and grant -/

section
variable {s : State} {c i : Nat} {r : TaskRun}

/-- What a dispatch waits for once nothing comes before it: a place and no held line, a log entry, and its slots (R123, R299, R300, R517,
R521). -/
theorem tryTask_takesUp (hp : s.hasPlace c i = true) (hh : s.heldBack c i r = false) (hq : s.queuedBefore c i r = false)
    (hl : (s.outputUnconf c i r.pass && (s.cluster c).logFull && !(s.cluster c).logged i r.pass) = false)
    (hs : r.replayed = true ∨ (s.cluster c).inputsFull i r.pass = true ∧ (s.cluster c).outputsFree i r.pass = true) :
    s.tryTask c i r = s.takeUp c i r := by
  have h1 : s.waitsPlace c i r = false := by simp [State.waitsPlace, hp, hh, hq]
  have h2 : s.waitsLog c i r = false := hl
  have h3 : s.waitsSlots c i r = false := by
    obtain h | ⟨hi, ho⟩ := hs
    · simp [State.waitsSlots, h]
    · simp [State.waitsSlots, hi, ho]
  simp only [State.tryTask, h1, h2, h3, Bool.false_eq_true, if_false]

/-- What a dispatch that is due comes to: the deadline first, then a hung core and the tasks that go before (R85, R93, R304, R859). -/
theorem dispatch_due {k : Nat} (hk : k = (s.cluster c).dispatchKey i)
    (hr : r = ((s.cluster c).run k).getD { TaskRun.init with pass := (s.cluster c).pass, at_ := s.now })
    (hq : s.sequencing c = true) (ha : (s.cluster c).active.isSome = true) (hi : i < (s.cluster c).taskCount) (hw : r.phase.waits = true)
    (hp : (s.cluster c).predsDone k = true)
    (ht : (s.cluster c).batch = true ∨ r.phase = .replay ∨ dStart ((s.cluster c).task i) ≤ s.inTick) :
    s.dispatch c i = if !(s.cluster c).batch && decide (dDeadline ((s.cluster c).task i) ≤ s.inTick) then s.skipLate c k r
      else if (s.cluster c).skips (dLcore ((s.cluster c).task i)) then s.coreSkip c k
      else if s.outranked c k (r.phase == .replay) then s
      else s.tryTask c k { r with replayed := r.phase == .replay } := by
  have h1 : (!s.sequencing c || (s.cluster c).active.isNone || decide ((s.cluster c).taskCount ≤ i)) = false := by
    simp [hq, Option.isNone_eq_false_iff, ha, hi]
  have h2 : (!r.phase.waits || !(s.cluster c).predsDone k
      || (!(s.cluster c).batch && !(r.phase == .replay) && decide (s.inTick < dStart ((s.cluster c).task i)))) = false := by
    simp only [hw, hp, Bool.not_true, Bool.false_or, Bool.and_eq_false_iff, Bool.not_eq_false', beq_iff_eq, decide_eq_false_iff_not, not_lt]
    obtain h | h | h := ht
    · exact .inl (.inl h)
    · exact .inl (.inr h)
    · exact .inr h
  subst hk hr
  simp only [State.dispatch, h1, h2, Bool.false_eq_true, if_false]

/-- A dispatch before the task's deadline is tried. -/
theorem dispatch_tries {k : Nat} (hk : k = (s.cluster c).dispatchKey i)
    (hr : r = ((s.cluster c).run k).getD { TaskRun.init with pass := (s.cluster c).pass, at_ := s.now })
    (hq : s.sequencing c = true) (ha : (s.cluster c).active.isSome = true) (hi : i < (s.cluster c).taskCount) (hw : r.phase.waits = true)
    (hp : (s.cluster c).predsDone k = true)
    (ht : (s.cluster c).batch = true
      ∨ (r.phase = .replay ∨ dStart ((s.cluster c).task i) ≤ s.inTick) ∧ s.inTick < dDeadline ((s.cluster c).task i))
    (hs : (s.cluster c).skips (dLcore ((s.cluster c).task i)) = false) (ho : s.outranked c k (r.phase == .replay) = false) :
    s.dispatch c i = s.tryTask c k { r with replayed := r.phase == .replay } := by
  have hd : (!(s.cluster c).batch && decide (dDeadline ((s.cluster c).task i) ≤ s.inTick)) = false := by
    obtain h | ⟨-, h⟩ := ht
    · simp [h]
    · simp [h]
  rw [dispatch_due hk hr hq ha hi hw hp (ht.imp_right And.left)]
  simp only [hd, hs, ho, Bool.false_eq_true, if_false]

/-- A dispatch that its deadline has passed is of a task that is not run (R93). -/
theorem dispatch_late {k : Nat} (hk : k = (s.cluster c).dispatchKey i)
    (hr : r = ((s.cluster c).run k).getD { TaskRun.init with pass := (s.cluster c).pass, at_ := s.now })
    (hq : s.sequencing c = true) (ha : (s.cluster c).active.isSome = true) (hi : i < (s.cluster c).taskCount) (hw : r.phase.waits = true)
    (hp : (s.cluster c).predsDone k = true) (hb : (s.cluster c).batch = false)
    (ht : r.phase = .replay ∨ dStart ((s.cluster c).task i) ≤ s.inTick) (hd : dDeadline ((s.cluster c).task i) ≤ s.inTick) :
    s.dispatch c i = s.skipLate c k r := by
  rw [dispatch_due hk hr hq ha hi hw hp (.inr ht)]
  simp only [hb, hd, Bool.not_false, decide_true, Bool.and_self, if_true]

theorem slotGrant_tries (hq : s.sequencing c = true) (hr : (s.cluster c).run i = some r) (hw : r.phase = .waitSlots)
    (ht : (s.cluster c).batch = true ∨ s.inTick < dDeadline ((s.cluster c).task i))
    (hs : (s.cluster c).skips (dLcore ((s.cluster c).task i)) = false) (ho : s.outranked c i false = false) :
    s.slotGrant c i = s.tryTask c i r := by
  have hd : (!s.sequencing c || (!(s.cluster c).batch && decide (dDeadline ((s.cluster c).task i) ≤ s.inTick))) = false := by
    obtain h | h := ht
    · simp [hq, h]
    · simp [hq, h]
  simp only [State.slotGrant, hd, hr, hw, ne_eq, not_true_eq_false, hs, ho, Bool.false_eq_true, if_false]

theorem dataLate_skips (hq : s.sequencing c = true) (hr : (s.cluster c).run i = some r) (hw : r.phase = .waitSlots)
    (hb : (s.cluster c).batch = false) (hd : dDeadline ((s.cluster c).task i) ≤ s.inTick) : s.dataLate c i = s.skipLate c i r := by
  simp only [State.dataLate, hq, hb, Bool.not_true, Bool.or_self, Nat.not_lt.mpr hd, decide_false, hr, hw, ne_eq, not_true_eq_false,
    Bool.false_eq_true, if_false]

theorem confirmedStart_begins (hq : s.sequencing c = true) (hr : (s.cluster c).run i = some r) (hw : r.phase = .waitConfirm)
    (ht : s.inputTag c i r.pass = none) (ho : (s.haul (s.haulKey c ((s.cluster c).task i))).outstanding < 8)
    (hl : dKind ((s.cluster c).task i) = kEgress → s.lateBy c i = none) :
    s.confirmedStart c i
      = (s.modCluster c (fun x => x.setRun i { r with phase := .running, applied := s.now })).beginTransfer c i := by
  have hn : ¬ (r.phase ≠ .waitConfirm ∨ (!s.sequencing c) = true ∨ (s.inputTag c i r.pass).isSome = true
      ∨ 8 ≤ (s.haul (s.haulKey c ((s.cluster c).task i))).outstanding
      ∨ (dKind ((s.cluster c).task i) = kEgress ∧ (s.lateBy c i).isSome = true)) := by
    simp only [hw, hq, ht, Nat.not_le.mpr ho, ne_eq, not_true_eq_false, Bool.not_true, Bool.false_eq_true, Option.isSome_none, false_or,
      not_and, Bool.not_eq_true, Option.isSome_eq_false_iff, Option.isNone_iff_eq_none]
    exact hl
  simp only [State.confirmedStart, hr, if_neg hn]

/-- The first fill that may run ahead is issued: none of pass p + 1 comes before one of p + 2, and none of a lower index of its own pass
(R527, R528). -/
theorem aheadIssue_issues (a : Fin 2) (hq : s.plansRun c = true) (hs : (s.cluster c).skips (dLcore ((s.cluster c).task i)) = false)
    (hl : (s.haul (s.haulKey c ((s.cluster c).task i))).outstanding < (if dKind ((s.cluster c).task i) = kCoreHaul then 4 else 8))
    (hi : i < (s.cluster c).taskCount) (hc : s.canAhead c i (a.val + 1) = true) (ht : s.transferReady c i = false)
    (hf : ∀ j m, j < (s.cluster c).taskCount → (m = 1 ∧ a.val = 1 ∨ m = a.val + 1 ∧ j < i) →
      s.haulKey c ((s.cluster c).task j) = s.haulKey c ((s.cluster c).task i) → s.canAhead c j m = false) :
    s.aheadIssue c i (a.val + 1) = (s.modHaul (s.haulKey c ((s.cluster c).task i)) (fun h => { h with
        outstanding := h.outstanding + 1, aheadIssued := (h.aheadIssued + 1) % 2 ^ 32 })).modCluster c (fun x =>
      { x.takeSlots i (x.pass + (a.val + 1)) with
        ahead := x.ahead ++ [{ task := i, pass := x.pass + (a.val + 1), done := false, clashes := [] }] }) := by
  have hb : ∀ m j, ((m, j) ∈ (List.range (a.val + 1)).tail.flatMap (fun m => (List.range (s.cluster c).taskCount).map (fun j => (m, j)))
      ++ (List.range (min i (s.cluster c).taskCount)).map (fun j => (a.val + 1, j))) →
      j < (s.cluster c).taskCount ∧ (m = 1 ∧ a.val = 1 ∨ m = a.val + 1 ∧ j < i) := by
    intro m j h
    simp only [List.mem_append, List.mem_flatMap, List.mem_map, List.mem_range, Prod.mk.injEq] at h
    obtain ⟨m', hm', j', hj', rfl, rfl⟩ | ⟨j', hj', rfl, rfl⟩ := h
    · match a with
      | 0 => simp at hm'
      | 1 => exact ⟨hj', .inl ⟨by simpa [List.range_succ] using hm', rfl⟩⟩
    · exact ⟨by omega, .inr ⟨rfl, by omega⟩⟩
  have hn : (!s.plansRun c || (s.cluster c).skips (dLcore ((s.cluster c).task i))
      || decide ((if dKind ((s.cluster c).task i) = kCoreHaul then 4 else 8) ≤ (s.haul (s.haulKey c ((s.cluster c).task i))).outstanding)
      || decide ((s.cluster c).taskCount ≤ i) || !s.canAhead c i (a.val + 1) || s.transferReady c i) = false := by
    simp [hq, hs, hc, ht, Nat.not_le.mpr hl, hi]
  simp only [State.aheadIssue, hn, Bool.false_or]
  rw [if_neg]
  rw [List.any_eq_true]
  rintro ⟨⟨m, j⟩, hm, hj⟩
  obtain ⟨hlt, hmj⟩ := hb m j hm
  simp only [Bool.and_eq_true, beq_iff_eq] at hj
  obtain ⟨⟨hkey, -⟩, hcan⟩ := hj
  rw [hf j m hlt hmj hkey] at hcan
  exact Bool.false_ne_true hcan

end

/-- Settles O36, clause by clause through what `State.tryTask` and `State.takeUp` do. -/
theorem tasksAreDispatched : Obligations.TasksAreDispatched := by
  rintro s dt c i u x hu rfl
  have hc : s.cluster c = u.cluster c := by rw [hu]; rfl
  have hh : s.haul = u.haul := by rw [hu]; rfl
  have hm : s.mem = u.mem := by rw [hu]; rfl
  rw [hc, hh, hm, exec_taskDispatch, exec_slotGrant, exec_dataLate, exec_confirmedTransferStart, ← hu]
  clear hc hh hm
  refine ⟨?dispatch, fun r => takeUp_takenUp u c i r, ?late, ?grant, ?dataLate, ?confirmed, ?ahead⟩
  case dispatch =>
    rintro k r q hk hr rfl hq ha hi hw ht hp hs ho hpl hh hqb hl hsl
    rw [dispatch_tries hk hr hq ha hi hw hp ht hs ho, tryTask_takesUp hpl hh hqb hl (hsl.imp_left beq_iff_eq.mpr)]
  case late =>
    intro k r hk hr hq ha hi hw hp hb ht hd
    rw [dispatch_late hk hr hq ha hi hw hp hb ht hd]
    obtain ⟨⟨p, hp⟩, hm⟩ := skipLate_notRun u c k r
    exact ⟨_, p, rfl, hp.1, hp.2, hm⟩
  case grant =>
    intro r hq hr hw hrep ht hs ho hpl hh hqb hl hin hout
    rw [slotGrant_tries hq hr hw ht hs ho, tryTask_takesUp hpl hh hqb hl (.inr ⟨hin, hout⟩)]
  case dataLate =>
    intro r hq hr hw hb hd
    rw [dataLate_skips hq hr hw hb hd]
    obtain ⟨⟨p, hp⟩, hm⟩ := skipLate_notRun u c i r
    exact ⟨_, p, rfl, hp.1, hp.2, hm⟩
  case confirmed =>
    intro r hq hr hw ht ho hl
    rw [confirmedStart_begins hq hr hw ht ho hl]
  case ahead =>
    intro a hq hs hl hi hc ht hf
    rw [exec_aheadIssue, ← hu, aheadIssue_issues a hq hs hl hi hc ht hf]

end Sys2Proof.Machine
end

section
/-! PROOFS. The values that the module has at reset (R50, R69, R375, R561, R674, R780). -/

namespace Sys2Proof.Machine

theorem tenant_reset_exist (t : TenantId) : (State.reset.tenant t).exist = decide (t.val = 0) := rfl

/-- Settles O3: no unit is listed at reset, so each reads its own initial value. -/
theorem resetValues : Obligations.ResetValues :=
  ⟨rfl, rfl, fun _ => ⟨rfl, rfl, rfl⟩, rfl, rfl, fun t => ⟨rfl, tenant_reset_exist t⟩, rfl, rfl, rfl, fun _ => ⟨rfl, rfl, rfl, rfl⟩,
    fun _ => ⟨rfl, rfl, rfl⟩, fun _ => ⟨rfl, rfl⟩, rfl, rfl, rfl, fun _ => rfl, rfl⟩

end Sys2Proof.Machine
end

section
/-! PROOFS. TICK_SOURCE_SET in HELD (R66, R67): the module stays HELD, and only the state that it leaves HELD for becomes ACQUIRING. -/

namespace Sys2Proof.Machine

theorem ended_time (f u : State) (h : CmdHdr) (c : HostCmd) (result : Nat) (out : List Byte) : (f.ended u h c result out).time = u.time := by
  rw [(ended_books f u h c result out).1]

theorem taken_time (s : State) (dt : Nat) (h : CmdHdr) : (s.taken dt h).time = (s.elapse dt).time := by
  rw [(taken_books s dt h).1]

theorem taken_manager (s : State) (dt : Nat) (h : CmdHdr) : (s.taken dt h).mbx.manager = s.mbx.manager := by
  rw [(taken_books s dt h).1]
  rfl

theorem exec_tickSourceSet (s : State) (dt : Nat) (h : CmdHdr) (p : TickSourceParams) :
    exec (.tickSourceSet dt h p) s = .next ((s.elapse dt).submit h (.tickSourceSet p)) := rfl

@[simp] theorem ticksrc_time (s : State) (kind detail : Nat) : (s.ticksrc kind detail).time = s.time := raise_time ..

@[simp] theorem phaseJump_time (s : State) (phase : Int) : (s.phaseJump phase).time = s.time := by
  rw [State.phaseJump, forEach_keeps State.time _ (fun _ _ => State.modCluster_time ..), ticksrc_time]

/-- TICK_SOURCE_SET leaves a HELD module HELD; every other acquires anew. -/
theorem setSources_srcState (s : State) (p : TickSourceParams) :
    (s.setSources p).time.srcState = if s.time.srcState = .held then .held else .acquiring := by
  simp only [State.setSources, apply_ite State.time, apply_ite TimeState.srcState, phaseJump_time, ite_self]

/-- TICK_SOURCE_SET on a ready ring, in the period in force and with operands that pass its checks. -/
theorem exec_tickSourceSet_ready {s : State} {dt : Nat} {h : CmdHdr} {p : TickSourceParams} (hr : Ready s dt h (.tickSourceSet p))
    (hp : p.period.toNat ≤ 4) (hd : p.ptpDomain = 0) (ho : p.frameOffset.toNat ≤ 9999999) (hb : badSource s.mbx.manager (srcsOf p) = none)
    (ht : p.period.toNat = s.time.period) :
    exec (.tickSourceSet dt h p) s = .next ((s.taken dt h).ended (((s.taken dt h).setSources p).extendCfg h (.tickSourceSet p)) h
      (.tickSourceSet p) 0 []) := by
  have ht' : p.period.toNat = (s.taken dt h).time.period := by rw [taken_time]; exact ht
  rw [exec_tickSourceSet, submit_ok rfl hr]
  show cmdTickSourceSet h p (s.taken dt h) = _
  simp only [cmdTickSourceSet, Nat.not_lt.mpr hp, hd, Nat.not_lt.mpr ho, taken_manager, hb, ne_eq, not_true_eq_false, false_and, if_false]
  exact if_neg (not_and_of_not_left _ (not_not.mpr ht'))

/-- A running module, HELD, whose operator's session is open. -/
def heldModule : State :=
  { State.reset with
    time := { TimeState.init with srcState := .held }
    mbx := { Mailbox.init with fw := .running }
    trust := { Trust.init with tenants := [(0, { Tenant.init 0 with session := some Session.init })] } }

/-- TICK_SOURCE_SET on the operator's session, and its operands: TICK_IN alone, with the period and offset in force. -/
def tickInHeader : CmdHdr := { ring := .ctl, id := 1, session := some 0, bulk := [] }
def tickInParams : TickSourceParams := { period := 4, nsrc := 1, ptpDomain := 0, frameOffset := 0, src0 := 1, src1 := 0, src2 := 0 }

theorem ready_heldModule : Ready heldModule 0 tickInHeader (.tickSourceSet tickInParams) := by
  unfold Ready
  decide +kernel

/-- Refutes O7: its first clause has TICK_SOURCE_SET always acquire anew, but a module in HELD stays HELD. -/
theorem not_tickCommands : ¬ Obligations.TickCommands := by
  intro hall
  have hb : badSource heldModule.mbx.manager (srcsOf tickInParams) = none := by decide
  have hb' : badSource (heldModule.taken 0 tickInHeader).mbx.manager (srcsOf tickInParams) = none := by rw [taken_manager, hb]
  have hp : tickInParams.period.toNat = (heldModule.taken 0 tickInHeader).time.period := by rw [taken_time]; rfl
  obtain ⟨hset, -⟩ := hall heldModule 0 tickInHeader _ rfl
  obtain ⟨u, hu, -, -, -, hacq, -⟩ :=
    hset tickInParams ready_heldModule (by decide) (.inl rfl) (by decide) hb' (.inl hp)
  rw [exec_tickSourceSet_ready ready_heldModule (by decide) rfl (by decide) hb rfl, Host.Outcome.next.injEq] at hu
  have htime := congrArg (fun t => t.time.srcState) hu
  simp only [ended_time, hacq] at htime
  have hheld : ((heldModule.taken 0 tickInHeader).setSources tickInParams).time.srcState = .held := by
    rw [setSources_srcState, taken_time]
    rfl
  exact SrcState.noConfusion (hheld.symm.trans htime)

end Sys2Proof.Machine
end

section
/-! PROOFS. Edges of TICK_IN and PPS_IN (R52, R55, R58 to R60), and how a source is disqualified. -/

namespace Sys2Proof.Machine

theorem exec_tickInEdge (s : State) (dt : Nat) : exec (.tickInEdge dt) s = .next (s.elapse dt).tickInEdge := rfl
theorem exec_tickInEdgeLate (s : State) (dt : Nat) : exec (.tickInEdgeLate dt) s = .next (s.elapse dt).tickInLate := rfl
theorem exec_ppsInEdge (s : State) (dt : Nat) : exec (.ppsInEdge dt) s = .next (s.elapse dt).ppsEdge := rfl

@[simp] theorem State.elapse_disciplined (s : State) (dt : Nat) : (s.elapse dt).disciplined = s.disciplined := rfl

/-! ## Disqualification (R53, R55) -/

theorem loseSources_sources (s : State) (was : Bool) : (s.loseSources was).time.sources = s.time.sources := by
  simp only [State.loseSources, apply_ite State.time, ticksrc_time, State.modTime, apply_ite TimeState.sources, ite_self]

/-- With no source qualified the module in LOCKED enters HOLDOVER (R55). -/
theorem loseSources_holdover {s : State} (was : Bool) (hl : s.time.srcState = .locked) (h : ∀ y ∈ s.time.sources, y.qualified = false) :
    (s.loseSources was).time.srcState = .holdover := by
  have ha : s.time.sources.all (fun x => !x.qualified) = true := by simpa using h
  simp only [State.loseSources, hl, ha, and_self, if_true, ticksrc_time, State.modTime]

theorem disqualify_sources (s : State) (p : TickSource → Bool) : (s.disqualify p).time.sources
    = s.time.sources.map (fun x => if p x then { x with qualified := false, run := 0 } else x) := loseSources_sources ..

/-- No source that meets the condition stays qualified. -/
theorem disqualify_unqualified (s : State) (p : TickSource → Bool) :
    ∀ y ∈ (s.disqualify p).time.sources, p y = true → y.qualified = false := by
  intro y hy h
  rw [disqualify_sources, List.mem_map] at hy
  obtain ⟨x, -, rfl⟩ := hy
  by_cases hx : p x = true
  · rw [if_pos hx]
  · rw [if_neg hx] at h
    exact absurd h hx

/-- A module in LOCKED that loses every source that is qualified enters HOLDOVER. -/
theorem disqualify_holdover {s : State} {p : TickSource → Bool} (hl : s.time.srcState = .locked)
    (h : ∀ x ∈ s.time.sources, p x = false → x.qualified = false) : (s.disqualify p).time.srcState = .holdover := by
  refine loseSources_holdover _ hl (fun y hy => ?_)
  obtain ⟨x, hx, rfl⟩ := List.mem_map.mp hy
  split
  · rfl
  · next hp => exact h x hx (Bool.not_eq_true _ ▸ hp)

/-! ## TICK_IN -/

section
variable {s : State} {x : TickSource} {e : Nat}

/-- An edge in its window of a qualified TICK_IN adds to its run, and is followed where TICK_IN is in use (R52, R60). -/
theorem tickInEdge_qualified (hd : s.disciplined = true) (hf : s.time.sources.find? (fun y => y.kind == .tickIn) = some x)
    (he : x.last = some e) (hq : x.qualified = true) (hw : inWindow (periodNs s.time.period) e s.now = true) :
    s.tickInEdge = (s.modSources (fun y => if y.kind = .tickIn then { y with run := x.run + 1, last := some s.now } else y)).followEdge := by
  simp only [State.tickInEdge, hd, hf, he, hw, hq, Bool.not_true, Bool.false_eq_true, if_false, if_true]

/-- The fifth edge in its window, without PPS_IN, qualifies TICK_IN (R52, R58). -/
theorem tickInEdge_qualifies (hd : s.disciplined = true) (hf : s.time.sources.find? (fun y => y.kind == .tickIn) = some x)
    (he : x.last = some e) (hq : x.qualified = false) (hr : 3 ≤ x.run) (hw : inWindow (periodNs s.time.period) e s.now = true)
    (hp : s.ppsPresent = false) :
    s.tickInEdge = (s.modSources (fun y => if y.kind = .tickIn then { y with run := x.run + 1, last := some s.now } else y)).qualifyEdge
      s.now false := by
  have hp' : ∀ f, (s.modSources f).ppsPresent = false := fun f => hp
  have hr' : ¬ x.run + 1 < 4 := by omega
  simp only [State.tickInEdge, hd, hf, he, hw, hq, hp', hr', Bool.not_true, Bool.false_eq_true, if_false, if_true]
  rfl

theorem mem_qualifyEdge {edge : Nat} {pps : Bool} {y : TickSource} (hy : y ∈ (s.qualifyEdge edge pps).time.sources) :
    ∃ x ∈ s.time.sources, y = if x.kind = .tickIn then
      { x.qualify s.now with zero := if pps || !s.time.frame0 then some edge else x.zero } else x := by
  obtain ⟨x, hx, rfl⟩ := List.mem_map.mp hy
  exact ⟨x, hx, rfl⟩

theorem TickSource.qualify_qualified (x : TickSource) (now : Nat) : (x.qualify now).qualified = true := by
  unfold TickSource.qualify
  split
  · assumption
  · rfl

theorem TickSource.qualify_last (x : TickSource) (now : Nat) : (x.qualify now).last = x.last := by
  unfold TickSource.qualify
  split <;> rfl

theorem TickSource.qualify_kind (x : TickSource) (now : Nat) : (x.qualify now).kind = x.kind := by
  unfold TickSource.qualify
  split <;> rfl

theorem TickSource.qualify_port (x : TickSource) (now : Nat) : (x.qualify now).port = x.port := by
  unfold TickSource.qualify
  split <;> rfl

/-- An edge that is 1 us late leaves TICK_IN without its last edge, and disqualified (R52). -/
theorem tickInLate_disqualifies (hf : s.time.sources.find? (fun y => y.kind == .tickIn) = some x) (he : x.last = some e)
    (hl : e + periodNs s.time.period + 1000 ≤ s.now) : s.tickInLate
      = (s.modSources (fun y => if y.kind = .tickIn then { y with last := none } else y)).disqualify (fun y => y.kind == .tickIn) := by
  simp only [State.tickInLate, hf, he, hl, if_true]

end

theorem clocksOn_of_disciplined {s : State} (h : s.disciplined = true) : s.clocksOn = true :=
  (Bool.and_eq_true_iff.mp h).1

/-- With no TICK_IN listed an edge of PPS_IN is only kept (R59). -/
theorem ppsEdge_unlisted {s : State} (hd : s.disciplined = true) (hf : ∀ y ∈ s.time.sources, y.kind ≠ .tickIn) :
    s.ppsEdge = s.modTime (fun t => { t with pps := s.now :: t.pps.take 1 }) := by
  have hn : (s.modTime (fun t => { t with pps := s.now :: t.pps.take 1 })).time.sources.find? (fun y => y.kind == .tickIn) = none :=
    List.find?_eq_none.mpr (fun y hy => by simpa using hf y hy)
  simp only [State.ppsEdge, clocksOn_of_disciplined hd, hn, Bool.not_true, Bool.false_eq_true, if_false]

/-- Settles O27: by what an edge and its absence do to the sources. -/
theorem tickInAndPps : Obligations.TickInAndPps := by
  intro s dt u hu hd
  have hud : u.disciplined = true := by rw [hu]; exact hd
  have hsrc : s.time.sources = u.time.sources := by rw [hu]; rfl
  have hper : s.time.period = u.time.period := by rw [hu]; rfl
  have hst : s.time.srcState = u.time.srcState := by rw [hu]; rfl
  have hfr : s.time.frame0 = u.time.frame0 := by rw [hu]; rfl
  rw [hsrc, hper, hst, hfr, exec_tickInEdge, exec_tickInEdgeLate, exec_ppsInEdge, ← hu]
  clear hsrc hper hst hfr hu hd
  refine ⟨?good, ?fifth, ?late, ?pps⟩
  case good =>
    intro x e hf he hq hw
    rw [tickInEdge_qualified hud hf he hq hw]
  case fifth =>
    intro x e hf he hq hr hw hp
    refine ⟨_, congrArg _ (tickInEdge_qualifies hud hf he hq hr hw hp), rfl, fun y hy hk => ?_⟩
    obtain ⟨z, hz, rfl⟩ := mem_qualifyEdge hy
    obtain ⟨w, -, rfl⟩ := List.mem_map.mp hz
    have hkind : w.kind = .tickIn := by
      by_contra hn
      simp only [hn, if_false] at hk
    simp only [hkind, if_true, TickSource.qualify_qualified, TickSource.qualify_last, true_and]
    intro hfr
    simp [State.modSources, State.modTime, hfr, State.now]
  case late =>
    intro x e hf he hl
    refine ⟨_, congrArg _ (tickInLate_disqualifies hf he hl), fun y hy hk => ?_, fun hlock hother => ?_⟩
    · exact disqualify_unqualified _ _ y hy (beq_iff_eq.mpr hk)
    · refine disqualify_holdover hlock (fun z hz hk => ?_)
      obtain ⟨w, hw, rfl⟩ := List.mem_map.mp hz
      by_cases hn : w.kind = .tickIn
      · simp [hn] at hk
      · rw [if_neg hn]
        exact hother w hw hn
  case pps =>
    intro hn
    rw [ppsEdge_unlisted hud hn]

end Sys2Proof.Machine
end

section
/-! PROOFS. Frames received and sent: a frame changes the fabric's books and the CA it travels under, and nothing else (R535, R541, R546 to
R549, R575, R610). -/

namespace Sys2Proof.Machine

/-! ## What only the fabric and the CAs can see -/

/-- `t` is `s` but for the fabric, the CAs and the free values used. -/
def FabricOnly (s t : State) : Prop := t = { s with fabric := t.fabric, trust := t.trust, free := t.free }

theorem FabricOnly.refl (s : State) : FabricOnly s s := rfl

theorem FabricOnly.trans {s t u : State} (h : FabricOnly s t) (g : FabricOnly t u) : FabricOnly s u := by
  unfold FabricOnly at *
  rw [g]
  conv_lhs => rw [h]

theorem FabricOnly.time {s t : State} (h : FabricOnly s t) : t.time = s.time := by rw [h]
theorem FabricOnly.jtag {s t : State} (h : FabricOnly s t) : t.jtag = s.jtag := by rw [h]
theorem FabricOnly.mem {s t : State} (h : FabricOnly s t) : t.mem = s.mem := by rw [h]
theorem FabricOnly.clusters {s t : State} (h : FabricOnly s t) : t.clusters = s.clusters := by rw [h]

theorem FabricOnly.modDyn (s : State) (k : Nat) (f : PartnerDyn → PartnerDyn) : FabricOnly s (s.modDyn k f) := rfl
theorem FabricOnly.modCa (s : State) (k : Nat) (f : Ca → Ca) : FabricOnly s (s.modCa k f) := rfl
theorem FabricOnly.takeFree (s : State) : FabricOnly s s.takeFree := rfl
theorem FabricOnly.countRx (s : State) (p n : Nat) : FabricOnly s (s.countRx p n) := rfl
theorem FabricOnly.countPartner (s : State) (i k n : Nat) : FabricOnly s (s.countPartner i k n) := rfl

/-! ## Ports: a frame counts, and occupies its port -/

/-- Every port is as it was but for its counters and the clock to which it is busy. -/
def PortsKept (s t : State) : Prop := ∀ p, t.port p = { s.port p with counters := (t.port p).counters, busyUntil := (t.port p).busyUntil }

theorem PortsKept.refl (s : State) : PortsKept s s := fun _ => rfl

theorem PortsKept.trans {s t u : State} (h : PortsKept s t) (g : PortsKept t u) : PortsKept s u := fun p => by
  rw [g p]
  conv_lhs => rw [h p]

theorem PortsKept.of_ports {s t : State} (h : t.fabric.ports = s.fabric.ports) : PortsKept s t := fun p => by
  rw [State.port, h]
  rfl

theorem PortsKept.modPort (s : State) (k : Nat) {f : Port → Port}
    (hf : ∀ x, f x = { x with counters := (f x).counters, busyUntil := (f x).busyUntil }) : PortsKept s (s.modPort k f) := fun p => by
  by_cases h : p = k
  · subst h
    rw [State.port_modPort_same]
    exact hf _
  · rw [State.port_modPort_other _ _ h]

theorem PortsKept.countPort (s : State) (p k n : Nat) : PortsKept s (s.countPort p k n) := PortsKept.modPort s p (fun _ => rfl)

theorem PortsKept.countRx (s : State) (p n : Nat) : PortsKept s (s.countRx p n) :=
  (PortsKept.countPort s p 0 1).trans (PortsKept.countPort _ p 1 _)

theorem PortsKept.up {s t : State} (h : PortsKept s t) (p : Nat) : (t.port p).up = (s.port p).up := by rw [h p]

/-! ## Reception (R546 to R549) -/

/-- A frame that passes its check moves its CA's replay window, and leaves the rest. -/
theorem checked_passes {s : State} {p k : Nat} {pr : Protection} (h : s.rxFault k pr = none) :
    s.checked p k pr = (s.modCa k (fun c => { c with rxPn := max c.rxPn (pr.pn.toNat + 1) }), true) := by
  rw [State.checked, h]

/-- What MACsec finds depends on the CA alone. -/
theorem rxFault_congr {s t : State} (h : t.trust = s.trust) (k : Nat) (pr : Protection) : t.rxFault k pr = s.rxFault k pr := by
  have hc : t.ca k = s.ca k := by rw [State.ca, h, State.ca]
  unfold State.rxFault
  rw [hc]

theorem modCa_rx (s : State) (k j : Nat) (n : Ca → Nat) :
    ((s.modCa k (fun c => { c with rxPn := n c })).ca j).sak = (s.ca j).sak
      ∧ ((s.modCa k (fun c => { c with rxPn := n c })).ca j).txPn = (s.ca j).txPn := by
  by_cases h : j = k
  · subst h
    rw [State.ca_modCa_same]
    exact ⟨rfl, rfl⟩
  · rw [State.ca_modCa_other _ _ h]
    exact ⟨rfl, rfl⟩

/-! ## Transmission (R535, R536, R541, R546) -/

/-- `t` is `s` after up to `n` frames more have been sent or wait to be: the frames in order, their ports' and partners' books, their CAs'
packet numbers, the free values used. -/
structure Sending (n : Nat) (s t : State) : Prop where
  only : FabricOnly s t
  fabric : t.fabric = { s.fabric with
    ports := t.fabric.ports, sent := t.fabric.sent, waiting := t.fabric.waiting, dyn := t.fabric.dyn }
  ports : PortsKept s t
  sak : ∀ k, (t.ca k).sak = (s.ca k).sak
  txPn : ∀ k, (t.ca k).txPn ≤ (s.ca k).txPn + n

theorem Sending.refl (s : State) : Sending 0 s s := ⟨.refl s, rfl, .refl s, fun _ => rfl, fun _ => le_refl _⟩

theorem Sending.trans {n m : Nat} {s t u : State} (h : Sending n s t) (g : Sending m t u) : Sending (n + m) s u where
  only := h.only.trans g.only
  fabric := by
    rw [g.fabric]
    conv_lhs => rw [h.fabric]
  ports := h.ports.trans g.ports
  sak k := (g.sak k).trans (h.sak k)
  txPn k := by
    have := h.txPn k
    have := g.txPn k
    omega

theorem Sending.partner {n : Nat} {s t : State} (h : Sending n s t) (i : Nat) : t.partner i = s.partner i := by
  rw [State.partner, h.fabric, State.partner]

theorem Sending.replyPort {n : Nat} {s t : State} (h : Sending n s t) (i : Nat) : t.replyPort i = s.replyPort i := by
  rw [State.replyPort, h.partner, State.replyPort]

/-- A partner's CA with packet numbers left goes on to serve it. -/
theorem Sending.secured {n : Nat} {s t : State} (h : Sending n s t) {i : Nat} (hs : s.secured i = true)
    (hn : (s.ca (peCa (s.partner i))).txPn + n ≤ 2 ^ 62) : t.secured i = true := by
  have hp := h.txPn (peCa (s.partner i))
  simp only [State.secured, Ca.ready, Bool.and_eq_true, bne_iff_ne, decide_eq_true_eq] at hs ⊢
  obtain ⟨hf, hk, -⟩ := hs
  rw [h.partner, h.sak]
  exact ⟨hf, hk, by omega⟩

theorem Sending.takeFree (s : State) : Sending 0 s s.takeFree := ⟨rfl, rfl, .refl s, fun _ => rfl, fun _ => le_refl _⟩
theorem Sending.modDyn (s : State) (k : Nat) (f : PartnerDyn → PartnerDyn) : Sending 0 s (s.modDyn k f) :=
  ⟨rfl, rfl, fun _ => rfl, fun _ => rfl, fun _ => le_refl _⟩
theorem Sending.countPartner (s : State) (i k n : Nat) : Sending 0 s (s.countPartner i k n) := Sending.modDyn s i _
theorem Sending.countPort (s : State) (p k n : Nat) : Sending 0 s (s.countPort p k n) :=
  ⟨rfl, rfl, .countPort s p k n, fun _ => rfl, fun _ => le_refl _⟩

/-- A frame under a CA uses up a packet number. -/
theorem Sending.modCa (s : State) (k : Nat) : Sending 1 s (s.modCa k (fun c => { c with txPn := c.txPn + 1 })) := by
  refine ⟨rfl, rfl, .of_ports rfl, fun j => ?_, fun j => ?_⟩ <;> by_cases h : j = k
  · subst h
    rw [State.ca_modCa_same]
  · rw [State.ca_modCa_other _ _ h]
  · subst h
    rw [State.ca_modCa_same]
  · rw [State.ca_modCa_other _ _ h]
    exact Nat.le_succ _

theorem Sending.append (s : State) (g : TxFrame) : Sending 0 s (s.modFabric (fun x => { x with sent := x.sent ++ [g] })) :=
  ⟨rfl, rfl, .of_ports rfl, fun _ => rfl, fun _ => le_refl _⟩

theorem Sending.wait (s : State) (f : TxFrame) : Sending 0 s (s.modFabric (fun x => { x with waiting := x.waiting ++ [f] })) :=
  ⟨rfl, rfl, .of_ports rfl, fun _ => rfl, fun _ => le_refl _⟩

theorem Sending.busy (s : State) (p n : Nat) : Sending 0 s (s.modPort p (fun x => { x with busyUntil := n })) :=
  ⟨rfl, rfl, .modPort s p (fun _ => rfl), fun _ => rfl, fun _ => le_refl _⟩

theorem Sending.mono {n m : Nat} {s t : State} (h : Sending n s t) (hn : n ≤ m) : Sending m s t :=
  ⟨h.only, h.fabric, h.ports, h.sak, fun k => (h.txPn k).trans (Nat.add_le_add_left hn _)⟩

/-- The frame `g` joins those sent, after what its CA has counted. -/
theorem Sending.counted {s u : State} (g : TxFrame) (h : Sending 1 s u) :
    Sending 1 s (((u.modFabric (fun x => { x with sent := x.sent ++ [g] })).countPort g.port 2 1).countPort g.port 3 g.size) :=
  h.trans ((Sending.append u g).trans ((Sending.countPort _ g.port 2 1).trans (Sending.countPort _ g.port 3 g.size)))

theorem transmit_sending (s : State) (f : TxFrame) (at_ : Nat) : Sending 1 s (s.transmit f at_) := by
  unfold State.transmit
  dsimp only
  split
  · exact Sending.counted _ (Sending.modCa s _)
  · exact Sending.counted _ ((Sending.refl s).mono (Nat.zero_le 1))

/-- The frame that goes out is addressed, and has its clock. -/
theorem transmit_sent (s : State) (f : TxFrame) (at_ : Nat) :
    (s.transmit f at_).fabric.sent = s.fabric.sent ++ [{ s.address f with at_ := at_ }] := by
  unfold State.transmit
  dsimp only
  split <;> rfl

theorem transmit_waiting (s : State) (f : TxFrame) (at_ : Nat) : (s.transmit f at_).fabric.waiting = s.fabric.waiting := by
  unfold State.transmit
  dsimp only
  split <;> rfl

/-- A frame that is emitted is dropped in test mode or where it is too long, waits where its port or its CA does not serve, or goes out. -/
theorem emit_cases (s : State) (f : TxFrame) :
    (s.emit f = s ∧ (s.jtag.inEffect = true ∨ frameMax < f.size))
    ∨ (s.emit f = s.modFabric (fun x => { x with waiting := x.waiting ++ [f] }) ∧ s.ready f = false)
    ∨ ∃ t, s.emit f = (s.transmit f t).modPort f.port (fun x => { x with busyUntil := t + ceilDiv f.size 100 }) := by
  unfold State.emit
  split
  · next h =>
    simp only [Bool.or_eq_true, decide_eq_true_eq] at h
    exact .inl ⟨rfl, h⟩
  · split
    · next h => exact .inr (.inl ⟨rfl, by simpa using h⟩)
    · exact .inr (.inr ⟨_, rfl⟩)

theorem emit_sending (s : State) (f : TxFrame) : Sending 1 s (s.emit f) := by
  obtain ⟨h, -⟩ | ⟨h, -⟩ | ⟨t, h⟩ := emit_cases s f <;> rw [h]
  · exact (Sending.refl s).mono (Nat.zero_le 1)
  · exact (Sending.wait s f).mono (Nat.zero_le 1)
  · exact (transmit_sending s f t).trans (Sending.busy _ f.port _)

/-- Out of test mode a frame that is not too long is sent or waits. -/
theorem emit_length {s : State} {f : TxFrame} (hj : s.jtag.inEffect = false) (hf : f.size ≤ frameMax) :
    (s.emit f).fabric.sent.length + (s.emit f).fabric.waiting.length = s.fabric.sent.length + s.fabric.waiting.length + 1 := by
  obtain ⟨-, h⟩ | ⟨h, -⟩ | ⟨t, h⟩ := emit_cases s f
  · simp only [hj, Bool.false_eq_true, false_or] at h
    omega
  · simp only [h, State.modFabric, List.length_append, List.length_singleton]
    omega
  · have hs : (s.emit f).fabric.sent = _ := (congrArg (fun u => u.fabric.sent) h).trans (transmit_sent s f t)
    have hw : (s.emit f).fabric.waiting = _ := (congrArg (fun u => u.fabric.waiting) h).trans (transmit_waiting s f t)
    rw [hs, hw, List.length_append, List.length_singleton]
    omega

/-- A frame whose port is up and whose CA serves it goes out at once. -/
theorem emit_ready {s : State} {f : TxFrame} (hj : s.jtag.inEffect = false) (hf : f.size ≤ frameMax) (hr : s.ready f = true) :
    (∃ g, (s.emit f).fabric.sent = s.fabric.sent ++ [g] ∧ g.type = f.type) ∧ (s.emit f).fabric.waiting = s.fabric.waiting := by
  obtain ⟨-, h⟩ | ⟨-, h⟩ | ⟨t, h⟩ := emit_cases s f
  · simp only [hj, Bool.false_eq_true, false_or] at h
    omega
  · rw [hr] at h
    cases h
  · refine ⟨⟨_, (congrArg (fun u => u.fabric.sent) h).trans (transmit_sent s f t), ?_⟩,
      (congrArg (fun u => u.fabric.waiting) h).trans (transmit_waiting s f t)⟩
    rfl

/-! ## Joryar frames outside a partner's sequence (R575, R604) -/

/-- A Joryar frame of at most 8,256 bytes of payload fits its port, whatever MACsec adds (R536, R575). -/
theorem numberFrame_size (s : State) {f : TxFrame} (seq : Nat) (hf : f.payload.length ≤ 8256) : (s.numberFrame f seq).size ≤ frameMax := by
  have hm := Nat.mod_lt (Config.frameOverhead (32 + f.payload.length)) (show 0 < 37 by decide)
  have hs : (s.numberFrame f seq).size = frameSize (32 + f.payload.length) := rfl
  rw [hs, frameSize, frameMax]
  omega

section
variable {s : State} {i type : Nat} (tag offset : Nat) (last : Bool) (payload : List Byte)

/-- A frame outside the sequence to a partner whose CA serves it is emitted under a free number, and counted. -/
theorem sendTo_unnumbered (hs : s.secured i = true) (ht : numbered type = false) : s.sendTo i type tag offset last payload
    = (s.takeFree.emit (s.numberFrame (s.joryarFrame i type tag offset last payload) (s.freeNat % 2 ^ 32))).countPartner i pcTx 1 := by
  simp only [State.sendTo, hs, ht, Bool.not_true, Bool.false_and, Bool.not_false, Bool.false_eq_true, if_false, if_true]

theorem sendTo_sending (hs : s.secured i = true) (ht : numbered type = false) :
    Sending 1 s (s.sendTo i type tag offset last payload) := by
  rw [sendTo_unnumbered tag offset last payload hs ht]
  exact (Sending.takeFree s).trans ((emit_sending _ _).trans (Sending.countPartner _ i pcTx 1))

theorem sendTo_length {payload : List Byte} (hs : s.secured i = true) (ht : numbered type = false) (hj : s.jtag.inEffect = false)
    (hp : payload.length ≤ 8256) :
    (s.sendTo i type tag offset last payload).fabric.sent.length + (s.sendTo i type tag offset last payload).fabric.waiting.length
      = s.fabric.sent.length + s.fabric.waiting.length + 1 := by
  rw [sendTo_unnumbered tag offset last payload hs ht]
  exact emit_length (s := s.takeFree) hj (numberFrame_size s _ hp)

theorem sendTo_ready {payload : List Byte} (hs : s.secured i = true) (ht : numbered type = false) (hj : s.jtag.inEffect = false)
    (hp : payload.length ≤ 8256) (hu : (s.port (s.replyPort i)).up = true) :
    (∃ g, (s.sendTo i type tag offset last payload).fabric.sent = s.fabric.sent ++ [g] ∧ g.type = type)
      ∧ (s.sendTo i type tag offset last payload).fabric.waiting = s.fabric.waiting := by
  rw [sendTo_unnumbered tag offset last payload hs ht]
  refine emit_ready (s := s.takeFree) hj (numberFrame_size s _ hp) ?_
  have hs' : s.takeFree.secured i = true := hs
  have hu' : (s.takeFree.port (s.replyPort i)).up = true := hu
  simp only [State.ready, State.numberFrame, State.joryarFrame, hs', hu']
  simp

end

end Sys2Proof.Machine
end

section
/-! PROOFS. PTP qualification and the SyncE lock (R51, R549, R561 to R563). -/

namespace Sys2Proof.Machine

theorem exec_ptpFrame (s : State) (dt : Nat) (p : PortId) (h : PtpHdr) (m : PtpMsg) :
    exec (.ptpFrame dt p h m) s = .next ((s.elapse dt).ptpFrame p h m) := rfl
theorem exec_ptpAnnounceTimeout (s : State) (dt : Nat) (p : PortId) :
    exec (.ptpAnnounceTimeout dt p) s = .next ((s.elapse dt).ptpSilent p) := rfl
theorem exec_synceLock (s : State) (dt : Nat) (p : PortId) (b : Bool) :
    exec (.synceLock dt p b) s = .next ((s.elapse dt).synceLock p b) := rfl
theorem exec_esmcFrame (s : State) (dt : Nat) (p : PortId) (b : Bool) :
    exec (.esmcFrame dt p b) s = .next ((s.elapse dt).esmc p b) := rfl

/-- `t` is `s` but for its tick sources, the fabric, the CAs and the free values used. -/
def SourcesAndFabric (s t : State) : Prop :=
  t = { s with time := { s.time with sources := t.time.sources }, fabric := t.fabric, trust := t.trust, free := t.free }

theorem SourcesAndFabric.trans {s t u : State} (h : SourcesAndFabric s t) (g : SourcesAndFabric t u) : SourcesAndFabric s u := by
  unfold SourcesAndFabric at *
  rw [g]
  conv_lhs => rw [h]

theorem FabricOnly.sources {s t : State} (h : FabricOnly s t) : SourcesAndFabric s t := by
  unfold SourcesAndFabric
  conv_lhs => rw [h]
  rw [h.time]

theorem FabricOnly.disciplined {s t : State} (h : FabricOnly s t) : t.disciplined = s.disciplined := by
  rw [h]
  rfl

theorem modSources_only (s : State) (f : TickSource → TickSource) : SourcesAndFabric s (s.modSources f) := rfl

/-! ## A port's PTP lock -/

theorem ptpCheck_only (s : State) (p : Nat) : SourcesAndFabric s (s.ptpCheck p) := rfl

theorem ptpCheck_port (s : State) (p : Nat) :
    (s.ptpCheck p).port p = { s.port p with ptpLock := ((s.ptpCheck p).port p).ptpLock } := by
  rw [State.ptpCheck, State.port_modPort_same]
  rfl

/-- A PTP source with sixteen Sync intervals in a row and SyncE locked is qualified, and its port locked (R51). -/
theorem ptpCheck_locks {s : State} {p : Nat} {x : TickSource} (hx : x ∈ s.time.sources) (hk : x.kind = .ptp) (hp : x.port = p)
    (hr : 16 ≤ x.run) (hs : (s.port p).synced = true) (hd : s.disciplined = true) : ((s.ptpCheck p).port p).ptpLock = true
      ∧ ∃ y ∈ (s.ptpCheck p).time.sources, y.kind = .ptp ∧ y.port = p ∧ y.qualified = true := by
  have hok : ((s.port p).synced && s.disciplined) = true := by rw [hs, hd]; rfl
  have hy : x.qualify s.now ∈ (s.ptpCheck p).time.sources :=
    List.mem_map.mpr ⟨x, hx, if_pos ⟨hk, hp, hr, hok⟩⟩
  have hq : (x.qualify s.now).kind = .ptp ∧ (x.qualify s.now).port = p ∧ (x.qualify s.now).qualified = true :=
    ⟨(x.qualify_kind _).trans hk, (x.qualify_port _).trans hp, x.qualify_qualified _⟩
  refine ⟨?_, _, hy, hq⟩
  rw [State.ptpCheck, State.port_modPort_same]
  exact List.any_eq_true.mpr ⟨_, hy, by simp [hq]⟩

theorem ptpLost_unlocks (s : State) (p : Nat) : ((s.ptpLost p).port p).ptpLock = false := by
  rw [State.ptpLost, State.port_modPort_same]

theorem ptpLost_unqualified (s : State) (p : Nat) :
    ∀ y ∈ (s.ptpLost p).time.sources, y.kind = .ptp → y.port = p → y.qualified = false := fun y hy hk hp =>
  disqualify_unqualified s (fun x => x.kind == .ptp && x.port == p) y hy (by simp [hk, hp])

theorem ptpDelayReq_sending (s : State) (p : Nat) : Sending 1 s (s.ptpDelayReq p) :=
  (Sending.takeFree s).trans (emit_sending _ _)

/-! ## PTP frames -/

section
variable {s : State} {p : Nat} {h : PtpHdr} {x : TickSource}

/-- A PTP frame taken: counted, and its CA's replay window moved. -/
def State.ptpTaken (s : State) (p : Nat) (pr : Protection) : State :=
  (s.countRx p 44).modCa p (fun c => { c with rxPn := max c.rxPn (pr.pn.toNat + 1) })

theorem ptpTaken_only (s : State) (p : Nat) (pr : Protection) : FabricOnly s (s.ptpTaken p pr) :=
  (FabricOnly.countRx s p 44).trans (.modCa _ p _)
theorem ptpTaken_ports (s : State) (p : Nat) (pr : Protection) : PortsKept s (s.ptpTaken p pr) :=
  (PortsKept.countRx s p 44).trans (.of_ports rfl)

/-- A frame of the domain, under the link CA, to the destination of a source on its port is taken; of a Sync that of the port's master
alone counts (R561, R562). -/
theorem ptpFrame_taken (m : PtpMsg) (hd : s.disciplined = true) (hu : (s.port p).up = true) (hf : s.rxFault p h.prot = none)
    (hdom : h.domain.toNat = s.time.ptpDomain) (hx : x ∈ s.time.sources) (hk : x.kind = .ptp) (hp : x.port = p) (hdst : x.dst = h.peer) :
    s.ptpFrame p h m = match m with
      | .announce a => (s.ptpTaken p h.prot).ptpAnnounce p a
      | .sync who ofs => if (s.port p).master.map (fun a => a.identity) = some who then (s.ptpTaken p h.prot).ptpSync p ofs
          else s.ptpTaken p h.prot
      | .other => s.ptpTaken p h.prot := by
  have hf' : (s.countRx p 44).rxFault p h.prot = none := (rxFault_congr rfl p h.prot).trans hf
  have hany : s.time.sources.any (fun x => x.kind == .ptp && x.port == p && x.dst == h.peer) = true :=
    List.any_eq_true.mpr ⟨x, hx, by simp [hk, hp, hdst]⟩
  simp only [State.ptpFrame, hd, hu, checked_passes hf', hdom, hany, bne_self_eq_false, Bool.not_true, Bool.or_self, Bool.false_eq_true,
    if_false]
  rfl

theorem ptpFrame_sync {m : PtpAnnounce} (ofs : Int) (hm : (s.port p).master = some m) (hd : s.disciplined = true)
    (hu : (s.port p).up = true) (hf : s.rxFault p h.prot = none) (hdom : h.domain.toNat = s.time.ptpDomain) (hx : x ∈ s.time.sources)
    (hk : x.kind = .ptp) (hp : x.port = p) (hdst : x.dst = h.peer) :
    s.ptpFrame p h (.sync m.identity ofs) = (s.ptpTaken p h.prot).ptpSync p ofs := by
  rw [ptpFrame_taken _ hd hu hf hdom hx hk hp hdst]
  simp only [hm, Option.map_some, if_true]

/-- A Sync interval within 100 ns, the sixteenth in a row with SyncE locked. -/
theorem ptpSync_locks {ofs : Int} (hd : s.disciplined = true) (hx : x ∈ s.time.sources) (hk : x.kind = .ptp) (hp : x.port = p)
    (hr : 15 ≤ x.run) (hs : (s.port p).synced = true) (hlo : -100 ≤ ofs) (hhi : ofs ≤ 100) :
    ((s.ptpSync p ofs).port p).ptpLock = true
      ∧ (∃ y ∈ (s.ptpSync p ofs).time.sources, y.kind = .ptp ∧ y.port = p ∧ y.qualified = true)
      ∧ SourcesAndFabric s (s.ptpSync p ofs) := by
  have hn : ¬ (ofs < -1000 ∨ 1000 < ofs) := by omega
  rw [State.ptpSync, if_neg hn]
  generalize hv : s.modSources _ = v
  have hx' : { x with run := x.run + 1, last := some s.now } ∈ v.time.sources := by
    rw [← hv]
    exact List.mem_map.mpr ⟨x, hx, by simp [hk, hp, hlo, hhi]⟩
  have hs' : (v.port p).synced = true := by rw [← hv]; exact hs
  have hd' : v.disciplined = true := by rw [← hv]; exact hd
  have hr' : 16 ≤ ({ x with run := x.run + 1, last := some s.now } : TickSource).run := Nat.succ_le_succ hr
  obtain ⟨hlock, hq⟩ := ptpCheck_locks hx' hk hp hr' hs' hd'
  have hreq := ptpDelayReq_sending (v.ptpCheck p) p
  refine ⟨?_, ?_, ?_⟩
  · rw [hreq.ports p]
    exact hlock
  · rw [hreq.only.time]
    exact hq
  · rw [← hv] at hreq ⊢
    exact ((modSources_only s _).trans (ptpCheck_only _ p)).trans hreq.only.sources

/-- A Sync interval beyond 1 us. -/
theorem ptpSync_unlocks {ofs : Int} (ho : ofs < -1000 ∨ 1000 < ofs) : ((s.ptpSync p ofs).port p).ptpLock = false
    ∧ ∀ y ∈ (s.ptpSync p ofs).time.sources, y.kind = .ptp → y.port = p → y.qualified = false := by
  rw [State.ptpSync, if_pos ho]
  generalize s.modSources _ = v
  have hreq := ptpDelayReq_sending (v.ptpLost p) p
  rw [hreq.ports p, hreq.only.time]
  exact ⟨ptpLost_unlocks v p, ptpLost_unqualified v p⟩

theorem ptpAnnounce_time (s : State) (p : Nat) (a : PtpAnnounce) : (s.ptpAnnounce p a).time = s.time := rfl

/-- The first master announced is taken (R561). -/
theorem ptpAnnounce_first {a : PtpAnnounce} (hm : (s.port p).master = none) : ((s.ptpAnnounce p a).port p).master = some a := by
  rw [State.ptpAnnounce, State.port_modPort_same]
  simp only [hm]

/-- Of two masters the better one stays (R561). -/
theorem ptpAnnounce_other {a m : PtpAnnounce} (hm : (s.port p).master = some m) (hne : m.identity ≠ a.identity) :
    ((s.ptpAnnounce p a).port p).master = some (if ranksBefore (ptpRank a) (ptpRank m) then a else m) := by
  rw [State.ptpAnnounce, State.port_modPort_same]
  simp only [hm, hne, false_or]
  split <;> rfl

end

/-! ## SyncE -/

theorem synceLock_kept {s : State} (p : Nat) (b : Bool) (hd : s.disciplined = true) : ((s.synceLock p b).port p).synceLock = b
    ∧ s.synceLock p b = { s with
      time := { s.time with sources := (s.synceLock p b).time.sources }
      fabric := { s.fabric with ports := (s.synceLock p b).fabric.ports } } := by
  simp only [State.synceLock, hd, Bool.not_true, Bool.false_eq_true, if_false]
  refine ⟨?_, rfl⟩
  rw [ptpCheck_port]
  exact congrArg Port.synceLock (State.port_modPort_same s p (fun x => { x with synceLock := b }))

theorem esmc_kept {s : State} (p : Nat) (b : Bool) (hd : s.disciplined = true) : ((s.esmc p b).port p).dnu = b
    ∧ s.esmc p b = { s with
      time := { s.time with sources := (s.esmc p b).time.sources }
      fabric := { s.fabric with ports := (s.esmc p b).fabric.ports } } := by
  simp only [State.esmc, hd, Bool.not_true, Bool.false_eq_true, if_false]
  refine ⟨?_, rfl⟩
  rw [ptpCheck_port]
  exact congrArg Port.dnu (State.port_modPort_same s p (fun x => { x with dnu := b }))

/-- Settles O28: through the frame that is taken, and what a Sync, an Announce and the SyncE lock do then. -/
theorem ptpAndSyncE : Obligations.PtpAndSyncE := by
  intro s dt p u hu hd
  have hud : u.disciplined = true := by rw [hu]; exact hd
  have hport : s.port = u.port := by rw [hu]; rfl
  have hsrc : s.time.sources = u.time.sources := by rw [hu]; rfl
  have hdom : s.time.ptpDomain = u.time.ptpDomain := by rw [hu]; rfl
  simp only [hport, hsrc, hdom, exec_ptpFrame, exec_ptpAnnounceTimeout, exec_synceLock, exec_esmcFrame, ← hu]
  clear hport hsrc hdom hu hd
  refine ⟨fun h x hup hf hdom hx hk hp hdst => ?_, ?_, fun b => ?_, fun b => ?_⟩
  · have hv := ptpTaken_only u p h.prot
    have hvp := ptpTaken_ports u p h.prot
    have hvd : (u.ptpTaken p h.prot).disciplined = true := hv.disciplined.trans hud
    have hvx : x ∈ (u.ptpTaken p h.prot).time.sources := by rw [hv.time]; exact hx
    refine ⟨fun m ofs hm hlo hhi hs hr => ?_, fun m ofs hm ho => ?_, fun a => ?_⟩
    · have hvs : ((u.ptpTaken p h.prot).port p).synced = true := by rw [hvp p]; exact hs
      obtain ⟨hlock, hq, honly⟩ := ptpSync_locks hvd hvx hk hp hr hvs hlo hhi
      rw [ptpFrame_sync ofs hm hud hup hf hdom hx hk hp hdst]
      exact ⟨_, rfl, hlock, hq, hv.sources.trans honly⟩
    · rw [ptpFrame_sync ofs hm hud hup hf hdom hx hk hp hdst]
      exact ⟨_, rfl, ptpSync_unlocks ho⟩
    · have hmas : ((u.ptpTaken p h.prot).port p).master = (u.port p).master := by rw [hvp p]
      exact ⟨_, congrArg _ (ptpFrame_taken _ hud hup hf hdom hx hk hp hdst), (ptpAnnounce_time _ p a).trans hv.time,
        fun hm => ptpAnnounce_first (hmas.trans hm), fun m hm hne => ptpAnnounce_other (hmas.trans hm) hne⟩
  · refine ⟨_, rfl, ?_, ?_, fun y hy => ptpLost_unqualified u p y hy⟩
    · rw [State.ptpSilent, State.port_modPort_same]
      exact ptpLost_unlocks u p
    · rw [State.ptpSilent, State.port_modPort_same]
  · exact ⟨_, rfl, synceLock_kept p b hud⟩
  · exact ⟨_, rfl, esmc_kept p b hud⟩

end Sys2Proof.Machine
end

section
/-! PROOFS. A change of tick source (R54, R56, R57). -/

namespace Sys2Proof.Machine

theorem exec_sourceChange (s : State) (dt : Nat) (phase : Int) : exec (.sourceChange dt phase) s = .next ((s.elapse dt).changeSource phase) := rfl

section
variable {s : State} {phase : Int}

/-! ## The phase of a new source (R56, R57) -/

theorem applyPhase_slewed (hlo : -1000 ≤ phase) (hhi : phase ≤ 1000) : s.applyPhase phase = s.modTime (fun t => { t with slew := phase }) :=
  if_pos ⟨hlo, hhi⟩

/-- A phase beyond 1 us moves TIME_NS at once, and the tick in progress keeps its numbers (R57). -/
theorem applyPhase_time (ho : phase < -1000 ∨ 1000 < phase) : (s.applyPhase phase).time = { (s.retime (-phase)).time with
    frame := s.frameNow, tick := s.tickNow, slew := 0
    tickNotBefore := (s.applyPhase phase).time.tickNotBefore, epochNotBefore := (s.applyPhase phase).time.epochNotBefore } := by
  have hn : ¬ (-1000 ≤ phase ∧ phase ≤ 1000) := by omega
  simp only [State.applyPhase, if_neg hn, phaseJump_time]
  rfl

theorem applyPhase_taiSeen (s : State) (phase : Int) : (s.applyPhase phase).time.taiSeen = s.time.taiSeen := by
  simp only [State.applyPhase, apply_ite State.time, apply_ite TimeState.taiSeen, phaseJump_time]
  exact ite_self _

/-- Records of TIMEBASE 1 are converted once in a power-up (R209). -/
theorem firstTai_seen (h : s.time.taiSeen = true) : s.firstTai = s := if_pos h

/-! ## The change (R54) -/

/-- The source that a change takes up. -/
def State.takeSource (s : State) (i : Nat) : State :=
  s.modTime (fun t => { t with srcState := .locked, srcIndex := i, tai := true, lostAt := none })

/-- A change to a source that is not TICK_IN applies the phase, and reports. -/
theorem changeSource_network {i : Nat} {x : TickSource} (hd : s.disciplined = true) (hh : s.time.srcState ≠ .held)
    (hf : s.time.srcState ≠ .free) (ht : s.time.taiSeen = true) (hp : s.time.pick s.now = some i) (hx : s.time.sources[i]? = some x)
    (hk : x.kind ≠ .tickIn) : s.changeSource phase = ((s.takeSource i).applyPhase phase).ticksrc 3 0 := by
  have hseen : ((s.takeSource i).applyPhase phase).firstTai = (s.takeSource i).applyPhase phase :=
    firstTai_seen ((applyPhase_taiSeen _ _).trans ht)
  have hkind : (x.kind != SrcKind.tickIn) = true := bne_iff_ne.mpr hk
  simp only [State.changeSource, hd, beq_eq_false_iff_ne.mpr hh, beq_eq_false_iff_ne.mpr hf, hp, hx, hkind, Bool.not_true, Bool.or_self,
    Bool.false_eq_true, if_false, if_true]
  split
  · contradiction
  · exact congrArg (fun t : State => t.ticksrc 3 0) hseen

end

/-- Settles O29: the source is taken up, and its phase applied. -/
theorem sourceChanges : Obligations.SourceChanges := by
  intro s dt phase i x u hu hd hheld hfree htai hpick hx hk
  have hsrc : s.time.sources = u.time.sources := by rw [hu]; rfl
  have hud : u.disciplined = true := by rw [hu]; exact hd
  have huh : u.time.srcState ≠ .held := by rw [hu]; exact hheld
  have huf : u.time.srcState ≠ .free := by rw [hu]; exact hfree
  have hut : u.time.taiSeen = true := by rw [hu]; exact htai
  rw [hsrc] at hx ⊢
  rw [exec_sourceChange, ← hu, changeSource_network hud huh huf hut hpick hx hk]
  clear hsrc hu hd hheld hfree htai
  refine ⟨fun hlo hhi => ⟨_, rfl, ?_⟩, fun ho => ⟨_, rfl, ?_⟩⟩
  · rw [applyPhase_slewed hlo hhi]
    exact raise_eventsOnly ..
  · rw [ticksrc_time, applyPhase_time ho]
    exact ⟨rfl, congrArg (BitVec.ofInt 64) (Int.sub_eq_add_neg).symm, rfl, rfl, rfl, rfl, rfl⟩

end Sys2Proof.Machine
end

section
/-! PROOFS. The tick relay of a domain (R53, R63 to R67, R541, R549, R606). -/

namespace Sys2Proof.Machine

theorem exec_tickRelaySend (s : State) (dt : Nat) : exec (.tickRelaySend dt) s = .next (s.elapse dt).sendRelay := rfl
theorem exec_relayFrame (s : State) (dt : Nat) (m : Byte) (pr : Protection) (p : RelayPayload) :
    exec (.relayFrame dt m pr p) s = .next ((s.elapse dt).relayFrame m.toNat pr p) := rfl
theorem exec_relayMiss (s : State) (dt : Nat) : exec (.relayMiss dt) s = .next (s.elapse dt).relayMiss := rfl
theorem exec_relayAck (s : State) (dt : Nat) (w : Byte) (pr : Protection) (held : Bool) :
    exec (.relayAck dt w pr held) s = .next ((s.elapse dt).relayAcked w.toNat pr) := rfl
theorem exec_workerLost (s : State) (dt : Nat) (w : Byte) : exec (.workerLost dt w) s = .next ((s.elapse dt).workerLost w.toNat) := rfl
theorem exec_delayReqSend (s : State) (dt : Nat) : exec (.delayReqSend dt) s = .next (s.elapse dt).sendDelayReq := rfl
theorem exec_delayReq (s : State) (dt : Nat) (m : Byte) (pr : Protection) :
    exec (.delayReq dt m pr) s = .next ((s.elapse dt).delayReq m.toNat pr) := rfl
theorem exec_delayResp (s : State) (dt : Nat) (m : Byte) (pr : Protection) (n : Nat) :
    exec (.delayResp dt m pr n) s = .next ((s.elapse dt).delayResp m.toNat pr n) := rfl

/-! ## What the passing of time leaves -/

section
variable (s : State) (dt : Nat)

theorem State.elapse_domainOn : (s.elapse dt).domainOn = s.domainOn := rfl
theorem State.elapse_secured (i : Nat) : (s.elapse dt).secured i = s.secured i := rfl
theorem State.elapse_partner (i : Nat) : (s.elapse dt).partner i = s.partner i := rfl
theorem State.elapse_replyPort (i : Nat) : (s.elapse dt).replyPort i = s.replyPort i := rfl
theorem State.elapse_port (p : Nat) : (s.elapse dt).port p = s.port p := rfl
theorem State.elapse_ca (k : Nat) : (s.elapse dt).ca k = s.ca k := rfl
theorem State.elapse_dyn (i : Nat) : (s.elapse dt).dyn i = s.dyn i := rfl
theorem State.elapse_period : (s.elapse dt).time.period = s.time.period := rfl
theorem State.elapse_tickCount : (s.elapse dt).time.tickCount = s.time.tickCount := rfl
theorem State.elapse_slew : (s.elapse dt).time.slew = s.time.slew := rfl

end

/-! ## A frame sent to every member (R63) -/

theorem toLe_length (n v : Nat) : (toLe n v).length = n := by
  induction n generalizing v with
  | zero => rfl
  | succ n ih => rw [toLe, List.length_cons, ih]

theorem relayBytes_length (p : RelayPayload) : (relayBytes p).length = 32 := by
  simp only [relayBytes, List.length_append, toLe_length, List.length_cons, List.length_nil]

/-- A frame outside the sequence to every member in turn, each with a CA that has packet numbers left for all of them. -/
theorem sendAll_sending {type : Nat} {b : List Byte} (ht : numbered type = false) (hb : b.length ≤ 8256) (l : List Member) (s : State)
    (hj : s.jtag.inEffect = false)
    (h : ∀ m ∈ l, s.secured (1 + m.index) = true ∧ (s.ca (peCa (s.partner (1 + m.index)))).txPn + l.length ≤ 2 ^ 62) {t : State}
    (htd : t = forEach l s (fun s m => s.sendTo (1 + m.index) type 0 0 false b)) :
    Sending l.length s t
    ∧ t.fabric.sent.length + t.fabric.waiting.length = s.fabric.sent.length + s.fabric.waiting.length + l.length
    ∧ ((∀ m ∈ l, (s.port (s.replyPort (1 + m.index))).up = true) → t.fabric.waiting = s.fabric.waiting) := by
  induction l generalizing s t with
  | nil =>
    subst htd
    exact ⟨.refl _, rfl, fun _ => rfl⟩
  | cons m l ih =>
    obtain ⟨hs, -⟩ := h m List.mem_cons_self
    have hone := sendTo_sending (s := s) 0 0 false b hs ht
    have hlen := sendTo_length (s := s) 0 0 false hs ht hj hb
    have hready := sendTo_ready (s := s) 0 0 false hs ht hj hb
    generalize hv : s.sendTo (1 + m.index) type 0 0 false b = v at hone hlen hready
    have hrest : ∀ k ∈ l, v.secured (1 + k.index) = true ∧ (v.ca (peCa (v.partner (1 + k.index)))).txPn + l.length ≤ 2 ^ 62 := by
      intro k hk
      obtain ⟨hks, hkn⟩ := h k (List.mem_cons_of_mem _ hk)
      have hpn := hone.txPn (peCa (s.partner (1 + k.index)))
      rw [List.length_cons] at hkn
      rw [hone.partner]
      exact ⟨hone.secured hks (by omega), by omega⟩
    have ht' : t = forEach l v (fun s m => s.sendTo (1 + m.index) type 0 0 false b) := by rw [htd, ← hv]; rfl
    obtain ⟨hsend, hcount, hwait⟩ := ih v (by rw [hone.only.jtag]; exact hj) hrest ht'
    refine ⟨(hone.trans hsend).mono (by simp [Nat.add_comm]), by rw [hcount, hlen, List.length_cons]; omega, fun hup => ?_⟩
    obtain ⟨-, hw⟩ := hready (hup m List.mem_cons_self)
    refine (hwait fun k hk => ?_).trans hw
    rw [hone.replyPort, hone.ports.up]
    exact hup k (List.mem_cons_of_mem _ hk)

/-- What a manager announces (R63, R64, R67). -/
def State.relayPayload (s : State) : RelayPayload where
  boundaryNs := BitVec.ofNat 64 s.relayBoundary
  txNs := s.time.timeNs
  frame := BitVec.ofNat 10 (s.time.frameAt s.relayBoundary)
  tick := BitVec.ofNat 8 (s.time.tickAt s.relayBoundary)
  period := BitVec.ofNat 8 s.time.period
  armGen := s.armGenAt s.relayBoundary

/-- The boundary announced, and a frame that awaits an answer of every member. -/
def State.announced (s : State) (p : RelayPayload) : State :=
  (s.announce p).modRelay (fun r => { r with
    unanswered := s.fabric.domain.members.foldl (fun t m => tabSet 0 t m.index (tabGet 0 t m.index + 1)) r.unanswered })

theorem announced_only (s : State) (p : RelayPayload) : FabricOnly s (s.announced p) := rfl

theorem sendRelay_manager {s : State} (hd : s.domainOn = true) (hm : s.mbx.manager = true) : s.sendRelay =
    (forEach s.fabric.domain.members s (fun v m => v.sendTo (1 + m.index) jtRelay 0 0 false (relayBytes s.relayPayload))).announced
      s.relayPayload := by
  simp only [State.sendRelay, hd, hm, Bool.not_true, Bool.or_self, Bool.false_eq_true, if_false]
  rfl

/-- A relay frame to every member, and the boundary is announced (R63). -/
theorem sendRelay_announces {s : State} (hd : s.domainOn = true) (hm : s.mbx.manager = true) (hj : s.jtag.inEffect = false)
    (h : ∀ m ∈ s.fabric.domain.members, s.secured (1 + m.index) = true
      ∧ (s.ca (peCa (s.partner (1 + m.index)))).txPn + s.fabric.domain.members.length ≤ 2 ^ 62) :
    s.sendRelay.fabric.relay.announced.head? = some s.relayPayload
    ∧ s.sendRelay.fabric.sent.length + s.sendRelay.fabric.waiting.length
        = s.fabric.sent.length + s.fabric.waiting.length + s.fabric.domain.members.length
    ∧ ((∀ m ∈ s.fabric.domain.members, (s.port (s.replyPort (1 + m.index))).up = true) → s.sendRelay.fabric.waiting = s.fabric.waiting)
    ∧ FabricOnly s s.sendRelay := by
  have hb : (relayBytes s.relayPayload).length ≤ 8256 := by rw [relayBytes_length]; decide
  obtain ⟨hsend, hcount, hwait⟩ := sendAll_sending (type := jtRelay) rfl hb _ s hj h rfl
  rw [sendRelay_manager hd hm]
  generalize forEach _ s _ = v at hsend hcount hwait ⊢
  exact ⟨rfl, hcount, hwait, hsend.only.trans (announced_only v _)⟩

/-! ## A frame of a member (R548, R549, R590) -/

/-- A frame of a member with `n` bytes of payload, taken: counted, and its CA's replay window moved. -/
def State.memberTaken (s : State) (m n : Nat) (pr : Protection) : State :=
  (((s.countRx (pePort (s.partner (1 + m)) % 16) (32 + n)).modCa (peCa (s.partner (1 + m)))
    (fun c => { c with rxPn := max c.rxPn (pr.pn.toNat + 1) })).countPartner (1 + m) pcRx 1)

section
variable {s : State} {m : Nat} {pr : Protection}

/-- A frame of a partner that serves, under its CA, is taken. -/
theorem fromMember_active (n : Nat) (ha : peState (s.partner (1 + m)) = psActive)
    (hf : s.rxFault (peCa (s.partner (1 + m))) pr = none) : s.fromMember m n pr = (s.memberTaken m n pr, true) := by
  have hfree : peState (s.partner (1 + m)) ≠ psFree := by rw [ha]; decide
  have hshed : peState (s.partner (1 + m)) ≠ psShed := by rw [ha]; decide
  have hc := checked_passes (p := pePort (s.partner (1 + m)) % 16)
    ((rxFault_congr (t := s.countRx (pePort (s.partner (1 + m)) % 16) (32 + n)) rfl _ pr).trans hf)
  simp only [State.fromMember, State.fromPartner, hfree, hshed, hc, Bool.not_true, Bool.false_eq_true, if_false, if_true]
  rfl

theorem Sending.countRx (s : State) (p n : Nat) : Sending 0 s (s.countRx p n) :=
  (Sending.countPort s p 0 1).trans (Sending.countPort _ p 1 _)

theorem Sending.received (s : State) (k : Nat) (n : Ca → Nat) : Sending 0 s (s.modCa k (fun c => { c with rxPn := n c })) :=
  ⟨rfl, rfl, .of_ports rfl, fun j => (modCa_rx s k j n).1, fun j => (modCa_rx s k j n).2.le⟩

/-- A frame taken sends none. -/
theorem memberTaken_sending (s : State) (m n : Nat) (pr : Protection) : Sending 0 s (s.memberTaken m n pr) :=
  (Sending.countRx s _ _).trans ((Sending.received _ _ _).trans (Sending.countPartner _ _ _ _))

theorem memberTaken_sent (s : State) (m n : Nat) (pr : Protection) : (s.memberTaken m n pr).fabric.sent = s.fabric.sent := rfl

theorem memberTaken_free (s : State) (m n : Nat) (pr : Protection) : (s.memberTaken m n pr).free = s.free := by
  simp [State.memberTaken, State.countRx, State.countPort, State.countPartner]

theorem memberTaken_only (s : State) (m n : Nat) (pr : Protection) :
    s.memberTaken m n pr = { s with fabric := (s.memberTaken m n pr).fabric, trust := (s.memberTaken m n pr).trust } := by
  conv_lhs => rw [(memberTaken_sending s m n pr).only]
  rw [memberTaken_free]

theorem memberTaken_counters (s : State) (m n : Nat) (pr : Protection) :
    tabGet 0 ((s.memberTaken m n pr).dyn (1 + m)).counters pcRx = tabGet 0 (s.dyn (1 + m)).counters pcRx + 1 := by
  have hd : (((s.countRx (pePort (s.partner (1 + m)) % 16) (32 + n)).modCa (peCa (s.partner (1 + m)))
      (fun c => { c with rxPn := max c.rxPn (pr.pn.toNat + 1) })).dyn (1 + m)) = s.dyn (1 + m) := by
    simp only [State.dyn, State.modCa_fabric]
    rfl
  rw [State.memberTaken, State.countPartner, State.dyn_modDyn_same, tabGet_tabSet_same, hd]
  rfl

theorem Sending.relay {n : Nat} {s t : State} (h : Sending n s t) : t.fabric.relay = s.fabric.relay := by rw [h.fabric]

end

/-! ## TIME_NS follows the manager's (R57, R64) -/

/-- `t` is `s` but for its time, what is named by FRAME and TICK, the flags of its clusters and the event log. -/
def TimeMoved (s t : State) : Prop :=
  t = { s with time := t.time, clusters := t.clusters, carts := t.carts, mbx := t.mbx, trust := { s.trust with tenants := t.trust.tenants } }

theorem TimeMoved.refl (s : State) : TimeMoved s s := rfl

theorem TimeMoved.trans {s t u : State} (h : TimeMoved s t) (g : TimeMoved t u) : TimeMoved s u := by
  unfold TimeMoved at *
  rw [g]
  conv_lhs => rw [h]

theorem TimeMoved.fabric {s t : State} (h : TimeMoved s t) : t.fabric = s.fabric := by rw [h]
theorem TimeMoved.jtag {s t : State} (h : TimeMoved s t) : t.jtag = s.jtag := by rw [h]
theorem TimeMoved.cas {s t : State} (h : TimeMoved s t) : t.trust.cas = s.trust.cas := by rw [h]

theorem TimeMoved.modTime (s : State) (f : TimeState → TimeState) : TimeMoved s (s.modTime f) := rfl
theorem TimeMoved.retime (s : State) (d : Int) : TimeMoved s (s.retime d) := rfl
theorem TimeMoved.modCluster (s : State) (c : Nat) (f : Cluster → Cluster) : TimeMoved s (s.modCluster c f) := rfl

theorem EventsOnly.timeMoved {s t : State} (h : EventsOnly s t) : TimeMoved s t := by
  unfold TimeMoved
  conv_lhs => rw [h.1]
  rw [h.1]

theorem TimeMoved.forEach {α : Type} {f : State → α → State} (h : ∀ s a, TimeMoved s (f s a)) (l : List α) (s : State) :
    TimeMoved s (forEach l s f) := forEach_rel TimeMoved.refl TimeMoved.trans h l s

theorem TimeMoved.phaseJump (s : State) (phase : Int) : TimeMoved s (s.phaseJump phase) :=
  (raise_eventsOnly ..).timeMoved.trans (.forEach (fun _ _ => .modCluster _ _ _) _ _)

theorem TimeMoved.applyPhase (s : State) (phase : Int) : TimeMoved s (s.applyPhase phase) := by
  unfold State.applyPhase
  split
  · exact .modTime _ _
  · exact (TimeMoved.retime s _).trans ((TimeMoved.modTime _ _).trans (.phaseJump _ _))

theorem TimeMoved.followRelay (s : State) (p : RelayPayload) : TimeMoved s (s.followRelay p) := by
  unfold State.followRelay
  split
  · dsimp only
    split
    · exact .refl s
    · split
      · exact .modTime _ _
      · exact .applyPhase _ _
  · exact .refl s

theorem Sending.secured_none {s t : State} (h : Sending 0 s t) {i : Nat} (hs : s.secured i = true) : t.secured i = true := by
  refine h.secured hs ?_
  simp only [State.secured, Ca.ready, Bool.and_eq_true, decide_eq_true_eq] at hs
  omega

theorem TimeMoved.secured {s t : State} (h : TimeMoved s t) (i : Nat) : t.secured i = s.secured i := by
  simp only [State.secured, State.partner, State.ca, h.fabric, h.cas]

theorem TimeMoved.port {s t : State} (h : TimeMoved s t) (p : Nat) : t.port p = s.port p := by
  simp only [State.port, h.fabric]

theorem TimeMoved.replyPort {s t : State} (h : TimeMoved s t) (i : Nat) : t.replyPort i = s.replyPort i := by
  simp only [State.replyPort, State.partner, h.fabric]

/-- A change of every source leaves which one is in use. -/
theorem selected_modSources (s : State) (f : TickSource → TickSource) : (s.modSources f).time.selected = s.time.selected.map f := by
  simp only [TimeState.selected, State.modSources, State.modTime, List.getElem?_map, apply_ite (Option.map f), Option.map_none]

section
variable {s : State} {p : RelayPayload}

theorem followRelay_none (h : s.time.selected = none) : s.followRelay p = s := by
  simp only [State.followRelay, h]

/-- A manager at most 1 us away: TIME_NS becomes its. -/
theorem followRelay_timeNs {x : TickSource} {d : Int} (h : s.time.selected = some x) (hk : x.kind = .relay) (hs : s.time.slew = 0)
    (hd : d = (p.txNs.toNat : Int) + s.fabric.relay.pathNs - s.timeNat) (hlo : -1000 ≤ d) (hhi : d ≤ 1000) :
    (s.followRelay p).time.timeNs = BitVec.ofInt 64 ((s.timeNat : Int) + d) := by
  simp only [State.followRelay, h, hk, hs, ← hd, ne_eq, not_true_eq_false, false_or]
  by_cases hz : d = 0
  · rw [if_pos hz, hz, Int.add_zero, State.timeNat, BitVec.ofInt_natCast, BitVec.ofNat_toNat, BitVec.setWidth_eq]
  · rw [if_neg hz, if_pos ⟨hlo, hhi⟩]
    rfl

/-- A valid frame, before TIME_NS follows it: the boundary is announced, and the frame counts in its run and RELAY's. -/
def State.relayCounted (s : State) (p : RelayPayload) : State :=
  ((s.announce p).modRelay (fun r => { r with
    valid := r.valid + 1, since := 0
    heldExit := if s.time.srcState = .held ∧ r.valid = 1 then some p.boundaryNs.toNat else r.heldExit })).modSources (fun x =>
      if x.kind = .relay then
        (let y := { x with run := x.run + 1, last := some s.now }
         if 4 ≤ y.run then y.qualify s.now else y) else x)

theorem relayValid_eq (s : State) (p : RelayPayload) : s.relayValid p = (s.relayCounted p).followRelay p := rfl

theorem relayCounted_fabric (s : State) (p : RelayPayload) :
    (s.relayCounted p).fabric = { s.fabric with relay := (s.relayCounted p).fabric.relay } := rfl

theorem relayCounted_relay (s : State) (p : RelayPayload) : (s.relayCounted p).fabric.relay.valid = s.fabric.relay.valid + 1
    ∧ (s.relayCounted p).fabric.relay.since = 0 ∧ (s.relayCounted p).fabric.relay.announced.head? = some p
    ∧ (s.relayCounted p).fabric.relay.pathNs = s.fabric.relay.pathNs := ⟨rfl, rfl, rfl, rfl⟩

theorem relayCounted_time (s : State) (p : RelayPayload) :
    (s.relayCounted p).time = { s.time with sources := (s.relayCounted p).time.sources } := rfl

theorem relayCounted_selected {x : TickSource} (h : s.time.selected = some x) :
    ∃ y, (s.relayCounted p).time.selected = some y ∧ y.kind = x.kind := by
  refine ⟨_, (selected_modSources _ _).trans (congrArg (Option.map _) h), ?_⟩
  dsimp only
  split
  · split
    · exact TickSource.qualify_kind _ _
    · rfl
  · rfl

theorem relayCounted_unselected (h : s.time.selected = none) : (s.relayCounted p).time.selected = none :=
  (selected_modSources _ _).trans (congrArg (Option.map _) h)

end

/-! ## What a worker and a manager do with a frame -/

/-- `t` is `s` but for what a relay frame and its answer change. -/
def RelayTaken (s t : State) : Prop :=
  t = { s with time := t.time, clusters := t.clusters, carts := t.carts, mbx := t.mbx, trust := t.trust, fabric := t.fabric, free := t.free }

theorem RelayTaken.trans {s t u : State} (h : RelayTaken s t) (g : RelayTaken t u) : RelayTaken s u := by
  unfold RelayTaken at *
  rw [g]
  conv_lhs => rw [h]

theorem FabricOnly.relayTaken {s t : State} (h : FabricOnly s t) : RelayTaken s t := by
  unfold RelayTaken
  conv_lhs => rw [h]
  rw [h.time, h.clusters, show t.carts = s.carts by rw [h], show t.mbx = s.mbx by rw [h]]

theorem TimeMoved.relayTaken {s t : State} (h : TimeMoved s t) : RelayTaken s t := by
  unfold RelayTaken
  conv_lhs => rw [h]
  rw [h.fabric, show t.free = s.free by rw [h], show t.trust = { s.trust with tenants := t.trust.tenants } by rw [h]]

theorem relayCounted_taken (s : State) (p : RelayPayload) : RelayTaken s (s.relayCounted p) := rfl

section
variable {s : State} {m : Nat} {pr : Protection} {p : RelayPayload}

/-- A relay frame of the manager of record, at the period in force, is valid and answered (R53, R606). -/
theorem relayFrame_valid (hd : s.domainOn = true) (hm : s.mbx.manager = false) (hsrc : m = s.fabric.domain.managerIndex)
    (ha : peState (s.partner (1 + m)) = psActive) (hf : s.rxFault (peCa (s.partner (1 + m))) pr = none)
    (hp : p.period.toNat = s.time.period) : ∃ held, s.relayFrame m pr p =
      ((s.memberTaken m 32 pr).relayValid p).sendTo (1 + m) jtRelayAck 0 0 false [held] := by
  have hsrc' : (m != s.fabric.domain.managerIndex) = false := by simp [hsrc]
  simp only [State.relayFrame, hd, hm, hsrc', fromMember_active 32 ha hf, hp, Bool.not_true, Bool.or_self, Bool.false_eq_true, if_false, if_true]
  exact ⟨_, rfl⟩

/-! ### A valid frame, and TIME_NS after it -/

theorem relayValid_moved (s : State) (p : RelayPayload) : TimeMoved (s.relayCounted p) (s.relayValid p) := .followRelay _ p

theorem relayValid_fabric (s : State) (p : RelayPayload) :
    (s.relayValid p).fabric = { s.fabric with relay := (s.relayCounted p).fabric.relay } :=
  (relayValid_moved s p).fabric.trans (relayCounted_fabric s p)

theorem relayValid_secured (s : State) (p : RelayPayload) (i : Nat) : (s.relayValid p).secured i = s.secured i :=
  (relayValid_moved s p).secured i

theorem relayValid_port (s : State) (p : RelayPayload) (k : Nat) : (s.relayValid p).port k = s.port k :=
  (relayValid_moved s p).port k

theorem relayValid_replyPort (s : State) (p : RelayPayload) (i : Nat) : (s.relayValid p).replyPort i = s.replyPort i :=
  (relayValid_moved s p).replyPort i

theorem relayValid_jtag (s : State) (p : RelayPayload) : (s.relayValid p).jtag = s.jtag := (relayValid_moved s p).jtag

theorem relayValid_unselected (p : RelayPayload) (h : s.time.selected = none) :
    (s.relayValid p).time = { s.time with sources := (s.relayValid p).time.sources } := by
  rw [relayValid_eq, followRelay_none (relayCounted_unselected h)]
  exact relayCounted_time s p

theorem relayValid_timeNs {x : TickSource} {d : Int} (h : s.time.selected = some x) (hk : x.kind = .relay) (hs : s.time.slew = 0)
    (hd : d = (p.txNs.toNat : Int) + s.fabric.relay.pathNs - s.timeNat) (hlo : -1000 ≤ d) (hhi : d ≤ 1000) :
    (s.relayValid p).time.timeNs = BitVec.ofInt 64 ((s.timeNat : Int) + d) := by
  obtain ⟨y, hy, hyk⟩ := relayCounted_selected (p := p) h
  have ht := relayCounted_time s p
  have hn : (s.relayCounted p).timeNat = s.timeNat := by rw [State.timeNat, ht, State.timeNat]
  rw [relayValid_eq, followRelay_timeNs hy (hyk.trans hk) (by rw [ht]; exact hs) (by rw [hn]; exact hd) hlo hhi, hn]

/-- What a worker's state is after a valid relay frame. -/
theorem relayFrame_follows (hd : s.domainOn = true) (hm : s.mbx.manager = false) (hsrc : m = s.fabric.domain.managerIndex)
    (hs : s.secured (1 + m) = true) (ha : peState (s.partner (1 + m)) = psActive)
    (hf : s.rxFault (peCa (s.partner (1 + m))) pr = none) (hu : (s.port (s.replyPort (1 + m))).up = true)
    (hj : s.jtag.inEffect = false) (hp : p.period.toNat = s.time.period) :
    ∃ t f, s.relayFrame m pr p = t ∧ t.fabric.relay.valid = s.fabric.relay.valid + 1 ∧ t.fabric.relay.since = 0
      ∧ t.fabric.relay.announced.head? = some p ∧ t.fabric.sent = s.fabric.sent ++ [f] ∧ f.type = jtRelayAck ∧ RelayTaken s t
      ∧ (s.time.selected = none → t.time = { s.time with sources := t.time.sources })
      ∧ ∀ x d, s.time.selected = some x → x.kind = .relay → s.time.slew = 0 →
          d = (p.txNs.toNat : Int) + s.fabric.relay.pathNs - s.timeNat → -1000 ≤ d → d ≤ 1000 →
          t.time.timeNs = BitVec.ofInt 64 ((s.timeNat : Int) + d) := by
  obtain ⟨held, hframe⟩ := relayFrame_valid hd hm hsrc ha hf hp
  have hv := memberTaken_sending s m 32 pr
  have hvs := memberTaken_sent s m 32 pr
  generalize s.memberTaken m 32 pr = v at hframe hv hvs
  have hvt := hv.only.time
  have hxs : (v.relayValid p).secured (1 + m) = true := (relayValid_secured v p _).trans (hv.secured_none hs)
  have hxj : (v.relayValid p).jtag.inEffect = false := by rw [relayValid_jtag, hv.only.jtag]; exact hj
  have hxu : ((v.relayValid p).port ((v.relayValid p).replyPort (1 + m))).up = true := by
    rw [relayValid_port, relayValid_replyPort, hv.replyPort, hv.ports.up]
    exact hu
  have ht := sendTo_sending (type := jtRelayAck) 0 0 false [held] hxs rfl
  obtain ⟨⟨f, hsent, htype⟩, -⟩ := sendTo_ready (type := jtRelayAck) (payload := [held]) 0 0 false hxs rfl hxj (by simp) hxu
  rw [← hframe] at ht hsent
  obtain ⟨hvalid, hsince, hhead, -⟩ := relayCounted_relay v p
  have hrelay : (s.relayFrame m pr p).fabric.relay = (v.relayCounted p).fabric.relay := by rw [ht.relay, relayValid_fabric]
  refine ⟨_, f, rfl, ?_, ?_, ?_, ?_, htype, ?_, fun hsel => ?_, fun x d hsel hk hslew hdd hlo hhi => ?_⟩
  · rw [hrelay, hvalid, hv.relay]
  · rw [hrelay, hsince]
  · rw [hrelay, hhead]
  · rw [hsent, relayValid_fabric, ← hvs]
  · exact hv.only.relayTaken.trans
      ((relayCounted_taken v p).trans ((relayValid_moved v p).relayTaken.trans ht.only.relayTaken))
  · rw [ht.only.time]
    conv_lhs => rw [relayValid_unselected p (by rw [hvt]; exact hsel), hvt]
  · have hn : v.timeNat = s.timeNat := by rw [State.timeNat, hvt, State.timeNat]
    rw [ht.only.time, relayValid_timeNs (by rw [hvt]; exact hsel) hk (by rw [hvt]; exact hslew) (by rw [hn, hv.relay]; exact hdd) hlo hhi, hn]

/-! ### A missed frame, an answer, a worker lost, a delay measured -/

theorem loseSources_fabric (s : State) (was : Bool) : (s.loseSources was).fabric = s.fabric := by
  simp only [State.loseSources, apply_ite State.fabric, State.ticksrc, raise_fabric, State.modTime_fabric, ite_self]

theorem disqualify_fabric (s : State) (q : TickSource → Bool) : (s.disqualify q).fabric = s.fabric := loseSources_fabric _ _

theorem relayMissed_fabric (s : State) : s.relayMissed.fabric = s.fabric := by
  rw [State.relayMissed, forEach_keeps State.fabric _ (fun _ _ => State.modCluster_fabric ..), State.ticksrc, raise_fabric]

theorem relayMissed_time (s : State) : s.relayMissed.time = s.time := by
  rw [State.relayMissed, forEach_keeps State.time _ (fun _ _ => State.modCluster_time ..), ticksrc_time]

/-- A missed frame ends the run of valid ones, and RELAY with it (R53, R65). -/
theorem relayMiss_disqualifies (hd : s.disciplined = true) (hm : s.mbx.manager = false) (hj : s.fabric.domain.joined = true) :
    s.relayMiss.fabric.relay.valid = 0 ∧ ∀ y ∈ s.relayMiss.time.sources, y.kind = .relay → y.qualified = false := by
  simp only [State.relayMiss, hd, hm, hj, Bool.not_true, Bool.or_self, Bool.false_eq_true, if_false, relayMissed_fabric, relayMissed_time,
    disqualify_fabric]
  exact ⟨rfl, fun y hy hk => disqualify_unqualified _ _ y hy (beq_iff_eq.mpr hk)⟩

/-- An answer of a worker clears its count (R606). -/
theorem relayAcked_clears (hd : s.domainOn = true) (hm : s.mbx.manager = true) (ha : peState (s.partner (1 + m)) = psActive)
    (hf : s.rxFault (peCa (s.partner (1 + m))) pr = none) :
    tabGet 0 (s.relayAcked m pr).fabric.relay.unanswered m = 0
      ∧ s.relayAcked m pr = { s with fabric := (s.relayAcked m pr).fabric, trust := (s.relayAcked m pr).trust } := by
  simp only [State.relayAcked, hd, hm, fromMember_active 1 ha hf, Bool.not_true, Bool.or_self, Bool.false_eq_true, if_false, if_true]
  have ho := memberTaken_only s m 1 pr
  generalize s.memberTaken m 1 pr = v at ho ⊢
  refine ⟨congrArg (Option.getD · 0) (tabFind_tabDel_same _ _), ?_⟩
  conv_lhs => rw [ho]
  rfl

/-- Eight frames without an answer report the worker, once (R606). -/
theorem workerLost_reports {w : Nat} (hm : s.mbx.manager = true) (hlo : 8 ≤ tabGet 0 s.fabric.relay.unanswered w)
    (hhi : tabGet 0 s.fabric.relay.unanswered w < 2 ^ 32) :
    EventsOnly (s.modRelay (fun r => { r with unanswered := tabPut r.unanswered w (tabGet 0 s.fabric.relay.unanswered w + 2 ^ 32) }))
      (s.workerLost w) := by
  have hn : ¬ ((!s.mbx.manager) = true ∨ tabGet 0 s.fabric.relay.unanswered w < 8 ∨ 2 ^ 32 ≤ tabGet 0 s.fabric.relay.unanswered w) := by
    simp only [hm, Bool.not_true, Bool.false_eq_true, false_or]
    omega
  rw [State.workerLost, if_neg hn]
  exact raise_eventsOnly ..

theorem sendDelayReq_due (hd : s.domainOn = true) (hm : s.mbx.manager = false) (ht : s.fabric.relay.delayFrom ≤ s.time.tickCount)
    (hs : s.secured (1 + s.fabric.domain.managerIndex) = true) : s.sendDelayReq =
      (s.sendTo (1 + s.fabric.domain.managerIndex) jtDelayReq 0 0 false []).modRelay (fun r => { r with
        delayFrom := s.time.tickCount + 1024, asked := true }) := by
  simp only [State.sendDelayReq, hd, hm, hs, decide_eq_false (Nat.not_lt.mpr ht), Bool.not_true, Bool.or_self, Bool.false_eq_true, if_false]

/-- A delay request of a member is counted and answered (R64). -/
theorem delayReq_answered (hd : s.domainOn = true) (ha : peState (s.partner (1 + m)) = psActive)
    (hf : s.rxFault (peCa (s.partner (1 + m))) pr = none) (hm : s.fabric.domain.members.any (fun x => decide (x.index = m)) = true) :
    s.delayReq m pr = (s.fromMember m 0 pr).1.sendTo (1 + m) jtDelayResp 0 0 false []
      ∧ tabGet 0 ((s.fromMember m 0 pr).1.dyn (1 + m)).counters pcRx = tabGet 0 (s.dyn (1 + m)).counters pcRx + 1 := by
  simp only [State.delayReq, hd, hm, fromMember_active 0 ha hf, Bool.not_true, Bool.or_self, Bool.false_eq_true, if_false, if_true,
    memberTaken_counters, and_self]

/-- A response of the manager that was asked gives the path delay (R64). -/
theorem delayResp_kept (n : Nat) (hd : s.domainOn = true) (hm : s.mbx.manager = false) (hsrc : m = s.fabric.domain.managerIndex)
    (ha : peState (s.partner (1 + m)) = psActive) (hf : s.rxFault (peCa (s.partner (1 + m))) pr = none)
    (hq : s.fabric.relay.asked = true) :
    (s.delayResp m pr n).fabric.relay = { s.fabric.relay with pathNs := n, asked := false }
      ∧ s.delayResp m pr n = { s with fabric := (s.delayResp m pr n).fabric, trust := (s.delayResp m pr n).trust } := by
  have hsrc' : (m != s.fabric.domain.managerIndex) = false := by simp [hsrc]
  simp only [State.delayResp, hd, hm, hq, hsrc', fromMember_active 0 ha hf, Bool.not_true, Bool.or_self, Bool.false_eq_true, if_false, if_true]
  have ho := memberTaken_only s m 0 pr
  have hr := (memberTaken_sending s m 0 pr).relay
  generalize s.memberTaken m 0 pr = v at ho hr ⊢
  refine ⟨?_, ?_⟩
  · rw [← hr]
    rfl
  · conv_lhs => rw [ho]
    rfl

end

/-- Settles O30: a lemma for each frame of the relay. -/
theorem tickRelay : Obligations.TickRelay := by
  intro s dt u hu
  subst hu
  simp only [exec_tickRelaySend, exec_relayFrame, exec_relayMiss, exec_relayAck, exec_workerLost, exec_delayReqSend, exec_delayReq,
    exec_delayResp, ← State.elapse_fabric s dt, ← State.elapse_mbx s dt, ← State.elapse_jtag s dt, ← State.elapse_domainOn s dt,
    ← State.elapse_secured s dt, ← State.elapse_partner s dt, ← State.elapse_replyPort s dt, ← State.elapse_port s dt,
    ← State.elapse_ca s dt, ← State.elapse_dyn s dt, ← State.elapse_period s dt, ← State.elapse_tickCount s dt, ← State.elapse_slew s dt,
    ← State.elapse_disciplined s dt]
  generalize s.elapse dt = u
  refine ⟨fun hd hm hj h => ⟨_, rfl, ?_⟩, fun m pr p hd hm hsrc hs ha hf hu hj hp => ?_, fun hd hm hj => ⟨_, rfl, ?_⟩,
    fun w pr held hd hm ha hf => ⟨_, rfl, ?_⟩, fun w hm hlo hhi => ⟨_, rfl, ?_⟩, fun hd hm ht hs => ?_, fun m pr hd ha hf hm => ?_,
    fun m pr n hd hm hsrc ha hf hq => ⟨_, rfl, ?_⟩⟩
  · exact sendRelay_announces hd hm hj h
  · obtain ⟨t, f, ht, hrest⟩ := relayFrame_follows hd hm hsrc hs ha hf hu hj hp
    exact ⟨t, f, congrArg _ ht, hrest⟩
  · exact relayMiss_disqualifies hd hm hj
  · exact relayAcked_clears hd hm ha hf
  · exact workerLost_reports hm hlo hhi
  · rw [sendDelayReq_due hd hm ht hs]
  · obtain ⟨hreq, hrx⟩ := delayReq_answered hd ha hf hm
    exact ⟨congrArg _ hreq, hrx⟩
  · exact delayResp_kept n hd hm hsrc ha hf hq

end Sys2Proof.Machine
end

section
/-! PROOFS. A tick boundary (R45 to R48, R56): what ends with the tick that is over, and the tick that begins. -/

namespace Sys2Proof.Machine

theorem exec_tickBoundary (s : State) (dt : Nat) : exec (.tickBoundary dt) s = .next (s.elapse dt).tickBoundary := rfl

/-- A run over units on none of which the step does anything. -/
theorem forEach_same {α : Type} {f : State → α → State} {s : State} {l : List α} (h : ∀ a ∈ l, f s a = s) : forEach l s f = s := by
  unfold forEach
  induction l with
  | nil => rfl
  | cons a l ih =>
    rw [List.foldl_cons, h a List.mem_cons_self]
    exact ih (fun b hb => h b (List.mem_cons_of_mem _ hb))

theorem mem_of_tabFind {α : Type} {t : Tab α} {k : Nat} {v : α} (h : tabFind t k = some v) : (k, v) ∈ t := by
  induction t with
  | nil => cases h
  | cons x t ih =>
    obtain ⟨j, w⟩ := x
    rw [tabFind] at h
    split at h
    · next hk =>
      cases h
      rw [hk]
      exact List.mem_cons_self
    · exact List.mem_cons_of_mem _ (ih h)

/-! ## Time and memory kept -/

/-- `t` has the time, the memory and the transfer counts of `s`, and of each cluster whether a plan is active and whether it is a BATCH plan. -/
structure TickKept (s t : State) : Prop where
  time : t.time = s.time
  mem : t.mem = s.mem
  hauls : t.hauls = s.hauls
  plan : ∀ c, (t.cluster c).active = (s.cluster c).active ∧ (t.cluster c).batch = (s.cluster c).batch

theorem TickKept.refl (s : State) : TickKept s s := ⟨rfl, rfl, rfl, fun _ => ⟨rfl, rfl⟩⟩

theorem TickKept.trans {s t u : State} (h : TickKept s t) (g : TickKept t u) : TickKept s u where
  time := g.time.trans h.time
  mem := g.mem.trans h.mem
  hauls := g.hauls.trans h.hauls
  plan c := ⟨(g.plan c).1.trans (h.plan c).1, (g.plan c).2.trans (h.plan c).2⟩

theorem TickKept.forEach {α : Type} {f : State → α → State} (h : ∀ s a, TickKept s (f s a)) (l : List α) (s : State) :
    TickKept s (forEach l s f) := forEach_rel TickKept.refl TickKept.trans h l s

theorem TickKept.ite_else {s t u : State} {p : Prop} [Decidable p] (h : TickKept s t) (g : TickKept s u) : TickKept s (if p then t else u) := by
  split
  · exact h
  · exact g

theorem TickKept.ite {s t : State} {p : Prop} [Decidable p] (h : TickKept s t) : TickKept s (if p then t else s) :=
  .ite_else h (.refl s)

/-- A change that leaves time, memory and the clusters alone. -/
theorem TickKept.of_clusters {s t : State} (ht : t.time = s.time) (hm : t.mem = s.mem) (hh : t.hauls = s.hauls)
    (hc : t.clusters = s.clusters) : TickKept s t :=
  ⟨ht, hm, hh, fun c => by rw [State.cluster_congr hc]; exact ⟨rfl, rfl⟩⟩

theorem TickKept.raise (s : State) (a b : Nat) (m i : Bool) (p : Nat) : TickKept s (s.raise a b m i p) :=
  .of_clusters (raise_time ..) (raise_mem ..) (raise_hauls ..) (raise_clusters ..)

theorem TickKept.modCluster (s : State) (c : Nat) {f : Cluster → Cluster} (ha : ∀ x, (f x).active = x.active) (hb : ∀ x, (f x).batch = x.batch) :
    TickKept s (s.modCluster c f) := by
  refine ⟨rfl, rfl, rfl, fun d => ?_⟩
  by_cases h : d = c
  · subst h
    rw [State.cluster_modCluster_same]
    exact ⟨ha _, hb _⟩
  · rw [State.cluster_modCluster_other _ _ h]
    exact ⟨rfl, rfl⟩

theorem TickKept.modEngine (s : State) (e : Nat) (f : Engine → Engine) : TickKept s (s.modEngine e f) := .of_clusters rfl rfl rfl rfl
theorem TickKept.modLoop (s : State) (k : Nat) (f : Loop → Loop) : TickKept s (s.modLoop k f) := .of_clusters rfl rfl rfl rfl
theorem TickKept.modFabric (s : State) (f : Fabric → Fabric) : TickKept s (s.modFabric f) := .of_clusters rfl rfl rfl rfl
theorem TickKept.modMc (s : State) (k : Nat) (f : Monconv → Monconv) : TickKept s (s.modMc k f) := .of_clusters rfl rfl rfl rfl
theorem TickKept.takeFree (s : State) : TickKept s s.takeFree := .of_clusters rfl rfl rfl rfl

/-! ## ROUTER_SEND tasks under way (R565, R570, R573) -/

theorem TickKept.routerDrop (s : State) (d src : Nat) : TickKept s (s.routerDrop d src) := by
  refine TickKept.trans (TickKept.modCluster s d ?_ ?_) (.raise ..)
  · exact fun _ => rfl
  · exact fun _ => rfl

theorem TickKept.arrive (s : State) (p : Packet) : TickKept s (s.arrive p) := by
  unfold State.arrive
  dsimp only
  split
  · exact .routerDrop ..
  · exact .modFabric ..

theorem TickKept.sendPackets (s : State) (c i n : Nat) (r : TaskRun) (late : Bool) : TickKept s (s.sendPackets c i n r late) := by
  unfold State.sendPackets
  dsimp only
  split
  · split
    · exact .forEach TickKept.arrive _ _
    · exact .refl s
  · exact .refl s

theorem TickKept.sendUpTo (s : State) (c i n : Nat) (r : TaskRun) (late : Bool) : TickKept s (s.sendUpTo c i n r late) := by
  unfold State.sendUpTo
  dsimp only
  split
  · exact (TickKept.sendPackets s c i n r late).trans (.modCluster _ _ (fun _ => rfl) (fun _ => rfl))
  · exact .refl s

theorem TickKept.sendsSoFar (s : State) (whole : Bool) : TickKept s (s.sendsSoFar whole) := by
  refine .forEach (fun s c => .forEach (fun s i => ?_) _ s) _ s
  dsimp only
  split
  · exact .ite (.sendUpTo ..)
  · exact .refl s

/-- With no ROUTER_SEND running nothing is sent. -/
theorem sendsSoFar_none {s : State} (whole : Bool) (h : ∀ c ∈ s.listed, (s.cluster c).kindRuns kRouter = false) : s.sendsSoFar whole = s := by
  refine forEach_same (fun c hc => forEach_same (fun i _ => ?_))
  split
  · next r hr =>
    refine if_neg (fun ⟨hp, hk, _⟩ => ?_)
    have hany : (s.cluster c).kindRuns kRouter = true := List.any_eq_true.mpr ⟨_, mem_of_tabFind hr, by simp [hp, hk]⟩
    rw [h c hc] at hany
    cases hany
  · rfl

/-! ## The end of the housekeeping slot (R201, R263, R804) -/

theorem TickKept.walk (s : State) (sel : Entry → Bool) (size : Entry → Nat) (cap : Nat) : TickKept s (s.walk sel size cap) := by
  unfold State.walk
  dsimp only
  split
  · exact .refl s
  · refine (TickKept.takeFree s).trans (.forEach (fun s _ => ?_) _ _)
    exact .of_clusters rfl rfl rfl rfl

theorem TickKept.setCapacity (s : State) (c cap : Nat) (inj : Bool) : TickKept s (s.setCapacity c cap inj) := by
  have hc : TickKept s (s.modCluster c (fun x => { x with capacity := cap })) := .modCluster s c (fun _ => rfl) (fun _ => rfl)
  unfold State.setCapacity
  dsimp only
  split
  · exact .refl s
  · split
    · exact (hc.trans (.raise ..)).trans (.walk ..)
    · exact hc.trans (.raise ..)

theorem TickKept.takeRow (s : State) (e q k cause old : Nat) (inj : Bool) : TickKept s (s.takeRow e q k cause old inj) :=
  (TickKept.modEngine s e _).trans (.raise ..)

theorem TickKept.thaw (s : State) (k detail : Nat) : TickKept s (s.thaw k detail) := by
  unfold State.thaw
  dsimp only
  split
  · exact (TickKept.modLoop s k _).trans (.raise ..)
  · exact .modLoop ..

theorem TickKept.rotateRows (s : State) (e : Nat) : TickKept s (s.rotateRows e) := by
  unfold State.rotateRows
  dsimp only
  split
  · split
    · exact .refl s
    · split
      · exact (((TickKept.takeRow ..).trans (.modEngine ..)).trans (.thaw ..)).trans (.modEngine ..)
      · exact .modEngine ..
  · exact .refl s

theorem TickKept.rowStandby (s : State) (e p : Nat) : TickKept s (s.rowStandby e p) := by
  have h := TickKept.modEngine s e (fun x => x.setRow p .standby)
  unfold State.rowStandby
  dsimp only
  split
  · exact h
  · exact ((((h.trans (.modEngine ..)).trans (.takeRow ..)).trans (.modEngine ..)).trans (.setCapacity ..)).trans (.rotateRows ..)

theorem TickKept.calibrated (s : State) (i : Nat) (ofs : Int) (gain : Nat) (fault : Option Nat) : TickKept s (s.calibrated i ofs gain fault) := by
  unfold State.calibrated
  dsimp only
  split
  · refine TickKept.trans (TickKept.of_clusters (t := s.modCorr i _) ?_ ?_ ?_ ?_) (.raise ..) <;> rfl
  · exact .of_clusters rfl rfl rfl rfl

theorem TickKept.putTrims (s : State) (force : Bool) (key : Nat) (l : List (Nat × Int)) : TickKept s (s.putTrims force key l) := by
  refine .forEach (fun s x => ?_) _ s
  dsimp only
  split
  · exact .of_clusters rfl rfl rfl rfl
  · exact .of_clusters rfl rfl rfl rfl

theorem TickKept.optical (s : State) (e kind row line epoch detail : Nat) (inj : Bool) :
    TickKept s (s.optical e kind row line epoch detail inj) := .raise ..

theorem TickKept.finishRow (s : State) (e p : Nat) (pairs : List (Nat × Nat)) (ok stage : Bool) :
    TickKept s (s.finishRow e p pairs ok stage) := by
  unfold State.finishRow
  extract_lets ep s1 src s2 conv trims wrong s3 old r fault s4 s5 k n s6
  have h2 : TickKept s s2 := .of_clusters rfl rfl rfl rfl
  have h3 : TickKept s2 s3 := by
    refine .ite_else (.forEach (fun s r => ?_) _ _) (.putTrims ..)
    exact .of_clusters rfl rfl rfl rfl
  have h4 : TickKept s s4 := (h2.trans h3).trans (.calibrated ..)
  have h6 : TickKept s s6 := h4.trans (.modLoop ..)
  split
  · exact h4.trans (((TickKept.modEngine ..).trans (.optical ..)).trans (.rowStandby ..))
  · split
    · exact h4
    · split
      · exact h6
      · exact h6.trans (((TickKept.modLoop ..).trans (.modEngine ..)).trans (.optical ..))

theorem TickKept.calibrateRow (s : State) (e : Nat) (result : Option (List (Nat × Nat) × Bool)) (stage : List Nat) :
    TickKept s (s.calibrateRow e result stage) := by
  unfold State.calibrateRow
  dsimp only
  split
  · exact .refl s
  · split
    · exact .refl s
    · have h : ∀ x, TickKept s (s.setEngine e x) := fun x => .of_clusters rfl rfl rfl rfl
      split
      · exact .ite_else (h _) ((h _).trans (.finishRow ..))
      · exact h _

theorem TickKept.waitedCal (s : State) (e : Nat) : TickKept s (s.waitedCal e) := by
  unfold State.waitedCal
  split
  · exact .refl s
  · split
    · exact .refl s
    · exact (TickKept.modEngine s e _).trans (.calibrateRow ..)

theorem TickKept.waitedCals (s : State) : TickKept s s.waitedCals :=
  .forEach (fun s e => (TickKept.waitedCal s e).trans (.modEngine ..)) _ s

theorem TickKept.monitorsMeasured (s : State) : TickKept s s.monitorsMeasured := by
  refine .forEach (fun s k => ?_) _ s
  split
  · exact .refl s
  · exact (TickKept.calibrated ..).trans (.modMc ..)

theorem TickKept.driftOver (s : State) : TickKept s s.driftOver := .of_clusters rfl rfl rfl rfl

/-- The end of the slot leaves time and memory. -/
theorem TickKept.slotOver (s : State) : TickKept s s.slotOver :=
  (TickKept.waitedCals s).trans ((TickKept.driftOver _).trans (.monitorsMeasured _))

/-! ## The tick begins (R48, R56, R66, R861) -/

/-- `t` has the clusters and the memory of `s`, and its time but for the state of the source. -/
structure SourceHeld (s t : State) : Prop where
  time : t.time = { s.time with srcState := t.time.srcState }
  clusters : t.clusters = s.clusters
  mem : t.mem = s.mem

theorem SourceHeld.refl (s : State) : SourceHeld s s := ⟨rfl, rfl, rfl⟩

theorem SourceHeld.trans {s t u : State} (h : SourceHeld s t) (g : SourceHeld t u) : SourceHeld s u where
  time := by
    rw [g.time]
    conv_lhs => rw [h.time]
  clusters := g.clusters.trans h.clusters
  mem := g.mem.trans h.mem

theorem SourceHeld.ticksrc (s : State) (kind detail : Nat) : SourceHeld s (s.ticksrc kind detail) :=
  ⟨by rw [ticksrc_time], raise_clusters .., raise_mem ..⟩

theorem SourceHeld.hold (s : State) : SourceHeld s s.hold := ⟨rfl, rfl, rfl⟩
theorem SourceHeld.modRelay (s : State) (f : RelayState → RelayState) : SourceHeld s (s.modRelay f) := ⟨rfl, rfl, rfl⟩
theorem SourceHeld.modPower (s : State) (f : Power → Power) : SourceHeld s (s.modPower f) := ⟨rfl, rfl, rfl⟩
theorem SourceHeld.source (s : State) (x : SrcState) : SourceHeld s (s.modTime (fun t => { t with srcState := x })) := ⟨rfl, rfl, rfl⟩

theorem SourceHeld.watchRelay (s : State) (b : Nat) : SourceHeld s (s.watchRelay b) := by
  have h := SourceHeld.modRelay s (fun r => { r with since := r.since + 1 })
  unfold State.watchRelay
  dsimp only
  split
  · exact .refl s
  · split
    · split
      · split
        · exact h.trans (((SourceHeld.source ..).trans (.modRelay ..)).trans (.ticksrc ..))
        · exact h
      · exact h
    · split
      · exact h.trans ((SourceHeld.hold _).trans (.ticksrc ..))
      · exact h

theorem SourceHeld.watchDs0 (s : State) : SourceHeld s s.watchDs0 := by
  unfold State.watchDs0
  split
  · exact .refl s
  · dsimp only
    split
    · exact (SourceHeld.modPower ..).trans (.hold _)
    · exact .modPower ..

/-- The state in which a boundary at `b` takes effect. -/
def State.tickBegun (s : State) (b : Nat) : State := ((s.slewTick.beginTick b).watchRelay b).watchDs0

theorem tickBegun_held (s : State) (b : Nat) : SourceHeld (s.slewTick.beginTick b) (s.tickBegun b) :=
  (SourceHeld.watchRelay ..).trans (.watchDs0 _)

/-- The new tick: its start, its numbers, and what the slew has absorbed. -/
theorem tickBegun_time (s : State) (b : Nat) : (s.tickBegun b).time.tickStart = b ∧ (s.tickBegun b).time.frame = s.time.frameAt b
    ∧ (s.tickBegun b).time.tick = s.time.tickAt b ∧ (s.tickBegun b).time.tickCount = s.time.tickCount + 1
    ∧ (s.tickBegun b).time.inHk = false ∧ (s.tickBegun b).time.slew = s.time.slew - clampI (-50) 50 s.time.slew
    ∧ (s.tickBegun b).time.timeNs = BitVec.ofInt 64 ((s.timeNat : Int) - clampI (-50) 50 s.time.slew) := by
  rw [(tickBegun_held s b).time]
  exact ⟨rfl, rfl, rfl, rfl, rfl, rfl, congrArg (BitVec.ofInt 64) (Int.sub_eq_add_neg).symm⟩

theorem tickBegun_clusters (s : State) (b : Nat) : (s.tickBegun b).clusters = s.clusters := (tickBegun_held s b).clusters
theorem tickBegun_mem (s : State) (b : Nat) : (s.tickBegun b).mem = s.mem := (tickBegun_held s b).mem

/-- No RT plan is active on a cluster that is not listed. -/
theorem noRtPlan {s : State} (h : ∀ c ∈ s.listed, (s.cluster c).active = none ∨ (s.cluster c).batch = true) (c : Nat) :
    ((s.cluster c).active.isSome && !(s.cluster c).batch) = false := by
  have hc : (s.cluster c).active = none ∨ (s.cluster c).batch = true := by
    cases hf : tabFind s.clusters c with
    | some x => exact h c (List.mem_map.mpr ⟨_, mem_of_tabFind hf, rfl⟩)
    | none =>
      rw [State.cluster, tabGet, hf]
      exact .inl rfl
  obtain ha | hb := hc
  · rw [ha]
    rfl
  · rw [hb, Bool.not_true, Bool.and_false]

/-- What ends with the tick that is over: what has been sent of it, and the slot. -/
def State.tickOver (s : State) : State := if s.time.inHk then (s.sendsSoFar false).slotOver else s.sendsSoFar false

theorem TickKept.tickOver (s : State) : TickKept s s.tickOver :=
  .ite_else ((TickKept.sendsSoFar s false).trans (.slotOver _)) (.sendsSoFar s false)

/-- Outside the slot, with no ROUTER_SEND running, nothing ends. -/
theorem tickOver_same {s : State} (hk : s.time.inHk = false) (h : ∀ c ∈ s.listed, (s.cluster c).kindRuns kRouter = false) :
    s.tickOver = s := by
  rw [State.tickOver, hk, sendsSoFar_none false h]
  rfl

/-- A boundary with no RT plan to cut off ends the tick, begins the next one, and what waits for it takes effect. -/
theorem tickBoundary_due {s : State} (hb : s.boundaryDue = true)
    (h : s.time.inHk = true ∨ ∀ c ∈ s.listed, (s.cluster c).active = none ∨ (s.cluster c).batch = true) :
    s.tickBoundary = ((s.tickOver.tickBegun s.boundaryPoint).atBoundary s.boundaryPoint).lacpTick.fecTick := by
  have hs := TickKept.sendsSoFar s false
  have hover : (if (s.sendsSoFar false).time.inHk then (s.sendsSoFar false).slotOver else
      forEach (s.sendsSoFar false).listed (s.sendsSoFar false) (fun s c =>
        if (s.cluster c).active.isSome && !(s.cluster c).batch then s.cutRt c else s)) = s.tickOver := by
    rw [State.tickOver, hs.time]
    split
    · rfl
    · next hk =>
      refine forEach_same (fun c _ => if_neg ?_)
      rw [(hs.plan c).1, (hs.plan c).2, noRtPlan (h.resolve_left hk) c]
      exact Bool.false_ne_true
  simp only [State.tickBoundary, hb, Bool.not_true, Bool.false_eq_true, if_false, hover]
  rfl

/-- Settles O31: what ends with the old tick keeps time and memory, and the new one begins on the grid. -/
theorem boundaryBegins : Obligations.BoundaryBegins := by
  intro s dt u hu hb h
  have hk : s.time.inHk = u.time.inHk := by rw [hu]; rfl
  have hl : s.listed = u.listed := by rw [hu]; rfl
  have hc : s.cluster = u.cluster := by rw [hu]; rfl
  have ht : s.time.tickCount = u.time.tickCount := by rw [hu]; rfl
  have hcl : s.clusters = u.clusters := by rw [hu]; rfl
  have hm : s.mem = u.mem := by rw [hu]; rfl
  rw [hk, hl, hc] at h
  rw [exec_tickBoundary, ← hu, tickBoundary_due hb h, hk, hl, hc, ht, hcl, hm]
  clear hk hl hc ht hcl hm hu
  have hover := TickKept.tickOver u
  have hn : u.tickOver.timeNat = u.timeNat := by rw [State.timeNat, hover.time, State.timeNat]
  obtain ⟨hstart, hframe, htick, hcount, hin, hslew, hns⟩ := tickBegun_time u.tickOver u.boundaryPoint
  rw [hn] at hns
  rw [hover.time] at hframe htick hcount hslew hns
  refine ⟨_, rfl, hstart, hframe, htick, hcount, hin, hslew, hns, fun hi hr => ?_, ?_⟩
  · rw [tickBegun_clusters, tickOver_same hi hr]
  · rw [tickBegun_mem, hover.mem]

end Sys2Proof.Machine
end

section
/-! PROOFS. A ROUTER_SEND completes (R497, R565, R570, R571, R573). -/

namespace Sys2Proof.Machine

theorem exec_routerSendComplete (s : State) (dt : Nat) (c : ClusterId) (i : Fin 4096) (ws : List Clash) :
    exec (.routerSendComplete dt c i ws) s = .next ((s.elapse dt).routerDone c i ws) := rfl

/-! ## Collisions at the end of a task (R466, R467) -/

/-- `t` is `s` but for its banks and what runs, or runs ahead, on its clusters. -/
structure Met (s t : State) : Prop where
  only : t = { s with free := t.free, banks := t.banks, clusters := t.clusters }
  cluster : ∀ c, t.cluster c = { s.cluster c with runs := (t.cluster c).runs, ahead := (t.cluster c).ahead }

theorem Met.refl (s : State) : Met s s := ⟨rfl, fun _ => rfl⟩

theorem Met.trans {s t u : State} (h : Met s t) (g : Met t u) : Met s u where
  only := by
    rw [g.only]
    conv_lhs => rw [h.only]
  cluster c := by
    rw [g.cluster c]
    conv_lhs => rw [h.cluster c]

theorem Met.bank (s : State) (k : Nat) (f : Bank → Bank) : Met s (s.takeFree.modBank k f) := ⟨rfl, fun _ => rfl⟩

theorem Met.modCluster (s : State) (c : Nat) {f : Cluster → Cluster} (hf : ∀ x, f x = { x with runs := (f x).runs, ahead := (f x).ahead }) :
    Met s (s.modCluster c f) := by
  refine ⟨rfl, fun d => ?_⟩
  by_cases h : d = c
  · subst h
    rw [State.cluster_modCluster_same]
    exact hf _
  · rw [State.cluster_modCluster_other _ _ h]

theorem Cluster.addClash_kept (x : Cluster) (j : Nat) (at_ : Nat × Bool) (k : Clashed) :
    x.addClash j at_ k = { x with runs := (x.addClash j at_ k).runs, ahead := (x.addClash j at_ k).ahead } := by
  unfold Cluster.addClash
  split
  · rfl
  · split <;> rfl

theorem Met.ite_fst {s : State} {p : Prop} [Decidable p] {x y : State × List Clashed} (hx : Met s x.1) (hy : Met s y.1) :
    Met s (if p then x else y).1 := by
  split
  · exact hx
  · exact hy

theorem Met.ite {s x y : State} {p : Prop} [Decidable p] (hx : Met s x) (hy : Met s y) : Met s (if p then x else y) := by
  split
  · exact hx
  · exact hy

theorem Met.meet (s : State) (c i pass : Nat) (k : Clash) : Met s (s.meet c i pass k).1 := by
  unfold State.meet
  dsimp only
  split
  · exact .refl s
  · refine .ite_fst (.refl s) (.ite (.bank ..) ?_)
    exact (Met.bank ..).trans (.modCluster _ _ (fun _ => Cluster.addClash_kept ..))

theorem Met.meets (s : State) (c i pass : Nat) (ws : List Clash) : Met s (s.meets c i pass ws).1 := by
  unfold State.meets
  generalize ([] : List Clashed) = l
  induction ws generalizing s l with
  | nil => exact .refl s
  | cons k ws ih => exact (Met.meet s c i pass k).trans (ih _ _)

section
variable {s t : State} (h : Met s t)
include h

theorem Met.mem : t.mem = s.mem := by rw [h.only]
theorem Met.hauls : t.hauls = s.hauls := by rw [h.only]
theorem Met.fabric : t.fabric = s.fabric := by rw [h.only]
theorem Met.jtag : t.jtag = s.jtag := by rw [h.only]

theorem Met.task (c i : Nat) : (t.cluster c).task i = (s.cluster c).task i := by rw [h.cluster c]; rfl

/-! What a router sees of its clusters. -/

theorem Met.joins (a b : Nat) : t.joins a b = s.joins a b := by
  have hc (c : Nat) : t.clusterTenant c = s.clusterTenant c := by
    unfold State.clusterTenant
    rw [h.cluster c]
  rw [State.joins, hc, hc, State.joins]

theorem Met.entrySource : t.entrySource = s.entrySource := by
  funext l d k
  unfold State.entrySource
  split
  · rw [h.joins]
  · rfl

theorem Met.phaseNow : t.phaseNow = s.phaseNow := by rw [State.phaseNow, h.fabric, State.phaseNow]

theorem Met.receiverOf (dest src : Nat) : t.receiverOf dest src = s.receiverOf dest src := by
  rw [State.receiverOf, h.phaseNow, h.entrySource, State.receiverOf]

theorem Met.sendFrom (c : Nat) (d : Desc) (r : TaskRun) : t.sendFrom c d r = s.sendFrom c d r := by
  have hl : (t.cluster c).lineBusy = (s.cluster c).lineBusy := by rw [h.cluster c]
  have hr : t.retunes = s.retunes := by
    funext d k
    rw [State.retunes, h.phaseNow, h.entrySource, h.fabric, State.retunes]
  rw [State.sendFrom, h.receiverOf, hr, h.fabric, hl, State.sendFrom]

theorem Met.transmits (c : Nat) : t.transmits c = s.transmits c := by
  have hl (k : Nat) : t.ringServes k = s.ringServes k := by
    unfold State.ringServes State.loop
    rw [h.only]
  simp only [State.transmits, hl]

theorem Met.feedOf (k : Nat) : t.feedOf k = s.feedOf k := by
  unfold State.feedOf
  rw [h.only]

theorem Met.locked (c : Nat) : (t.cluster c).locked = (s.cluster c).locked := by rw [h.cluster c]

end

/-! ## Blocks (R571) -/

theorem sliceBytes_length (n k : Nat) (l : List Host.Cell) : (sliceBytes n k l).length = n := by
  induction n generalizing k l with
  | zero => rfl
  | succ n ih =>
    match l with
    | [] => rw [sliceBytes, List.length_cons, ih]
    | (j, b) :: t =>
      rw [sliceBytes]
      split <;> rw [List.length_cons, ih]

theorem readAt_length (s : State) (c core addr n : Nat) : (s.readAt c core addr n).length = n := by
  unfold State.readAt
  split
  · exact sliceBytes_length ..
  · exact List.length_replicate

theorem blocks_length (n : Nat) (l : List Byte) : (blocks n l).length = ceilDiv l.length n := by
  simp [blocks]

/-- Blocks of a list hold no more than the list. -/
theorem sum_blocks_le (n : Nat) (l : List Byte) : ((blocks n l).map (fun b => b.2.2.length)).sum ≤ l.length := by
  have h : ∀ k, ((List.range k).map (fun i => ((l.drop (i * n)).take n).length)).sum ≤ min (k * n) l.length := by
    intro k
    induction k with
    | zero => simp
    | succ k ih =>
      rw [List.range_succ, List.map_append, List.sum_append, Nat.succ_mul]
      simp only [List.map_cons, List.map_nil, List.sum_cons, List.sum_nil, List.length_take, List.length_drop] at ih ⊢
      omega
  have hb := h (ceilDiv l.length n)
  simp only [blocks, List.map_map, Function.comp_def] at hb ⊢
  omega

theorem indexed_length {α : Type} (l : List α) : (indexed l).length = l.length := by simp [indexed]

/-! ## Packets (R573) -/

/-- Bytes that the packets not yet written hold of the 64 KiB of a receiver. -/
def Fabric.held (f : Fabric) (dest rx : Nat) : Nat :=
  ((f.packets.filter (fun q => q.dest == dest && q.rx == rx)).map (fun q => q.data.length + 32)).sum

/-- Packets that fit into the 64 KiB of their receiver all arrive. -/
theorem arrive_all {dest rx : Nat} (ps : List Packet) (s : State) (hp : ∀ p ∈ ps, p.dest = dest ∧ p.rx = rx)
    (h : s.fabric.held dest rx + (ps.map (fun p => p.data.length + 32)).sum ≤ 65536) :
    (forEach ps s State.arrive).fabric.packets = s.fabric.packets ++ ps := by
  induction ps generalizing s with
  | nil => exact (List.append_nil _).symm
  | cons p ps ih =>
    obtain ⟨hd, hr⟩ := hp p List.mem_cons_self
    rw [List.map_cons, List.sum_cons] at h
    have hfit : s.arrive p = s.modFabric (fun f => { f with packets := f.packets ++ [p] }) := by
      refine if_neg ?_
      rw [hd, hr]
      have : s.fabric.held dest rx + p.data.length + 32 ≤ 65536 := by omega
      exact Nat.not_lt.mpr this
    have hheld : (s.arrive p).fabric.held dest rx = s.fabric.held dest rx + (p.data.length + 32) := by
      rw [hfit]
      simp [Fabric.held, hd, hr]
    have hrest := ih (s.arrive p) (fun q hq => hp q (List.mem_cons_of_mem _ hq)) (by omega)
    refine hrest.trans ?_
    rw [hfit, State.modFabric_fabric, List.append_assoc, List.singleton_append]

section
variable {s : State} {c i : Nat} {r : TaskRun}

/-- The packets of a ROUTER_SEND from its first unsent one to the `n`-th, as they leave for receiver `k`. -/
def State.packetsOf (s : State) (c i n k : Nat) (r : TaskRun) (late : Bool) : List Packet :=
  (((blocks 4096 ((s.clashed c r.clashes).routerBytes c i r late)).take n).drop r.sent).map (fun b =>
    { dest := roDest ((s.cluster c).task i), rx := k, addr := dDst ((s.cluster c).task i) + b.1, src := c, tag := dTag ((s.cluster c).task i)
      data := b.2.2 })

theorem storeTagged_clusters (s : State) (k : Nat) (bs : List Byte) (t : Option Tag) : (s.storeTagged k bs t).clusters = s.clusters := by
  unfold State.storeTagged State.setTags
  split
  · rfl
  · split <;> rfl

theorem writeAt_clusters (s : State) (c core addr : Nat) (bs : List Byte) (t : Option Tag) :
    (s.writeAt c core addr bs t).clusters = s.clusters := by
  unfold State.writeAt
  split
  · rfl
  · split
    · exact storeTagged_clusters ..
    · refine forEach_keeps State.clusters _ (fun s i => ?_) _ s
      split
      · exact storeTagged_clusters ..
      · rfl

theorem clashed_clusters (s : State) (c : Nat) (l : List Clashed) : (s.clashed c l).clusters = s.clusters :=
  forEach_keeps State.clusters _ (fun _ _ => writeAt_clusters ..) _ s

theorem clashed_task (s : State) (c : Nat) (l : List Clashed) (e j : Nat) : ((s.clashed c l).cluster e).task j = (s.cluster e).task j := by
  rw [State.cluster_congr (clashed_clusters s c l)]

theorem routerBytes_length (s : State) (c i : Nat) (r : TaskRun) (late : Bool) (h : roTile ((s.cluster c).task i) = false) :
    (s.routerBytes c i r late).length = dLength ((s.cluster c).task i) := by
  simp only [State.routerBytes, h, Bool.false_eq_true, if_false, readAt_length]

/-- What leaves, all of it new, in blocks of at most 4,096 bytes. -/
theorem packetsOf_length {n : Nat} (k : Nat) (late : Bool) (h : roTile ((s.cluster c).task i) = false)
    (hn : n = packetCount ((s.cluster c).task i)) : (s.packetsOf c i n k r late).length = n - r.sent := by
  have hl := routerBytes_length (s.clashed c r.clashes) c i r late (by rw [clashed_task]; exact h)
  rw [clashed_task] at hl
  rw [State.packetsOf, List.length_map, List.length_drop, List.length_take, blocks_length, hl, hn, packetCount, Nat.min_self]

theorem packetsOf_size (n k : Nat) (late : Bool) (h : roTile ((s.cluster c).task i) = false) :
    ((s.packetsOf c i n k r late).map (fun p => p.data.length)).sum ≤ dLength ((s.cluster c).task i) := by
  have hl := routerBytes_length (s.clashed c r.clashes) c i r late (by rw [clashed_task]; exact h)
  rw [clashed_task] at hl
  have hsub := ((List.drop_sublist r.sent _).trans (List.take_sublist n (blocks 4096 ((s.clashed c r.clashes).routerBytes c i r late)))).map
    (fun b => b.2.2.length)
  rw [State.packetsOf, List.map_map, ← hl]
  exact (hsub.sum_le_sum (fun _ _ => Nat.zero_le _)).trans (sum_blocks_le _ _)

theorem sum_map_add_const {α : Type} (f : α → Nat) (n : Nat) (l : List α) : (l.map (fun x => f x + n)).sum = (l.map f).sum + n * l.length := by
  rw [List.sum_map_add, List.map_const', List.sum_replicate, smul_eq_mul, Nat.mul_comm]

end

/-- The packets of a transfer reach receiver `k` of its destination: it transmits, there is light on its line, and the receiver is locked
and has room for all of them (R322, R564, R573). -/
structure Delivers (s : State) (c k : Nat) (d : Desc) : Prop where
  receiver : s.receiverOf (roDest d) c = some k
  transmits : s.transmits c = true
  fed : s.feedOf (64 * (c / 32) + (roDest d + 64 - c) % 64) ≠ feedNone
  group : s.fabric.groupLost.contains (roDest d / 32) = false
  locked : (s.cluster (roDest d)).locked.getLsbD k = true
  whole : roTile d = false
  room : s.fabric.held (roDest d) k + dLength d + 32 * packetCount d ≤ 65536

theorem Met.delivers {s t : State} (h : Met s t) {c k : Nat} {d : Desc} (g : Delivers s c k d) : Delivers t c k d where
  receiver := (h.receiverOf _ _).trans g.receiver
  transmits := (h.transmits c).trans g.transmits
  fed := by rw [h.feedOf]; exact g.fed
  group := by rw [h.fabric]; exact g.group
  locked := by rw [h.locked]; exact g.locked
  whole := g.whole
  room := by rw [h.fabric]; exact g.room

section
variable {s : State} {c i k : Nat} {r : TaskRun} {d : Desc}

theorem sendPackets_arrive (late : Bool) (hd : (s.cluster c).task i = d) (h : Delivers s c k d) :
    (s.sendPackets c i (packetCount d) r late).fabric.packets.length = s.fabric.packets.length + (packetCount d - r.sent) := by
  subst hd
  have hlen := packetsOf_length (r := r) k late h.whole rfl
  have hsize := packetsOf_size (r := r) (packetCount ((s.cluster c).task i)) k late h.whole
  have hroom := h.room
  have hall : ∀ p ∈ s.packetsOf c i (packetCount ((s.cluster c).task i)) k r late, p.dest = roDest ((s.cluster c).task i) ∧ p.rx = k := by
    intro p hp
    obtain ⟨b, -, rfl⟩ := List.mem_map.mp hp
    exact ⟨rfl, rfl⟩
  have harr := arrive_all _ s hall (by
    rw [sum_map_add_const, hlen]
    omega)
  have hsend : s.sendPackets c i (packetCount ((s.cluster c).task i)) r late =
      forEach (s.packetsOf c i (packetCount ((s.cluster c).task i)) k r late) s State.arrive := by
    simp only [State.sendPackets, h.receiver, h.transmits, h.group, h.locked, bne_iff_ne.mpr h.fed, Bool.not_false, Bool.and_self, if_true]
    rfl
  rw [hsend, harr, List.length_append, hlen]

/-- The packets that leave at the end of a transfer: none are left where it has no clock to send from. -/
theorem sendUpTo_arrive (late : Bool) (hd : (s.cluster c).task i = d) (h : Delivers s c k d)
    (hnone : s.sendFrom c d r = none → r.sent = packetCount d) :
    (s.sendUpTo c i (packetCount d) r late).fabric.packets.length = s.fabric.packets.length + (packetCount d - r.sent) := by
  unfold State.sendUpTo
  dsimp only
  split
  · exact sendPackets_arrive late hd h
  · next hs => rw [hnone (hd ▸ hs), Nat.sub_self, Nat.add_zero]

/-! ## The task -/

/-- What a ROUTER_SEND that ends has sent: all its packets, with the collisions that it met. -/
def State.allSent (s : State) (c i : Nat) (r : TaskRun) (ws : List Clash) : State :=
  (s.meets c i r.pass ws).1.sendUpTo c i (packetCount ((s.cluster c).task i)) { r with clashes := r.clashes ++ (s.meets c i r.pass ws).2 }
    (r.late || (s.lateBy c i).isSome)

/-- A ROUTER_SEND whose packets can all have left ends with them. -/
theorem routerDone_ends (ws : List Clash) (hr : s.running c i = some r) (hk : dKind ((s.cluster c).task i) = kRouter)
    (hf : packetCount ((s.cluster c).task i) ≤ s.sendFits c ((s.cluster c).task i) r s.now) : s.routerDone c i ws =
      ((s.allSent c i r ws).endTransfer c i (dLength ((s.cluster c).task i))).complete c i r none := by
  have hn : ¬ (dKind ((s.cluster c).task i) ≠ kRouter ∨ s.sendFits c ((s.cluster c).task i) r s.now < packetCount ((s.cluster c).task i)) := by
    simp only [hk, ne_eq, not_true_eq_false, false_or]
    exact Nat.not_lt.mpr hf
  simp only [State.routerDone, hr, if_neg hn]
  rfl

theorem Cluster.task_congr {x y : Cluster} (h : y.active = x.active) (i : Nat) : y.task i = x.task i := by
  rw [Cluster.task, h, Cluster.task]

theorem allSent_kept (s : State) (c i : Nat) (r : TaskRun) (ws : List Clash) :
    TickKept (s.meets c i r.pass ws).1 (s.allSent c i r ws) := .sendUpTo ..

theorem allSent_task (ws : List Clash) (j : Nat) : ((s.allSent c i r ws).cluster c).task j = (s.cluster c).task j :=
  (Cluster.task_congr ((allSent_kept s c i r ws).plan c).1 j).trans ((Met.meets s c i r.pass ws).task c j)

theorem allSent_mem (ws : List Clash) : (s.allSent c i r ws).mem = s.mem :=
  (allSent_kept s c i r ws).mem.trans (Met.meets s c i r.pass ws).mem

theorem allSent_haul (ws : List Clash) (k : Nat) : (s.allSent c i r ws).haul k = s.haul k := by
  have h : (s.allSent c i r ws).hauls = s.hauls := (allSent_kept s c i r ws).hauls.trans (Met.meets s c i r.pass ws).hauls
  rw [State.haul, h, State.haul]

/-- Every packet of a ROUTER_SEND that ends is there, where it reaches a receiver with room. -/
theorem allSent_packets (ws : List Clash) (hd : (s.cluster c).task i = d) (h : Delivers s c k d)
    (hfits : s.sendFits c d r s.now = packetCount d) :
    (s.allSent c i r ws).fabric.packets.length = s.fabric.packets.length + (packetCount d - r.sent) := by
  have hm := Met.meets s c i r.pass ws
  have hnone : s.sendFrom c d r = none → r.sent = packetCount d := by
    intro hn
    rw [State.sendFits, hn] at hfits
    exact hfits
  unfold State.allSent
  rw [hd]
  generalize s.meets c i r.pass ws = m at hm ⊢
  have hsent := sendUpTo_arrive (r := { r with clashes := r.clashes ++ m.2 }) (r.late || (s.lateBy c i).isSome) ((hm.task c i).trans hd)
    (hm.delivers h) (fun hn => hnone ((hm.sendFrom c d _).symm.trans hn))
  rw [hsent, hm.fabric]

/-- A ROUTER_SEND has its place with the CLUSTER_HAUL engine. -/
theorem haulKey_router (s t : State) (c : Nat) (hk : dKind d = kRouter) : t.haulKey c d = s.haulKey c d := by
  have hn : dKind d ≠ kCoreHaul := by rw [hk]; decide
  simp only [State.haulKey, hn, if_false]

theorem haul_endTransfer (s : State) (c i n : Nat) : (s.endTransfer c i n).haul (s.haulKey c ((s.cluster c).task i)) =
    { s.haul (s.haulKey c ((s.cluster c).task i)) with
      outstanding := (s.haul (s.haulKey c ((s.cluster c).task i))).outstanding - 1
      bytes := (s.haul (s.haulKey c ((s.cluster c).task i))).bytes + n } := State.haul_modHaul_same ..

theorem endTransfer_fabric (s : State) (c i n : Nat) : (s.endTransfer c i n).fabric = s.fabric := rfl
theorem endTransfer_mem (s : State) (c i n : Nat) : (s.endTransfer c i n).mem = s.mem := rfl

theorem complete_haul (s : State) (c i : Nat) (r : TaskRun) (t : Option Tag) (k : Nat) : (s.complete c i r t).haul k = s.haul k := by
  rw [State.haul, complete_hauls, State.haul]

/-- What a ROUTER_SEND leaves when it ends. -/
theorem routerDone_completes (ws : List Clash) (hd : (s.cluster c).task i = d) (hr : s.running c i = some r) (hk : dKind d = kRouter)
    (hf : s.sendFits c d r s.now = packetCount d) : ∃ q, ((s.routerDone c i ws).cluster c).run i = some q ∧ q.phase = .done
      ∧ (s.routerDone c i ws).mem = s.mem
      ∧ ((s.routerDone c i ws).haul (s.haulKey c d)).outstanding = (s.haul (s.haulKey c d)).outstanding - 1
      ∧ ((s.routerDone c i ws).haul (s.haulKey c d)).bytes = (s.haul (s.haulKey c d)).bytes + dLength d
      ∧ ∀ k, Delivers s c k d →
        (s.routerDone c i ws).fabric.packets.length = s.fabric.packets.length + (packetCount d - r.sent) := by
  subst hd
  have htask := allSent_task (s := s) (c := c) (i := i) (r := r) ws i
  have hmem := allSent_mem (s := s) (c := c) (i := i) (r := r) ws
  have hhaul := allSent_haul (s := s) (c := c) (i := i) (r := r) ws (s.haulKey c ((s.cluster c).task i))
  have hpackets := fun k h => allSent_packets (s := s) (k := k) (r := r) ws rfl h hf
  rw [routerDone_ends ws hr hk hf.ge]
  generalize s.allSent c i r ws = v at htask hmem hhaul hpackets ⊢
  have hend := haul_endTransfer v c i (dLength ((s.cluster c).task i))
  rw [htask, haulKey_router s v c hk, hhaul] at hend
  rw [complete_haul, complete_mem, complete_fabric, endTransfer_fabric, endTransfer_mem, hend, hmem]
  exact ⟨_, run_complete .., rfl, rfl, rfl, rfl, hpackets⟩

end

end Sys2Proof.Machine
end

section
/-! PROOFS. EGRESS and INGRESS_WAIT tasks end (R95, R310, R541, R578, R580, R583). -/

namespace Sys2Proof.Machine

theorem exec_egressComplete (s : State) (dt : Nat) (c : ClusterId) (i : Fin 4096) (ws : List Clash) :
    exec (.egressComplete dt c i ws) s = .next ((s.elapse dt).egressDone c i ws) := rfl
theorem exec_egressDeadline (s : State) (dt : Nat) (c : ClusterId) (i : Fin 4096) :
    exec (.egressDeadline dt c i) s = .next ((s.elapse dt).egressDeadline c i) := rfl
theorem exec_ingressLate (s : State) (dt : Nat) (c : ClusterId) (i : Fin 4096) :
    exec (.ingressLate dt c i) s = .next ((s.elapse dt).ingressLate c i) := rfl

/-! ## Frames of an EGRESS (R577 to R580) -/

/-- Late drops counted of a partner (R95). -/
def State.lateDrops (s : State) (j : Nat) : BitVec 32 := tabGet 0 (s.dyn j).counters pcLateDrop

theorem lateDrops_congr {s t : State} (h : t.fabric.dyn = s.fabric.dyn) (j : Nat) : t.lateDrops j = s.lateDrops j := by
  unfold State.lateDrops State.dyn
  rw [h]

/-- A change of a partner that keeps its counts of late drops. -/
theorem lateDrops_modDyn (s : State) (i : Nat) {f : PartnerDyn → PartnerDyn}
    (h : ∀ d, tabGet 0 (f d).counters pcLateDrop = tabGet 0 d.counters pcLateDrop) (j : Nat) : (s.modDyn i f).lateDrops j = s.lateDrops j := by
  unfold State.lateDrops
  by_cases e : j = i
  · subst e
    rw [State.dyn_modDyn_same, h]
  · rw [State.dyn_modDyn_other _ _ e]

theorem lateDrops_countPartner_same (s : State) (i : Nat) : (s.countPartner i pcLateDrop 1).lateDrops i = s.lateDrops i + 1 := by
  unfold State.lateDrops State.countPartner
  rw [State.dyn_modDyn_same, tabGet_tabSet_same]
  rfl

/-- `t` is `s` after frames of a task: it differs in the fabric, the CAs and the free values used, and no late drop is counted. -/
structure EgressSent (s t : State) : Prop where
  only : FabricOnly s t
  drops : ∀ j, t.lateDrops j = s.lateDrops j

theorem EgressSent.refl (s : State) : EgressSent s s := ⟨.refl s, fun _ => rfl⟩

theorem EgressSent.trans {s t u : State} (h : EgressSent s t) (g : EgressSent t u) : EgressSent s u :=
  ⟨h.only.trans g.only, fun j => (g.drops j).trans (h.drops j)⟩

theorem EgressSent.forEach {α : Type} {f : State → α → State} (h : ∀ s a, EgressSent s (f s a)) (l : List α) (s : State) :
    EgressSent s (forEach l s f) := forEach_rel EgressSent.refl EgressSent.trans h l s

theorem EgressSent.takeFree (s : State) : EgressSent s s.takeFree := ⟨.takeFree s, fun _ => rfl⟩

theorem EgressSent.modDyn (s : State) (i : Nat) {f : PartnerDyn → PartnerDyn} (h : ∀ d, (f d).counters = d.counters) :
    EgressSent s (s.modDyn i f) := ⟨.modDyn s i f, lateDrops_modDyn s i (fun d => by rw [h])⟩

theorem EgressSent.countTx (s : State) (i n : Nat) : EgressSent s (s.countPartner i pcTx n) :=
  ⟨.countPartner s i pcTx n, lateDrops_modDyn s i (fun d => tabGet_tabSet_other 0 0 d.counters _ (by decide))⟩

theorem transmit_dyn (s : State) (f : TxFrame) (at_ : Nat) : (s.transmit f at_).fabric.dyn = s.fabric.dyn := by
  unfold State.transmit
  dsimp only
  split <;> rfl

theorem EgressSent.emitDone (s : State) (f : TxFrame) : EgressSent s (s.emitDone f) := by
  unfold State.emitDone
  split
  · exact .refl s
  · exact ⟨(transmit_sending ..).only, lateDrops_congr (transmit_dyn ..)⟩

theorem EgressSent.ite {s t u : State} {p : Prop} [Decidable p] (h : EgressSent s t) (g : EgressSent s u) :
    EgressSent s (if p then t else u) := by
  split
  · exact h
  · exact g

theorem EgressSent.sendNumbered {s : State} {f : TxFrame} {since : Nat} {go : State → TxFrame → State} (h : ∀ s g, EgressSent s (go s g)) :
    EgressSent s (s.sendNumbered f since go) := by
  unfold State.sendNumbered
  exact ((h _ _).trans (.countTx ..)).trans (.modDyn _ _ (fun _ => rfl))

theorem EgressSent.sendEcpri (s : State) (i type eaxc tag : Nat) (body : List Byte) (lost : Bool) :
    EgressSent s (s.sendEcpri i type eaxc tag body lost) := by
  unfold State.sendEcpri
  exact ((EgressSent.ite (.refl s) (.emitDone ..)).trans (.countTx ..)).trans (.modDyn _ _ (fun _ => rfl))

theorem EgressSent.sendEgress (s : State) (c i n : Nat) (r : TaskRun) : EgressSent s (s.sendEgress c i n r) := by
  unfold State.sendEgress
  dsimp only
  split
  · exact .forEach (fun s f => .sendNumbered (fun s g => .ite (.refl s) (.emitDone s g))) _ s
  · exact .forEach (fun s f => .sendEcpri ..) _ s
  · exact .forEach (fun s f => .sendEcpri ..) _ s

/-! ### How many leave -/

section
variable {s : State} {f : TxFrame}

/-- Out of test mode a frame that is not too long has been sent. -/
theorem emitDone_sent (hj : s.jtag.inEffect = false) (hf : f.size ≤ frameMax) :
    (s.emitDone f).fabric.sent.length = s.fabric.sent.length + 1 := by
  have hn : ¬ ((s.jtag.inEffect || decide (frameMax < f.size)) = true) := by
    simp only [hj, Bool.false_or, decide_eq_true_eq]
    omega
  rw [State.emitDone, if_neg hn, transmit_sent, List.length_append, List.length_singleton]

theorem sendNumbered_sent {since : Nat} {go : State → TxFrame → State} {n : Nat}
    (h : (go s (s.numberFrame f (s.dyn f.partner).txSeq)).fabric.sent.length = n) :
    (s.sendNumbered f since go).fabric.sent.length = n := h

end

/-- DATA frames of at most 8,256 bytes, none of which was lost, are all sent. -/
theorem egressData_sent {p tag since : Nat} {broken : List Nat} (hb : broken = []) (l : List (Nat × Nat × Bool × List Byte)) (s : State)
    (hj : s.jtag.inEffect = false) (hl : ∀ f ∈ l, f.2.2.2.length ≤ 8256) :
    (forEach l s (fun s f => s.sendNumbered (s.joryarFrame p jtData tag (f.2.1 % 2 ^ 32) f.2.2.1 f.2.2.2) since (fun s g =>
      if broken.contains f.1 then s else s.emitDone g))).fabric.sent.length = s.fabric.sent.length + l.length := by
  subst hb
  induction l generalizing s with
  | nil => rfl
  | cons f l ih =>
    have hf : (s.joryarFrame p jtData tag (f.2.1 % 2 ^ 32) f.2.2.1 f.2.2.2).payload.length ≤ 8256 := hl f List.mem_cons_self
    have hone : (s.sendNumbered (s.joryarFrame p jtData tag (f.2.1 % 2 ^ 32) f.2.2.1 f.2.2.2) since (fun s g =>
        if ([] : List Nat).contains f.1 then s else s.emitDone g)).fabric.sent.length = s.fabric.sent.length + 1 :=
      sendNumbered_sent (emitDone_sent hj (numberFrame_size s _ hf))
    have hkept : EgressSent s (s.sendNumbered (s.joryarFrame p jtData tag (f.2.1 % 2 ^ 32) f.2.2.1 f.2.2.2) since (fun s g =>
        if ([] : List Nat).contains f.1 then s else s.emitDone g)) := .sendNumbered (fun s g => .ite (.refl s) (.emitDone s g))
    generalize hv : s.sendNumbered _ since _ = v at hone hkept
    refine Eq.trans ?_ ((ih v (by rw [hkept.only.jtag]; exact hj) (fun g hg => hl g (List.mem_cons_of_mem _ hg))).trans ?_)
    · rw [← hv]
      rfl
    · rw [hone, List.length_cons]
      omega

/-- A DATA egress sends the frames that it has not sent. -/
theorem sendEgress_sent {s : State} {c i n : Nat} {r : TaskRun} (hform : egForm ((s.cluster c).task i) = 0)
    (hj : s.jtag.inEffect = false) (hb : r.broken = []) (hn : n = ceilDiv (dLength ((s.cluster c).task i)) 8256) :
    (s.sendEgress c i n r).fabric.sent.length = s.fabric.sent.length + (n - r.sent) := by
  have hlen : ((s.clashed c r.clashes).egressData c i r).length = n := by
    rw [State.egressData, List.length_map, blocks_length, readAt_length, clashed_task, hn]
  have hsize : ∀ f ∈ ((indexed ((s.clashed c r.clashes).egressData c i r)).take n).drop r.sent, f.2.2.2.length ≤ 8256 := by
    intro f hf
    have hmem := List.of_mem_zip (List.mem_of_mem_take (List.mem_of_mem_drop hf))
    obtain ⟨b, hb, he⟩ := List.mem_map.mp hmem.2
    obtain ⟨k, -, rfl⟩ := List.mem_map.mp hb
    rw [← he]
    exact List.length_take_le _ _
  have hsent := egressData_sent (p := dPartner ((s.cluster c).task i)) (tag := dTag ((s.cluster c).task i)) (since := max r.at_ r.applied) hb
    (((indexed ((s.clashed c r.clashes).egressData c i r)).take n).drop r.sent) s hj hsize
  rw [List.length_drop, List.length_take, indexed_length, hlen, Nat.min_self] at hsent
  unfold State.sendEgress
  simp only [hform]
  exact hsent

section
variable {s : State} {c i : Nat} {r : TaskRun}

theorem Met.egressCount {s t : State} (h : Met s t) (c i : Nat) : t.egressCount c i = s.egressCount c i := by
  unfold State.egressCount State.partner
  rw [h.task, h.fabric]

/-- What an EGRESS that ends has sent: all its frames. -/
def State.egressSent (s : State) (c i : Nat) (r : TaskRun) (ws : List Clash) : State :=
  (s.meets c i r.pass ws).1.sendEgress c i ((s.meets c i r.pass ws).1.egressCount c i)
    { r with clashes := r.clashes ++ (s.meets c i r.pass ws).2 }

/-- An EGRESS in service, in time and with room in its window, ends with its frames. -/
theorem egressDone_ends (ws : List Clash) (hr : s.running c i = some r) (hk : dKind ((s.cluster c).task i) = kEgress)
    (hl : s.lateBy c i = none) (hb : s.badCplane c i r = false) (hs : s.canSend (dPartner ((s.cluster c).task i)) = true)
    (hroom : s.egressCount c i ≤ s.egressRoom c i r) : s.egressDone c i ws =
      ((s.egressSent c i r ws).endTransfer c i (dLength ((s.cluster c).task i))).complete c i r none := by
  simp only [State.egressDone, hr, hk, hl, hb, hs, decide_eq_false (Nat.not_lt.mpr hroom), ne_eq, not_true_eq_false, Option.isSome_none,
    Bool.not_true, Bool.or_self, Bool.false_eq_true, or_self, if_false]
  rfl

theorem egressSent_mem (ws : List Clash) : (s.egressSent c i r ws).mem = s.mem :=
  (EgressSent.sendEgress ..).only.mem.trans (Met.meets s c i r.pass ws).mem

theorem egressSent_sent (ws : List Clash) (hform : egForm ((s.cluster c).task i) = 0) (hj : s.jtag.inEffect = false) (hb : r.broken = []) :
    (s.egressSent c i r ws).fabric.sent.length = s.fabric.sent.length + (ceilDiv (dLength ((s.cluster c).task i)) 8256 - r.sent) := by
  have hm := Met.meets s c i r.pass ws
  have hcount : s.egressCount c i = ceilDiv (dLength ((s.cluster c).task i)) 8256 := by
    unfold State.egressCount
    simp only [hform]
  unfold State.egressSent
  generalize s.meets c i r.pass ws = m at hm ⊢
  have hsent := sendEgress_sent (n := m.1.egressCount c i) (r := { r with clashes := r.clashes ++ m.2 }) (by rw [hm.task]; exact hform)
    (by rw [hm.jtag]; exact hj) hb (by rw [hm.egressCount, hm.task, hcount])
  rw [hsent, hm.fabric, hm.egressCount, hcount]

/-! ## An EGRESS that its deadline ends (R95, R310) -/

/-- What is unsent is discarded: time, memory and the counts of late drops stay. -/
theorem cutEgress_kept (s : State) (c i : Nat) (r : TaskRun) : (s.cutEgress c i r).time = s.time ∧ (s.cutEgress c i r).mem = s.mem
    ∧ ∀ j, (s.cutEgress c i r).lateDrops j = s.lateDrops j := by
  unfold State.cutEgress
  split
  · exact ⟨rfl, rfl, fun _ => rfl⟩
  · have h : ∀ n, EgressSent s (s.takeFree.sendEgress c i n r) := fun n => (EgressSent.takeFree s).trans (.sendEgress ..)
    exact ⟨(h _).only.time, (h _).only.mem, (h _).drops⟩

theorem miss_lateDrops (s : State) (c cause tag late skipped j : Nat) : (s.miss c cause tag late skipped).lateDrops j = s.lateDrops j :=
  lateDrops_congr (congrArg Fabric.dyn (miss_fabric ..)) j

/-- The miss of data that is unconfirmed at its deadline (R310). -/
def State.unconfirmedMiss (s : State) (c i : Nat) (r : TaskRun) : State :=
  if r.phase = .waitConfirm ∧ (s.inputTag c i r.pass).isSome then
    s.miss c missUnconfirmed (dTag ((s.cluster c).task i)) (s.inTick - dDeadline ((s.cluster c).task i)) 0 else s

theorem unconfirmedMiss_kept (s : State) (c i : Nat) (r : TaskRun) : (s.unconfirmedMiss c i r).time = s.time
    ∧ (s.unconfirmedMiss c i r).mem = s.mem ∧ ∀ j, (s.unconfirmedMiss c i r).lateDrops j = s.lateDrops j := by
  unfold State.unconfirmedMiss
  split
  · exact ⟨miss_time .., miss_mem .., miss_lateDrops _ _ _ _ _ _⟩
  · exact ⟨rfl, rfl, fun _ => rfl⟩

theorem egressDeadline_stops (hr : (s.cluster c).run i = some r) (hk : dKind ((s.cluster c).task i) = kEgress)
    (hb : (s.cluster c).batch = false) (hd : dDeadline ((s.cluster c).task i) ≤ s.inTick)
    (hp : r.phase = .running ∨ r.phase = .waitConfirm) : s.egressDeadline c i =
      ((((s.unconfirmedMiss c i r).cutEgress c i r).countPartner (dPartner ((s.cluster c).task i)) pcLateDrop 1).stopped c i r none) := by
  have hn : ¬ (dKind ((s.cluster c).task i) ≠ kEgress ∨ (s.cluster c).batch = true ∨ s.inTick < dDeadline ((s.cluster c).task i)
      ∨ (r.phase ≠ .running ∧ r.phase ≠ .waitConfirm)) := by
    simp only [hk, hb, ne_eq, not_true_eq_false, Bool.false_eq_true, false_or, ← not_or, hp, or_false, not_lt]
    exact hd
  simp only [State.egressDeadline, hr, if_neg hn]
  rfl

theorem stopped_lateDrops (s : State) (c i : Nat) (r : TaskRun) (t : Option Tag) (j : Nat) : (s.stopped c i r t).lateDrops j = s.lateDrops j := rfl

/-- An EGRESS past its deadline is stopped, and counted. -/
theorem egressDeadline_counts (hr : (s.cluster c).run i = some r) (hk : dKind ((s.cluster c).task i) = kEgress)
    (hb : (s.cluster c).batch = false) (hd : dDeadline ((s.cluster c).task i) ≤ s.inTick)
    (hp : r.phase = .running ∨ r.phase = .waitConfirm) : (∃ q, ((s.egressDeadline c i).cluster c).run i = some q ∧ q.phase = .done
      ∧ q.stopped = some s.now) ∧ (s.egressDeadline c i).mem = s.mem
      ∧ (s.egressDeadline c i).lateDrops (dPartner ((s.cluster c).task i)) = s.lateDrops (dPartner ((s.cluster c).task i)) + 1 := by
  obtain ⟨hmt, hmm, hmd⟩ := unconfirmedMiss_kept s c i r
  rw [egressDeadline_stops hr hk hb hd hp]
  generalize s.unconfirmedMiss c i r = v at hmt hmm hmd ⊢
  obtain ⟨hct, hcm, hcd⟩ := cutEgress_kept v c i r
  generalize v.cutEgress c i r = w at hct hcm hcd ⊢
  refine ⟨⟨_, run_stopped .., rfl, ?_⟩, ?_, ?_⟩
  · exact congrArg (fun t : TimeState => some t.clock) (hct.trans hmt)
  · exact hcm.trans hmm
  · rw [stopped_lateDrops, lateDrops_countPartner_same, hcd, hmd]

/-! ## INGRESS_WAIT (R583) -/

theorem PartnerDyn.landing_named (d : PartnerDyn) (frame tick symbol : Nat) : (d.landing frame tick symbol).frame = frame
    ∧ (d.landing frame tick symbol).tick = tick ∧ (d.landing frame tick symbol).symbol = symbol := by
  unfold PartnerDyn.landing
  cases h : d.landings.find? _ with
  | none => exact ⟨rfl, rfl, rfl⟩
  | some l =>
    have hl := List.find?_some h
    simp only [Bool.and_eq_true, decide_eq_true_eq] at hl
    obtain ⟨⟨hf, ht⟩, hs⟩ := hl
    exact ⟨hf, ht, hs⟩

/-- The landing that is set is the one of its tick and symbol. -/
theorem PartnerDyn.landing_setLanding (d : PartnerDyn) (l : Landing) : (d.setLanding l).landing l.frame l.tick l.symbol = l := by
  unfold PartnerDyn.landing PartnerDyn.setLanding
  have hnone : (d.landings.filter (fun x => !(decide (x.frame = l.frame) && decide (x.tick = l.tick) && decide (x.symbol = l.symbol)))).find?
      (fun x => decide (x.frame = l.frame) && decide (x.tick = l.tick) && decide (x.symbol = l.symbol)) = none :=
    List.find?_eq_none.mpr (fun x hx => by
      rw [Bool.not_eq_true, ← Bool.not_eq_true']
      exact (List.mem_filter.mp hx).2)
  simp only [List.find?_append, hnone, Option.none_or, List.find?_cons, decide_true, Bool.and_self, Option.getD_some]

/-- A symbol of the tick is closed. -/
def State.closeSymbol (s : State) (j : Nat) (l : Landing) : State := s.modDyn j (fun y => y.setLanding { l with done := true })

/-- An INGRESS_WAIT past its deadline completes after its symbol is closed. -/
theorem ingressLate_closes (hr : s.running c i = some r) (hk : dKind ((s.cluster c).task i) = kIngress) (hb : (s.cluster c).batch = false)
    (hd : dDeadline ((s.cluster c).task i) ≤ s.inTick) : ∃ v w : State, s.ingressLate c i = w.complete c i r none ∧ w.fabric =
      (v.closeSymbol (dPartner ((s.cluster c).task i)) ((s.dyn (dPartner ((s.cluster c).task i))).landing s.frameNow s.tickNow
        (inSymbol ((s.cluster c).task i)))).fabric := by
  have hn : ¬ (dKind ((s.cluster c).task i) ≠ kIngress ∨ (s.cluster c).batch = true ∨ s.inTick < dDeadline ((s.cluster c).task i)) := by
    simp only [hk, hb, ne_eq, not_true_eq_false, Bool.false_eq_true, false_or, not_lt]
    exact hd
  simp only [State.ingressLate, hr, if_neg hn]
  generalize State.finishSlot _ _ _ _ _ = v
  refine ⟨v, _, rfl, ?_⟩
  rw [miss_fabric, State.fabricEv, raise_fabric]
  rfl

theorem closeSymbol_done (v : State) (d : PartnerDyn) (j frame tick symbol : Nat) :
    (((v.closeSymbol j (d.landing frame tick symbol)).dyn j).landing frame tick symbol).done = true := by
  obtain ⟨hf, ht, hs⟩ := d.landing_named frame tick symbol
  generalize d.landing frame tick symbol = l at hf ht hs
  subst hf ht hs
  rw [State.closeSymbol, State.dyn_modDyn_same]
  exact congrArg Landing.done (PartnerDyn.landing_setLanding _ { l with done := true })

/-- An INGRESS_WAIT past its deadline is over, and its symbol is closed. -/
theorem ingressLate_completes (hr : s.running c i = some r) (hk : dKind ((s.cluster c).task i) = kIngress) (hb : (s.cluster c).batch = false)
    (hd : dDeadline ((s.cluster c).task i) ≤ s.inTick) : ∃ q, ((s.ingressLate c i).cluster c).run i = some q ∧ q.phase = .done
      ∧ (((s.ingressLate c i).dyn (dPartner ((s.cluster c).task i))).landing s.frameNow s.tickNow
          (inSymbol ((s.cluster c).task i))).done = true := by
  obtain ⟨v, w, hw, hf⟩ := ingressLate_closes hr hk hb hd
  refine ⟨_, by rw [hw]; exact run_complete .., rfl, ?_⟩
  rw [hw, State.dyn, complete_fabric, hf]
  exact closeSymbol_done v _ _ _ _ _

end

theorem State.elapse_cluster (s : State) (dt c : Nat) : (s.elapse dt).cluster c = s.cluster c := rfl
theorem State.elapse_haul (s : State) (dt k : Nat) : (s.elapse dt).haul k = s.haul k := rfl

/-- Settles O39: each kind of task by what it sends or closes, and the end that it then comes to. -/
theorem fabricTasksComplete : Obligations.FabricTasksComplete := by
  intro s dt c i u d hu hd
  subst hu
  simp only [exec_routerSendComplete, exec_egressComplete, exec_egressDeadline, exec_ingressLate, ← State.elapse_cluster s dt,
    ← State.elapse_mem s dt, ← State.elapse_haul s dt, ← State.elapse_fabric s dt, ← State.elapse_dyn s dt, ← State.elapse_jtag s dt] at hd ⊢
  generalize s.elapse dt = u at hd ⊢
  refine ⟨fun r ws hr hk hf => ?_, fun r ws hr hk hl hb hs hroom => ?_, fun r hr hk hb hdl hp => ?_, fun r hr hk hb hdl => ?_⟩
  · obtain ⟨q, hq, hph, hm, ho, hby, hps⟩ := routerDone_completes ws hd.symm hr hk hf
    exact ⟨_, q, rfl, hq, hph, hm, ho, hby, fun k h1 h2 h3 h4 h5 h6 h7 => hps k ⟨h1, h2, h3, h4, h5, h6, h7⟩⟩
  · rw [hd] at hk hs ⊢
    rw [egressDone_ends ws hr hk hl hb hs hroom]
    refine ⟨_, _, rfl, run_complete .., rfl, ?_, fun hform hj hbr => ?_⟩
    · rw [complete_mem, endTransfer_mem, egressSent_mem]
    · rw [complete_fabric, endTransfer_fabric, egressSent_sent ws hform hj hbr]
  · rw [hd] at hk hdl ⊢
    obtain ⟨⟨q, hq, hph, hst⟩, hm, hdrop⟩ := egressDeadline_counts hr hk hb hdl hp
    exact ⟨_, q, rfl, hq, hph, hst, hm, hdrop⟩
  · rw [hd] at hk hdl ⊢
    obtain ⟨q, hq, hph, hdone⟩ := ingressLate_completes hr hk hb hdl
    exact ⟨_, q, rfl, hq, hph, hdone⟩

end Sys2Proof.Machine
end

section
/-! PROOFS. The exact product of a weight and an input, slice by slice (R99 to R101, R105, R106, R125). -/

namespace Sys2Proof.Machine

/-- A multiple of the divisor is divided exactly. -/
theorem divRound_mul (x : Int) {d : Nat} (hd : 0 < d) : divRound (x * d) d = x := by
  have hq : (2 * (x * (d : Int)).natAbs + d) / (2 * d) = x.natAbs := by
    rw [Int.natAbs_mul, Int.natAbs_natCast]
    exact Nat.div_eq_of_lt_le (by nlinarith) (by nlinarith)
  have hneg : x * (d : Int) < 0 ↔ x < 0 := lt_iff_lt_of_le_iff_le (mul_nonneg_iff_of_pos_right (Int.natCast_pos.mpr hd))
  unfold divRound
  simp only [hq, hneg]
  split <;> omega

/-- At trim 1.0 a column adds its value, shifted, with the offset removed from its top slice (R100, R125). -/
theorem edgeStep_unitTrim (e : Half) (shift : Nat) (suma v : Int) : edgeStep e 0x4000 shift suma v =
    (if sliceTop (cmFmt e) (cmSlice e) then v - 2 * suma else v) * (2 ^ (sliceShift (cmFmt e) (cmSlice e) + shift) : Nat) :=
  divRound_mul _ (by decide)

/-- The map entry that has only FMT and SLICE. -/
def sliceEntry (fmt slice : Nat) : Half := BitVec.ofNat 16 (slice * 2 ^ 8 + fmt * 2 ^ 10)

theorem cmFmt_sliceEntry : ∀ f < 4, ∀ sl < 4, cmFmt (sliceEntry f sl) = f := by decide
theorem cmSlice_sliceEntry : ∀ f < 4, ∀ sl < 4, cmSlice (sliceEntry f sl) = sl := by decide

/-- What one column of slice `sl` adds (R99 to R101, R125). -/
theorem edgeStep_slice {f sl : Nat} (hf : f < 4) (hsl : sl < 4) (u shift : Nat) (a : Int) :
    edgeStep (sliceEntry f sl) 0x4000 shift a (a * sliceCode u sl)
      = a * 2 ^ shift * ((sliceCode u sl - if sliceTop f sl then 2 else 0) * 2 ^ sliceShift f sl) := by
  rw [edgeStep_unitTrim, cmFmt_sliceEntry f hf sl hsl, cmSlice_sliceEntry f hf sl hsl]
  push_cast
  split <;> ring

/-- An offset-binary code by its slices (R99). -/
theorem sum_sliceCodes (u : Nat) (hu : u < 256) :
    sliceCode u 3 * 64 + sliceCode u 2 * 16 + sliceCode u 1 * 4 + sliceCode u 0 = u := by
  simp only [sliceCode]
  omega

/-- What a weight of a format adds, column by column. -/
theorem weightStep_columns {f : Nat} (hf : f < 4) (hs : ∀ w ∈ fmtSlices f, w.1 < 4) (u shift : Nat) (a : Int) :
    weightStep f u shift a = sumI ((fmtSlices f).map (fun w =>
      a * 2 ^ shift * ((sliceCode u w.1 - if sliceTop f w.1 then 2 else 0) * 2 ^ sliceShift f w.1))) :=
  congrArg sumI (List.map_congr_left (fun w hw => edgeStep_slice hf (hs w hw) u shift a))

/-- The columns of an INT8 or INT8-lean weight add the product of amplitude and weight. -/
theorem weightStep_int8 {f u : Nat} (hf : f < 2) (hu : u < 256) (shift : Nat) (a : Int) :
    weightStep f u shift a = a * 2 ^ shift * (u - 128) := by
  have hsum := sum_sliceCodes u hu
  obtain rfl | rfl : f = 0 ∨ f = 1 := by omega
  · rw [weightStep_columns (by decide) (by decide), ← hsum]
    simp [fmtSlices, sumI, sliceTop, sliceShift]
    ring
  · rw [weightStep_columns (by decide) (by decide), ← hsum]
    simp [fmtSlices, sumI, sliceTop, sliceShift]
    ring

/-- The columns of an INT4 weight add the product of amplitude and weight. -/
theorem weightStep_int4 {u : Nat} (hu : u < 16) (shift : Nat) (a : Int) :
    weightStep 2 u shift a = a * 2 ^ shift * (u - 8) := by
  have hsum : sliceCode u 1 * 4 + sliceCode u 0 = u := by
    simp only [sliceCode]
    omega
  rw [weightStep_columns (by decide) (by decide), ← hsum]
  simp [fmtSlices, sumI, sliceTop, sliceShift]
  ring

/-- The two halves of an input add up to it (R105). -/
theorem halves_add (p x : Int) : x / 16 * 2 ^ 4 * p + x % 16 * 2 ^ 0 * p = p * x := by
  conv_rhs => rw [← Int.ediv_mul_add_emod x 16]
  ring

/-- Settles O56: the columns of each half of the input add its product with the weight, and the halves add up to the input. -/
theorem slicesMakeProducts : Obligations.SlicesMakeProducts := by
  intro w x _ _
  refine ⟨fun _ _ f hf => ?_, fun _ _ => ?_⟩
  · rw [weightStep_int8 hf (by omega), weightStep_int8 hf (by omega), halves_add, Int.toNat_of_nonneg (by omega), add_sub_cancel_right]
  · rw [weightStep_int4 (by omega), weightStep_int4 (by omega), halves_add, Int.toNat_of_nonneg (by omega), add_sub_cancel_right]

end Sys2Proof.Machine
end

section
/-! PROOFS. What the engines do next, and the calibration step that waits for them, leave of memory, of the slabs and of the runs (R263 to
R266, R284, R287). -/

namespace Sys2Proof.Machine

@[simp] theorem raise_slabs (s : State) (a b : Nat) (m i : Bool) (p : Nat) : (s.raise a b m i p).slabs = s.slabs := by
  rw [(raise_eventsOnly s a b m i p).1]

/-- The slab of a state depends on its table of slabs alone. -/
theorem State.slab_congr {s t : State} (h : t.slabs = s.slabs) (k : Nat) : t.slab k = s.slab k := by
  rw [State.slab, h, State.slab]

/-- `t` has the memory, the slabs and the runs of `s`. -/
structure EngineKept (s t : State) : Prop where
  mem : t.mem = s.mem
  slabs : t.slabs = s.slabs
  runs : ∀ c, (t.cluster c).runs = (s.cluster c).runs

theorem EngineKept.refl (s : State) : EngineKept s s := ⟨rfl, rfl, fun _ => rfl⟩

theorem EngineKept.trans {s t u : State} (h : EngineKept s t) (g : EngineKept t u) : EngineKept s u :=
  ⟨g.mem.trans h.mem, g.slabs.trans h.slabs, fun c => (g.runs c).trans (h.runs c)⟩

theorem EngineKept.forEach {α : Type} {f : State → α → State} (h : ∀ s a, EngineKept s (f s a)) (l : List α) (s : State) :
    EngineKept s (forEach l s f) := forEach_rel EngineKept.refl EngineKept.trans h l s

theorem EngineKept.ite {s t u : State} {p : Prop} [Decidable p] (h : EngineKept s t) (g : EngineKept s u) :
    EngineKept s (if p then t else u) := by
  split
  · exact h
  · exact g

theorem EngineKept.of_clusters {s t : State} (hm : t.mem = s.mem) (hs : t.slabs = s.slabs) (hc : t.clusters = s.clusters) : EngineKept s t :=
  ⟨hm, hs, fun c => by rw [State.cluster_congr hc]⟩

theorem EngineKept.raise (s : State) (a b : Nat) (m i : Bool) (p : Nat) : EngineKept s (s.raise a b m i p) :=
  .of_clusters (raise_mem ..) (raise_slabs ..) (raise_clusters ..)

theorem EngineKept.modEngine (s : State) (e : Nat) (f : Engine → Engine) : EngineKept s (s.modEngine e f) := .of_clusters rfl rfl rfl
theorem EngineKept.modLoop (s : State) (k : Nat) (f : Loop → Loop) : EngineKept s (s.modLoop k f) := .of_clusters rfl rfl rfl

theorem EngineKept.modCluster (s : State) (c : Nat) {f : Cluster → Cluster} (hf : ∀ x, (f x).runs = x.runs) :
    EngineKept s (s.modCluster c f) := by
  refine ⟨rfl, rfl, fun d => ?_⟩
  by_cases h : d = c
  · subst h
    rw [State.cluster_modCluster_same, hf]
  · rw [State.cluster_modCluster_other _ _ h]

theorem EngineKept.run {s t : State} (h : EngineKept s t) (c i : Nat) : (t.cluster c).run i = (s.cluster c).run i :=
  Cluster.run_congr (h.runs c) i

theorem EngineKept.phaseOf {s t : State} (h : EngineKept s t) (c i : Nat) : t.phaseOf c i = s.phaseOf c i := by
  rw [State.phaseOf, h.run, State.phaseOf]

theorem EngineKept.slab {s t : State} (h : EngineKept s t) (k : Nat) : t.slab k = s.slab k := State.slab_congr h.slabs k

/-! ## Swaps -/

theorem EngineKept.optical (s : State) (e kind row line epoch detail : Nat) (inj : Bool) :
    EngineKept s (s.optical e kind row line epoch detail inj) := .raise ..

theorem EngineKept.takeRow (s : State) (e q k cause old : Nat) (inj : Bool) : EngineKept s (s.takeRow e q k cause old inj) :=
  (EngineKept.modEngine s e _).trans (.optical ..)

theorem EngineKept.thaw (s : State) (k detail : Nat) : EngineKept s (s.thaw k detail) := by
  unfold State.thaw
  exact .ite ((EngineKept.modLoop ..).trans (.raise ..)) (.modLoop ..)

theorem EngineKept.rotateRows (s : State) (e : Nat) : EngineKept s (s.rotateRows e) := by
  unfold State.rotateRows
  dsimp only
  split
  · refine .ite (.refl s) ?_
    split
    · exact (((EngineKept.takeRow ..).trans (.modEngine ..)).trans (.thaw ..)).trans (.modEngine ..)
    · exact .modEngine ..
  · exact .refl s

theorem EngineKept.swapSets (s : State) (e : Nat) (f : Engine → Engine) : EngineKept s (s.swapSets e f) :=
  (EngineKept.modEngine s e f).trans (.rotateRows ..)

theorem EngineKept.takeSet (s : State) (c i : Nat) (r : TaskRun) : EngineKept s (s.takeSet c i r) := by
  unfold State.takeSet
  dsimp only
  split
  · exact .swapSets ..
  · exact .ite (.refl s) (.ite ((EngineKept.optical ..).trans (.modEngine ..)) (.swapSets ..))

theorem EngineKept.releaseHolds (s : State) (c : Nat) : EngineKept s (s.releaseHolds c) := by
  unfold State.releaseHolds
  refine .ite (.refl s) (.modCluster s c (fun x => ?_))
  rfl

/-! ## The engine's next task -/

theorem mem_insertBy {α : Type} {key : α → Nat} {a b : α} {l : List α} (h : b ∈ insertBy key a l) : b = a ∨ b ∈ l := by
  induction l with
  | nil => exact .inl (List.mem_singleton.mp h)
  | cons x l ih =>
    unfold insertBy at h
    split at h
    · exact List.mem_cons.mp h
    · obtain rfl | h := List.mem_cons.mp h
      · exact .inr List.mem_cons_self
      · exact (ih h).imp_right (List.mem_cons_of_mem _)

/-- What is sorted was there before. -/
theorem mem_of_mem_sortBy {α : Type} {key : α → Nat} {b : α} {l : List α} (h : b ∈ sortBy key l) : b ∈ l := by
  induction l with
  | nil => exact h
  | cons a l ih =>
    obtain rfl | h := mem_insertBy h
    · exact List.mem_cons_self
    · exact List.mem_cons_of_mem _ (ih h)

/-- A batch takes only tasks that wait. -/
theorem Cluster.mem_of_mem_gather {x : Cluster} {c k j : Nat} {l left : List Nat} (h : j ∈ x.gather c k l left) : j ∈ l := by
  induction l generalizing left with
  | nil => exact h
  | cons a l ih =>
    unfold Cluster.gather at h
    dsimp only at h
    split at h
    · obtain rfl | h := List.mem_cons.mp h
      · exact List.mem_cons_self
      · exact List.mem_cons_of_mem _ (ih h)
    · exact List.mem_cons_of_mem _ (ih h)

/-- A task that the engine has begun, or that is on cells, does not wait for it. -/
theorem begun_notQueued {s : State} {c i : Nat} {r : TaskRun} (hr : (s.cluster c).run i = some r) (hb : r.begun = true) :
    i ∉ s.engineQueue c := by
  intro h
  have hw := (List.mem_filter.mp (mem_of_mem_sortBy h)).2
  simp [State.waitsEngine, hr, hb] at hw

/-- A batch that begins changes the runs of tasks that waited. -/
theorem run_beginBatch {s : State} {c j : Nat} (i start : Nat) (h : j ∉ s.engineQueue c) :
    ((s.beginBatch c i start).cluster c).run j = (s.cluster c).run j := by
  unfold State.beginBatch
  dsimp only
  rw [State.cluster_congr (State.modEngine_clusters ..), State.cluster_modCluster_same]
  refine List.foldlRecOn _ _ (motive := fun x : Cluster => x.run j = (s.cluster c).run j) rfl (fun x hx a ha => ?_)
  have hne : j ≠ a := fun e => h (e ▸ Cluster.mem_of_mem_gather (List.mem_of_mem_take ha))
  split
  · rw [Cluster.run_setRun_other _ _ hne, hx]
  · exact hx

theorem beginBatch_mem (s : State) (c i start : Nat) : (s.beginBatch c i start).mem = s.mem := by
  simp only [State.beginBatch, State.modEngine_mem, State.modCluster_mem]

theorem beginBatch_slabs (s : State) (c i start : Nat) : (s.beginBatch c i start).slabs = s.slabs := by
  simp only [State.beginBatch, State.modEngine_slabs, State.modCluster_slabs]

/-- An OPTICAL_MVM that begins takes its set, and changes no run but its own. -/
theorem beginOptical_kept (s : State) (c i start : Nat) (r : TaskRun) : (s.beginOptical c i start r).mem = s.mem
    ∧ (s.beginOptical c i start r).slabs = s.slabs
    ∧ ∀ j, j ≠ i → ((s.beginOptical c i start r).cluster c).run j = (s.cluster c).run j := by
  have hset := EngineKept.takeSet s c i r
  unfold State.beginOptical
  dsimp only
  generalize s.takeSet c i r = v at hset ⊢
  refine ⟨(EngineKept.releaseHolds _ c).mem.trans hset.mem, (EngineKept.releaseHolds _ c).slabs.trans hset.slabs, fun j hj => ?_⟩
  rw [(EngineKept.releaseHolds _ c).run, (EngineKept.modEngine ..).run, State.cluster_modCluster_same]
  exact (Cluster.run_setRun_other _ _ hj).trans (hset.run c j)

/-- What the engine begins: nothing, a batch, or the OPTICAL_MVM that waits first. -/
theorem engineNext_cases (s : State) (c : Nat) : s.engineNext c = s
    ∨ (∃ f i start, s.engineNext c = (s.modEngine c f).beginBatch c i start)
    ∨ ∃ f i start r, i ∈ s.engineQueue c ∧ s.engineNext c = (s.modEngine c f).beginOptical c i start r := by
  unfold State.engineNext
  split
  · exact .inl rfl
  · split
    · exact .inl rfl
    · next h =>
      split
      · dsimp only
        split
        · exact .inr (.inl ⟨_, _, _, rfl⟩)
        · exact .inr (.inr ⟨_, _, _, _, h ▸ List.mem_cons_self, rfl⟩)
      · exact .inl rfl

section
variable (s : State) (c : Nat)

theorem engineNext_mem : (s.engineNext c).mem = s.mem := by
  obtain h | ⟨f, i, start, h⟩ | ⟨f, i, start, r, -, h⟩ := engineNext_cases s c
  · rw [h]
  · rw [h, beginBatch_mem, State.modEngine_mem]
  · rw [h, (beginOptical_kept ..).1, State.modEngine_mem]

theorem engineNext_slabs : (s.engineNext c).slabs = s.slabs := by
  obtain h | ⟨f, i, start, h⟩ | ⟨f, i, start, r, -, h⟩ := engineNext_cases s c
  · rw [h]
  · rw [h, beginBatch_slabs, State.modEngine_slabs]
  · rw [h, (beginOptical_kept ..).2.1, State.modEngine_slabs]

/-- A task that does not wait for the engine keeps its run. -/
theorem run_engineNext {j : Nat} (hj : j ∉ s.engineQueue c) : ((s.engineNext c).cluster c).run j = (s.cluster c).run j := by
  obtain h | ⟨f, i, start, h⟩ | ⟨f, i, start, r, hi, h⟩ := engineNext_cases s c
  · rw [h]
  · rw [h, run_beginBatch i start (s := s.modEngine c f) hj, (EngineKept.modEngine ..).run]
  · rw [h, (beginOptical_kept ..).2.2 j (fun e => hj (e ▸ hi)), (EngineKept.modEngine ..).run]

end

/-! ## The calibration step that waits (R263, R266) -/

theorem EngineKept.walk (s : State) (sel : Entry → Bool) (size : Entry → Nat) (cap : Nat) : EngineKept s (s.walk sel size cap) := by
  unfold State.walk
  refine .ite (.refl s) (EngineKept.trans (t := s.takeFree) (.of_clusters rfl rfl rfl) (.forEach (fun s _ => ?_) _ _))
  exact .of_clusters rfl rfl rfl

theorem EngineKept.setCapacity (s : State) (c cap : Nat) (inj : Bool) : EngineKept s (s.setCapacity c cap inj) := by
  have hset : EngineKept s (s.modCluster c (fun x => { x with capacity := cap })) := .modCluster s c (fun _ => rfl)
  unfold State.setCapacity
  dsimp only
  exact .ite (.refl s) (.ite ((hset.trans (.raise ..)).trans (.walk ..)) (hset.trans (.raise ..)))

theorem EngineKept.rowStandby (s : State) (e p : Nat) : EngineKept s (s.rowStandby e p) := by
  have hrow := EngineKept.modEngine s e (fun x => x.setRow p .standby)
  unfold State.rowStandby
  dsimp only
  split
  · exact hrow
  · exact ((((hrow.trans (.modEngine ..)).trans (.takeRow ..)).trans (.modEngine ..)).trans (.setCapacity ..)).trans (.rotateRows ..)

theorem EngineKept.calibrated (s : State) (i : Nat) (ofs : Int) (gain : Nat) (fault : Option Nat) :
    EngineKept s (s.calibrated i ofs gain fault) := by
  have hcorr : ∀ f, EngineKept s (s.modCorr i f) := fun f => .of_clusters rfl rfl rfl
  unfold State.calibrated
  dsimp only
  split
  · exact (hcorr _).trans (.raise ..)
  · exact hcorr _

theorem EngineKept.putTrims (s : State) (force : Bool) (key : Nat) (l : List (Nat × Int)) : EngineKept s (s.putTrims force key l) := by
  refine .forEach (fun s x => ?_) _ s
  dsimp only
  split
  · exact .of_clusters rfl rfl rfl
  · exact .of_clusters rfl rfl rfl

theorem EngineKept.finishRow (s : State) (e p : Nat) (pairs : List (Nat × Nat)) (ok stage : Bool) :
    EngineKept s (s.finishRow e p pairs ok stage) := by
  unfold State.finishRow
  extract_lets ep recorded free piloted conv trims wrong trimmed old r fault done _ k n counted
  have hpiloted : EngineKept s piloted := .of_clusters rfl rfl rfl
  have htrimmed : EngineKept piloted trimmed := by
    refine .ite (.forEach (fun s r => ?_) _ _) (.putTrims ..)
    exact .of_clusters rfl rfl rfl
  have hdone : EngineKept s done := (hpiloted.trans htrimmed).trans (.calibrated ..)
  have hcounted : EngineKept s counted := hdone.trans (.modLoop ..)
  refine .ite (hdone.trans (((EngineKept.modEngine ..).trans (.optical ..)).trans (.rowStandby ..))) (.ite hdone (.ite hcounted ?_))
  exact hcounted.trans (((EngineKept.modLoop ..).trans (.modEngine ..)).trans (.optical ..))

theorem EngineKept.calibrateRow (s : State) (e : Nat) (result : Option (List (Nat × Nat) × Bool)) (stage : List Nat) :
    EngineKept s (s.calibrateRow e result stage) := by
  have hset : ∀ x, EngineKept s (s.setEngine e x) := fun x => .of_clusters rfl rfl rfl
  unfold State.calibrateRow
  dsimp only
  split
  · exact .refl s
  · refine .ite (.refl s) ?_
    split
    · exact .ite (hset _) ((hset _).trans (.finishRow ..))
    · exact hset _

theorem EngineKept.waitedCal (s : State) (e : Nat) : EngineKept s (s.waitedCal e) := by
  unfold State.waitedCal
  split
  · exact .refl s
  · exact .ite (.refl s) ((EngineKept.modEngine s e _).trans (.calibrateRow ..))

end Sys2Proof.Machine
end

section
/-! PROOFS. A SLAB_MVM comes to its end: it drains and leaves its slabs, or a mismatch holds it (R121, R152, R197, R214). -/

namespace Sys2Proof.Machine

theorem exec_slabMvmComplete (s : State) (dt : Nat) (c : ClusterId) (i : Fin 4096) (noise : List Int) :
    exec (.slabMvmComplete dt c i noise) s
      = .next (((s.elapse dt).slabComplete c ((s.elapse dt).taskKey c i) noise).engineNext c) := rfl

theorem run_of_running {s : State} {c i : Nat} {r : TaskRun} (h : s.running c i = some r) : (s.cluster c).run i = some r := by
  unfold State.running at h
  split at h
  · next hr =>
    split at h
    · exact hr.trans h
    · cases h
  · cases h

/-! ## The task leaves its slabs (R152, R169) -/

/-- `t` has the memory of `s`, and the task is over in `t` if it is in `s`. -/
structure DoneKept (c i : Nat) (s t : State) : Prop where
  mem : t.mem = s.mem
  done : s.phaseOf c i = some .done → t.phaseOf c i = some .done

section
variable {c i : Nat}

theorem DoneKept.refl (s : State) : DoneKept c i s s := ⟨rfl, id⟩

theorem DoneKept.trans {s t u : State} (h : DoneKept c i s t) (g : DoneKept c i t u) : DoneKept c i s u :=
  ⟨g.mem.trans h.mem, g.done ∘ h.done⟩

theorem DoneKept.forEach {α : Type} {f : State → α → State} (h : ∀ s a, DoneKept c i s (f s a)) (l : List α) (s : State) :
    DoneKept c i s (forEach l s f) := forEach_rel DoneKept.refl DoneKept.trans h l s

theorem DoneKept.of_clusters {s t : State} (hm : t.mem = s.mem) (hc : t.clusters = s.clusters) : DoneKept c i s t :=
  ⟨hm, fun h => (phaseOf_congr hc c i).trans h⟩

/-- A task that runs gets another run: what is over stays so. -/
theorem DoneKept.modRun {s : State} {j : Nat} {r : TaskRun} {f : Cluster → Cluster} (hr : (s.cluster c).run j = some r)
    (hp : r.phase = .running) (hf : ∀ k, k ≠ j → (f (s.cluster c)).run k = (s.cluster c).run k) : DoneKept c i s (s.modCluster c f) := by
  refine ⟨rfl, fun h => ?_⟩
  have hne : i ≠ j := by
    rintro rfl
    rw [State.phaseOf, hr, Option.map_some, hp] at h
    cases h
  rw [State.phaseOf, State.cluster_modCluster_same, hf i hne]
  exact h

theorem DoneKept.toDetour (s : State) (j : Nat) : DoneKept c i s (s.toDetour c j) := by
  unfold State.toDetour
  dsimp only
  split
  · next r hr =>
    split
    · exact .refl s
    · next hn =>
      have hp : r.phase = .running := by
        by_contra hp
        exact hn (.inl hp)
      split
      · refine (DoneKept.modRun hr hp (fun k hk => ?_)).trans (.of_clusters (raise_mem ..) (opticalFlag_clusters ..))
        rw [Cluster.run_setRun_other _ _ hk, Cluster.run_freeSlots]
      · exact .modRun hr hp (fun k hk => Cluster.run_setRun_other _ _ hk)
  · exact .refl s

theorem DoneKept.driftAfter (s : State) (k : Nat) : DoneKept c i s (s.driftAfter k) := by
  unfold State.driftAfter
  split
  · split
    · exact .of_clusters rfl rfl
    · exact .refl s
  · exact .refl s

theorem DoneKept.turnDetours (s : State) (ks : List Nat) : DoneKept c i s (s.turnDetours c ks) := by
  refine .forEach (fun s j => ?_) _ s
  split
  · exact .toDetour s j
  · exact .refl s

theorem DoneKept.leaveSlabs (s : State) : DoneKept c i s (s.leaveSlabs c i) := by
  refine ((DoneKept.forEach (fun s k => ?_) _ s).trans (.turnDetours ..)).trans (.forEach DoneKept.driftAfter _ _)
  exact .of_clusters rfl rfl

theorem DoneKept.engineNext (s : State) : DoneKept c i s (s.engineNext c) :=
  ⟨engineNext_mem s c, fun h => (phaseOf_engineNext s c i).trans h⟩

end

/-! ## The end (R121, R214) -/

/-- The error of the conversion of a physical column in a bench-phase on the slab at `pos`. -/
def conversionNoise (d : Desc) (noise : List Int) (pos no p : Nat) : Int := nth 0 noise (noiseIndex d pos no p)

/-- The first mismatch of a task on the slab `k` at `pos`, bench-phase and group. -/
def State.mismatchOn (s : State) (c i : Nat) (r : TaskRun) (noise : List Int) (pos k : Nat) : Option (Nat × Nat) :=
  (s.slab k).firstMismatch (s.seamForced k) (benchSeq ((s.cluster c).task i) (segOf ((s.cluster c).task i) pos r.input))
    (s.coarse k (conversionNoise ((s.cluster c).task i) noise pos))

/-- What a SLAB_MVM needs to come to its end: it has begun on cells, its time is over, no line that it drains to is held, and it is the
first on each of its slabs, none of which waits for a localisation. -/
structure AtSlabEnd (s : State) (c i : Nat) (r : TaskRun) : Prop where
  running : s.running c i = some r
  kind : dKind ((s.cluster c).task i) = kSlab
  onCells : r.detour = false
  begun : r.begun = true
  ended : s.slabEnd c i r ≤ s.issue
  free : s.heldBack c i r = false
  first : ∀ j ∈ (s.cluster c).slabsOf c i, (s.slab j).mismatch = none ∧ ((s.cluster c).onSlabs c j).head? = some i

section
variable {s : State} {c i : Nat} {r : TaskRun} (noise : List Int) (h : AtSlabEnd s c i r)
include h

/-- Its mismatches hold it; with none it drains, completes and leaves its slabs. -/
theorem slabComplete_atEnd {found : List (Nat × Nat × Nat)}
    (hf : found = (indexed ((s.cluster c).slabsOf c i)).filterMap (fun k => (s.mismatchOn c i r noise k.1 k.2).map (fun m => (k.2, m)))) :
    s.slabComplete c i noise =
      if !found.isEmpty then forEach found s (fun s k => s.modSlab k.1 (fun y => { y with mismatch := some k.2 }))
      else
        let out := s.slabResult c i (fun _ => smRows ((s.cluster c).task i) * 2) r (r.late || (s.lateBy c i).isSome)
          (conversionNoise ((s.cluster c).task i) noise)
        (out.1.complete c i r out.2).leaveSlabs c i := by
  have hfirst : ((s.cluster c).slabsOf c i).any (fun k => (s.slab k).mismatch.isSome || ((s.cluster c).onSlabs c k).head? != some i) = false := by
    refine List.any_eq_false.mpr (fun j hj => ?_)
    obtain ⟨hm, hh⟩ := h.first j hj
    simp [hm, hh]
  have hn : ¬ (dKind ((s.cluster c).task i) ≠ kSlab ∨ r.detour = true ∨ (!r.begun) = true ∨ s.issue < s.slabEnd c i r
      ∨ s.heldBack c i r = true
      ∨ ((s.cluster c).slabsOf c i).any (fun k => (s.slab k).mismatch.isSome || ((s.cluster c).onSlabs c k).head? != some i) = true) := by
    simp [h.kind, h.onCells, h.begun, Nat.not_lt.mpr h.ended, h.free, hfirst]
  subst hf
  simp only [State.slabComplete, h.running, if_neg hn]
  rfl

/-- With no mismatch the task is over, and memory has its drain. -/
theorem slabComplete_drains
    (hm : ∀ j ∈ indexed ((s.cluster c).slabsOf c i), s.mismatchOn c i r noise j.1 j.2 = none) :
    (s.slabComplete c i noise).phaseOf c i = some .done ∧ (s.slabComplete c i noise).mem =
      (s.slabResult c i (fun _ => smRows ((s.cluster c).task i) * 2) r (r.late || (s.lateBy c i).isSome)
        (conversionNoise ((s.cluster c).task i) noise)).1.mem := by
  have hnone : [] = (indexed ((s.cluster c).slabsOf c i)).filterMap (fun k => (s.mismatchOn c i r noise k.1 k.2).map (fun m => (k.2, m))) :=
    (List.filterMap_eq_nil_iff.mpr (fun j hj => by rw [hm j hj, Option.map_none])).symm
  rw [slabComplete_atEnd noise h hnone]
  generalize s.slabResult c i _ r _ _ = out
  have hleft := DoneKept.leaveSlabs (c := c) (i := i) (out.1.complete c i r out.2)
  refine ⟨hleft.done ?_, hleft.mem.trans (complete_mem ..)⟩
  rw [State.phaseOf, run_complete]
  rfl

/-- A mismatch on the only slab is kept there for its localisation. -/
theorem slabComplete_mismatch {j : Nat} {m : Nat × Nat} (hj : (s.cluster c).slabsOf c i = [j]) (hm : s.mismatchOn c i r noise 0 j = some m) :
    s.slabComplete c i noise = s.modSlab j (fun y => { y with mismatch := some m }) := by
  have hone : [(j, m)] = (indexed ((s.cluster c).slabsOf c i)).filterMap (fun k => (s.mismatchOn c i r noise k.1 k.2).map (fun m => (k.2, m))) := by
    rw [hj]
    show _ = [(0, j)].filterMap _
    rw [List.filterMap_cons_some (by rw [hm, Option.map_some]), List.filterMap_nil]
  rw [slabComplete_atEnd noise h hone]
  rfl

end

end Sys2Proof.Machine
end

section
/-! PROOFS. What a localisation comes to, and the image of an unplanned detour (R198, R199, R214 to R217). -/

namespace Sys2Proof.Machine

theorem exec_seamLocalised (s : State) (dt : Nat) (k : SlabId) {reads : List Int} (h : reads.length = 33) :
    exec (.seamLocalised dt k reads) s = .next ((s.elapse dt).seamLocalised k reads) := if_neg (not_not_intro h)

theorem exec_detourStart (s : State) (dt : Nat) (k : SlabId) : exec (.detourStart dt k) s = .next ((s.elapse dt).detourStart k) := rfl

section
variable (s : State) (k : Nat)

theorem upkeep_mem (kind group column detail : Nat) (inj : Bool) : (s.upkeep k kind group column detail inj).mem = s.mem := raise_mem ..

theorem slab_upkeep (kind group column detail : Nat) (inj : Bool) (j : Nat) : (s.upkeep k kind group column detail inj).slab j = s.slab j :=
  State.slab_congr (raise_slabs ..) j

theorem seamFail_mem (g column row : Nat) (inj : Bool) : (s.seamFail k g column row inj).mem = s.mem := upkeep_mem ..

/-- SEAM_FAIL changes of a slab only its flags. -/
theorem slab_seamFail (g column row : Nat) (inj : Bool) :
    (s.seamFail k g column row inj).slab k = { s.slab k with status := (s.slab k).status.hitIf (row != 1) 8 } := by
  rw [State.seamFail, slab_upkeep, State.slab_modSlab_same]

theorem beginSpare_mem (j : Nat) (inj : Bool) : (s.beginSpare k j inj).mem = s.mem := by
  unfold State.beginSpare
  dsimp only
  split
  · rfl
  · split
    · rfl
    · exact upkeep_mem ..

/-- The columns that are reconstructed stay so as spare dressing begins. -/
theorem recon_beginSpare (j : Nat) (inj : Bool) : ((s.beginSpare k j inj).slab k).recon = (s.slab k).recon := by
  unfold State.beginSpare
  dsimp only
  split
  · rfl
  · split
    · rw [State.slab_modSlab_same]
    · rw [slab_upkeep]

theorem unplannedDetour_mem (n : Nat) : (s.unplannedDetour k n).mem = s.mem := rfl

theorem slab_unplannedDetour (n : Nat) :
    ((s.unplannedDetour k n).slab k).dress = .detour ∧ ((s.unplannedDetour k n).slab k).pinned = (s.slab k).pinned := by
  rw [State.unplannedDetour, State.queueDress, State.slab_modSlab_same, State.slab_modSlab_same]
  exact ⟨rfl, rfl⟩

theorem slab_seamHandled (ph g : Nat) (flag : Bool) : (s.seamHandled k ph g flag).slab k =
    { s.slab k with mismatch := none, handled := (s.slab k).handled ++ [(ph, g, flag)] } := State.slab_modSlab_same ..

theorem seamDelay_mem : (s.seamDelay k).mem = s.mem := rfl
theorem seamDelay_now : (s.seamDelay k).now = s.now := rfl
theorem slab_seamDelay (j : Nat) : (s.seamDelay k).slab j = s.slab j := rfl

/-! ## Outcomes (R216, R217, R228) -/

/-- The pin of a slab that loses it is reported (R216). -/
def State.losePin (g : Nat) (inj : Bool) : State :=
  if (s.slab k).pinned then (s.modSlab k (fun y => { y with pinned := false })).upkeep k upPinLost g 0x1FF 0 inj else s

theorem losePin_mem (g : Nat) (inj : Bool) : (s.losePin k g inj).mem = s.mem := by
  unfold State.losePin
  split
  · exact upkeep_mem ..
  · rfl

theorem pinned_losePin (g : Nat) (inj : Bool) : ((s.losePin k g inj).slab k).pinned = false := by
  unfold State.losePin
  split
  · rw [slab_upkeep, State.slab_modSlab_same]
  · next h => exact Bool.not_eq_true _ ▸ h

theorem seamMany_eq (ph g : Nat) (inj : Bool) : s.seamMany k ph g inj =
    ((((s.losePin k g inj).seamFail k g 0x1FF 2 inj).modSlab k (fun y => { y with transients := [] })).unplannedDetour k (ph + 1)).seamHandled
      k ph g true := rfl

/-- A fault in more than one column takes the slab out of service, unpinned (R216). -/
theorem seamMany_detours (ph g : Nat) (inj : Bool) :
    ((s.seamMany k ph g inj).slab k).dress = .detour ∧ ((s.seamMany k ph g inj).slab k).pinned = false := by
  have hp : (((((s.losePin k g inj).seamFail k g 0x1FF 2 inj).modSlab k (fun y => { y with transients := [] })).slab k)).pinned = false := by
    rw [State.slab_modSlab_same, slab_seamFail]
    exact pinned_losePin ..
  rw [seamMany_eq]
  generalize State.modSlab _ k _ = v at hp ⊢
  obtain ⟨hdress, hpinned⟩ := slab_unplannedDetour v k (ph + 1)
  generalize v.unplannedDetour k (ph + 1) = w at hdress hpinned ⊢
  rw [slab_seamHandled]
  exact ⟨hdress, hpinned.trans hp⟩

/-- Whatever it comes to, the mismatch is then localised, and memory stays. -/
structure SeamClosed (s t : State) (k : Nat) : Prop where
  mismatch : (t.slab k).mismatch = none
  mem : t.mem = s.mem

theorem SeamClosed.handled {s : State} {k : Nat} {v : State} (hm : v.mem = s.mem) (ph g : Nat) (flag : Bool) :
    SeamClosed s (v.seamHandled k ph g flag) k := ⟨by rw [slab_seamHandled], hm⟩

theorem SeamClosed.seamMany (ph g : Nat) (inj : Bool) : SeamClosed s (s.seamMany k ph g inj) k := by
  rw [seamMany_eq]
  refine .handled ?_ ..
  rw [unplannedDetour_mem, State.modSlab_mem, seamFail_mem, losePin_mem]

theorem SeamClosed.seamTransient (ph g : Nat) (inj : Bool) : SeamClosed s (s.seamTransient k ph g inj) k := by
  unfold State.seamTransient
  dsimp only
  split
  · exact .seamMany ..
  · exact .handled ((upkeep_mem ..).trans (State.modSlab_mem ..)) ..

theorem SeamClosed.seamOutcome (ph g : Nat) (faulty : List Nat) : SeamClosed s (s.seamOutcome k ph g faulty) k := by
  unfold State.seamOutcome
  dsimp only
  split
  · exact .seamTransient ..
  · split
    · exact .seamMany ..
    · split
      · refine .handled ?_ ..
        rw [beginSpare_mem, State.modSlab_mem, seamFail_mem]
      · split
        · refine .handled ?_ ..
          rw [beginSpare_mem, State.modSlab_mem, seamFail_mem]
        · exact .handled ((unplannedDetour_mem ..).trans (seamFail_mem ..)) ..
  · exact .seamMany ..

variable {s k}

/-- The first and the second transient within a second set their flag (R217). -/
theorem seamTransient_counted (ph g : Nat) (inj : Bool) (h : ((s.slab k).recentTransients s.now).length < 2) :
    ((s.seamTransient k ph g inj).slab k).status.has 9 = true := by
  unfold State.seamTransient
  dsimp only
  split
  · next hl =>
    rw [List.length_append, List.length_singleton] at hl
    omega
  · rw [slab_seamHandled, slab_upkeep, State.slab_modSlab_same]
    exact W1c.has_hit_same _ (by decide)

/-- The third is a fault in more than one column (R217). -/
theorem seamTransient_third (ph g : Nat) (inj : Bool) (h : 2 ≤ ((s.slab k).recentTransients s.now).length) :
    s.seamTransient k ph g inj = s.seamMany k ph g inj := by
  refine if_pos ?_
  rw [List.length_append, List.length_singleton]
  omega

theorem seamOutcome_none (ph g : Nat) : s.seamOutcome k ph g [] = s.seamTransient k ph g (!(s.seamFaults k g).isEmpty) := rfl

theorem seamOutcome_many {faulty : List Nat} (ph g : Nat) (h : 2 ≤ faulty.length) :
    s.seamOutcome k ph g faulty = s.seamMany k ph g (!(s.seamFaults k g).isEmpty) := by
  match faulty with
  | _ :: _ :: _ => rfl

/-- A second column of a group that reconstructs one is a fault in more than one column (R228). -/
theorem seamOutcome_second {ph g j : Nat} (h : (s.slab k).recon.any (fun f => f / 32 == g) = true) :
    s.seamOutcome k ph g [j] = s.seamMany k ph g (!(s.seamFaults k g).isEmpty) := if_pos h

/-- A data column of a pinned slab is reconstructed (R216). -/
theorem seamOutcome_reconstructs {ph g j : Nat} (h : (s.slab k).recon.any (fun f => f / 32 == g) = false) (hj : j < 256)
    (hp : (s.slab k).pinned = true) : j ∈ ((s.seamOutcome k ph g [j]).slab k).recon := by
  simp only [State.seamOutcome, h, Nat.not_le.mpr hj, hp, Bool.false_eq_true, if_false, if_true]
  rw [slab_seamHandled]
  simp only [recon_beginSpare, State.slab_modSlab_same]
  exact List.mem_append_right _ (List.mem_singleton_self j)

theorem seamLocalised_outcome {m : Nat × Nat} (reads : List Int) (hm : (s.slab k).mismatch = some m) :
    s.seamLocalised k reads = (s.seamDelay k).seamOutcome k m.1 m.2 (s.faultyColumns k m.2 reads) := by
  simp only [State.seamLocalised, hm]

/-! ## The image of an unplanned detour (R199) -/

theorem detourStart_ready (hd : (s.slab k).dress = .detour) (hr : (s.slab k).detourReady = false) (hm : (s.slab k).master.isSome = true)
    (hh : s.hbmOn = true) : ((s.detourStart k).slab k).detourReady = true ∧ (s.detourStart k).mem = s.mem := by
  have hn : ¬ ((s.slab k).dress ≠ .detour ∨ (s.slab k).detourReady = true ∨ (s.slab k).master.isNone = true ∨ (!s.hbmOn) = true) := by
    rw [Option.isSome_iff_ne_none] at hm
    simp [hd, hr, hm, hh]
  simp only [State.detourStart, if_neg hn]
  rw [State.slab_congr (engineNext_slabs ..), slab_upkeep, State.slab_modSlab_same, engineNext_mem, upkeep_mem]
  exact ⟨rfl, rfl⟩

end

end Sys2Proof.Machine
end

section
/-! PROOFS. A detour batch completes, each of its tasks with it (R198, R285, R287, R879). -/

namespace Sys2Proof.Machine

theorem exec_detourBatchComplete (s : State) (dt : Nat) (c : ClusterId) (noise : List Int) :
    exec (.detourBatchComplete dt c noise) s = .next (((s.elapse dt).batchComplete c noise).waitedCal c) := rfl

/-! ## A drain leaves time and the clusters -/

/-- `t` has the time and the clusters of `s`. -/
structure ClustersKept (s t : State) : Prop where
  time : t.time = s.time
  clusters : t.clusters = s.clusters

theorem ClustersKept.refl (s : State) : ClustersKept s s := ⟨rfl, rfl⟩

theorem ClustersKept.trans {s t u : State} (h : ClustersKept s t) (g : ClustersKept t u) : ClustersKept s u :=
  ⟨g.time.trans h.time, g.clusters.trans h.clusters⟩

theorem ClustersKept.forEach {α : Type} {f : State → α → State} (h : ∀ s a, ClustersKept s (f s a)) (l : List α) (s : State) :
    ClustersKept s (forEach l s f) := forEach_rel ClustersKept.refl ClustersKept.trans h l s

theorem ClustersKept.ite {s t u : State} {p : Prop} [Decidable p] (h : ClustersKept s t) (g : ClustersKept s u) :
    ClustersKept s (if p then t else u) := by
  split
  · exact h
  · exact g

theorem ClustersKept.modSlab (s : State) (k : Nat) (f : Slab → Slab) : ClustersKept s (s.modSlab k f) := ⟨rfl, rfl⟩
theorem ClustersKept.modEngine (s : State) (e : Nat) (f : Engine → Engine) : ClustersKept s (s.modEngine e f) := ⟨rfl, rfl⟩

theorem ClustersKept.storeTagged (s : State) (k : Nat) (bs : List Byte) (t : Option Tag) : ClustersKept s (s.storeTagged k bs t) := by
  refine ⟨?_, storeTagged_clusters ..⟩
  unfold State.storeTagged State.setTags
  split
  · rfl
  · split <;> rfl

theorem ClustersKept.writeAt (s : State) (c core addr : Nat) (bs : List Byte) (t : Option Tag) :
    ClustersKept s (s.writeAt c core addr bs t) := by
  unfold State.writeAt
  split
  · exact .refl s
  · exact .ite (.storeTagged ..) (.forEach (fun s _ => .ite (.storeTagged ..) (.refl s)) _ s)

theorem ClustersKept.writePieces (c core : Nat) (l : List (List Byte × Option Tag)) (s : State) (addr : Nat) :
    ClustersKept s (s.writePieces c core addr l) := by
  induction l generalizing s addr with
  | nil => exact .refl s
  | cons x l ih =>
    unfold State.writePieces
    dsimp only
    exact ((ClustersKept.ite (.refl s) (.writeAt ..)).trans (.ite (.refl _) (.writeAt ..))).trans (ih ..)

theorem ClustersKept.writeRegionsOf (s : State) (c core addr len : Nat) (rs : List (List Byte × Option Tag)) :
    ClustersKept s (s.writeRegionsOf c core addr len rs) := by
  unfold State.writeRegionsOf
  dsimp only
  split
  · exact .refl s
  · exact ((ClustersKept.writeAt ..).trans (.ite (.refl _) (.writeAt ..))).trans (.writePieces ..)

theorem ClustersKept.drainTask (s : State) (c i : Nat) (r : TaskRun) (late : Bool) : ClustersKept s (s.drainTask c i r late).1 := by
  unfold State.drainTask
  dsimp only
  split
  · exact .refl s
  · exact (ClustersKept.forEach (fun s k => .modSlab ..) _ s).trans (.writeRegionsOf ..)

/-! ## The end of a task, as the others see it -/

section
variable (x : Cluster)

theorem Cluster.releaseSlot_active (k : Nat) : (x.releaseSlot k).active = x.active := by
  unfold Cluster.releaseSlot
  split
  · dsimp only
    split <;> rfl
  · rfl

theorem Cluster.readDone_active (i pass : Nat) : (x.readDone i pass).active = x.active :=
  foldl_keeps Cluster.active _ Cluster.releaseSlot_active _ x

theorem Cluster.freeSlots_active (ks : List Nat) : (x.freeSlots ks).active = x.active :=
  foldl_keeps Cluster.active (fun x k => x.modSlot k (fun _ => Slot.init)) (fun _ _ => rfl) ks x

theorem Cluster.finishSlots_active (i : Nat) (r : TaskRun) : (x.finishSlots i r).active = x.active := by
  refine (Cluster.readDone_active ..).trans (foldl_keeps Cluster.active _ (fun x k => ?_) _ x)
  exact Cluster.releaseSlot_active ..

end

/-- `t` has the time of `s`, and of cluster `c` the plan and the run of task `i`. -/
structure TaskKept (c i : Nat) (s t : State) : Prop where
  time : t.time = s.time
  plan : (t.cluster c).active = (s.cluster c).active
  run : (t.cluster c).run i = (s.cluster c).run i

section
variable {c i j : Nat}

theorem TaskKept.trans {s t u : State} (h : TaskKept c i s t) (g : TaskKept c i t u) : TaskKept c i s u :=
  ⟨g.time.trans h.time, g.plan.trans h.plan, g.run.trans h.run⟩

theorem ClustersKept.task {s t : State} (h : ClustersKept s t) : TaskKept c i s t := by
  have hc := State.cluster_congr h.clusters c
  exact ⟨h.time, by rw [hc], by rw [hc]⟩

theorem TaskKept.running {s t : State} (h : TaskKept c i s t) : t.running c i = s.running c i := by
  rw [State.running, h.run, h.time, Cluster.task_congr h.plan, State.running]

theorem TaskKept.phaseOf {s t : State} (h : TaskKept c i s t) : t.phaseOf c i = s.phaseOf c i := by
  rw [State.phaseOf, h.run, State.phaseOf]

theorem TaskKept.miss (s : State) (cause tag late skipped : Nat) : TaskKept c i s (s.miss c cause tag late skipped) :=
  ⟨miss_time .., by rw [cluster_miss], run_miss ..⟩

/-- Another task completes. -/
theorem TaskKept.complete (s : State) (r : TaskRun) (t : Option Tag) (h : i ≠ j) : TaskKept c i s (s.complete c j r t) := by
  have hdone : TaskKept c i s (s.modCluster c (fun x => ((x.logOutput j r.pass t).setRun j (r.over t)).finishSlots j r)) := by
    refine ⟨rfl, ?_, ?_⟩
    · rw [State.cluster_modCluster_same, Cluster.finishSlots_active]
      rfl
    · rw [State.cluster_modCluster_same, Cluster.run_finishSlots, Cluster.run_setRun_other _ _ h]
      rfl
  obtain ⟨u, rfl, he | ⟨tag, n, he⟩⟩ := complete_cases s c j r t
  · rw [he]
    exact hdone
  · rw [he]
    exact hdone.trans (.miss ..)

/-- Another task is stopped. -/
theorem TaskKept.stopped (s : State) (r : TaskRun) (t : Option Tag) (h : i ≠ j) : TaskKept c i s (s.stopped c j r t) := by
  unfold State.stopped
  refine ⟨rfl, ?_, ?_⟩
  · rw [State.cluster_modCluster_same, Cluster.readDone_active, Cluster.freeSlots_active]
    rfl
  · rw [State.cluster_modCluster_same, Cluster.run_readDone, Cluster.run_freeSlots, Cluster.run_setRun_other _ _ h]
    rfl

/-! ## The tasks of a batch -/

/-- The task is one that a batch completes: it runs as a detour that has begun. -/
def State.detouring (s : State) (c i : Nat) : Prop := ∃ r, s.running c i = some r ∧ r.detour = true ∧ r.begun = true

/-- A task of a batch that does not run as a detour is left alone; one that does drains, and is stopped or completes. -/
theorem detourTask_cases (s : State) (c n size i : Nat) (noise : List Int) :
    (¬ s.detouring c i ∧ s.detourTask c n size i noise = s)
    ∨ ∃ v r t, ClustersKept s v
      ∧ s.detourTask c n size i noise = if r.stopped.isSome then v.stopped c i r t else v.complete c i r t := by
  unfold State.detourTask
  split
  · next hr =>
    refine .inl ⟨?_, rfl⟩
    rintro ⟨r, h, -, -⟩
    rw [hr] at h
    cases h
  · next r hr =>
    split
    · next hn =>
      refine .inl ⟨?_, rfl⟩
      rintro ⟨q, h, hd, hb⟩
      rw [hr] at h
      cases h
      simp [hd, hb] at hn
    · refine .inr ⟨_, r, _, ?_, rfl⟩
      refine ClustersKept.trans (.trans ?_ (.modEngine ..)) (.drainTask ..)
      refine .ite ?_ (.forEach (fun s k => .modSlab ..) _ s)
      split
      · exact (ClustersKept.modSlab ..).trans (.forEach (fun s k => .modSlab ..) _ _)
      · exact .refl s

theorem detourTask_other (s : State) (n size : Nat) (noise : List Int) (h : i ≠ j) : TaskKept c i s (s.detourTask c n size j noise) := by
  obtain ⟨-, he⟩ | ⟨v, r, t, hv, he⟩ := detourTask_cases s c n size j noise
  · rw [he]
    exact ⟨rfl, rfl, rfl⟩
  · rw [he]
    split
    · exact hv.task.trans (.stopped _ _ _ h)
    · exact hv.task.trans (.complete _ _ _ h)

/-- A task that runs as a detour is over with its batch. -/
theorem detourTask_done {s : State} (n size : Nat) (noise : List Int) (h : s.detouring c i ∨ s.phaseOf c i = some .done) :
    (s.detourTask c n size i noise).phaseOf c i = some .done := by
  obtain ⟨hn, he⟩ | ⟨v, r, t, -, he⟩ := detourTask_cases s c n size i noise
  · rw [he]
    exact h.resolve_left hn
  · rw [he]
    split
    · rw [State.phaseOf, run_stopped]
      rfl
    · rw [State.phaseOf, run_complete]
      rfl

/-- The tasks of a batch, each with its place in it, end one after another. -/
def State.detourTasks (s : State) (c size : Nat) (l : List (Nat × Nat × Nat)) (noise : List Int) : State :=
  forEach l s (fun s x => s.detourTask c x.1 size x.2.2 noise)

theorem detourTasks_keep (size : Nat) (noise : List Int) (l : List (Nat × Nat × Nat)) {s : State} (h : s.phaseOf c i = some .done) :
    (s.detourTasks c size l noise).phaseOf c i = some .done := by
  refine List.foldlRecOn l _ (motive := fun t : State => t.phaseOf c i = some .done) h (fun t ht x _ => ?_)
  by_cases e : i = x.2.2
  · subst e
    exact detourTask_done _ _ _ (.inr ht)
  · exact (detourTask_other t x.1 size noise e).phaseOf.trans ht

/-- Each task of a batch that runs as a detour is over at its end. -/
theorem detourTasks_done (size : Nat) (noise : List Int) {l : List (Nat × Nat × Nat)} {s : State} (hd : s.detouring c i)
    (hi : i ∈ l.map (fun x => x.2.2)) : (s.detourTasks c size l noise).phaseOf c i = some .done := by
  induction l generalizing s with
  | nil => cases hi
  | cons x l ih =>
    by_cases e : i = x.2.2
    · subst e
      exact detourTasks_keep size noise l (detourTask_done x.1 size noise (.inl hd))
    · have hkept := detourTask_other (c := c) s x.1 size noise e
      refine ih (s := s.detourTask c x.1 size x.2.2 noise) ?_ ((List.mem_cons.mp hi).resolve_left e)
      unfold State.detouring
      rw [hkept.running]
      exact hd

theorem integrate_clusters (s : State) (e from_ till symbols : Nat) : (s.integrate e from_ till symbols).clusters = s.clusters := by
  rw [State.integrate, State.modEngine_clusters]

theorem indexed_snd {α : Type} (l : List α) : (indexed l).map Prod.snd = l := List.map_snd_zip (by simp)

/-- What a batch that is due comes to: its tasks end, the sets are restored, and the engine goes on (R287, R879). -/
theorem batchComplete_due {s : State} {b0 : Nat × Nat} {r0 : TaskRun} (noise : List Int) (hb : (s.engine c).batch.head? = some b0)
    (hr : (s.cluster c).run b0.2 = some r0)
    (ht : batchNs (s.engine c).batch.length (s.batchBlocks c (s.engine c).batch) ≤ s.ran r0 + s.tailRest 1)
    (hh : ∀ b ∈ (s.engine c).batch, ∀ r, (s.cluster c).run b.2 = some r → s.heldBack c b.2 r = false) :
    ∃ from_ till symbols f, s.batchComplete c noise =
      (((s.detourTasks c (s.engine c).batch.length (indexed (s.engine c).batch) noise).integrate c from_ till symbols).swapSets c f).engineNext c := by
  have hheld : (s.engine c).batch.any (fun x => ((s.cluster c).run x.2).any (s.heldBack c x.2)) = false := by
    refine List.any_eq_false.mpr (fun b hmem => ?_)
    cases hrun : (s.cluster c).run b.2 with
    | none => simp
    | some r => simp [hh b hmem r hrun]
  have hn : ¬ (s.ran r0 + s.tailRest 1 < batchNs (s.engine c).batch.length (s.batchBlocks c (s.engine c).batch)
      ∨ (s.engine c).batch.any (fun x => ((s.cluster c).run x.2).any (s.heldBack c x.2)) = true) := by
    simp only [hheld, Nat.not_lt.mpr ht, Bool.false_eq_true, or_self, not_false_eq_true]
  obtain ⟨l, hl⟩ := List.head?_eq_some_iff.mp hb
  rw [hl] at hn ⊢
  simp only [State.batchComplete, State.detourTasks, hl, hr, if_neg hn]
  exact ⟨_, _, _, _, rfl⟩

theorem batchComplete_done {s : State} {b0 : Nat × Nat} {r0 : TaskRun} (noise : List Int) (hb : (s.engine c).batch.head? = some b0)
    (hr : (s.cluster c).run b0.2 = some r0)
    (ht : batchNs (s.engine c).batch.length (s.batchBlocks c (s.engine c).batch) ≤ s.ran r0 + s.tailRest 1)
    (hh : ∀ b ∈ (s.engine c).batch, ∀ r, (s.cluster c).run b.2 = some r → s.heldBack c b.2 r = false)
    {b : Nat × Nat} (hm : b ∈ (s.engine c).batch) (hd : s.detouring c b.2) : (s.batchComplete c noise).phaseOf c b.2 = some .done := by
  obtain ⟨from_, till, symbols, f, he⟩ := batchComplete_due noise hb hr ht hh
  rw [he, phaseOf_engineNext, phaseOf_congr (swapSets_clusters ..), phaseOf_congr (integrate_clusters ..)]
  refine detourTasks_done _ _ hd (List.mem_map.mpr ?_)
  rw [← indexed_snd (s.engine c).batch] at hm
  obtain ⟨x, hx, rfl⟩ := List.mem_map.mp hm
  exact ⟨x, hx, rfl⟩

end

end Sys2Proof.Machine
end

section
/-! PROOFS. SLAB_MVM tasks, localisations and detours (R121, R198, R214, R216, R217). -/

namespace Sys2Proof.Machine

/-- Settles O40: the end of a SLAB_MVM, the outcome of a localisation and the end of a batch, each by what it leaves of its task or slab. -/
theorem slabTasks : Obligations.SlabTasks := by
  intro s dt c i k noise reads u d hu hd
  have hslab : s.slab = u.slab := by rw [hu]; rfl
  have hcluster : s.cluster = u.cluster := by rw [hu]; rfl
  have hengine : s.engine = u.engine := by rw [hu]; rfl
  have hmem : s.mem = u.mem := by rw [hu]; rfl
  have hhbm : s.hbmOn = u.hbmOn := by rw [hu]; rfl
  rw [hcluster] at hd
  rw [exec_slabMvmComplete, exec_detourStart, exec_detourBatchComplete, ← hu, hslab, hcluster, hengine, hmem, hhbm]
  subst hd
  refine ⟨?drains, ?mismatch, ?localised, ?fetched, ?batch⟩
  case drains =>
    intro r hr hk hd hb he hh hfirst hm
    rw [taskKey_of_running hr]
    obtain ⟨hdone, hdrain⟩ := slabComplete_drains noise ⟨hr, hk, hd, hb, he, hh, hfirst⟩ hm
    obtain ⟨q, hq, hp⟩ := phaseOf_eq_some ((phaseOf_engineNext ..).trans hdone)
    exact ⟨_, q, rfl, hq, hp, (engineNext_mem ..).trans hdrain⟩
  case mismatch =>
    intro r m j hr hk hd hb hj he hh hnone hhead hm
    rw [taskKey_of_running hr]
    have hend : AtSlabEnd u c i r := ⟨hr, hk, hd, hb, he, hh, by
      rw [hj]
      exact List.forall_mem_singleton.mpr ⟨hnone, hhead⟩⟩
    rw [slabComplete_mismatch noise hend hj hm]
    refine ⟨_, rfl, ?_, ?_, engineNext_mem ..⟩
    · rw [State.slab_congr (engineNext_slabs ..), State.slab_modSlab_same]
    · have hrun : ((u.modSlab j (fun y => { y with mismatch := some m })).cluster c).run i = some r := run_of_running hr
      rw [run_engineNext _ _ (begun_notQueued hrun hb)]
      exact hrun
  case localised =>
    intro m hm hl
    rw [exec_seamLocalised s dt k hl, ← hu, seamLocalised_outcome reads hm]
    generalize u.faultyColumns k m.2 reads = faulty
    obtain ⟨hclosed, hkept⟩ := SeamClosed.seamOutcome (u.seamDelay k) k m.1 m.2 faulty
    refine ⟨_, rfl, hclosed, hkept, ?_, ?_, ?_, ?_, fun h => ?_⟩
    · rintro rfl h
      exact seamTransient_counted (s := u.seamDelay k) _ _ _ h
    · rintro rfl h
      rw [seamOutcome_none, seamTransient_third (s := u.seamDelay k) _ _ _ h]
      exact seamMany_detours ..
    · rintro j rfl hj hp hr
      exact seamOutcome_reconstructs (s := u.seamDelay k) hr hj hp
    · rintro j rfl hr
      rw [seamOutcome_second (s := u.seamDelay k) hr]
      exact seamMany_detours ..
    · rw [seamOutcome_many _ _ h]
      exact seamMany_detours ..
  case fetched =>
    intro hd hr hm hh
    obtain ⟨hready, hkept⟩ := detourStart_ready hd hr hm hh
    exact ⟨_, rfl, hready, hkept⟩
  case batch =>
    intro b0 r0 hb hr ht hh
    refine ⟨_, rfl, fun b hmem r hrun hdet hbeg => phaseOf_eq_some ?_⟩
    rw [(EngineKept.waitedCal ..).phaseOf]
    exact batchComplete_done noise hb hr ht hh hmem ⟨r, hrun, hdet, hbeg⟩

end Sys2Proof.Machine
end

section
/-! PROOFS. When SLAB_PIN pins, and when it is rejected (R218, R219). -/

namespace Sys2Proof.Machine

/-- Another slab of the core of slab `k` is pinned (R218). -/
def State.otherPinned (s : State) (k : Nat) : Bool :=
  (List.range 4).any (fun i => decide (k / 4 * 4 + i ≠ k) && (s.slab (k / 4 * 4 + i)).pinned)

theorem State.otherPinned_eq_true_iff (s : State) (k : Nat) :
    s.otherPinned k = true ↔ ∃ i, i < 4 ∧ k / 4 * 4 + i ≠ k ∧ (s.slab (k / 4 * 4 + i)).pinned = true := by
  simp [State.otherPinned]

theorem State.otherPinned_eq_false_iff (s : State) (k : Nat) :
    s.otherPinned k = false ↔ ∀ i, i < 4 → k / 4 * 4 + i ≠ k → (s.slab (k / 4 * 4 + i)).pinned = false := by
  simp [State.otherPinned]

section
variable {s : State} {k : BitVec 14} (h : CmdHdr)

theorem cmdSlabPin_otherPinned (ho : s.otherPinned k.toNat = true) : cmdSlabPin h k s = Answer.errD s stNoSpace 0 := if_pos ho

theorem cmdSlabPin_notReady (ho : s.otherPinned k.toNat = false)
    (hn : (s.slab k.toNat).dress ≠ .ready ∨ (s.slab k.toNat).bound = false) : cmdSlabPin h k s = Answer.errD s stNotReady 0 :=
  (if_neg (Bool.eq_false_iff.mp ho)).trans (if_pos (hn.imp_right (Bool.not_eq_true' _).mpr))

theorem cmdSlabPin_pins (ho : s.otherPinned k.toNat = false) (hd : (s.slab k.toNat).dress = .ready)
    (hb : (s.slab k.toNat).bound = true) :
    cmdSlabPin h k s = Answer.ok (s.modSlab k.toNat (fun x => { x with pinned := true })) :=
  (if_neg (Bool.eq_false_iff.mp ho)).trans (if_neg (by simp [hd, hb]))

end

theorem failed_books (f : State) (h : CmdHdr) (c : HostCmd) (status detail : Nat) :
    Books (ringNo h.ring) f (f.failed h c status detail) := by
  have hb := deliver_books f h c (Answer.errD f status detail)
  rwa [Answer.after, show (Answer.errD f status detail).s = f from rfl, ite_self] at hb

/-- Settles O10, by the two checks that SLAB_PIN makes, the core's other slabs first. -/
theorem slabPinIsChecked : Obligations.SlabPinIsChecked := by
  intro s dt h k f hf hr
  refine ⟨fun ho _ _ => ?noSpace, fun ho hn => ?notReady, fun ho hd hb => ?pinned, failed_books .., failed_books ..⟩
  case noSpace => exact congrArg _ (submit_failed hf hr (cmdSlabPin_otherPinned h ((f.otherPinned_eq_true_iff _).mpr ho)))
  case notReady => exact congrArg _ (submit_failed hf hr (cmdSlabPin_notReady h ((f.otherPinned_eq_false_iff _).mpr ho) hn))
  case pinned => exact congrArg _ (submit_ok hf hr (cmdSlabPin_pins h ((f.otherPinned_eq_false_iff _).mpr ho) hd hb))

end Sys2Proof.Machine
end

section
/-! PROOFS. AGE_TRIM after 64 normalised pairs, and the re-dressing queued where it meets its limits (R189, R203, R204). -/

namespace Sys2Proof.Machine

theorem exec_ageTrimUpdate (s : State) (dt : Nat) (k : SlabId) : exec (.ageTrimUpdate dt k) s = .next ((s.elapse dt).ageTrim k) := rfl

section
variable {s : State} {k : Nat}

/-- A slab has a dressing queued, of at least the urgency asked for: a queued one keeps a class before it (R189). -/
theorem queued_queueDress (cls : Nat) (p : Option DressParams) : ∃ q, ((s.queueDress k cls p).slab k).queued = some q ∧ q.cls ≤ cls := by
  rw [State.queueDress, State.slab_modSlab_same]
  dsimp only
  cases (s.slab k).queued with
  | none => exact ⟨_, rfl, le_rfl⟩
  | some q =>
    refine ⟨_, rfl, ?_⟩
    dsimp only
    split
    · exact le_rfl
    · next h => exact not_lt.mp h

theorem slab_queueDress (cls : Nat) (p : Option DressParams) :
    (s.queueDress k cls p).slab k = { s.slab k with queued := ((s.queueDress k cls p).slab k).queued } := by
  rw [State.queueDress, State.slab_modSlab_same]

theorem trimOf_of_pos {x : Slab} {sum : Nat} (free : Nat) (hp : x.driftPairs = 64) (hs : x.driftSum = sum) (h : 0 < sum) :
    x.trimOf free = divRound (0x4000 * x.driftBase * 64 * 1048576) sum := by
  have h0 : ¬ (sum : Int) = 0 := by omega
  have hn : ¬ (sum : Int) < 0 := by omega
  rw [Slab.trimOf, hs, hp, if_neg h0, if_neg hn, mul_one, Int.natAbs_natCast, Nat.cast_ofNat]

/-- The slab once its AGE_TRIM is written: the pairs begin anew (R203, R204). -/
def Slab.aged (x : Slab) (trim : Int) : Slab := { x with ageTrim := (clampI trimLow trimHigh trim).toNat, driftPairs := 0, driftSum := 0 }

theorem ageTrim_within {trim : Int} (hp : (s.slab k).driftPairs = 64) (ht : (s.slab k).trimOf s.freeNat = trim)
    (h : trimLow ≤ trim ∧ trim ≤ trimHigh) : s.ageTrim k = s.takeFree.setSlab k ((s.slab k).aged trim) := by
  subst ht
  exact (if_neg (by omega)).trans (if_pos h)

/-- DRIFT_LIMIT: its flag, its event and its re-dressing (R204). -/
def State.driftLimit (s : State) (k : Nat) (trim : Int) : State :=
  ((s.modSlab k (fun y => { y with status := y.status.hit 10 })).upkeep k upDriftLimit 0xFF 0x1FF (detSigned trim) false).queueDress k 1 none

theorem ageTrim_beyond {trim : Int} (hp : (s.slab k).driftPairs = 64) (ht : (s.slab k).trimOf s.freeNat = trim)
    (h : ¬ (trimLow ≤ trim ∧ trim ≤ trimHigh)) :
    s.ageTrim k = (s.takeFree.setSlab k ((s.slab k).aged trim)).driftLimit k trim := by
  subst ht
  exact (if_neg (by omega)).trans (if_neg h)

theorem driftLimit_mem (trim : Int) : (s.driftLimit k trim).mem = s.mem := upkeep_mem ..

theorem slab_driftLimit (trim : Int) : (s.driftLimit k trim).slab k =
    { s.slab k with status := (s.slab k).status.hit 10, queued := ((s.driftLimit k trim).slab k).queued } := by
  conv_lhs => rw [State.driftLimit, slab_queueDress, slab_upkeep, State.slab_modSlab_same]
  rfl

theorem queued_driftLimit (trim : Int) : ∃ q, ((s.driftLimit k trim).slab k).queued = some q ∧ q.cls ≤ 1 := queued_queueDress ..

theorem aged_within (x : Slab) {trim : Int} (hlow : trimLow ≤ trim) (hhigh : trim ≤ trimHigh) : (x.aged trim).ageTrim = trim.toNat :=
  congrArg Int.toNat ((if_neg (not_lt.mpr hlow)).trans (if_neg (not_lt.mpr hhigh)))

theorem aged_below (x : Slab) {trim : Int} (h : trim < trimLow) : (x.aged trim).ageTrim = 0x3800 := congrArg Int.toNat (if_pos h)

theorem aged_above (x : Slab) {trim : Int} (h : trimHigh < trim) : (x.aged trim).ageTrim = 0x5000 :=
  congrArg Int.toNat ((if_neg (not_lt.mpr (le_trans (by decide) h.le))).trans (if_pos h))

end

/-- Settles O46: AGE_TRIM is the rounded quotient within its limits; beyond them DRIFT_LIMIT comes with the limit. -/
theorem ageTrimFollowsDrift : Obligations.AgeTrimFollowsDrift := by
  intro s dt k sum trim hp hs hpos ht
  have htrim : ((s.elapse dt).slab k).trimOf (s.elapse dt).freeNat = trim := (trimOf_of_pos _ hp hs hpos).trans ht.symm
  rw [exec_ageTrimUpdate]
  refine ⟨_, rfl, ?_⟩
  by_cases hin : trimLow ≤ trim ∧ trim ≤ trimHigh
  case pos =>
    rw [ageTrim_within (s := s.elapse dt) hp htrim hin, State.slab_setSlab_same]
    obtain ⟨hlow, hhigh⟩ := hin
    exact ⟨rfl, rfl, rfl, fun _ _ => ⟨aged_within _ hlow hhigh, rfl⟩, fun h => absurd hlow (not_le.mpr h),
      fun h => absurd hhigh (not_le.mpr h), fun h => absurd h (not_or.mpr ⟨not_lt.mpr hlow, not_lt.mpr hhigh⟩)⟩
  case neg =>
    rw [ageTrim_beyond (s := s.elapse dt) hp htrim hin, driftLimit_mem]
    rw [slab_driftLimit, State.slab_setSlab_same]
    exact ⟨rfl, rfl, rfl, fun hlow hhigh => absurd ⟨hlow, hhigh⟩ hin, aged_below (s.slab k), aged_above (s.slab k),
      fun _ => ⟨W1c.has_hit_same _ (by omega), queued_driftLimit ..⟩⟩

end Sys2Proof.Machine
end

section
/-! PROOFS. A dressing starts, and the slab returns from it (R103, R181, R182, R184, R191, R195). -/

namespace Sys2Proof.Machine

section
variable (s : State) (dt : Nat) (k : SlabId)

theorem exec_ageRedress : exec (.ageRedress dt k) s = .next ((s.elapse dt).ageRedress k) := rfl
theorem exec_dressStart : exec (.dressStart dt k) s = .next ((s.elapse dt).dressStart k) := rfl
theorem exec_dressDone (o : DressOutcome) : exec (.dressDone dt k o) s = .next ((s.elapse dt).dressDone k o) := rfl
theorem exec_detourEnd : exec (.detourEnd dt k) s = .next ((s.elapse dt).detourEnd k) := rfl

end

theorem upkeep_eventsOnly (s : State) (k kind group column detail : Nat) (inj : Bool) :
    EventsOnly s (s.upkeep k kind group column detail inj) := raise_eventsOnly ..

section
variable {s : State} {k : Nat}

/-! ## Age re-dressing (R191) -/

theorem ageRedress_due {n : Nat} (hn : (s.slab k).redressAt = some n) (hf : s.mbx.fw = .running) (hd : (s.slab k).dress ≠ .blank)
    (hv : (s.slab k).ageValid s.time = true) (ha : n ≤ (s.slab k).age s.time) : s.ageRedress k = s.queueDress k 3 none := by
  simp only [State.ageRedress, hn, if_pos (And.intro hf (And.intro hd (And.intro hv ha)))]

/-! ## The start (R103, R181, R188) -/

/-- A dressing may start now, and is the first in the queue that may; its copy is at `m`. -/
structure State.Starts (s : State) (k : Nat) (q : QueuedDress) (m : Nat × Nat) : Prop where
  atStart : s.atStart = true
  open_ : s.dressingOpen = true
  first : s.dressQueue.find? s.mayDress = some k
  queued : (s.slab k).queued = some q
  source : s.dressSource k = some m

section
variable {q : QueuedDress} {m : Nat × Nat}

theorem State.Starts.unguarded (h : s.Starts k q m) :
    ¬ ((!s.atStart || !s.dressingOpen || (s.dressQueue.find? s.mayDress) != some k) = true) := by
  simp [h.atStart, h.open_, h.first]

theorem State.Starts.begins (h : s.Starts k q m) (hm : mapFault (s.copyMap m.1 m.2) = none) :
    s.dressStart k = s.beginDress k q m.1 m.2 := by
  simp only [State.dressStart, if_neg h.unguarded, h.queued, h.source, hm]

theorem State.Starts.mapInvalid (h : s.Starts k q m) {col : Nat} (hm : mapFault (s.copyMap m.1 m.2) = some col) : s.dressStart k =
    (s.modSlab k (fun x => { x with queued := none })).upkeep k upMapInvalid 0xFF 0x1FF col (s.slabInjected k) := by
  simp only [State.dressStart, if_neg h.unguarded, h.queued, h.source, hm]

end

theorem toDetour_mem (c i : Nat) : (s.toDetour c i).mem = s.mem := (DoneKept.toDetour (c := c) (i := i) s i).mem

theorem toDetour_slabs (c i : Nat) : (s.toDetour c i).slabs = s.slabs := by
  unfold State.toDetour
  dsimp only
  split
  · split
    · rfl
    · split
      · exact raise_slabs ..
      · rfl
  · rfl

/-- The dressing of a copy from its start on (R174 to R178, R181, R184). -/
def State.startedDress (s : State) (k : Nat) (q : QueuedDress) (page ofs : Nat) : RunningDress :=
  { params := q.params.getD (s.slab k).paramsNow, startedAt := s.now, doneAt := none, page := page, ofs := ofs, map := s.copyMap page ofs
    digest := s.copyDigest page ofs, retired := none, spares := []
    codes := (indexed (s.copyCells page ofs)).foldl (fun t e => if e.2.toNat % 4 = 0 then t else t ++ [(e.1, e.2.toNat % 4)]) []
    goal := (s.slab k).dressed (s.copyMap page ofs) (s.copyCells page ofs), free := s.free }

/-- The slab under that dressing: its cells are reset, and what stood about its seams ends (R184). -/
def State.slabStarted (s : State) (k : Nat) (q : QueuedDress) (page ofs : Nat) : Slab :=
  { s.slab k with
    dress := .dressing, queued := none, cells := [], unmet := [], recon := [], seamOff := [], mismatch := none
    handled := [], kept := [], spare := none, running := some (s.startedDress k q page ofs) }

/-- The state once the slab's cells are reset: the faults injected on the slab end (R867). -/
def State.cellsReset (s : State) (k : Nat) (q : QueuedDress) (page ofs : Nat) : State :=
  { s.setSlab k (s.slabStarted k q page ofs) with
    free := s.free + 258 * 272, faults := s.faults.filter (fun f => !(decide (f.kind = 3) && decide (f.target / 272 = k))) }

section
variable (q : QueuedDress) (page ofs : Nat)

theorem slab_cellsReset : (s.cellsReset k q page ofs).slab k = s.slabStarted k q page ofs := by
  show (s.setSlab k (s.slabStarted k q page ofs)).slab k = _
  exact State.slab_setSlab_same ..

theorem beginDress_eq : s.beginDress k q page ofs = (forEach (s.onCells k)
      (if (s.slab k).inService then (s.cellsReset k q page ofs).upkeep k upDetourStart 0xFF 0x1FF 0 (s.slabInjected k)
        else s.cellsReset k q page ofs)
      (fun s i => s.toDetour (slabCluster k) i)).engineNext (slabCluster k) := rfl

theorem slab_beginDress : (s.beginDress k q page ofs).slab k = s.slabStarted k q page ofs := by
  rw [beginDress_eq, State.slab_congr (engineNext_slabs ..),
    State.slab_congr (forEach_keeps State.slabs _ (fun s i => toDetour_slabs ..) _ _)]
  split
  · rw [slab_upkeep, slab_cellsReset]
  · exact slab_cellsReset ..

theorem beginDress_mem : (s.beginDress k q page ofs).mem = s.mem := by
  rw [beginDress_eq, engineNext_mem, forEach_keeps State.mem _ (fun s i => toDetour_mem ..)]
  split
  · exact upkeep_mem ..
  · rfl

end

/-! ## The return to service (R182) -/

theorem detourEnd_due {r : RunningDress} {n : Nat} (hd : (s.slab k).dress = .dressing) (hr : (s.slab k).running = some r)
    (hn : r.doneAt = some n) (ha : s.atStart = true) (ht : n + Config.leadNs ≤ s.startClock) :
    s.detourEnd k = (s.modSlab k (fun x => { x with dress := .ready, running := none, detourReady := false })).upkeep
      k upDetourEnd 0xFF 0x1FF 0 false := by
  have hb : ((s.slab k).running.bind (fun r => r.doneAt)) = some n := by rw [hr]; exact hn
  have hc : ¬ ((!s.atStart || decide (s.startClock < n + Config.leadNs)) = true) := by simp [ha, ht]
  simp only [State.detourEnd, hd, hb, if_neg hc, State.modSlab]

end

end Sys2Proof.Machine
end

section
/-! PROOFS. What the first finish of a dressing records and retires, and the end of the dressing (R177, R178, R180, R181, R183, R195). -/

namespace Sys2Proof.Machine

/-! ## The slab but for its cells -/

/-- `y` stands in service as `x` does, with as many dressings behind it. -/
structure ServiceKept (x y : Slab) : Prop where
  dress : y.dress = x.dress
  bound : y.bound = x.bound
  dressCount : y.dressCount = x.dressCount

theorem ServiceKept.refl (x : Slab) : ServiceKept x x := ⟨rfl, rfl, rfl⟩

theorem ServiceKept.trans {x y z : Slab} (h : ServiceKept x y) (g : ServiceKept y z) : ServiceKept x z :=
  ⟨g.dress.trans h.dress, g.bound.trans h.bound, g.dressCount.trans h.dressCount⟩

theorem ServiceKept.retireColumn (x : Slab) (j : Nat) : ServiceKept x (x.retireColumn j) := by
  unfold Slab.retireColumn
  split
  · exact .refl x
  · exact ⟨rfl, rfl, rfl⟩

theorem ServiceKept.retireColumns (l : List Nat) (x : Slab) : ServiceKept x (l.foldl Slab.retireColumn x) := by
  induction l generalizing x with
  | nil => exact .refl x
  | cons j l ih => exact (ServiceKept.retireColumn x j).trans (ih _)

/-! ## The record (R180) -/

/-- The slab bears the tile that a dressing wrote, at its first AGE_TRIM. -/
structure Bears (r : RunningDress) (x : Slab) : Prop where
  tileId : x.tileId = r.params.tileId
  map : x.map = r.map
  ageTrim : x.ageTrim = 0x4000

section
variable (s : State) (k : Nat) (r : RunningDress) (b : List (Nat × Int))

theorem finishRecord_kept : ServiceKept (s.slab k) ((s.finishRecord k r b).slab k) := by
  rw [State.finishRecord, State.slab_setSlab_same]
  exact ⟨rfl, rfl, rfl⟩

theorem finishRecord_running : ((s.finishRecord k r b).slab k).running = (s.slab k).running := by
  rw [State.finishRecord, State.slab_setSlab_same]

theorem finishRecord_bears : Bears r ((s.finishRecord k r b).slab k) := by
  rw [State.finishRecord, State.slab_setSlab_same]
  exact ⟨rfl, rfl, rfl⟩

end

/-! ## The first finish (R177, R178, R180) -/

/-- The columns with a cell that does not verify at the first finish of a dressing. -/
def Slab.badColumns (x : Slab) (r : RunningDress) (o : DressOutcome) : List Nat :=
  ((({ x with cells := r.goal } : Slab).unverified r (o.reads.filter (fun e => decide (e.2.1 < 264)))).map (fun e => e.2)).dedup

/-- The slab at the first finish: its columns that do not verify are retired, or left with their cells where too few spares are free. -/
def Slab.firstRetired (x : Slab) (r : RunningDress) (o : DressOutcome) : Slab :=
  let y : Slab := { x with cells := r.goal }
  if (x.freeSpares.length < (x.badColumns r o).length : Bool) then
    y.spoilCells r (y.unverified r (o.reads.filter (fun e => decide (e.2.1 < 264))))
  else (x.badColumns r o).foldl Slab.retireColumn y

/-- The dressing once its first finish is over. -/
def Slab.firstDone (x : Slab) (r : RunningDress) (o : DressOutcome) : RunningDress :=
  { r with
    retired := some (x.badColumns r o), goal := (x.firstRetired r o).cells
    spares := if (x.freeSpares.length < (x.badColumns r o).length : Bool) then [] else (x.freeSpares.take (x.badColumns r o).length).map (264 + ·) }

section
variable {x : Slab} {r : RunningDress} {o : DressOutcome}

theorem firstRetired_kept : ServiceKept x (x.firstRetired r o) := by
  unfold Slab.firstRetired
  dsimp only
  split
  · exact ⟨rfl, rfl, rfl⟩
  · refine .trans ?_ (.retireColumns ..)
    exact ⟨rfl, rfl, rfl⟩

theorem firstDone_noSpares (h : x.freeSpares.length < (x.badColumns r o).length) : (x.firstDone r o).spares = [] :=
  if_pos (decide_eq_true h)

/-- Each retired column has its spare where enough are free. -/
theorem firstDone_spares (h : (x.badColumns r o).length ≤ x.freeSpares.length) :
    (x.firstDone r o).spares.length = (x.badColumns r o).length := by
  rw [Slab.firstDone, if_neg (by simpa using h), List.length_map, List.length_take, min_eq_left h]

end

section
variable (s : State) (k : Nat) (r : RunningDress) (o : DressOutcome)

theorem firstFinish_eq : s.firstFinish k r o = (s.setSlab k { (s.slab k).firstRetired r o with
    running := some ((s.slab k).firstDone r o) }).finishRecord k ((s.slab k).firstDone r o) o.b := rfl

theorem firstFinish_kept : ServiceKept (s.slab k) ((s.firstFinish k r o).slab k) := by
  rw [firstFinish_eq]
  refine .trans ?_ (finishRecord_kept ..)
  rw [State.slab_setSlab_same]
  exact firstRetired_kept.trans ⟨rfl, rfl, rfl⟩

theorem firstFinish_running : ((s.firstFinish k r o).slab k).running = some ((s.slab k).firstDone r o) := by
  rw [firstFinish_eq, finishRecord_running, State.slab_setSlab_same]

theorem firstFinish_bears : Bears ((s.slab k).firstDone r o) ((s.firstFinish k r o).slab k) := by
  rw [firstFinish_eq]
  exact finishRecord_bears ..

/-- The finish leaves the mapping of the copy read as it is. -/
theorem stillMapped_finishRecord (q : RunningDress) (b : List (Nat × Int)) : (s.finishRecord k q b).stillMapped k r = s.stillMapped k r := rfl

theorem stillMapped_firstFinish : (s.firstFinish k r o).stillMapped k ((s.slab k).firstDone r o) = s.stillMapped k r := by
  rw [firstFinish_eq, stillMapped_finishRecord]
  rfl

theorem firstFinish_now : (s.firstFinish k r o).now = s.now := rfl

end

/-! ## The end (R183, R195) -/

theorem sealLines_slabs (s : State) (a b key : Nat) : (s.sealLines a b key).slabs = s.slabs := by
  unfold State.sealLines
  split <;> rfl

theorem hubWrite_slabs (s : State) (k n : Nat) {f : State → State} (hf : ∀ s, (f s).slabs = s.slabs) : (s.hubWrite k n f).slabs = s.slabs := by
  unfold State.hubWrite
  dsimp only
  split
  · rfl
  · split
    · exact hf s
    · rw [sealLines_slabs, hf]
      split <;> split <;> rfl

theorem hbmWrite_slabs (s : State) (k : Nat) (bs : List Byte) : (s.hbmWrite k bs).slabs = s.slabs := by
  unfold State.hbmWrite
  split
  · rfl
  · exact hubWrite_slabs _ _ _ (fun _ => rfl)

theorem writeImage_slabs (s : State) (k : Nat) (r : RunningDress) : (s.writeImage k r).slabs = s.slabs := by
  unfold State.writeImage
  split
  · exact hbmWrite_slabs ..
  · rfl

section
variable {s : State} {k : Nat} {r : RunningDress} {bad : List Nat} (o : DressOutcome)

theorem endDress_failed (h : r.spares.length < bad.length) :
    ((s.endDress k r bad o).slab k).dress = .failed ∧ ((s.endDress k r bad o).slab k).status.has 11 = true := by
  rw [State.endDress, if_pos h]
  dsimp only
  rw [slab_upkeep, State.slab_congr (writeImage_slabs ..), State.slab_modSlab_same]
  exact ⟨rfl, W1c.has_hit_same _ (by omega)⟩

/-- The second finish, where a second pass ran: its spares' cells, and the record anew (R180, R181). -/
def State.secondFinish (s : State) (k : Nat) (r : RunningDress) (bad : List Nat) (o : DressOutcome) : State :=
  let y : Slab := { s.slab k with cells := r.goal }
  if bad.isEmpty then s else
    (s.setSlab k (y.spoilCells r (y.unverified r (o.reads.filter (fun e => r.spares.contains e.2.1))))).finishRecord k r o.b

theorem secondFinish_kept : ServiceKept (s.slab k) ((s.secondFinish k r bad o).slab k) := by
  unfold State.secondFinish
  dsimp only
  split
  · exact .refl _
  · refine .trans ?_ (finishRecord_kept ..)
    rw [State.slab_setSlab_same]
    exact ⟨rfl, rfl, rfl⟩

theorem secondFinish_bears (h : Bears r (s.slab k)) : Bears r ((s.secondFinish k r bad o).slab k) := by
  unfold State.secondFinish
  dsimp only
  split
  · exact h
  · exact finishRecord_bears ..

theorem copyOf_stillMapped (h : s.stillMapped k r = true) : s.copyOf k r = some (r.page, r.ofs) := if_pos h

theorem endDress_bound (h : r.spares.length = bad.length) (hm : s.stillMapped k r = true) :
    (s.endDress k r bad o).slab k = { (s.secondFinish k r bad o).slab k with
      dressCount := (((s.secondFinish k r bad o).slab k).dressCount + 1) % 256, running := some { r with doneAt := some s.now }
      master := some (r.page, r.ofs), bound := true } := by
  rw [State.endDress, if_neg (by omega)]
  dsimp only
  rw [slab_upkeep, State.slab_congr (writeImage_slabs ..), copyOf_stillMapped hm, State.slab_modSlab_same]
  rfl

end

/-! ## DRESS_DONE (R180, R181) -/

section
variable {s : State} {k : Nat} {r : RunningDress} (o : DressOutcome)

/-- The first finish, with which a dressing that retires no column ends; one that does ends 3,900 us later. -/
theorem dressDone_first (hr : (s.slab k).running = some r) (hd : r.doneAt = none) (ht : r.retired = none) (hn : r.startedAt + 4000000 ≤ s.now) :
    s.dressDone k o = if ((s.slab k).badColumns r o).isEmpty ∨ r.startedAt + 7900000 ≤ s.now then
        (s.firstFinish k r o).endDress k ((s.slab k).firstDone r o) ((s.slab k).badColumns r o) o
      else s.firstFinish k r o := by
  have hopen : ¬ (r.doneAt.isSome ∨ s.now < r.startedAt + 4000000) := by
    rw [hd]
    simpa using hn
  simp only [State.dressDone, hr, if_neg hopen, ht, Option.isSome_none, Bool.false_eq_true, if_false, firstFinish_running, firstFinish_now]
  rfl

end

end Sys2Proof.Machine
end

section
/-! PROOFS. Banks come to rest (R479, R480). -/

namespace Sys2Proof.Machine

theorem exec_bankPowerDone (s : State) (dt : Nat) (c : ClusterId) (m : Byte) :
    exec (.bankPowerDone dt c m) s = .next ((s.elapse dt).bankDone c m.toNat) := rfl

theorem tabFind_filter_kept {α : Type} (t : Tab α) {p : Nat → Bool} {a : Nat} (h : p a = true) :
    tabFind (t.filter (fun x => p x.1)) a = tabFind t a := by
  induction t with
  | nil => rfl
  | cons x t ih =>
    obtain ⟨i, v⟩ := x
    by_cases hi : i = a
    · subst hi
      rw [List.filter_cons_of_pos (by exact h), tabFind, tabFind]
      simp
    · rw [List.filter_cons]
      split
      · rw [tabFind, if_neg hi, ih, tabFind, if_neg hi]
      · rw [ih, tabFind, if_neg hi]

/-- A byte that is not zeroised reads as before. -/
theorem State.byte_wipe_kept (s : State) {p : Nat → Bool} {a : Nat} (h : p a = false) : (s.wipe p).byte a = s.byte a := by
  have hf := tabFind_filter_kept s.mem (p := fun b => !p b) (a := a) (by rw [h]; rfl)
  rw [State.byte, State.wipe, memRead, tabGet, hf]
  rfl

section
variable (s : State) (c mem : Nat)

/-- Banks of a memory that leave OFF as their transition completes. -/
def State.zeroised (s : State) (c mem : Nat) : List Nat :=
  ((memBanks c mem).filter (fun k => (s.bank k).moving)).filter (fun k => (s.bank k).fromOff)

theorem mem_zeroised {b : Nat} : b ∈ s.zeroised c mem ↔ b ∈ memBanks c mem ∧ (s.bank b).moving = true ∧ (s.bank b).fromOff = true := by
  simp [State.zeroised, and_comm]

/-- Cluster memory and scratch words in banks that leave OFF. -/
def State.losesByte (s : State) (c mem a : Nat) : Bool :=
  decide (a < hbmKey 0 0) && (s.zeroised c mem).contains (nth 0 (lineBanks (lineOf a)) (a % 64 / 8))

theorem lineBanks_length (l : Nat) : (lineBanks l).length = 8 := by
  unfold lineBanks
  dsimp only
  split <;> simp

theorem losesByte_eq_false {a : Nat} (h : hbmKey 0 0 ≤ a ∨ ∀ b ∈ memBanks c mem, (s.bank b).fromOff = false ∨ b ∉ lineBanks (lineOf a)) :
    s.losesByte c mem a = false := by
  by_contra hl
  rw [Bool.not_eq_false, State.losesByte, Bool.and_eq_true, decide_eq_true_eq, List.contains_iff_mem, mem_zeroised] at hl
  obtain ⟨hlow, hmem, -, hoff⟩ := hl
  have hline : nth 0 (lineBanks (lineOf a)) (a % 64 / 8) ∈ lineBanks (lineOf a) := by
    have hlt : a % 64 / 8 < (lineBanks (lineOf a)).length := by
      rw [lineBanks_length]
      omega
    rw [nth, List.getD_eq_getElem _ _ hlt]
    exact List.getElem_mem hlt
  rcases h with h | h
  · omega
  · rcases h _ hmem with hf | hf
    · rw [hoff] at hf
      exact absurd hf (by decide)
    · exact hf hline

/-- The state once the banks that leave OFF are zeroised, with their tags and what the top of cluster memory holds (R463, R480). -/
def State.banksZeroised (s : State) (c mem : Nat) : State :=
  let zero := s.zeroised c mem
  let s := ({ s with tags := s.tags.filter (fun t => !(lineBanks t.1).all (fun k => zero.contains k)) } : State).wipe (s.losesByte c mem)
  if zero.any (fun k => decide (k % 544 < 32)) then s.rereadTop c else s

theorem banksZeroised_mem : (s.banksZeroised c mem).mem = (s.wipe (s.losesByte c mem)).mem := by
  unfold State.banksZeroised
  dsimp only
  split <;> rfl

theorem banksZeroised_banks : (s.banksZeroised c mem).banks = s.banks := by
  unfold State.banksZeroised
  dsimp only
  split <;> rfl

theorem bankDone_eq : s.bankDone c mem = forEach ((memBanks c mem).filter (fun k => (s.bank k).moving)) (s.banksZeroised c mem)
    (fun s k => s.modBank k (fun b => { b with moving := false, fromOff := false })) := rfl

theorem bankDone_mem : (s.bankDone c mem).mem = (s.wipe (s.losesByte c mem)).mem := by
  rw [bankDone_eq, forEach_keeps State.mem _ (fun s k => State.modBank_mem ..), banksZeroised_mem]

/-- Banks that come to rest keep their power state; all others are as they were. -/
theorem bank_rested (l : List Nat) (s : State) (b : Nat) :
    (forEach l s (fun s k => s.modBank k (fun x => { x with moving := false, fromOff := false }))).bank b =
      if b ∈ l then { s.bank b with moving := false, fromOff := false } else s.bank b := by
  induction l generalizing s with
  | nil => rfl
  | cons k l ih =>
    refine (ih _).trans ?_
    by_cases hb : b = k
    · subst hb
      simp
    · rw [State.bank_modBank_other _ _ hb]
      simp [hb]

theorem byte_bankDone {a : Nat} (h : hbmKey 0 0 ≤ a ∨ ∀ b ∈ memBanks c mem, (s.bank b).fromOff = false ∨ b ∉ lineBanks (lineOf a)) :
    (s.bankDone c mem).byte a = s.byte a := by
  rw [State.byte, bankDone_mem]
  exact s.byte_wipe_kept (losesByte_eq_false s c mem h)

theorem bank_bankDone {b : Nat} (h : b ∈ memBanks c mem) :
    ((s.bankDone c mem).bank b).moving = false ∧ ((s.bankDone c mem).bank b).power = (s.bank b).power := by
  rw [bankDone_eq, bank_rested, show (s.banksZeroised c mem).bank b = s.bank b by rw [State.bank, banksZeroised_banks, State.bank]]
  split
  · exact ⟨rfl, rfl⟩
  · next hl => exact ⟨by simpa [h] using hl, rfl⟩

end

end Sys2Proof.Machine
end

section
/-! PROOFS. Slab upkeep: re-dressing, dressing and its outcome, and banks that come to rest (R180 to R193, R479). -/

namespace Sys2Proof.Machine

section
variable {s : State} {k : Nat} {r : RunningDress} {o : DressOutcome}

/-- A dressing with too few spares for its columns ends FAILED (R183). -/
theorem dressDone_failed (hr : (s.slab k).running = some r) (hd : r.doneAt = none) (ht : r.retired = none)
    (hf : (s.slab k).freeSpares.length < ((s.slab k).badColumns r o).length) (hn : r.startedAt + 7900000 ≤ s.now) :
    ((s.dressDone k o).slab k).dress = .failed ∧ ((s.dressDone k o).slab k).status.has 11 = true := by
  rw [dressDone_first o hr hd ht (by omega), if_pos (.inr hn)]
  refine endDress_failed o ?_
  rw [firstDone_noSpares hf]
  exact Nat.zero_lt_of_lt hf

/-- A dressing that has retired columns goes on with its second pass (R180, R181). -/
theorem dressDone_goesOn (hr : (s.slab k).running = some r) (hd : r.doneAt = none) (ht : r.retired = none)
    (hb : (s.slab k).badColumns r o ≠ []) (hn : r.startedAt + 4000000 ≤ s.now) (hl : s.now < r.startedAt + 7900000) :
    s.dressDone k o = s.firstFinish k r o := by
  rw [dressDone_first o hr hd ht hn, if_neg]
  rintro (h | h)
  · exact hb (List.isEmpty_iff.mp h)
  · omega

/-- A dressing with a spare for each of its columns ends with the second finish, or with the first where it has none. -/
theorem dressDone_bound (hr : (s.slab k).running = some r) (hd : r.doneAt = none) (ht : r.retired = none)
    (hb : ((s.slab k).badColumns r o).length ≤ (s.slab k).freeSpares.length)
    (hn : r.startedAt + 7900000 ≤ s.now ∨ (s.slab k).badColumns r o = [] ∧ r.startedAt + 4000000 ≤ s.now)
    (hm : s.stillMapped k r = true) :
    ∃ x, ServiceKept (s.slab k) x ∧ Bears ((s.slab k).firstDone r o) x ∧ (s.dressDone k o).slab k = { x with
      dressCount := (x.dressCount + 1) % 256, running := some { (s.slab k).firstDone r o with doneAt := some s.now }
      master := some (r.page, r.ofs), bound := true } := by
  have hend : ((s.slab k).badColumns r o).isEmpty ∨ r.startedAt + 7900000 ≤ s.now := by
    rcases hn with hn | ⟨hn, -⟩
    · exact .inr hn
    · exact .inl (List.isEmpty_iff.mpr hn)
  rw [dressDone_first o hr hd ht (by omega), if_pos hend, endDress_bound o (firstDone_spares hb) ((stillMapped_firstFinish ..).trans hm)]
  exact ⟨_, (firstFinish_kept ..).trans (secondFinish_kept o), secondFinish_bears o (firstFinish_bears ..), rfl⟩

end

/-- Settles O47, clause by clause: each step of a slab's upkeep by what it leaves of the slab, and of the memory and the banks. -/
theorem slabUpkeep : Obligations.SlabUpkeep := by
  intro s dt k u hu
  have hslab : s.slab = u.slab := by rw [hu]; rfl
  have hbank : s.bank = u.bank := by rw [hu]; rfl
  have hbyte : s.byte = u.byte := by rw [hu]; rfl
  have hmbx : s.mbx = u.mbx := by rw [hu]; rfl
  have hmem : s.mem = u.mem := by rw [hu]; rfl
  simp only [exec_ageRedress, exec_dressStart, exec_dressDone, exec_detourEnd, exec_bankPowerDone, ← hu, hslab, hbank, hbyte, hmbx, hmem]
  refine ⟨fun n hn hf hd hv ha => congrArg _ (ageRedress_due hn hf hd hv ha), fun q m ha ho hf hq hm => ?start,
    fun r o bad hr hd hbad ht _ => ?done, fun r n hd hr hn ha ht => ?returns, fun c m => ?rest⟩
  case start =>
    have hstart : u.Starts k q m := ⟨ha, ho, hf, hq, hm⟩
    refine ⟨fun hmap => ⟨_, rfl, ?_⟩, fun col hmap => ⟨_, rfl, ?_⟩⟩
    · rw [hstart.begins hmap, slab_beginDress, beginDress_mem]
      exact ⟨rfl, rfl, rfl, rfl, _, rfl, rfl, rfl, rfl, rfl⟩
    · rw [hstart.mapInvalid hmap]
      exact upkeep_eventsOnly ..
  case done =>
    replace hbad : bad = (u.slab k).badColumns r o := hbad
    subst hbad
    refine ⟨fun hf hn => ⟨_, rfl, dressDone_failed hr hd ht hf hn⟩, fun hb hn hl => ⟨_, (u.slab k).firstDone r o, rfl, ?_⟩,
      fun hb hn hm => ?_⟩
    · rw [dressDone_goesOn hr hd ht hb hn hl]
      obtain ⟨hdress, hbound, -⟩ := firstFinish_kept u k r o
      exact ⟨hdress, hbound, firstFinish_running .., rfl, hd, (firstFinish_bears u k r o).tileId⟩
    · obtain ⟨x, hx, hbears, he⟩ := dressDone_bound hr hd ht hb hn hm
      refine ⟨_, { (u.slab k).firstDone r o with doneAt := some u.now }, rfl, ?_⟩
      rw [he]
      exact ⟨rfl, rfl, rfl, rfl, hbears.tileId, hbears.map, hbears.ageTrim, by rw [← hx.dressCount]⟩
  case returns =>
    refine ⟨_, rfl, ?_⟩
    rw [detourEnd_due hd hr hn ha ht]
    exact upkeep_eventsOnly ..
  case rest => exact ⟨_, rfl, fun a h => byte_bankDone u c m.toNat h, fun b h => bank_bankDone u c m.toNat h⟩

end Sys2Proof.Machine
end

section
/-! PROOFS. What the engines keep while tasks write, complete and stop, and while the engine goes on to its next task (R253 to R256, R262 to
R266, R284 to R287). -/

namespace Sys2Proof.Machine

@[simp] theorem raise_engines (s : State) (a b : Nat) (m i : Bool) (p : Nat) : (s.raise a b m i p).engines = s.engines := by
  rw [(raise_eventsOnly s a b m i p).1]

/-- The engine of a state depends on its table of engines alone. -/
theorem State.engine_congr {s t : State} (h : t.engines = s.engines) (e : Nat) : t.engine e = s.engine e := by
  rw [State.engine, h, State.engine]

/-! ## Steps that leave time and the engines alone -/

/-- `t` has the time and the engines of `s`. -/
structure EnginesKept (s t : State) : Prop where
  time : t.time = s.time
  engines : t.engines = s.engines

theorem EnginesKept.refl (s : State) : EnginesKept s s := ⟨rfl, rfl⟩

theorem EnginesKept.trans {s t u : State} (h : EnginesKept s t) (g : EnginesKept t u) : EnginesKept s u :=
  ⟨g.time.trans h.time, g.engines.trans h.engines⟩

theorem EnginesKept.forEach {α : Type} {f : State → α → State} (h : ∀ s a, EnginesKept s (f s a)) (l : List α) (s : State) :
    EnginesKept s (forEach l s f) := forEach_rel EnginesKept.refl EnginesKept.trans h l s

theorem EnginesKept.ite {s t u : State} {p : Prop} [Decidable p] (h : EnginesKept s t) (g : EnginesKept s u) :
    EnginesKept s (if p then t else u) := by
  split
  · exact h
  · exact g

theorem EnginesKept.engine {s t : State} (h : EnginesKept s t) (e : Nat) : t.engine e = s.engine e := State.engine_congr h.engines e

theorem EnginesKept.of_eventsOnly {s t : State} (h : EventsOnly s t) : EnginesKept s t := by
  rw [h.1]
  exact ⟨rfl, rfl⟩

theorem EnginesKept.raise (s : State) (a b : Nat) (m i : Bool) (p : Nat) : EnginesKept s (s.raise a b m i p) :=
  .of_eventsOnly (raise_eventsOnly ..)

theorem EnginesKept.optical (s : State) (e kind row line epoch detail : Nat) (inj : Bool) :
    EnginesKept s (s.optical e kind row line epoch detail inj) := .raise ..

theorem EnginesKept.modCluster (s : State) (c : Nat) (f : Cluster → Cluster) : EnginesKept s (s.modCluster c f) := ⟨rfl, rfl⟩
theorem EnginesKept.modSlab (s : State) (k : Nat) (f : Slab → Slab) : EnginesKept s (s.modSlab k f) := ⟨rfl, rfl⟩
theorem EnginesKept.modLoop (s : State) (k : Nat) (f : Loop → Loop) : EnginesKept s (s.modLoop k f) := ⟨rfl, rfl⟩

theorem Met.enginesKept {s t : State} (h : Met s t) : EnginesKept s t := by
  rw [h.only]
  exact ⟨rfl, rfl⟩

theorem FabricOnly.enginesKept {s t : State} (h : FabricOnly s t) : EnginesKept s t := by
  rw [h]
  exact ⟨rfl, rfl⟩

/-! ### Writes -/

theorem EnginesKept.storeTagged (s : State) (k : Nat) (bs : List Byte) (t : Option Tag) : EnginesKept s (s.storeTagged k bs t) := by
  unfold State.storeTagged State.setTags
  split
  · exact ⟨rfl, rfl⟩
  · exact .ite ⟨rfl, rfl⟩ ⟨rfl, rfl⟩

theorem EnginesKept.writeAt (s : State) (c core addr : Nat) (bs : List Byte) (t : Option Tag) :
    EnginesKept s (s.writeAt c core addr bs t) := by
  unfold State.writeAt
  split
  · exact .refl s
  · exact .ite (.storeTagged ..) (.forEach (fun s _ => .ite (.storeTagged ..) (.refl s)) _ s)

theorem EnginesKept.clashWrites (s : State) (c : Nat) (l : List Clashed) : EnginesKept s (s.clashWrites c l) :=
  .forEach (fun _ _ => .writeAt ..) _ s

theorem EnginesKept.raiseHeld {s : State} (c : Nat) (t : Option Tag) {f : State → State} (h : ∀ u, EnginesKept u (f u)) :
    EnginesKept s (s.raiseHeld c t f) := by
  unfold State.raiseHeld
  split
  · exact h s
  · exact ⟨(h _).time, (h _).engines⟩

theorem EnginesKept.number (s : State) (core kind tag detail addr : Nat) : EnginesKept s (s.number core kind tag detail addr) := by
  unfold State.number
  exact ⟨raise_time .., raise_engines ..⟩

theorem EnginesKept.orphans (s : State) (c core tag addr : Nat) (l : List Nat) (t : Option Tag) :
    EnginesKept s (s.orphans c core tag addr l t) := by
  refine .forEach (fun s i => ?_) l s
  exact .raiseHeld c t (fun u => .number ..)

/-! ### The end of a task -/

theorem EnginesKept.miss (s : State) (c cause tag late skipped : Nat) : EnginesKept s (s.miss c cause tag late skipped) := by
  unfold State.miss
  exact (EnginesKept.raise ..).trans (.modCluster ..)

theorem EnginesKept.complete (s : State) (c i : Nat) (r : TaskRun) (t : Option Tag) : EnginesKept s (s.complete c i r t) := by
  obtain ⟨u, rfl, h | ⟨tag, n, h⟩⟩ := complete_cases s c i r t
  · rw [h]
    exact .modCluster ..
  · rw [h]
    exact (EnginesKept.modCluster ..).trans (.miss ..)

theorem EnginesKept.stopped (s : State) (c i : Nat) (r : TaskRun) (t : Option Tag) : EnginesKept s (s.stopped c i r t) := .modCluster ..

theorem EnginesKept.endShort (s : State) (c i : Nat) (r : TaskRun) (t : Option Tag) (whole : Bool) :
    EnginesKept s (s.endShort c i r t whole) := .ite (.complete ..) (.stopped ..)

theorem EnginesKept.releaseHolds (s : State) (c : Nat) : EnginesKept s (s.releaseHolds c) := .ite (.refl s) (.modCluster ..)

/-! ## Steps that an engine takes by itself -/

/-- `y` is an engine `x` whose rows, sets and epochs may have changed: the spoil that is due, the refresh under way and the stall count are
those of `x`, and no flag is cleared. -/
structure Engine.GoneOn (x y : Engine) : Prop where
  spoilDue : y.spoilDue = x.spoilDue
  refreshUntil : y.refreshUntil = x.refreshUntil
  stallNs : y.stallNs = x.stallNs
  flags : ∀ i, x.status.has i = true → y.status.has i = true

theorem W1c.has_hitN (w : W1c) (i n : Nat) {j : Nat} (h : w.has j = true) : (w.hitN i n).has j = true := by
  unfold W1c.hitN
  split
  · exact h
  · rw [W1c.has] at h ⊢
    rw [BitVec.getLsbD_or, h, Bool.true_or]

theorem W1c.has_hit_of_has {w : W1c} (i : Nat) {j : Nat} (h : w.has j = true) : (w.hit i).has j = true := by
  rw [W1c.has_hit, h, Bool.true_or]

theorem W1c.has_hitIf_of_has {w : W1c} (c : Bool) (i : Nat) {j : Nat} (h : w.has j = true) : (w.hitIf c i).has j = true := by
  unfold W1c.hitIf
  split
  · exact W1c.has_hit_of_has i h
  · exact h

theorem Engine.GoneOn.refl (x : Engine) : x.GoneOn x := ⟨rfl, rfl, rfl, fun _ => id⟩

theorem Engine.GoneOn.trans {x y z : Engine} (h : x.GoneOn y) (g : y.GoneOn z) : x.GoneOn z :=
  ⟨g.spoilDue.trans h.spoilDue, g.refreshUntil.trans h.refreshUntil, g.stallNs.trans h.stallNs, fun i => g.flags i ∘ h.flags i⟩

/-- Time stays, and every engine has gone on by itself. -/
structure EnginesGoOn (s t : State) : Prop where
  time : t.time = s.time
  engine : ∀ e, (s.engine e).GoneOn (t.engine e)

theorem EnginesGoOn.trans {s t u : State} (h : EnginesGoOn s t) (g : EnginesGoOn t u) : EnginesGoOn s u :=
  ⟨g.time.trans h.time, fun e => (h.engine e).trans (g.engine e)⟩

theorem EnginesKept.goOn {s t : State} (h : EnginesKept s t) : EnginesGoOn s t :=
  ⟨h.time, fun e => by rw [h.engine]; exact .refl _⟩

theorem EnginesGoOn.refl (s : State) : EnginesGoOn s s := (EnginesKept.refl s).goOn

theorem EnginesGoOn.ite {s t u : State} {p : Prop} [Decidable p] (h : EnginesGoOn s t) (g : EnginesGoOn s u) :
    EnginesGoOn s (if p then t else u) := by
  split
  · exact h
  · exact g

theorem EnginesGoOn.modEngine (s : State) (e : Nat) {f : Engine → Engine} (hf : ∀ x : Engine, x.GoneOn (f x)) : EnginesGoOn s (s.modEngine e f) := by
  refine ⟨rfl, fun d => ?_⟩
  by_cases h : d = e
  · subst h
    rw [State.engine_modEngine_same]
    exact hf _
  · rw [State.engine_modEngine_other _ _ h]
    exact .refl _

theorem EnginesGoOn.opticalFlag (s : State) (e kind flag row line epoch detail : Nat) :
    EnginesGoOn s (s.opticalFlag e kind flag row line epoch detail) := by
  unfold State.opticalFlag
  refine EnginesGoOn.trans ?_ (.modEngine _ e (fun _ => ⟨rfl, rfl, rfl, fun _ h => W1c.has_hit_of_has _ h⟩))
  exact (EnginesKept.optical ..).goOn

theorem EnginesKept.thaw (s : State) (k detail : Nat) : EnginesKept s (s.thaw k detail) :=
  .ite ((EnginesKept.modLoop ..).trans (.raise ..)) (.modLoop ..)

theorem EnginesGoOn.takeRow (s : State) (e q k cause old : Nat) (inj : Bool) : EnginesGoOn s (s.takeRow e q k cause old inj) := by
  refine EnginesGoOn.trans ?_ (EnginesKept.optical ..).goOn
  exact .modEngine s e (fun _ => ⟨rfl, rfl, rfl, fun _ h => W1c.has_hitN _ _ _ h⟩)

theorem EnginesGoOn.rotateRows (s : State) (e : Nat) : EnginesGoOn s (s.rotateRows e) := by
  unfold State.rotateRows
  dsimp only
  split
  · refine .ite (.refl s) (EnginesGoOn.trans ?_ (.modEngine _ e (fun _ => ⟨rfl, rfl, rfl, fun _ h => h⟩)))
    split
    · refine EnginesGoOn.trans ?_ (EnginesKept.thaw ..).goOn
      exact (EnginesGoOn.takeRow ..).trans (.modEngine _ e (fun _ => ⟨rfl, rfl, rfl, fun _ h => h⟩))
    · exact .refl s
  · exact .refl s

theorem EnginesGoOn.swapSets (s : State) (e : Nat) {f : Engine → Engine} (hf : ∀ x : Engine, x.GoneOn (f x)) : EnginesGoOn s (s.swapSets e f) :=
  (EnginesGoOn.modEngine s e hf).trans (.rotateRows ..)

theorem EnginesGoOn.takeSet (s : State) (c i : Nat) (r : TaskRun) : EnginesGoOn s (s.takeSet c i r) := by
  unfold State.takeSet
  dsimp only
  split
  · exact .swapSets s c (fun _ => ⟨rfl, rfl, rfl, fun _ h => W1c.has_hitN _ _ _ h⟩)
  · refine .ite (.refl s) (.ite (.opticalFlag ..) ?_)
    exact .swapSets s c (fun _ => ⟨rfl, rfl, rfl, fun _ h => h⟩)

/-! ### The engine's next task -/

theorem EnginesGoOn.beginOptical (s : State) (c i start : Nat) (r : TaskRun) : EnginesGoOn s (s.beginOptical c i start r) := by
  unfold State.beginOptical
  dsimp only
  refine EnginesGoOn.trans ?_ (EnginesKept.releaseHolds ..).goOn
  refine EnginesGoOn.trans ?_ (.modEngine _ c (fun _ => ⟨rfl, rfl, rfl, fun _ h => h⟩))
  exact (EnginesGoOn.takeSet s c i r).trans (EnginesKept.modCluster ..).goOn

theorem EnginesGoOn.beginBatch (s : State) (c i start : Nat) : EnginesGoOn s (s.beginBatch c i start) := by
  unfold State.beginBatch
  dsimp only
  refine EnginesGoOn.trans ?_ (.modEngine _ c (fun _ => ⟨rfl, rfl, rfl, fun _ h => h⟩))
  exact (EnginesKept.modCluster ..).goOn

/-- The free engine stalls until the end of a refresh under way, and takes its next task (R256, R287). -/
theorem engineNext_stalls (s : State) (c : Nat) : s.engineNext c = s
    ∨ EnginesGoOn (s.modEngine c (fun g => g.addStall (max (max s.now (s.engine c).freeAt) (s.engine c).refreshUntil
        - max s.now (s.engine c).freeAt))) (s.engineNext c) := by
  unfold State.engineNext
  split
  · exact .inl rfl
  · split
    · exact .inl rfl
    · split
      · exact .inr (.ite (.beginBatch ..) (.beginOptical ..))
      · exact .inl rfl

end Sys2Proof.Machine
end

section
/-! PROOFS. OPTICAL_MVM and WEIGHT_LOAD tasks complete, and the weight refresh (R252, R253, R256, R276, R279, R281, R378). -/

namespace Sys2Proof.Machine

theorem exec_opticalMvmComplete (s : State) (dt : Nat) (c : ClusterId) (i : Fin 4096) (n : Nat) (ws : List Clash) (noise : List Int) :
    exec (.opticalMvmComplete dt c i n ws noise) s
      = .next ((s.elapse dt).opticalComplete c ((s.elapse dt).taskKey c i) n ws noise) := rfl
theorem exec_weightLoadComplete (s : State) (dt : Nat) (c : ClusterId) (i : Fin 4096) (ws : List Clash) :
    exec (.weightLoadComplete dt c i ws) s = .next (((s.elapse dt).weightComplete c i ws).waitedCal c) := rfl
theorem exec_weightRefresh (s : State) (dt : Nat) (c : EngineId) :
    exec (.weightRefresh dt c) s = .next ((s.elapse dt).refreshWeights c) := rfl

/-! ## OPTICAL_MVM (R276, R279, R281) -/

theorem Engine.GoneOn.foldl_modEpoch (l : List Nat) (g : EpochInfo → EpochInfo) (x : Engine) :
    x.GoneOn (l.foldl (fun y ep => y.modEpoch ep g) x) := by
  induction l generalizing x with
  | nil => exact .refl x
  | cons ep l ih =>
    have hone : x.GoneOn (x.modEpoch ep g) := ⟨rfl, rfl, rfl, fun _ h => h⟩
    exact hone.trans (ih _)

/-- Epochs in which symbols were integrated, and how many there have been. -/
theorem Engine.GoneOn.integrated (l : List Nat) (n : Nat) (x : Engine) : x.GoneOn
    { l.foldl (fun (y : Engine) ep => y.modEpoch ep (fun i => { i with integrated := true })) x with symbols := n } :=
  (Engine.GoneOn.foldl_modEpoch l _ x).trans ⟨rfl, rfl, rfl, fun _ h => h⟩

theorem EnginesGoOn.integrate (s : State) (e from_ till symbols : Nat) : EnginesGoOn s (s.integrate e from_ till symbols) := by
  unfold State.integrate
  refine .modEngine s e (fun x => ?_)
  exact .integrated _ _ x

section
variable (s : State) (c i : Nat) (r : TaskRun)

/-- The results of an OPTICAL_MVM are written, its clips counted and its symbols integrated. -/
theorem EnginesGoOn.omWrite (n till : Nat) (late : Bool) (noise : Nat → Int) : EnginesGoOn s (s.omWrite c i n till r late noise).1 := by
  unfold State.omWrite
  extract_lets x d g vs vecs qs res ep t per dst orphaned written clashed clips escs counted
  have horphaned : EnginesKept s orphaned := .forEach (fun _ _ => .orphans ..) vs.2 s
  have hwritten : EnginesKept orphaned written := .forEach (fun _ _ => .writeAt ..) _ _
  have hclashed : EnginesKept written clashed := .ite (.refl _) (.clashWrites ..)
  have hcounted : EnginesGoOn clashed counted :=
    .modEngine _ c (fun _ => ⟨rfl, rfl, rfl, fun _ h => W1c.has_hitN _ _ _ (W1c.has_hitN _ _ _ h)⟩)
  exact (((horphaned.trans hwritten).trans hclashed).goOn.trans hcounted).trans (.ite (.refl _) (.integrate ..))

/-- An OPTICAL_MVM at its end, with what it met there and the stall of its symbols. -/
def State.stalled (n : Nat) (ws : List Clash) : State := (s.meets c i r.pass ws).1.modEngine c (fun g => g.stall n)

/-- What an OPTICAL_MVM that has all its vectors leaves: its output and the state of it. -/
def State.opticalOutput (n : Nat) (ws : List Clash) (noise : List Int) : State × Option Tag :=
  (s.stalled c i r n ws).omWrite c i (omVcount ((s.cluster c).task i)) (s.now - tailNs (omRate ((s.cluster c).task i)))
    { r with clashes := r.clashes ++ (s.meets c i r.pass ws).2 } (r.late || ((s.stalled c i r n ws).lateBy c i).isSome) (fun j => nth 0 noise j)

variable {s c i r}

/-- What an OPTICAL_MVM needs to come to its end: it has begun, its time and its stalls are over, and no line that it writes is held. -/
structure AtOpticalEnd (s : State) (c i : Nat) (r : TaskRun) (n : Nat) : Prop where
  running : s.running c i = some r
  kind : dKind ((s.cluster c).task i) = kOptical
  begun : r.begun = true
  ended : omNs ((s.cluster c).task i) r.replayed + n ≤ s.ran r + s.tailRest (omRate ((s.cluster c).task i))
  free : s.heldBack c i r = false

theorem opticalComplete_atEnd {n : Nat} (ws : List Clash) (noise : List Int) (h : AtOpticalEnd s c i r n) : s.opticalComplete c i n ws noise =
    (((s.opticalOutput c i r n ws noise).1.complete c i { r with clashes := r.clashes ++ (s.meets c i r.pass ws).2 }
      (s.opticalOutput c i r n ws noise).2).releaseHolds c).engineNext c := by
  have hn : ¬ (dKind ((s.cluster c).task i) ≠ kOptical ∨ (!r.begun) = true
      ∨ s.ran r + s.tailRest (omRate ((s.cluster c).task i)) < omNs ((s.cluster c).task i) r.replayed + n ∨ s.heldBack c i r = true) := by
    simp [h.kind, h.begun, h.free, h.ended]
  have hnow : (s.stalled c i r n ws).now = s.now := congrArg TimeState.clock (Met.meets s c i r.pass ws).enginesKept.time
  rw [State.opticalOutput, ← hnow]
  simp only [State.opticalComplete, h.running, if_neg hn]
  rfl

/-- The output stands in memory, and the task is over. -/
theorem opticalComplete_completes {n : Nat} (ws : List Clash) (noise : List Int) (h : AtOpticalEnd s c i r n) :
    (s.opticalComplete c i n ws noise).phaseOf c i = some .done
      ∧ (s.opticalComplete c i n ws noise).mem = (s.opticalOutput c i r n ws noise).1.mem := by
  rw [opticalComplete_atEnd ws noise h, phaseOf_engineNext, phaseOf_releaseHolds, engineNext_mem, (EngineKept.releaseHolds ..).mem, complete_mem]
  refine ⟨?_, rfl⟩
  rw [State.phaseOf, run_complete]
  rfl

theorem Engine.addStall_zero (x : Engine) : (x.addStall 0).stallNs = min x.stallNs 0xFFFFFFFF := rfl

/-- With no refresh under way the engine stalls no further as it goes on. -/
theorem stallNs_engineNext (hs : (s.engine c).stallNs ≤ 0xFFFFFFFF) (h : (s.engine c).refreshUntil ≤ s.now) :
    ((s.engineNext c).engine c).stallNs = (s.engine c).stallNs := by
  obtain he | he := engineNext_stalls s c
  · rw [he]
  · rw [show max (max s.now (s.engine c).freeAt) (s.engine c).refreshUntil - max s.now (s.engine c).freeAt = 0 by omega] at he
    rw [(he.engine c).stallNs, State.engine_modEngine_same, Engine.addStall_zero]
    exact Nat.min_eq_left hs

/-- What its symbols were delayed counts as stall (R281). -/
theorem opticalComplete_stallNs {n : Nat} (ws : List Clash) (noise : List Int) (h : AtOpticalEnd s c i r n)
    (hu : (s.engine c).refreshUntil ≤ s.now) :
    ((s.opticalComplete c i n ws noise).engine c).stallNs = min ((s.engine c).stallNs + n) 0xFFFFFFFF := by
  have hmet := (Met.meets s c i r.pass ws).enginesKept
  have hengine : (s.stalled c i r n ws).engine c = (s.engine c).stall n := by
    rw [State.stalled, State.engine_modEngine_same, hmet.engine]
  have hon : EnginesGoOn (s.stalled c i r n ws) (((s.opticalOutput c i r n ws noise).1.complete c i
      { r with clashes := r.clashes ++ (s.meets c i r.pass ws).2 } (s.opticalOutput c i r n ws noise).2).releaseHolds c) :=
    (EnginesGoOn.omWrite ..).trans ((EnginesKept.complete ..).trans (.releaseHolds ..)).goOn
  have hnow : (s.stalled c i r n ws).now = s.now := congrArg TimeState.clock hmet.time
  rw [opticalComplete_atEnd ws noise h]
  generalize State.releaseHolds _ c = w at hon ⊢
  have hstall : (w.engine c).stallNs = min ((s.engine c).stallNs + n) 0xFFFFFFFF := by
    rw [(hon.engine c).stallNs, hengine]
    rfl
  have hrefresh : (w.engine c).refreshUntil ≤ w.now := by
    rw [(hon.engine c).refreshUntil, hengine, State.now, hon.time]
    exact hu.trans_eq hnow.symm
  rw [stallNs_engineNext (hstall ▸ Nat.min_le_right ..) hrefresh, hstall]

end

/-! ## WEIGHT_LOAD (R253, R267) -/

section
variable {s : State} {c i : Nat} {r : TaskRun}

/-- The set that a WEIGHT_LOAD forms at its end, from memory as it read it (R267, R466). -/
def State.formedSet (s : State) (c i : Nat) (r : TaskRun) (ws : List Clash) : WeightSet :=
  ((s.meets c i r.pass ws).1.clashed c (r.clashes ++ (s.meets c i r.pass ws).2)).weightSet c i r.pass

/-- The shadow holds carry the set. -/
def State.setLoaded (s : State) (c i : Nat) (r : TaskRun) (ws : List Clash) : State :=
  (s.meets c i r.pass ws).1.modEngine c (fun x =>
    { x with shadow := (x.loadSet (s.formedSet c i r ws)).1, status := x.status.hitN 0 (x.loadSet (s.formedSet c i r ws)).2 })

theorem weightComplete_due (ws : List Clash) (hr : s.running c i = some r) (hk : dKind ((s.cluster c).task i) = kWeight)
    (hb : (s.engine c).batch = []) (ht : max r.at_ (s.engine c).refreshUntil + 64 ≤ s.now) : s.weightComplete c i ws =
      (if r.stopped.isSome then (s.setLoaded c i r ws).stopped c i r none else (s.setLoaded c i r ws).complete c i r none).releaseHolds c := by
  have hn : ¬ (dKind ((s.cluster c).task i) ≠ kWeight ∨ (!(s.engine c).batch.isEmpty) = true
      ∨ s.now < max r.at_ (s.engine c).refreshUntil + 64) := by
    simp only [hk, hb, List.isEmpty_nil, ne_eq, not_true_eq_false, Bool.not_true, Bool.false_eq_true, false_or, not_lt]
    exact ht
  simp only [State.weightComplete, hr, if_neg hn]
  rfl

/-- A WEIGHT_LOAD that is due is over with its set in the shadow holds; memory and the rest of its engine stay. -/
theorem weightComplete_loads (ws : List Clash) (hr : s.running c i = some r) (hk : dKind ((s.cluster c).task i) = kWeight)
    (hb : (s.engine c).batch = []) (ht : max r.at_ (s.engine c).refreshUntil + 64 ≤ s.now) :
    (s.weightComplete c i ws).phaseOf c i = some .done ∧ (s.weightComplete c i ws).mem = s.mem
      ∧ (s.weightComplete c i ws).engine c = { s.engine c with
          shadow := ((s.engine c).loadSet (s.formedSet c i r ws)).1
          status := (s.engine c).status.hitN 0 ((s.engine c).loadSet (s.formedSet c i r ws)).2 } := by
  have hmet := Met.meets s c i r.pass ws
  have hloaded : (s.setLoaded c i r ws).engine c = { s.engine c with
      shadow := ((s.engine c).loadSet (s.formedSet c i r ws)).1
      status := (s.engine c).status.hitN 0 ((s.engine c).loadSet (s.formedSet c i r ws)).2 } := by
    rw [State.setLoaded, State.engine_modEngine_same, hmet.enginesKept.engine]
  have hmem : (s.setLoaded c i r ws).mem = s.mem := hmet.mem
  rw [weightComplete_due ws hr hk hb ht, phaseOf_releaseHolds, (EngineKept.releaseHolds ..).mem, (EnginesKept.releaseHolds ..).engine, ← hloaded,
    ← hmem]
  generalize s.setLoaded c i r ws = v
  split
  · exact ⟨by rw [State.phaseOf, run_stopped]; rfl, rfl, (EnginesKept.stopped ..).engine c⟩
  · exact ⟨by rw [State.phaseOf, run_complete]; rfl, complete_mem .., (EnginesKept.complete ..).engine c⟩

theorem waitedCal_none (h : (s.engine c).calDue = none) : s.waitedCal c = s := by
  simp only [State.waitedCal, h]

end

/-! ## The refresh (R252, R256) -/

/-- `y` has the active set of `x` in force since the same clock, and the refresh that is due. -/
structure Engine.InForce (x y : Engine) : Prop where
  since : y.active.since = x.active.since
  q : y.active.q = x.active.q
  refreshDue : y.refreshDue = x.refreshDue

/-- Rows that pass to others leave the active set in force. -/
theorem inForce_rotateRows (s : State) (e : Nat) : (s.engine e).InForce ((s.rotateRows e).engine e) := by
  unfold State.rotateRows
  dsimp only
  split
  · split
    · exact ⟨rfl, rfl, rfl⟩
    · rw [State.engine_modEngine_same]
      split
      · rw [(EnginesKept.thaw ..).engine, State.engine_modEngine_same, State.takeRow, (EnginesKept.optical ..).engine,
          State.engine_modEngine_same]
        exact ⟨rfl, rfl, rfl⟩
      · exact ⟨rfl, rfl, rfl⟩
  · exact ⟨rfl, rfl, rfl⟩

/-- A set that has been in force for 100 us, or whose lines' powers have moved, is in force anew from the refresh on. -/
theorem refreshWeights_due {s : State} {e : Nat} (hl : (s.engine e).active.loaded = true)
    (hd : (s.engine e).active.since + 100000 ≤ s.now ∨ (s.engine e).refreshDue = true) (hb : (s.engine e).batch = [])
    (hu : (s.engine e).refreshUntil ≤ s.now)
    (hg : s.engineBusy e = false ∨ s.inSlot = true ∨ (s.engine e).active.since + 150000 ≤ s.now) :
    ((s.refreshWeights e).engine e).active.since = s.now ∧ ((s.refreshWeights e).engine e).active.q = (s.engine e).active.q
      ∧ ((s.refreshWeights e).engine e).refreshDue = false ∧ (s.refreshWeights e).mem = s.mem := by
  have hn : ¬ ((!(s.engine e).active.loaded || (decide (s.now < (s.engine e).active.since + 100000) && !(s.engine e).refreshDue)
      || !(s.engine e).batch.isEmpty || decide (s.now < (s.engine e).refreshUntil)
      || (s.engineBusy e && !s.inSlot && !decide ((s.engine e).active.since + 150000 ≤ s.now))) = true) := by
    have hdue : (decide (s.now < (s.engine e).active.since + 100000) && !(s.engine e).refreshDue) = false := by
      rcases hd with hd | hd
      · simp [hd]
      · simp [hd]
    have hgap : (s.engineBusy e && !s.inSlot && !decide ((s.engine e).active.since + 150000 ≤ s.now)) = false := by
      rcases hg with hg | hg | hg <;> simp [hg]
    simp [hl, hdue, hb, hu, hgap]
  have hdo : ∃ n, s.refreshWeights e = s.swapSets e (fun x => { x.reload s.now with refreshUntil := s.now + n }) := ⟨_, if_neg hn⟩
  obtain ⟨n, hdo⟩ := hdo
  have hf := inForce_rotateRows (s.modEngine e (fun x => { x.reload s.now with refreshUntil := s.now + n })) e
  rw [State.engine_modEngine_same] at hf
  rw [hdo, (EngineKept.swapSets ..).mem, State.swapSets, hf.since, hf.q, hf.refreshDue]
  simp only [Engine.reload, hl, if_true]
  exact ⟨trivial, rfl, trivial, trivial⟩

/-! ## The statement -/

/-- Settles O41: the end of each task and the refresh, by what they leave of the engine, of the run and of memory. -/
theorem opticalTasks : Obligations.OpticalTasks := by
  intro s dt c i u d hu hd
  have hcluster : s.cluster = u.cluster := by rw [hu]; rfl
  have hengine : s.engine = u.engine := by rw [hu]; rfl
  have hmem : s.mem = u.mem := by rw [hu]; rfl
  rw [hcluster] at hd
  simp only [exec_opticalMvmComplete, exec_weightLoadComplete, exec_weightRefresh, ← hu, hengine, hmem]
  subst hd
  refine ⟨?optical, ?weight, ?refresh⟩
  case optical =>
    rintro r n ws noise v hr hk hb ht hh rfl
    rw [taskKey_of_running hr]
    have hend : AtOpticalEnd u c i r n := ⟨hr, hk, hb, ht, hh⟩
    obtain ⟨hdone, hout⟩ := opticalComplete_completes ws noise hend
    obtain ⟨q, hq, hp⟩ := phaseOf_eq_some hdone
    exact ⟨_, q, rfl, hq, hp, opticalComplete_stallNs ws noise hend, hout⟩
  case weight =>
    intro r ws hr hk hb hc ht
    obtain ⟨hdone, hkept, hloaded⟩ := weightComplete_loads ws hr hk hb ht
    obtain ⟨q, hq, hp⟩ := phaseOf_eq_some hdone
    have hcal : ((u.weightComplete c i ws).engine c).calDue = none := by rw [hloaded]; exact hc
    rw [waitedCal_none hcal]
    refine ⟨_, q, rfl, hq, hp, hkept, ?_, ?_⟩
    · rw [hloaded]
    · rw [hloaded]
      rfl
  case refresh =>
    intro hl hd hb hf hg
    exact ⟨_, rfl, refreshWeights_due hl hd hb hf hg⟩

end Sys2Proof.Machine
end

section
/-! PROOFS. A re-acquisition that ends on a loop listed twice (R361, R362). A state of the model is plain data, so its table of loops need not
have rising keys: a read finds the first entry of a loop, and the start of the sweeps that wait looks at every entry. -/

namespace Sys2Proof.Machine

theorem exec_reacquired (s : State) (dt : Nat) (k : LoopId) (o : SweepOutcome) :
    exec (.reacquired dt k o) s = .next ((s.elapse dt).sweepEnd k o.closed o.taps o.slope) := rfl

/-- Loop 7 sweeps, and has failed twice. -/
def sweepingLoop : Loop := { Loop.init 7 with phase := .sweep, fails := 2 }

/-- The module with an entry of loop 7, and behind it another one of the same loop, which waits for its sweep. -/
def loopListedTwice : State := { State.reset with loops := [(7, sweepingLoop), (7, { Loop.init 7 with queued := true })] }

/-- A sweep that did not close. -/
def openSweep : SweepOutcome := { closed := false, taps := [], slope := 0 }

/-- The third failure makes the first entry FAILED, and the second entry makes the loop sweep again. -/
theorem sweepEnd_loopListedTwice : (((loopListedTwice.elapse 200000).sweepEnd 7 false [] 0).loop 7).phase = .sweep := by decide +kernel

/-- Refutes O44: a loop that fails its third re-acquisition sweeps again where the table of loops lists it a second time, as waiting for its
sweep. The statement has no premise that the table is canonical (`tabWf`). -/
theorem not_lockLoops : ¬ Obligations.LockLoops := by
  intro hall
  obtain ⟨-, -, -, hsweep, -⟩ := hall loopListedTwice 200000 7 _ rfl
  obtain ⟨-, -, hthird⟩ := hsweep openSweep rfl rfl rfl rfl (by decide)
  obtain ⟨t, ht, hfailed⟩ := hthird (.inl rfl) (by decide)
  rw [exec_reacquired, Host.Outcome.next.injEq] at ht
  subst ht
  exact LoopPhase.noConfusion (sweepEnd_loopListedTwice.symm.trans hfailed)

end Sys2Proof.Machine
end

section
/-! PROOFS. Tasks that stop leave the engines alone, but for what an OPTICAL_MVM or a slab that leaves service does to its own (R88, R151, R199,
R282, R303, R875). -/

namespace Sys2Proof.Machine

section
variable (s : State) (c i : Nat) (r : TaskRun)

theorem EnginesKept.takeFree : EnginesKept s s.takeFree := ⟨rfl, rfl⟩
theorem EnginesKept.useFree (n : Nat) : EnginesKept s { s with free := n } := ⟨rfl, rfl⟩

/-! ## VECTOR tasks and hauls -/

theorem EnginesKept.vecWrite (n : Nat) (late : Bool) : EnginesKept s (s.vecWrite c i n r late).1 := by
  unfold State.vecWrite
  extract_lets x d core unit ops v t clear fl dst t2 orphaned written
  have horphaned : EnginesKept s orphaned := .forEach (fun _ _ => .orphans ..) v.orphans s
  have hwritten : EnginesKept orphaned written := .forEach (fun _ _ => .ite (.trans (.writeAt ..) (.writeAt ..)) (.writeAt ..)) _ _
  exact (horphaned.trans hwritten).trans ⟨rfl, rfl⟩

theorem EnginesKept.vecReport (obs : Nat) (t : Option Tag) : EnginesKept s (s.vecReport c i obs r t) := .ite (.refl s) (.modCluster ..)

theorem EnginesKept.stopVector (late : Bool) : EnginesKept s (s.stopVector c i r late) := by
  unfold State.stopVector
  extract_lets d total n whole out
  have hout : EnginesKept s out.1 := (EnginesKept.takeFree s).trans (.vecWrite ..)
  refine EnginesKept.trans ?_ (.endShort ..)
  exact hout.trans (.ite (.vecReport ..) (.refl _))

theorem EnginesKept.sealLines (first last key : Nat) : EnginesKept s (s.sealLines first last key) := .ite (.refl s) ⟨rfl, rfl⟩

theorem EnginesKept.hubWrite {f : State → State} (k n : Nat) (h : ∀ u, EnginesKept u (f u)) : EnginesKept s (s.hubWrite k n f) := by
  unfold State.hubWrite
  refine .ite (.refl s) (.ite (h s) ?_)
  extract_lets a e first both
  have hfirst : EnginesKept s first := .ite (.refl s) ⟨rfl, rfl⟩
  have hboth : EnginesKept first both := .ite (.refl _) ⟨rfl, rfl⟩
  exact (hfirst.trans hboth).trans ((h both).trans (.sealLines ..))

theorem EnginesKept.haulWrite (k : Nat) (bs : List Byte) : EnginesKept s (s.haulWrite c k bs) :=
  .ite (.ite (.refl s) (.hubWrite s _ _ (fun _ => ⟨rfl, rfl⟩))) (.refl s)

theorem EnginesKept.sideWrite (core : Nat) (x : Side) (bs : List Byte) (t : Option Tag) : EnginesKept s (s.sideWrite c core x bs t) := by
  unfold State.sideWrite
  split
  · exact .refl s
  · exact .haulWrite ..
  · split
    · exact .forEach (fun _ _ => .modSlab ..) _ s
    · exact .writeAt ..

theorem EnginesKept.sideMark (core : Nat) (x : Side) (n : Nat) : EnginesKept s (s.sideMark c core x n) := by
  unfold State.sideMark
  split
  · split
    · exact .modSlab ..
    · exact .refl s
  · exact .refl s

theorem EnginesKept.copyBytes (core : Nat) (a b : Side) (n : Nat) : EnginesKept s (s.copyBytes c core a b n).1 :=
  List.foldlRecOn _ _ (motive := fun acc : State × Option Tag => EnginesKept s acc.1) (.refl s)
    (fun _ h _ _ => h.trans ((EnginesKept.sideMark ..).trans (.sideWrite ..)))

theorem EnginesKept.copyTile (core : Nat) (a b : Side) (late : Bool) : EnginesKept s (s.copyTile c core a b late).1 :=
  ((EnginesKept.sideMark s ..).trans (.sideWrite ..)).trans (.copyBytes ..)

theorem EnginesKept.haulMove (pass n : Nat) (late : Bool) : EnginesKept s (s.haulMove c i pass n late).1 := by
  refine List.foldlRecOn _ _ (motive := fun acc : State × Option Tag => EnginesKept s acc.1) (.refl s) (fun acc h u _ => h.trans ?_)
  dsimp only
  split
  · exact .copyTile ..
  · exact .copyBytes ..

theorem EnginesKept.underEntry {f : State → State × Option Tag} (h : ∀ u, EnginesKept u (f u).1) : EnginesKept s (s.underEntry c i f).1 := by
  unfold State.underEntry
  dsimp only
  split
  · exact h s
  · exact ⟨(h _).time, (h _).engines⟩

theorem EnginesKept.clashHaul (pass : Nat) (l : List Clashed) : EnginesKept s (s.clashHaul c i pass l) :=
  (EnginesKept.forEach (fun _ _ => .forEach (fun _ _ => .sideWrite ..) _ _) _ s).trans (.clashWrites ..)

theorem EnginesKept.endTransfer (n : Nat) : EnginesKept s (s.endTransfer c i n) := ⟨rfl, rfl⟩

theorem EnginesKept.stopHaul (late : Bool) : EnginesKept s (s.stopHaul c i r late) := by
  unfold State.stopHaul
  refine .ite (.stopped ..) ?_
  extract_lets d us n whole out
  have hout : EnginesKept s out.1 := (EnginesKept.takeFree s).trans (.underEntry _ c i (fun _ => .haulMove ..))
  exact ((hout.trans (.ite (.refl _) (.clashHaul ..))).trans (.endTransfer ..)).trans (.endShort ..)

/-! ## ROUTER_SEND and EGRESS -/

theorem EnginesKept.routerDrop (d src : Nat) : EnginesKept s (s.routerDrop d src) := (EnginesKept.modCluster s ..).trans (.raise ..)

theorem EnginesKept.arrive (p : Packet) : EnginesKept s (s.arrive p) := .ite (.routerDrop ..) ⟨rfl, rfl⟩

theorem EnginesKept.sendPackets (n : Nat) (late : Bool) : EnginesKept s (s.sendPackets c i n r late) := by
  unfold State.sendPackets
  dsimp only
  split
  · exact .ite (.forEach EnginesKept.arrive _ s) (.refl s)
  · exact .refl s

theorem EnginesKept.sendUpTo (n : Nat) (late : Bool) : EnginesKept s (s.sendUpTo c i n r late) := by
  unfold State.sendUpTo
  dsimp only
  split
  · exact (EnginesKept.sendPackets ..).trans (.modCluster ..)
  · exact .refl s

theorem EnginesKept.stopRouter (late : Bool) : EnginesKept s (s.stopRouter c i r late) := by
  refine .ite (.stopped ..) ?_
  exact ((((EnginesKept.takeFree s).trans (.sendUpTo ..)).trans (.endTransfer ..)).trans (.endShort ..))

theorem EnginesKept.cutEgress : EnginesKept s (s.cutEgress c i r) := by
  refine .ite (.refl s) ?_
  exact (((EgressSent.takeFree s).trans (.sendEgress ..)).only.enginesKept).trans (.endTransfer ..)

theorem EnginesKept.stopEgress : EnginesKept s (s.stopEgress c i r) := by
  unfold State.stopEgress
  exact ((EnginesKept.ite (FabricOnly.countPartner ..).enginesKept (.refl s)).trans (.cutEgress ..)).trans (.stopped ..)

/-! ## SLAB_MVM -/

theorem EnginesKept.writePieces (core : Nat) (l : List (List Byte × Option Tag)) (s : State) (addr : Nat) :
    EnginesKept s (s.writePieces c core addr l) := by
  induction l generalizing s addr with
  | nil => exact .refl s
  | cons x l ih =>
    unfold State.writePieces
    dsimp only
    exact ((EnginesKept.ite (.refl s) (.writeAt ..)).trans (.ite (.refl _) (.writeAt ..))).trans (ih ..)

theorem EnginesKept.writeRegionsOf (core addr len : Nat) (rs : List (List Byte × Option Tag)) :
    EnginesKept s (s.writeRegionsOf c core addr len rs) := by
  unfold State.writeRegionsOf
  dsimp only
  split
  · exact .refl s
  · exact ((EnginesKept.writeAt ..).trans (.ite (.refl _) (.writeAt ..))).trans (.writePieces ..)

theorem EnginesKept.drainTask (late : Bool) : EnginesKept s (s.drainTask c i r late).1 := by
  unfold State.drainTask
  dsimp only
  split
  · exact .refl s
  · exact (EnginesKept.forEach (fun _ _ => .modSlab ..) _ s).trans (.writeRegionsOf ..)

theorem EnginesKept.slabResult (n : Nat → Nat) (late : Bool) (noise : Nat → Nat → Nat → Int) :
    EnginesKept s (s.slabResult c i n r late noise).1 := by
  unfold State.slabResult
  extract_lets x d ks added joined
  have hadded : EnginesKept s added := .forEach (fun _ _ => .modSlab ..) _ s
  have hjoined : EnginesKept added joined := by
    unfold joined
    split
    · exact .forEach (fun _ _ => .trans (.modSlab ..) (.modSlab ..)) _ _
    · exact .refl _
  exact (hadded.trans hjoined).trans (.drainTask ..)

theorem EnginesKept.upkeep (k kind group column detail : Nat) (inj : Bool) : EnginesKept s (s.upkeep k kind group column detail inj) := .raise ..

theorem EnginesKept.seamFail (k g column row : Nat) (inj : Bool) : EnginesKept s (s.seamFail k g column row inj) :=
  (EnginesKept.modSlab s ..).trans (.upkeep ..)

theorem EnginesKept.unplannedDetour (k n : Nat) : EnginesKept s (s.unplannedDetour k n) := ⟨rfl, rfl⟩
theorem EnginesKept.seamHandled (k ph g : Nat) (flag : Bool) : EnginesKept s (s.seamHandled k ph g flag) := .modSlab ..

theorem EnginesKept.beginSpare (k j : Nat) (inj : Bool) : EnginesKept s (s.beginSpare k j inj) := by
  unfold State.beginSpare
  dsimp only
  refine .ite (.refl s) ?_
  split
  · exact .modSlab ..
  · exact .upkeep ..

theorem EnginesKept.losePin (k g : Nat) (inj : Bool) : EnginesKept s (s.losePin k g inj) :=
  .ite ((EnginesKept.modSlab ..).trans (.upkeep ..)) (.refl s)

theorem EnginesKept.seamMany (k ph g : Nat) (inj : Bool) : EnginesKept s (s.seamMany k ph g inj) := by
  rw [seamMany_eq]
  refine EnginesKept.trans (EnginesKept.trans ?_ (.unplannedDetour ..)) (.seamHandled ..)
  exact ((EnginesKept.losePin ..).trans (.seamFail ..)).trans (.modSlab ..)

theorem EnginesKept.seamTransient (k ph g : Nat) (inj : Bool) : EnginesKept s (s.seamTransient k ph g inj) :=
  .ite (.seamMany ..) (((EnginesKept.modSlab s ..).trans (.upkeep ..)).trans (.seamHandled ..))

theorem EnginesKept.seamOutcome (k ph g : Nat) (faulty : List Nat) : EnginesKept s (s.seamOutcome k ph g faulty) := by
  unfold State.seamOutcome
  dsimp only
  split
  · exact .seamTransient ..
  · refine .ite (.seamMany ..) (.ite ?_ (.ite ?_ (((EnginesKept.seamFail ..).trans (.unplannedDetour ..)).trans (.seamHandled ..))))
    · exact (((EnginesKept.seamFail ..).trans (.modSlab ..)).trans (.beginSpare ..)).trans (.seamHandled ..)
    · exact (((EnginesKept.seamFail ..).trans (.modSlab ..)).trans (.beginSpare ..)).trans (.seamHandled ..)
  · exact .seamMany ..

theorem EnginesKept.seamLocalised (k : Nat) (reads : List Int) : EnginesKept s (s.seamLocalised k reads) := by
  unfold State.seamLocalised
  split
  · exact (EnginesKept.modCluster ..).trans (.seamOutcome ..)
  · exact .refl s

theorem EnginesKept.settleSeams (phs : List BenchPhase) (conv : Nat → Conversion) (k fuel : Nat) (s : State) :
    EnginesKept s (State.settleSeams phs conv k fuel s) := by
  induction fuel generalizing s with
  | zero => exact .refl s
  | succ fuel ih =>
    unfold State.settleSeams
    dsimp only
    split
    · exact .refl s
    · refine EnginesKept.trans (EnginesKept.trans ?_ (.seamLocalised ..)) (ih _)
      exact (EnginesKept.useFree s _).trans (.modSlab ..)

theorem EnginesGoOn.forEach {α : Type} {f : State → α → State} (h : ∀ s a, EnginesGoOn s (f s a)) (l : List α) (s : State) :
    EnginesGoOn s (forEach l s f) := forEach_rel EnginesGoOn.refl EnginesGoOn.trans h l s

/-- A task that goes on as a detour, or finds the replay log full. -/
theorem EnginesGoOn.toDetour : EnginesGoOn s (s.toDetour c i) := by
  unfold State.toDetour
  dsimp only
  split
  · exact .ite (.refl s) (.ite ((EnginesKept.modCluster ..).goOn.trans (.opticalFlag ..)) (EnginesKept.modCluster ..).goOn)
  · exact .refl s

theorem EnginesKept.driftPair (k : Nat) (d : Int) : EnginesKept s (s.driftPair k d) := ⟨rfl, rfl⟩

theorem EnginesGoOn.driftAfter (k : Nat) : EnginesGoOn s (s.driftAfter k) := by
  unfold State.driftAfter
  split
  · exact .ite (EnginesKept.driftPair ..).goOn (.refl s)
  · exact .refl s

theorem EnginesGoOn.leaveSlabs : EnginesGoOn s (s.leaveSlabs c i) := by
  unfold State.leaveSlabs State.turnDetours
  refine EnginesGoOn.trans (EnginesGoOn.trans ?_ (.forEach (fun s j => .ite (.toDetour s c j) (.refl s)) _ _)) (.forEach EnginesGoOn.driftAfter _ _)
  exact (EnginesKept.forEach (fun _ _ => .modSlab ..) _ s).goOn

theorem EnginesGoOn.stopSlab : EnginesGoOn s (s.stopSlab c i r) := by
  unfold State.stopSlab
  dsimp only
  refine .ite ((EnginesKept.stopped ..).goOn.trans (.leaveSlabs ..)) (EnginesGoOn.trans ?_ (.leaveSlabs ..))
  refine (EnginesKept.trans (EnginesKept.trans ?_ (.slabResult ..)) (.stopped ..)).goOn
  exact (EnginesKept.useFree s _).trans (.forEach (fun _ _ => .settleSeams ..) _ _)

end

end Sys2Proof.Machine
end

section
/-! PROOFS. Epoch verdicts, what they confirm, and spoils (R289 to R291, R293, R298, R303). -/

namespace Sys2Proof.Machine

theorem exec_epochVerdict (s : State) (dt : Nat) (e : EngineId) :
    exec (.epochVerdict dt e) s = .next ((s.elapse dt).verdict e 10000 20001) := rfl
theorem exec_verdictLate (s : State) (dt : Nat) (e : EngineId) :
    exec (.verdictLate dt e) s = .next ((s.elapse dt).verdict e 20000 20000) := rfl
theorem exec_spoil (s : State) (dt : Nat) (e : EngineId) : exec (.spoil dt e) s = .next ((s.elapse dt).runSpoil e) := rfl

/-! ## Confirmation and spoil of what a cluster holds (R293, R298) -/

theorem epLe_refl (a : Nat) : epLe a a = true := by
  have h : (a + 4294967296 - a % 4294967296) % 4294967296 = 0 := by omega
  rw [epLe, h]
  rfl

theorem EventsOnly.mem {s t : State} (h : EventsOnly s t) : t.mem = s.mem := by rw [h.1]
theorem EventsOnly.tags {s t : State} (h : EventsOnly s t) : t.tags = s.tags := by rw [h.1]

/-- `t` has the memory and the line tags of `s`, and of engine `e` the verdicts and the flags. -/
structure VerdictsKept (e : Nat) (s t : State) : Prop where
  mem : t.mem = s.mem
  history : (t.engine e).history = (s.engine e).history
  lastVerdict : (t.engine e).lastVerdict = (s.engine e).lastVerdict
  status : (t.engine e).status = (s.engine e).status

section
variable {e : Nat}

theorem VerdictsKept.trans {s t u : State} (h : VerdictsKept e s t) (g : VerdictsKept e t u) : VerdictsKept e s u :=
  ⟨g.mem.trans h.mem, g.history.trans h.history, g.lastVerdict.trans h.lastVerdict, g.status.trans h.status⟩

theorem EnginesKept.verdicts {s t : State} (h : EnginesKept s t) (hm : t.mem = s.mem) : VerdictsKept e s t :=
  ⟨hm, by rw [h.engine], by rw [h.engine], by rw [h.engine]⟩

theorem VerdictsKept.mapStates (s : State) (tag : Tag → Option Tag) (acc : AccSet → AccSet) (set : WeightSet → WeightSet)
    (run : TaskRun → TaskRun) : VerdictsKept e s (s.mapStates e tag acc set run) := by
  have h : (s.mapStates e tag acc set run).engine e = { s.engine e with active := set (s.engine e).active, shadow := set (s.engine e).shadow } := by
    unfold State.mapStates
    rw [(EnginesKept.modCluster ..).engine, State.engine_modEngine_same]
    rfl
  exact ⟨rfl, by rw [h], by rw [h], by rw [h]⟩

theorem VerdictsKept.spoilDue (s : State) (d : Option (Nat × Bool)) : VerdictsKept e s (s.modEngine e (fun x => { x with spoilDue := d })) := by
  have h := State.engine_modEngine_same s e (fun x => { x with spoilDue := d })
  exact ⟨rfl, by rw [h], by rw [h], by rw [h]⟩

/-- The records that are released are posted. -/
theorem releaseHeld_posts (s : State) (c : Nat) (done : Nat → Bool) : EventsOnly
    { s with mbx := { s.mbx with held := s.mbx.held.filter (fun h => !(decide (h.cluster = c) && done h.epoch)) } } (s.releaseHeld c done) :=
  EventsOnly.forEach _ (fun s (h : HeldEvent) => s.post h.ev) (fun s h => post_eventsOnly s h.ev) _

theorem VerdictsKept.releaseHeld (s : State) (c : Nat) (done : Nat → Bool) : VerdictsKept e s (s.releaseHeld c done) := by
  have h := releaseHeld_posts s c done
  have hk := EnginesKept.of_eventsOnly h
  exact EnginesKept.verdicts ⟨hk.time, hk.engines⟩ h.mem

theorem VerdictsKept.confirmTo (s : State) (ep : Nat) : VerdictsKept e s (s.confirmTo e ep) := by
  unfold State.confirmTo
  extract_lets mapped cleared
  have hmapped : VerdictsKept e s mapped := .mapStates ..
  have hcleared : VerdictsKept e mapped cleared := (EnginesKept.modCluster ..).verdicts rfl
  have hholds : VerdictsKept e cleared (cleared.releaseHolds e) := (EnginesKept.releaseHolds ..).verdicts (EngineKept.releaseHolds ..).mem
  exact ((hmapped.trans hcleared).trans hholds).trans (.releaseHeld ..)

theorem VerdictsKept.spoilFrom (s : State) (ep : Nat) : VerdictsKept e s (s.spoilFrom e ep) := by
  unfold State.spoilFrom
  extract_lets mapped
  have hmapped : VerdictsKept e s mapped := .mapStates ..
  exact hmapped.trans ⟨rfl, rfl, rfl, rfl⟩

end

theorem releaseHolds_tags (s : State) (c : Nat) : (s.releaseHolds c).tags = s.tags := by
  unfold State.releaseHolds
  dsimp only
  split <;> rfl

/-- The tags that a change of a cluster's places leaves. -/
theorem mapStates_tags (s : State) (c : Nat) (tag : Tag → Option Tag) (acc : AccSet → AccSet) (set : WeightSet → WeightSet)
    (run : TaskRun → TaskRun) : (s.mapStates c tag acc set run).tags =
      s.tags.filterMap (fun (t : Nat × Tag) => if lineCluster t.1 = c then (tag t.2).map (fun y => (t.1, y)) else some t) := rfl

/-- A tag in the cluster comes from one that was there before. -/
theorem mem_mapStates_tags {s : State} {c : Nat} {tag : Tag → Option Tag} {acc : AccSet → AccSet} {set : WeightSet → WeightSet}
    {run : TaskRun → TaskRun} {w : Nat × Tag} (hw : w ∈ (s.mapStates c tag acc set run).tags) (hc : lineCluster w.1 = c) :
    ∃ t, tag t = some w.2 := by
  rw [mapStates_tags] at hw
  obtain ⟨t, -, ht⟩ := List.mem_filterMap.mp hw
  split at ht
  · obtain ⟨y, hy, rfl⟩ := Option.map_eq_some_iff.mp ht
    exact ⟨t.2, hy⟩
  · next hn =>
    cases ht
    exact absurd hc hn

theorem confirmTo_tags (s : State) (c ep : Nat) : (s.confirmTo c ep).tags =
    (s.mapStates c (fun t => if !t.spoiled && epLe t.epoch ep then none else some t) (fun a => a.confirm ep) (fun a => a.confirm ep)
      (fun a => a.confirm ep)).tags := by
  unfold State.confirmTo
  extract_lets mapped cleared
  exact (releaseHeld_posts ..).tags.trans (releaseHolds_tags cleared c)

theorem spoilFrom_tags (s : State) (c ep : Nat) : (s.spoilFrom c ep).tags =
    (s.mapStates c (fun t => some (if epLe ep t.epoch then { t with spoiled := true } else t)) (fun a => a.spoil ep) (fun a => a.spoil ep)
      (fun a => a.spoil ep)).tags := rfl

/-- A tag that a clean verdict leaves is spoiled or of a later epoch (R293). -/
theorem tag_confirmTo {s : State} {c ep : Nat} {w : Nat × Tag} (hw : w ∈ (s.confirmTo c ep).tags) (hc : lineCluster w.1 = c) :
    w.2.spoiled = true ∨ epLe w.2.epoch ep = false := by
  rw [confirmTo_tags] at hw
  obtain ⟨t, ht⟩ := mem_mapStates_tags hw hc
  split at ht
  · cases ht
  · next hn =>
    cases ht
    simp only [Bool.and_eq_true, Bool.not_eq_true', not_and, Bool.not_eq_true] at hn
    cases hs : w.2.spoiled with
    | true => exact .inl rfl
    | false => exact .inr (hn hs)

/-- A tag of the epoch of a spoil or after it is spoiled (R298). -/
theorem tag_spoilFrom {s : State} {c ep : Nat} {w : Nat × Tag} (hw : w ∈ (s.spoilFrom c ep).tags) (hc : lineCluster w.1 = c)
    (he : epLe ep w.2.epoch = true) : w.2.spoiled = true := by
  rw [spoilFrom_tags] at hw
  obtain ⟨t, ht⟩ := mem_mapStates_tags hw hc
  obtain ht := Option.some.inj ht
  split at ht
  · rw [← ht]
  · next hn =>
    rw [ht] at hn
    exact absurd he hn

/-! ## Verdicts (R289 to R291) -/

/-- The verdict of an epoch, by what the epoch has seen. -/
def State.verdictOf (s : State) (e ep : Nat) (late : Bool) : Verdict :=
  let i := s.epochSeen e ep
  { epoch := ep, clean := !(i.ring || i.power || i.pilot || i.forced || late), ring := i.ring, power := i.power, pilot := i.pilot, late := late
    integrated := i.integrated, row := i.row.getD 0x7F, line := i.line }

/-- The verdict enters the history of its engine; one that is not clean sets its flag. -/
def State.recorded (s : State) (e ep : Nat) (late : Bool) : State :=
  let v := s.verdictOf e ep late
  s.modEngine e (fun x => { x with
    history := (v :: x.history).take 64, lastVerdict := ep, anyVerdict := true, epochs := x.epochs.filter (fun y => !epLe y.1 ep)
    lastDirty := if v.clean then x.lastDirty else ep, status := x.status.hitIf (!v.clean) 2 })

/-- What a verdict confirms or spoils leaves it in its place. -/
theorem publish_kept (s : State) (e ep : Nat) (late : Bool) : VerdictsKept e (s.recorded e ep late) (s.publish e ep late) := by
  have hoptical : ∀ (s : State) (kind row line epoch detail : Nat) (inj : Bool), VerdictsKept e s (s.optical e kind row line epoch detail inj) :=
    fun s kind row line epoch detail inj => (EnginesKept.optical ..).verdicts (EngineKept.optical ..).mem
  unfold State.publish
  extract_lets seen clean verdict recorded bits noted
  have hnoted : VerdictsKept e recorded noted := hoptical ..
  change VerdictsKept e recorded _
  split
  · exact .confirmTo ..
  · split
    · exact hnoted
    · exact (hnoted.trans (.spoilFrom ..)).trans (.spoilDue ..)

/-- The published verdict is the first of the history; memory stays. -/
theorem publish_records (s : State) (e ep : Nat) (late : Bool) : ∃ rest,
    ((s.publish e ep late).engine e).history = s.verdictOf e ep late :: rest ∧ ((s.publish e ep late).engine e).lastVerdict = ep
      ∧ (s.publish e ep late).mem = s.mem
      ∧ ((s.verdictOf e ep late).clean = false → ((s.publish e ep late).engine e).status.has 2 = true) := by
  have hkept := publish_kept s e ep late
  rw [hkept.history, hkept.lastVerdict, hkept.mem, hkept.status, State.recorded, State.engine_modEngine_same]
  refine ⟨_, rfl, rfl, rfl, fun h => ?_⟩
  rw [h]
  exact W1c.has_hit_same _ (by decide)

/-- With one verdict due and no spoil, that verdict is published. -/
theorem verdict_one {s : State} {e ep ago : Nat} (limit : Nat) (hc : s.clocksOn = true) (hl : s.lastEnded ago = some ep)
    (hd : (s.engine e).dueEpochs ep s.epochNow = [ep]) (hn : (s.engine e).spoilDue = none) :
    s.verdict e ago limit = s.publish e ep ((s.lastEnded limit).any (fun l => epLe ep l)) := by
  simp only [State.verdict, hc, hl, hd, State.publishAll, State.runSpoil, hn, Bool.not_true, Bool.false_eq_true, if_false]

/-! ## The walk of a spoil (R303) -/

/-- No spoil becomes due or is over, and no flag of an engine is cleared. -/
structure SpoilKept (s t : State) : Prop where
  due : ∀ e, (t.engine e).spoilDue = (s.engine e).spoilDue
  flags : ∀ e i, (s.engine e).status.has i = true → (t.engine e).status.has i = true

theorem EnginesGoOn.spoil {s t : State} (h : EnginesGoOn s t) : SpoilKept s t :=
  ⟨fun e => (h.engine e).spoilDue, fun e => (h.engine e).flags⟩

theorem EnginesKept.spoil {s t : State} (h : EnginesKept s t) : SpoilKept s t := h.goOn.spoil

theorem SpoilKept.refl (s : State) : SpoilKept s s := (EnginesKept.refl s).spoil

theorem SpoilKept.trans {s t u : State} (h : SpoilKept s t) (g : SpoilKept t u) : SpoilKept s u :=
  ⟨fun e => (g.due e).trans (h.due e), fun e i => g.flags e i ∘ h.flags e i⟩

theorem SpoilKept.ite {s t u : State} {p : Prop} [Decidable p] (h : SpoilKept s t) (g : SpoilKept s u) :
    SpoilKept s (if p then t else u) := by
  split
  · exact h
  · exact g

theorem SpoilKept.forEach {α : Type} {f : State → α → State} (h : ∀ s a, SpoilKept s (f s a)) (l : List α) (s : State) :
    SpoilKept s (forEach l s f) := forEach_rel SpoilKept.refl SpoilKept.trans h l s

theorem SpoilKept.modEngine (s : State) (e : Nat) {f : Engine → Engine} (hd : ∀ x, (f x).spoilDue = x.spoilDue)
    (hs : ∀ (x : Engine) i, x.status.has i = true → (f x).status.has i = true) : SpoilKept s (s.modEngine e f) := by
  have hone : ∀ d, ((s.modEngine e f).engine d).spoilDue = (s.engine d).spoilDue
      ∧ ∀ i, (s.engine d).status.has i = true → ((s.modEngine e f).engine d).status.has i = true := by
    intro d
    by_cases h : d = e
    · subst h
      rw [State.engine_modEngine_same]
      exact ⟨hd _, hs _⟩
    · rw [State.engine_modEngine_other _ _ h]
      exact ⟨rfl, fun _ => id⟩
  exact ⟨fun d => (hone d).1, fun d => (hone d).2⟩

theorem SpoilKept.stall (s : State) (e n : Nat) : SpoilKept s (s.modEngine e (fun g => g.stall n)) :=
  .modEngine s e (fun _ => rfl) (fun _ _ h => W1c.has_hitIf_of_has _ _ h)

theorem SpoilKept.addStall (s : State) (e n : Nat) : SpoilKept s (s.modEngine e (fun g => g.addStall n)) :=
  .modEngine s e (fun _ => rfl) (fun _ _ h => h)

theorem SpoilKept.engineNext (s : State) (c : Nat) : SpoilKept s (s.engineNext c) := by
  obtain h | h := engineNext_stalls s c
  · rw [h]
    exact .refl s
  · exact (SpoilKept.addStall ..).trans h.spoil

section
variable (s : State) (c i : Nat) (r : TaskRun)

theorem SpoilKept.stopOptical (tile late : Bool) : SpoilKept s (s.stopOptical c i r tile late) := by
  unfold State.stopOptical
  dsimp only
  refine .ite (EnginesKept.stopped ..).spoil ?_
  refine SpoilKept.trans (SpoilKept.trans ?_ (EnginesGoOn.omWrite ..).spoil) ((EnginesKept.endShort ..).trans (.releaseHolds ..)).spoil
  exact (EnginesKept.useFree s _).spoil.trans (.stall ..)

theorem SpoilKept.stopTask (late : Bool) : SpoilKept s (s.stopTask c i r late) := by
  unfold State.stopTask
  dsimp only
  split
  · exact .ite (.ite (EnginesKept.modCluster ..).spoil (EnginesKept.stopped ..).spoil) (EnginesGoOn.stopSlab ..).spoil
  · exact .stopOptical ..
  · exact .refl s
  · exact (EnginesKept.stopVector ..).spoil
  · exact (EnginesKept.stopHaul ..).spoil
  · exact (EnginesKept.stopHaul ..).spoil
  · exact (EnginesKept.stopRouter ..).spoil
  · exact (EnginesKept.stopEgress ..).spoil
  · exact (EnginesKept.stopped ..).spoil

theorem SpoilKept.toReplay : SpoilKept s (s.toReplay c i) := by
  unfold State.toReplay
  extract_lets x
  split
  · exact .refl s
  · extract_lets run stopped
    refine .ite (EnginesKept.modCluster ..).spoil ?_
    have hstopped : SpoilKept s stopped := .ite (.refl s) (.ite (.stopOptical ..) (.stopTask ..))
    exact hstopped.trans (.ite (EnginesKept.modCluster ..).spoil (EnginesKept.modCluster ..).spoil)

variable {s c}

/-- The walk of a spoil that was due is over, with its flag set. -/
theorem runSpoil_ends {ep : Nat} {inj : Bool} (h : (s.engine c).spoilDue = some (ep, inj)) :
    ((s.runSpoil c).engine c).spoilDue = none ∧ ((s.runSpoil c).engine c).status.has 3 = true := by
  have hover : ∀ t, SpoilKept ((s.spoilFrom c ep).modEngine c (fun x => { x with spoilDue := none, status := x.status.hit 3 })) t →
      (t.engine c).spoilDue = none ∧ (t.engine c).status.has 3 = true := by
    intro t ht
    have hengine := ht.due c
    have hflag := ht.flags c 3
    rw [State.engine_modEngine_same] at hengine hflag
    exact ⟨hengine, hflag (W1c.has_hit_same _ (by decide))⟩
  simp only [State.runSpoil, h]
  refine hover _ (SpoilKept.trans (SpoilKept.trans (SpoilKept.trans ?_ (.forEach (fun s i => .toReplay s c i) _ _))
    (EnginesKept.releaseHolds ..).spoil) (.engineNext ..))
  exact (EnginesKept.optical ..).spoil

end

/-! ## The statement -/

/-- Settles O42: the verdict that is due, the tags that a verdict and a spoil leave, and the end of the walk. -/
theorem epochVerdicts : Obligations.EpochVerdicts := by
  intro s dt e u hu
  have hengine : s.engine = u.engine := by rw [hu]; rfl
  have hclocks : s.clocksOn = u.clocksOn := by rw [hu]; rfl
  have hmem : s.mem = u.mem := by rw [hu]; rfl
  simp only [exec_epochVerdict, exec_verdictLate, exec_spoil, ← hu, hengine, hclocks, hmem]
  refine ⟨?verdict, ?late, ?confirmed, ?spoiled, ?walk⟩
  case verdict =>
    intro ep hc hl hn hd hs
    obtain ⟨rest, hhistory, hlast, hkept, -⟩ := publish_records u e ep false
    rw [verdict_one 20001 hc hl hd hs, hn]
    refine ⟨_, _, rest, rfl, hhistory, hlast, rfl, rfl, ?_, hkept⟩
    rw [State.verdictOf, Bool.or_false]
  case late =>
    intro ep hc hl hd hs
    obtain ⟨rest, hhistory, hlast, hkept, hflag⟩ := publish_records u e ep true
    have hdirty : (u.verdictOf e ep true).clean = false := by rw [State.verdictOf, Bool.or_true, Bool.not_true]
    rw [verdict_one 20000 hc hl hd hs, hl, Option.any_some, epLe_refl]
    exact ⟨_, _, rest, rfl, hhistory, hlast, rfl, rfl, hdirty, hflag hdirty, hkept⟩
  case confirmed =>
    rintro w ep _ hw rfl hc
    exact tag_confirmTo hw hc
  case spoiled =>
    rintro w ep _ hw rfl hc he
    exact tag_spoilFrom hw hc he
  case walk =>
    intro ep inj hs
    exact ⟨_, rfl, runSpoil_ends hs⟩

end Sys2Proof.Machine
end

section
/-! PROOFS. The loop, crosstalk, limit, light, power state and converter commands (R249, R331, R334, R361, R373, R374, R381, R384, R387, R706,
R745, R752, R763, R788, R791), and the end of a freeze (R388). -/

namespace Sys2Proof.Machine

section
variable {s f : State} {dt : Nat} {h : CmdHdr} {c : HostCmd}

/-- A command whose own row does no more than submit it completes with what its meaning leaves. -/
theorem row_ended (hrow : exec (commandRow dt h c) s = .next ((s.elapse dt).submit h c)) (e : f = s.taken dt h) (hr : Ready s dt h c)
    {u : State} {result : Nat} (ha : runHostCmd c h f = Answer.okR u result) :
    exec (commandRow dt h c) s = .next (f.ended u h c result []) := hrow.trans (congrArg _ (submit_ended e hr ha))

theorem row_ok (hrow : exec (commandRow dt h c) s = .next ((s.elapse dt).submit h c)) (e : f = s.taken dt h) (hr : Ready s dt h c)
    {u : State} (ha : runHostCmd c h f = Answer.ok u) : exec (commandRow dt h c) s = .next (f.ended u h c 0 []) :=
  row_ended hrow e hr ha

/-- One that waits stays in execution. -/
theorem row_staying (hrow : exec (commandRow dt h c) s = .next ((s.elapse dt).submit h c)) (e : f = s.taken dt h) (hr : Ready s dt h c)
    {u : State} {left : Nat} (ha : runHostCmd c h f = Answer.wait u left) :
    exec (commandRow dt h c) s = .next (f.staying u h c left) := hrow.trans (congrArg _ (submit_staying e hr ha))

end

section
variable (h : CmdHdr) {f : State}

/-! ## Loops (R381, R384, R387) -/

theorem cmdLoopWrite_writes {p : LoopWriteParams} {n : Nat} (hk : p.loop.toNat ≤ 5128) (ho : loopField p.offset.toNat = some n)
    (hv : p.value.toNat < 2 ^ n) (ht : p.offset.toNat = 0x1A → p.value.toNat / 4 ≠ 3)
    (hl : isLock p.loop.toNat = false → 0x18 ≤ p.offset.toNat → p.value.toNat = 0)
    (hb : coBad (coPut (f.loop p.loop.toNat).base p.offset.toNat p.value.toNat) = false)
    (hc : isLock p.loop.toNat = true → p.offset.toNat = 0x1A → f.toneClash f.xtActive p.loop.toNat [p.value.toNat % 4] = false
      ∧ (f.xcommit.contains (p.loop.toNat / 2560) = true → f.toneClash f.xtStaged p.loop.toNat [p.value.toNat % 4] = false)) :
    cmdLoopWrite h p f = Answer.ok (f.writeLoop p.loop.toNat p.offset.toNat p.value.toNat) := by
  have hplace : ¬ ((!isLock p.loop.toNat) = true ∧ 0x18 ≤ p.offset.toNat ∧ p.value.toNat ≠ 0) := by
    rintro ⟨hno, hle, hne⟩
    exact hne (hl (by simpa using hno) hle)
  have hclash : ¬ (isLock p.loop.toNat = true ∧ p.offset.toNat = 0x1A ∧ (f.toneClash f.xtActive p.loop.toNat [p.value.toNat % 4] = true
      ∨ f.xcommit.contains (p.loop.toNat / 2560) = true ∧ f.toneClash f.xtStaged p.loop.toNat [p.value.toNat % 4] = true)) := by
    rintro ⟨hlock, htone, hclash⟩
    obtain ⟨hactive, hstaged⟩ := hc hlock htone
    rcases hclash with ha | ⟨hcommit, hs⟩
    · exact Bool.false_ne_true (hactive.symm.trans ha)
    · exact Bool.false_ne_true ((hstaged hcommit).symm.trans hs)
  have htone : ¬ (p.offset.toNat = 0x1A ∧ p.value.toNat / 4 = 3) := fun hx => ht hx.1 hx.2
  simp only [cmdLoopWrite, ho, hb, Nat.not_lt.mpr hk, Nat.not_le.mpr hv, if_neg hplace, if_neg hclash, if_neg htone, Bool.false_eq_true, if_false]

theorem cmdLoopFreeze_freezes {p : LoopRange} (hn : p.first.toNat + p.count.toNat ≤ 5129)
    (hs : ∀ k ∈ loopRange p, (f.loop k).phase ≠ .sweep) (hp : 5120 ∈ loopRange p → 14000 ≤ f.power.tl) :
    cmdLoopFreeze h p f = Answer.ok (forEach (loopRange p) f (fun g k => g.modLoop k (fun x =>
      if x.frozen ∧ x.releaseFrom.isNone then x else { x with freezeFrom := some (g.now + 1) }))) := by
  have hsweep : ¬ (loopRange p).any (fun k => (f.loop k).phase == .sweep) = true := by simpa using hs
  have hlimit : ¬ ((loopRange p).contains 5120 = true ∧ f.power.tl < 14000) := by
    rw [List.contains_iff_mem]
    exact fun hx => Nat.not_lt.mpr (hp hx.1) hx.2
  exact (if_neg (Nat.not_lt.mpr hn)).trans ((if_neg hsweep).trans (if_neg hlimit))

theorem cmdLoopRelease_releases {p : LoopRange} (hn : p.first.toNat + p.count.toNat ≤ 5129)
    (hb : ∀ k ∈ loopRange p, (f.loop k).frozen = true → coBad (f.loop k).base = false) :
    cmdLoopRelease h p f = Answer.ok (forEach (loopRange p) f (fun g k => g.modLoop k (fun x =>
      { x with releaseFrom := if x.frozen || x.freezeFrom.isSome then some (g.now + 1) else none }))) := by
  have hbad : ¬ (loopRange p).any (fun k => (f.loop k).frozen && coBad (f.loop k).base) = true := by simpa using hb
  exact (if_neg (Nat.not_lt.mpr hn)).trans (if_neg hbad)

/-! ## Crosstalk (R373, R374) -/

theorem cmdXtalkLoad_stages {p : XtalkParams} {u : State} (hn : p.first.toNat + p.count.toNat ≤ 2560) (hl : h.bulk.length = 32 * p.count.toNat)
    (hb : ∀ e ∈ indexed (xtRecords p.count.toNat h.bulk), xtBad (p.first.toNat + e.1) e.2 = false)
    (hu : u = f.stageXtalk ((if p.die then 1 else 0) * 2560 + p.first.toNat) (indexed (xtRecords p.count.toNat h.bulk)))
    (hc : ∀ e ∈ indexed (xtRecords p.count.toNat h.bulk), u.toneClash u.xtStaged ((if p.die then 1 else 0) * 2560 + p.first.toNat + e.1)
      (u.loop ((if p.die then 1 else 0) * 2560 + p.first.toNat + e.1)).tones = false)
    (hs : p.commit = true → u.stageClash (if p.die then 1 else 0) = false) :
    cmdXtalkLoad h p f = Answer.ok (if p.commit then { u with xcommit := (u.xcommit ++ [if p.die then 1 else 0]).dedup } else u) := by
  have hfind : (indexed (xtRecords p.count.toNat h.bulk)).find? (fun e => xtBad (p.first.toNat + e.1) e.2) = none := by
    rw [List.find?_eq_none]
    exact fun e he => Bool.eq_false_iff.mp (hb e he)
  have hclash : ¬ ((indexed (xtRecords p.count.toNat h.bulk)).any (fun e =>
      u.toneClash u.xtStaged ((if p.die then 1 else 0) * 2560 + p.first.toNat + e.1)
        (u.loop ((if p.die then 1 else 0) * 2560 + p.first.toNat + e.1)).tones) = true
      ∨ p.commit = true ∧ u.stageClash (if p.die then 1 else 0) = true) := by
    rintro (hx | ⟨hcommit, hx⟩)
    · obtain ⟨e, he, hx⟩ := List.any_eq_true.mp hx
      exact Bool.false_ne_true ((hc e he).symm.trans hx)
    · exact Bool.false_ne_true ((hs hcommit).symm.trans hx)
  simp only [cmdXtalkLoad, hfind, hl, ← hu, if_neg hclash, Nat.not_lt.mpr hn, ne_eq, not_true_eq_false, if_false]

/-! ## Limits (R706, R763) -/

theorem cmdPowerLimitSet_writes {p : PowerLimitParams} (h1 : 4000 ≤ p.pwr.toNat) (h2 : p.pwr.toNat ≤ 14000) (h3 : 1000 ≤ p.iin.toNat)
    (h4 : p.iin.toNat ≤ 3600) :
    cmdPowerLimitSet h p f = Answer.ok ((f.writeLoop 5120 0x0E p.pwr.toNat).writeLoop 5121 0x0E p.iin.toNat) :=
  (if_neg (by omega)).trans (if_neg (by omega))

theorem cmdThermalLimitsSet_writes {l : List Half} (hl : ∀ x ∈ indexed l, x.2 = 0xFFFF ∨ (80 ≤ x.2.toNat ∧ x.2.toNat ≤ setpointMax x.1)) :
    cmdThermalLimitsSet h l f = Answer.ok (forEach (indexed l) f (fun g x =>
      if x.2 = 0xFFFF then g else g.writeLoop (5122 + x.1) 0x0E x.2.toNat)) := by
  have hfind : (indexed l).find? (fun x => decide (x.2 ≠ 0xFFFF) && (decide (x.2.toNat < 80) || decide (setpointMax x.1 < x.2.toNat)))
      = none := by
    rw [List.find?_eq_none]
    intro x hx
    simp only [Bool.and_eq_true, Bool.or_eq_true, decide_eq_true_eq]
    rintro ⟨hne, hlimit⟩
    obtain heq | ⟨hlow, hhigh⟩ := hl x hx
    · exact hne heq
    · omega
  simp only [cmdThermalLimitsSet, hfind]

end

theorem exec_thermalLimitsSet (s : State) (dt : Nat) (h : CmdHdr) {l : List Half} (hl : l.length = 7) :
    exec (.thermalLimitsSet dt h l) s = .next ((s.elapse dt).submit h (.thermalLimitsSet l)) := if_neg (not_not.mpr hl)

/-- Settles O14: each command passes its checks and leaves what its meaning leaves. -/
theorem controlCommands : Obligations.ControlCommands := by
  intro s dt h f hf
  refine ⟨?write, ?freeze, ?release, ?xtalk, ?power, ?thermal⟩
  case write => exact fun p n hr hk ho hv ht hl hb hc => row_ok rfl hf hr (cmdLoopWrite_writes h hk ho hv ht hl hb hc)
  case freeze => exact fun p hr hn hs hp => row_ok rfl hf hr (cmdLoopFreeze_freezes h hn hs hp)
  case release => exact fun p hr hn hb => row_ok rfl hf hr (cmdLoopRelease_releases h hn hb)
  case xtalk => exact fun p u hr hn hl hb hu hc hs => row_ok rfl hf hr (cmdXtalkLoad_stages h hn hl hb hu hc hs)
  case power => exact fun p hr h1 h2 h3 h4 => row_ok rfl hf hr (cmdPowerLimitSet_writes h h1 h2 h3 h4)
  case thermal => exact fun l hr hn hl => row_ok (c := .thermalLimitsSet l) (exec_thermalLimitsSet s dt h hn) hf hr (cmdThermalLimitsSet_writes h hl)

/-! ## The light commands (R249, R331, R334, R361) -/

section
variable (h : CmdHdr) {f : State}

theorem cmdLightStatus_reports : cmdLightStatus h f = Answer.okR f (f.cartStatus 0 + 2 ^ 32 * f.cartStatus 1 + 2 ^ 64 * f.power.ctl
    + 2 ^ 96 * ((List.range 128).filter (fun k => f.feedOf k ≠ 0)).length) := by
  simp only [cmdLightStatus, Nat.shiftLeft_eq, Nat.mul_comm]

theorem cmdLineAssignSpare_sets {p : AssignSpareParams} {k t : Nat} (hk : k = if p.cart then 1 else 0)
    (ht : t = f.time.occurrence p.frame.toNat p.tick.toNat f.timeNat) (hp : p.policy ≠ 3)
    (hs : p.switch = true → p.tick.toNat < ticksPerFrame f.time.period ∧ (f.cart k).waits p.line.toNat = true
      ∧ f.timeNat + 5000 ≤ t ∧ t ≤ f.timeNat + 5120000000) :
    cmdLineAssignSpare h p f = Answer.ok (let u := if p.switch then f.modCart k (fun x => { x with
        named := tabPut x.named p.line.toNat t, autoNamed := x.autoNamed.filter (· ≠ p.line.toNat) }) else f
      if p.policy = 2 then u else u.sparePolicy k (p.policy == 1)) := by
  subst hk ht
  have htick : ¬ (p.switch = true ∧ ticksPerFrame f.time.period ≤ p.tick.toNat) := fun hx => Nat.not_le.mpr (hs hx.1).1 hx.2
  have hwaits : ¬ (p.switch = true ∧ (!(f.cart (if p.cart then 1 else 0)).waits p.line.toNat) = true) := by
    rintro ⟨hsw, hno⟩
    obtain ⟨-, hw, -⟩ := hs hsw
    rw [hw] at hno
    cases hno
  have htime : ¬ (p.switch = true ∧ (f.time.occurrence p.frame.toNat p.tick.toNat f.timeNat < f.timeNat + Config.leadNs
      ∨ f.timeNat + 5120000000 < f.time.occurrence p.frame.toNat p.tick.toNat f.timeNat)) := by
    rintro ⟨hsw, hout⟩
    obtain ⟨-, -, hlead, hlate⟩ := hs hsw
    have hns : Config.leadNs = 5000 := rfl
    omega
  simp only [cmdLineAssignSpare, if_neg hp, if_neg htick, if_neg hwaits, if_neg htime]

theorem cmdLockAcquire_sweeps {p : LoopRange} (hn : p.first.toNat + p.count.toNat ≤ 5120) (h0 : 0 < p.count.toNat)
    (hk : ∀ k ∈ loopRange p, f.loopRowState k ≠ some .service ∧ (f.loop k).frozen = false) (hl : f.lasersOn = true) :
    cmdLockAcquire h p f = Answer.wait (f.acquireLoops (loopRange p)) 0 := by
  have hsome : ¬ (loopRange p).isEmpty = true := by
    simp only [loopRange, List.isEmpty_iff, List.map_eq_nil_iff, List.range_eq_nil]
    omega
  have hfree : ¬ (loopRange p).any (fun k => f.loopRowState k == some .service || (f.loop k).frozen) = true := by simpa using hk
  simp only [cmdLockAcquire, if_neg hsome, if_neg hfree, Nat.not_lt.mpr hn, hl, Bool.not_true, Bool.false_eq_true, if_false]

theorem cmdEngineCalibrate_starts {e : BitVec 6} (hb : (f.cluster e.toNat).busy = false) (hd : f.clusterDetours e.toNat = false)
    (hl : f.lasersOn = true) (hp : f.power.pstate ≠ .ps2) : cmdEngineCalibrate h e f = Answer.wait f 0 :=
  (if_neg (by simp [hb, hd])).trans (if_neg (by simp [hl, hp]))

/-! ## The power state and the monitor converters (R745, R752, R788, R791) -/

theorem cmdPowerStateSet_takes {st : BitVec 3} (hn : st.toNat ≤ 5) (hs : st ≠ 0 → f.power.stop = false) (hz : st = 0 → f.released = true) :
    cmdPowerStateSet h st f = if pstateOf st.toNat = f.power.pstate then Answer.ok f
      else if st = 0 then Answer.wait f 0
      else Answer.wait (f.modPower (fun p => { p with target := some (pstateOf st.toNat, f.leadFrom) })) 0 := by
  have hzero : st.toNat = 0 ↔ st = 0 := BitVec.toNat_inj (y := 0)
  have hstop : ¬ (¬ st = 0 ∧ f.power.stop = true) := fun hx => Bool.eq_false_iff.mp (hs hx.1) hx.2
  have hrel : ¬ (st = 0 ∧ (!f.released) = true) := by
    rintro ⟨h0, hno⟩
    rw [hz h0] at hno
    cases hno
  simp only [cmdPowerStateSet, Nat.not_lt.mpr hn, ne_eq, hzero, if_neg hstop, if_neg hrel, if_false]

theorem cmdMonconvConfigure_configures {p : MonconvParams} {w : Bool} (hc : f.convertersOn = true) (hw : w = (!p.refmode && !(f.mc p.mc.toNat).refReady)) :
    cmdMonconvConfigure h p f = if w then Answer.wait (f.modMc p.mc.toNat (fun x => x.configured p w f.now)) 0
      else Answer.ok (f.modMc p.mc.toNat (fun x => x.configured p w f.now)) := by
  simp only [cmdMonconvConfigure, hc, ← hw, Bool.not_true, Bool.false_eq_true, if_false]

theorem cmdMonconvInject_joins {p : InjectParams} (hc : f.convertersOn = true) (hn : (f.mc p.mc.toNat).inj.length < 4) :
    cmdMonconvInject h p f = Answer.wait (f.modMc p.mc.toNat (fun x => { x with
      inj := x.inj ++ [(p.channel.toNat, h.ring, x.injectAt f.now)]
      todo := x.todo.map (fun y => if f.now < y.2 then (y.1, y.2 + 25) else y) })) 0 :=
  (if_neg (by simp [hc])).trans (if_neg (Nat.not_le.mpr hn))

end

/-- Settles O13: each command passes its checks, and completes or waits. -/
theorem lightPowerAndConverterCommands : Obligations.LightPowerAndConverterCommands := by
  intro s dt h f hf
  refine ⟨?status, ?spare, ?acquire, ?calibrate, ?power, ?configure, ?inject⟩
  case status => exact fun hr => row_ended rfl hf hr (cmdLightStatus_reports h)
  case spare => exact fun p k t hk ht hr hp hs => row_ok rfl hf hr (cmdLineAssignSpare_sets h hk ht hp hs)
  case acquire => exact fun p hr hn h0 hk hl => row_staying rfl hf hr (cmdLockAcquire_sweeps h hn h0 hk hl)
  case calibrate => exact fun e hr hb hd hl hp => row_staying rfl hf hr (cmdEngineCalibrate_starts h hb hd hl hp)
  case power =>
    intro st hr hn hs hz
    have ha := cmdPowerStateSet_takes h hn hs hz
    split
    · next hsame => exact row_ok rfl hf hr (ha.trans (if_pos hsame))
    · next hother =>
      split
      · next hzero => exact row_staying rfl hf hr (ha.trans ((if_neg hother).trans (if_pos hzero)))
      · next hzero => exact row_staying rfl hf hr (ha.trans ((if_neg hother).trans (if_neg hzero)))
  case configure =>
    intro p w hr hc hw
    have ha := cmdMonconvConfigure_configures h hc hw
    split
    · next hwait => exact row_staying rfl hf hr (ha.trans (if_pos hwait))
    · next hnow => exact row_ok rfl hf hr (ha.trans (if_neg hnow))
  case inject => exact fun p hr hc hn => row_staying rfl hf hr (cmdMonconvInject_joins h hc hn)

/-! ## The end of a freeze (R388) -/

theorem exec_freezeTimeout (s : State) (dt : Nat) (k : LoopId) : exec (.freezeTimeout dt k) s = .next ((s.elapse dt).freezeTimeout k) := rfl

theorem freezeTimeout_thaws {s : State} {k : Nat} (hz : (s.loop k).frozen = true) (ht : (s.loop k).frozenAt + 1000000000 ≤ s.now) :
    s.freezeTimeout k = s.thaw k 0 := if_pos (by simp [hz, ht])

theorem thaw_frozen {s : State} {k : Nat} (detail : Nat) (hz : (s.loop k).frozen = true) : s.thaw k detail
    = (s.modLoop k (fun y => { y with frozen := false, staged := none, freezeFrom := none, releaseFrom := none })).light 0xFF liFreezeTimeout
      0xFF 0xFF k detail false := if_pos hz

/-- Settles O43: the loop thaws, and the report changes the event log's books alone. -/
theorem frozenLoopResumes : Obligations.FrozenLoopResumes := by
  rintro s dt k u rfl hz ht
  have hz' : ((s.elapse dt).loop k).frozen = true := hz
  rw [exec_freezeTimeout, freezeTimeout_thaws hz' ht, thaw_frozen 0 hz']
  exact ⟨rfl, raise_eventsOnly ..⟩

end Sys2Proof.Machine
end

section
/-! PROOFS. What ports do when their light or their group changes, and when one goes down: the frames that they send, put off and lose, and the
partners that they pass on, change the clusters' runs, the fabric's books, the CAs, the event log and the sources of the tick (R541 to R545). -/

namespace Sys2Proof.Machine

/-- Of a port, what neither its frames nor its partners change. -/
def Port.link (x : Port) : Bool × Byte × Bool × Option Nat := (x.up, x.dark, x.lacp, x.lacpAt)

/-- A state without its clusters, its fabric, its keys, its event log and the sources of its tick. -/
def State.offLinks (s : State) : State :=
  { s with clusters := [], fabric := Fabric.init, trust := Trust.init, mbx := Mailbox.init, free := 0,
           time := { s.time with sources := [], srcState := .free, lostAt := none } }

/-- What the traffic of the ports leaves of a state. -/
def State.links (s : State) : State × (Nat → Bool × Byte × Bool × Option Nat) := (s.offLinks, fun p => (s.port p).link)

section
variable {s t : State}

theorem offLinks_of_links (h : t.links = s.links) : t.offLinks = s.offLinks := congrArg Prod.fst h
theorem link_of_links (h : t.links = s.links) (p : Nat) : (t.port p).link = (s.port p).link := congrFun (congrArg Prod.snd h) p

theorem links_ext (h : t.offLinks = s.offLinks) (hp : ∀ p, (t.port p).link = (s.port p).link) : t.links = s.links :=
  Prod.ext h (funext hp)

theorem links_of_ports (h : t.offLinks = s.offLinks) (hp : t.fabric.ports = s.fabric.ports) : t.links = s.links :=
  links_ext h (fun p => by rw [State.port, hp, State.port])

theorem mem_of_offLinks (h : t.offLinks = s.offLinks) : t.mem = s.mem := (congrArg State.mem h :)
theorem engines_of_offLinks (h : t.offLinks = s.offLinks) : t.engines = s.engines := (congrArg State.engines h :)
theorem now_of_offLinks (h : t.offLinks = s.offLinks) : t.now = s.now := (congrArg (fun u => u.time.clock) h :)

theorem links_of_eventsOnly (h : EventsOnly s t) : t.links = s.links :=
  links_of_ports (by rw [h.1]; rfl) (by rw [h.1])

theorem links_of_sending {n : Nat} (h : Sending n s t) : t.links = s.links :=
  links_ext (by rw [h.only]; rfl) (fun p => by rw [h.ports p]; rfl)

end

section
variable (s : State)

@[simp] theorem links_raise (a b : Nat) (m i : Bool) (p : Nat) : (s.raise a b m i p).links = s.links :=
  links_of_eventsOnly (raise_eventsOnly ..)

@[simp] theorem links_fabricEv (tenant port kind unit partner detail : Nat) (inj : Bool) :
    (s.fabricEv tenant port kind unit partner detail inj).links = s.links := links_raise ..
@[simp] theorem links_light (cart kind line spare loop detail : Nat) (inj : Bool) :
    (s.light cart kind line spare loop detail inj).links = s.links := links_raise ..

@[simp] theorem links_modCluster (c : Nat) (f : Cluster → Cluster) : (s.modCluster c f).links = s.links := rfl
@[simp] theorem links_takeFree : s.takeFree.links = s.links := rfl
@[simp] theorem links_setPartner (i : Nat) (x : BitVec 512) : (s.setPartner i x).links = s.links := rfl
@[simp] theorem links_modCa (k : Nat) (f : Ca → Ca) : (s.modCa k f).links = s.links := rfl
@[simp] theorem offLinks_modPort (k : Nat) (f : Port → Port) : (s.modPort k f).offLinks = s.offLinks := rfl
@[simp] theorem links_emit (f : TxFrame) : (s.emit f).links = s.links := links_of_sending (emit_sending s f)

/-- A change of a port that leaves its link alone. -/
theorem links_modPort (k : Nat) {f : Port → Port} (hf : ∀ x, (f x).link = x.link) : (s.modPort k f).links = s.links := by
  refine links_ext rfl (fun p => ?_)
  by_cases h : p = k
  · rw [h, State.port_modPort_same, hf]
  · rw [State.port_modPort_other _ _ h]

@[simp] theorem links_countPort (p k n : Nat) : (s.countPort p k n).links = s.links := links_modPort s p (fun _ => rfl)
@[simp] theorem links_portFlag (p i : Nat) : (s.portFlag p i).links = s.links := links_modPort s p (fun _ => rfl)
@[simp] theorem links_countRx (p n : Nat) : (s.countRx p n).links = s.links := (links_countPort ..).trans (links_countPort ..)

/-! ## Frames put off and lost (R541, R543, R545) -/

@[simp] theorem links_release : s.release.links = s.links :=
  (forEach_keeps State.links _ (fun s _ => links_emit s _) _ _).trans (links_of_ports rfl rfl)

@[simp] theorem links_withdraw (p : Nat) : (s.withdraw p).links = s.links := by
  unfold State.withdraw
  dsimp only
  rw [forEach_keeps State.links _ (fun s f => by rw [links_countPort, links_countPort]), links_modPort _ p (by intro; rfl)]
  exact links_of_ports rfl rfl

@[simp] theorem links_breakEgress (p c i : Nat) (r : TaskRun) : (s.breakEgress p c i r).links = s.links := by
  unfold State.breakEgress
  dsimp only
  split
  · rfl
  · split
    · exact links_takeFree s
    · rw [links_modCluster, links_portFlag, links_takeFree]

@[simp] theorem links_breakOff (p : Nat) : (s.breakOff p).links = s.links := by
  have hruns : ∀ (s : State) (c : Nat), (forEach ((s.cluster c).runs.map (fun x => x.1)) s (fun t i => match (t.cluster c).run i with
      | some r => t.breakEgress p c i r
      | none => t)).links = s.links := fun s c => forEach_keeps State.links _ (fun t i => by split <;> simp) _ _
  refine (forEach_keeps State.links _ hruns _ _).trans ?_
  split
  · exact (links_of_ports rfl rfl).trans (links_portFlag s p 13)
  · rfl

@[simp] theorem links_pausePort (p : Nat) : (s.pausePort p).links = s.links := by
  unfold State.pausePort
  dsimp only
  rw [links_release, links_modPort _ p (by intro; rfl), links_withdraw, links_takeFree, links_breakOff]

/-- The ports of both stacks take their source, and pause where it changes: the links stay (R329, R545). -/
@[simp] theorem links_feedPorts : s.feedPorts.links = s.links := by
  unfold State.feedPorts
  refine forEach_keeps State.links _ (fun s p => ?_) _ _
  dsimp only
  rw [links_modPort _ p (by intro; rfl)]
  split
  · exact links_pausePort s p
  · rfl

/-! ## Partners that move, and the group's capacity (R541, R589, R591, R592) -/

@[simp] theorem links_movePartner (i : Nat) (inj : Bool) : (s.movePartner i inj).links = s.links := by
  unfold State.movePartner State.assignPort
  rw [links_fabricEv, links_setPartner, links_takeFree]

@[simp] theorem links_leavePort (p : Nat) (inj : Bool) : (s.leavePort p inj).links = s.links := by
  unfold State.leavePort
  rw [links_release]
  split
  · rfl
  · exact forEach_keeps State.links _ (fun s i => links_movePartner s i inj) _ _

@[simp] theorem links_walk (sel : Entry → Bool) (size : Entry → Nat) (cap : Nat) : (s.walk sel size cap).links = s.links := by
  unfold State.walk
  dsimp only
  split
  · rfl
  · rw [foldl_keeps State.links _ (by intro _ _; exact links_of_ports rfl rfl), links_takeFree]

@[simp] theorem links_groupChanged (g port was : Nat) (inj : Bool) : (s.groupChanged g port was inj).links = s.links := by
  unfold State.groupChanged
  dsimp only
  split
  · rfl
  · split
    · rw [links_walk, links_fabricEv]
    · exact links_fabricEv ..

/-! ## A port goes down (R542, R543) -/

@[simp] theorem links_loseSources (was : Bool) : (s.loseSources was).links = s.links := by
  have hlost : (if was && !s.time.inUse then s.modTime (fun t => { t with lostAt := some t.tickCount }) else s).links = s.links := by
    split <;> rfl
  unfold State.loseSources
  dsimp only
  split
  · exact (links_raise ..).trans ((links_of_ports rfl rfl).trans hlost)
  · exact hlost

@[simp] theorem links_ptpSilent (p : Nat) : (s.ptpSilent p).links = s.links := by
  unfold State.ptpSilent State.ptpLost State.disqualify
  rw [links_modPort _ p (by intro; rfl), links_modPort _ p (by intro; rfl), links_loseSources]
  exact links_of_ports rfl rfl

/-- The port's own record once it is down. -/
def Port.stopped (x : Port) : Port := { x with up := false, served := false, lacp := false, synceLock := false, status := x.status.hit 8 }

theorem portOut_idle {s : State} {p : Nat} (cause : Nat) (inj : Bool) (h : s.portRuns p = false) : s.portOut p cause inj = s :=
  if_pos (by rw [h]; rfl)

/-- A port that runs goes down; what follows leaves every link as it is. -/
theorem links_portOut {s : State} {p : Nat} (cause : Nat) (inj : Bool) (h : s.portRuns p = true) :
    (s.portOut p cause inj).links = (((s.breakOff p).withdraw p).modPort p Port.stopped).links := by
  unfold State.portOut
  simp only [h, Bool.not_true, Bool.false_eq_true, if_false, links_groupChanged, links_leavePort, links_fabricEv, links_ptpSilent]
  split
  · exact (links_countPort ..).trans (links_takeFree _)
  · rfl

@[simp] theorem offLinks_portOut (p cause : Nat) (inj : Bool) : (s.portOut p cause inj).offLinks = s.offLinks := by
  by_cases h : s.portRuns p = true
  · have hbefore := offLinks_of_links ((links_withdraw _ p).trans (links_breakOff s p))
    exact (offLinks_of_links (links_portOut cause inj h)).trans hbefore
  · rw [portOut_idle cause inj (Bool.not_eq_true _ ▸ h)]

/-- A port that goes down is no longer up, and its lanes are as dark as they were. -/
theorem portOut_port (p cause : Nat) (inj : Bool) (hl : s.linksOn = true) :
    ((s.portOut p cause inj).port p).up = false ∧ ((s.portOut p cause inj).port p).dark = (s.port p).dark := by
  by_cases h : s.portRuns p = true
  · have hdown := link_of_links (links_portOut cause inj h) p
    have hbefore := link_of_links ((links_withdraw _ p).trans (links_breakOff s p)) p
    rw [State.port_modPort_same] at hdown
    exact ⟨congrArg Prod.fst hdown, (congrArg (fun x => x.2.1) hdown).trans (congrArg (fun x => x.2.1) hbefore)⟩
  · have hup : (s.port p).up = false := by simpa [State.portRuns, hl] using h
    rw [portOut_idle cause inj (Bool.not_eq_true _ ▸ h)]
    exact ⟨hup, rfl⟩

end

end Sys2Proof.Machine
end

section
/-! PROOFS. Frames that carry no data of a partner, and fabric lanes (R340, R341, R536 to R539, R546, R548 to R551). -/

namespace Sys2Proof.Machine

theorem exec_pauseFrameRx (s : State) (dt : Nat) (p : PortId) : exec (.pauseFrameRx dt p) s = .next ((s.elapse dt).pauseFrame p) := rfl
theorem exec_lacpFrame (s : State) (dt : Nat) (p : PortId) (b : Bool) :
    exec (.lacpFrame dt p b) s = .next ((s.elapse dt).lacpFrame p b) := rfl
theorem exec_frameDropped (s : State) (dt : Nat) (p : PortId) (r : DropReason) :
    exec (.frameDropped dt p r) s = .next ((s.elapse dt).frameDropped p r) := rfl
theorem exec_oneWayDelay (s : State) (dt : Nat) (q : DelayRequest) :
    exec (.oneWayDelay dt q) s = .next ((s.elapse dt).oneWayDelay q.port q) := rfl
theorem exec_laneDark (s : State) (dt : Nat) (p : PortId) (l : Fin 8) : exec (.laneDark dt p l) s = .next ((s.elapse dt).laneDark p l) := rfl
theorem exec_laneRelight (s : State) (dt : Nat) (p : PortId) (l : Fin 8) :
    exec (.laneRelight dt p l) s = .next ((s.elapse dt).laneRelight p l) := rfl
theorem exec_laneProbe (s : State) (dt : Nat) (p : PortId) (l : Fin 8) : exec (.laneProbe dt p l) s = .next (s.elapse dt) := rfl

theorem exec_mkaFrame (s : State) (dt : Nat) (ca : BitVec 12) {sak : Option (List Byte)} (h : ∀ k, sak = some k → k.length = 32) :
    exec (.mkaFrame dt ca sak) s = .next ((s.elapse dt).mkaFrame ca.toNat sak) :=
  if_neg (by cases sak with
    | none => simp
    | some k => simp [h k rfl])

theorem exec_sakReplace (s : State) (dt : Nat) (ca : BitVec 12) {sak : Option (List Byte)} (h : ∀ k, sak = some k → k.length = 32) :
    exec (.sakReplace dt ca sak) s = .next ((s.elapse dt).sakReplace ca.toNat sak) :=
  if_neg (by cases sak with
    | none => simp
    | some k => simp [h k rfl])

section
variable {s : State} {p : Nat}

/-! ## PAUSE, LACP and frames dropped (R537 to R539) -/

theorem pauseFrame_counts (h : s.portRuns p = true) : s.pauseFrame p = s.countPort p 7 1 := if_neg (by simp [h])

theorem frameDropped_counts (h : s.portRuns p = true) (r : DropReason) : s.frameDropped p r = match r with
    | .oversize => s.countPort p 6 1
    | .noBuffer => s.portFlag p prDropBuf
    | .unprotected => s.portFlag p prUnprot
    | .icv => s.portFlag p prIcv
    | .unknown => s.portFlag p prUnknown := by
  cases r <;> exact if_neg (by simp [h])

/-- A port is a member of its own group while it is up and LACP holds it there (R539). -/
theorem mem_members_own : p ∈ s.members (p / 8) ↔ (s.port p).up = true ∧ (s.port p).collects s.now = true := by
  have hown : p ∈ (List.range 8).map (· + 8 * (p / 8)) := List.mem_map.mpr ⟨p % 8, List.mem_range.mpr (by omega), by omega⟩
  simp only [State.members, List.mem_filter, hown, true_and, Bool.and_eq_true]

@[simp] theorem links_joinGroup (s : State) (p : Nat) (f : Port → Port) : (s.joinGroup p f).links = (s.modPort p f).links := by
  unfold State.joinGroup
  dsimp only
  rw [links_release]
  split
  · exact forEach_keeps State.links _ (fun s i => links_movePartner s i false) _ _
  · rfl

/-- An LACPDU sets LACP of its port, is timed, and leaves everything off the links. -/
theorem lacpFrame_sets (b : Bool) (h : s.portRuns p = true) : (s.lacpFrame p b).offLinks = s.offLinks
    ∧ ((s.lacpFrame p b).port p).link = ((s.port p).up, (s.port p).dark, b, some s.now) := by
  -- The LACPDU is counted and timed before LACP looks at it.
  generalize ht : (s.countRx p lacpBytes).modPort p (fun x => { x with lacpAt := some s.now }) = t
  have hrx := links_countRx s p lacpBytes
  have hoff : t.offLinks = s.offLinks := ht ▸ (offLinks_modPort ..).trans (offLinks_of_links hrx)
  have hport : (t.port p).link = ((s.port p).up, (s.port p).dark, (s.port p).lacp, some s.now) := by
    have hcounted := link_of_links hrx p
    simp only [Port.link, Prod.mk.injEq] at hcounted
    obtain ⟨hup, hdark, hlacp, -⟩ := hcounted
    rw [← ht, State.port_modPort_same, Port.link, hup, hdark, hlacp]
  have hset : ∀ v : State, v.links = (t.modPort p (fun x => { x with lacp := b })).links → v.offLinks = s.offLinks
      ∧ (v.port p).link = ((s.port p).up, (s.port p).dark, b, some s.now) := by
    intro v hv
    have hlink := link_of_links hv p
    simp only [Port.link, Prod.mk.injEq] at hport
    obtain ⟨hup, hdark, -, hat⟩ := hport
    rw [State.port_modPort_same, Port.link, hup, hdark, hat] at hlink
    exact ⟨(offLinks_of_links hv).trans hoff, hlink⟩
  simp only [State.lacpFrame, h, Bool.not_true, Bool.false_eq_true, if_false, ht]
  split
  · next hsame =>
    rw [hsame]
    refine ⟨hoff, ?_⟩
    rw [hport]
    exact congrArg (fun l => ((s.port p).up, (s.port p).dark, l, some s.now)) (congrArg (fun x => x.2.2.1) hport).symm
  · cases b with
    | true => exact hset _ (links_joinGroup ..)
    | false => exact hset _ (links_leavePort ..)

/-- An LACPDU just heard holds a port in its group as long as LACP does. -/
theorem collects_heard {x : Port} {now : Nat} (h : x.lacpAt = some now) : x.collects now = x.lacp := by
  have hfresh : now < now + 3000000000 := by omega
  rw [Port.collects, h, Option.all_some, decide_eq_true hfresh, Bool.and_true]

/-- The port serves its group when its LACPDU says so. -/
theorem lacpFrame_members (b : Bool) (h : s.portRuns p = true) : p ∈ (s.lacpFrame p b).members (p / 8) ↔ b = true := by
  obtain ⟨hoff, hlink⟩ := lacpFrame_sets b h
  have hup : (s.port p).up = true := (Bool.and_eq_true_iff.mp h).2
  simp only [Port.link, Prod.mk.injEq] at hlink
  obtain ⟨hup', -, hlacp, hat⟩ := hlink
  rw [mem_members_own, now_of_offLinks hoff, collects_heard hat, hup', hup, hlacp, eq_self_iff_true, true_and]

/-! ## MKA (R550) -/

theorem mkaFrame_takes {k : Nat} (sak : Option (List Byte)) (hl : s.linksOn = true) (hc : (s.ca k).cak.isSome = true) :
    s.mkaFrame k sak = s.takeSak k sak := if_neg (by simp [hl, Option.isSome_iff_ne_none.mp hc])

theorem sakReplace_takes {k : Nat} (sak : Option (List Byte)) (hl : s.linksOn = true) (hc : (s.ca k).sak.isSome = true) :
    s.sakReplace k sak = s.takeSak k sak := if_neg (by simp [hl, Option.isSome_iff_ne_none.mp hc])

/-- Frames that go out leave every CA its SAK. -/
theorem release_sak (s : State) (k : Nat) : (s.release.ca k).sak = (s.ca k).sak :=
  forEach_keeps (fun t => (t.ca k).sak) _ (fun t _ => (emit_sending t _).sak k) _ _

/-- As key server the module takes a SAK from its own random source. -/
theorem takeSak_own (s : State) (k : Nat) : ((s.takeSak k none).ca k).sak = some (toLe 32 (Config.randomKey s.free).toNat) := by
  unfold State.takeSak
  dsimp only
  rw [release_sak, State.ca_modCa_same]
  rfl

/-! ## One-way delay (R551) -/

theorem bigEnd_length (n v : Nat) : (bigEnd n v).length = n := by rw [bigEnd, List.length_reverse, toLe_length]

/-- The answer to a one-way delay request: its measurement ID, action type 2 and the time of receipt (assumption 99). -/
def State.delayAnswer (s : State) (i : Nat) (m : DelayRequest) : TxFrame :=
  { port := pePort (s.partner i), kind := 3, type := 5, partner := i, tag := 0, seq := 0, offset := 0, last := true
    payload := [m.measurement, 2] ++ bigEnd 6 (s.timeNat / 1000000000) ++ bigEnd 4 (s.timeNat % 1000000000) ++ toLe 8 0
    header := [0x10, 5, 0, 20] }

theorem delayAnswer_size (i : Nat) (m : DelayRequest) : (s.delayAnswer i m).size ≤ frameMax := by
  have hm := Nat.mod_lt (Config.frameOverhead 24) (show 0 < 37 by decide)
  have hs : (s.delayAnswer i m).size = frameSize 24 := by
    simp [TxFrame.size, State.delayAnswer, bigEnd_length, toLe_length]
  rw [hs, frameSize, frameMax]
  omega

/-- A frame of `n` bytes of a partner is received: counted on its port and on the partner, and the replay window of its CA moved. -/
def State.received (s : State) (p i n : Nat) (pr : Protection) : State :=
  ((s.countRx p n).modCa (peCa (s.partner i)) (fun c => { c with rxPn := max c.rxPn (pr.pn.toNat + 1) })).countPartner i pcRx 1

section
variable (s : State) (p i n : Nat) (pr : Protection)

theorem countRx_trust : (s.countRx p n).trust = s.trust := by simp only [State.countRx, State.countPort, State.modPort_trust]

theorem received_only : FabricOnly s (s.received p i n pr) :=
  (FabricOnly.countRx ..).trans ((FabricOnly.modCa ..).trans (FabricOnly.countPartner ..))

theorem received_free : (s.received p i n pr).free = s.free := by
  simp only [State.received, State.countPartner, State.countRx, State.countPort, State.modDyn_free, State.modCa_free, State.modPort_free]

theorem received_fabric : (s.received p i n pr).fabric
    = { s.fabric with ports := (s.countRx p n).fabric.ports, dyn := (s.received p i n pr).fabric.dyn } := by
  simp only [State.received, State.countPartner, State.countRx, State.countPort, State.modDyn, State.modCa_fabric, State.modPort]

theorem received_partner (j : Nat) : (s.received p i n pr).partner j = s.partner j := by rw [State.partner, received_fabric, State.partner]

theorem received_port (j : Nat) : ((s.received p i n pr).port j).link = (s.port j).link := by
  rw [← link_of_links (links_countRx s p n) j, State.port, received_fabric, State.port]

/-- The partner's CA goes on to serve it. -/
theorem received_secured : (s.received p i n pr).secured i = s.secured i := by
  obtain ⟨hsak, hpn⟩ := modCa_rx (s.countRx p n) (peCa (s.partner i)) (peCa (s.partner i)) (fun c => max c.rxPn (pr.pn.toNat + 1))
  have hready : ((s.received p i n pr).ca (peCa (s.partner i))).ready = (s.ca (peCa (s.partner i))).ready := by
    have hca : (s.countRx p n).ca (peCa (s.partner i)) = s.ca (peCa (s.partner i)) := by rw [State.ca, countRx_trust, State.ca]
    rw [hca] at hsak hpn
    rw [Ca.ready, State.received, State.countPartner, State.ca, State.modDyn_trust, ← State.ca, hsak, hpn, Ca.ready]
  rw [State.secured, received_partner, hready, State.secured]

end

/-- A frame of a partner that serves, intact and under its CA, is received: counted, and the replay window moved. -/
theorem fromPartner_passes {i : Nat} (n : Nat) {pr : Protection} (hf : s.rxFault (peCa (s.partner i)) pr = none)
    (ha : peState (s.partner i) = psActive) : s.fromPartner p i n pr
      = ((s.countRx p n).modCa (peCa (s.partner i)) (fun c => { c with rxPn := max c.rxPn (pr.pn.toNat + 1) }), true) := by
  have hshed : ¬ peState (s.partner i) = psShed := by rw [ha]; decide
  have hpass : (s.countRx p n).rxFault (peCa (s.partner i)) pr = none := (rxFault_congr (countRx_trust ..) _ _).trans hf
  unfold State.fromPartner
  dsimp only
  rw [checked_passes hpass, if_neg (show ¬ (!true) = true by decide), if_neg hshed]

theorem transmit_free (s : State) (f : TxFrame) (at_ : Nat) : (s.transmit f at_).free = s.free := by
  unfold State.transmit
  dsimp only
  split <;> simp only [State.countPort, State.modPort_free, State.modFabric_free, State.modCa_free]

/-- An answered request leaves one frame more on the partner's port, and the time and everything else that is no book of the fabric. -/
theorem oneWayDelay_answers {m : DelayRequest} {i : Nat} (hrx : s.rxOn p = true) (hi : s.fronthaulAt m.mac = some i) (hr : m.revision = 1)
    (hc : m.concat = false) (ha : m.action.toNat ≤ 1) (hf : s.rxFault (peCa (s.partner i)) m.prot = none)
    (hact : peState (s.partner i) = psActive) (hsec : s.secured i = true) (hup : (s.port (pePort (s.partner i))).up = true)
    (hj : s.jtag.inEffect = false) : ∃ g rest, (s.oneWayDelay p m).fabric.sent = s.fabric.sent ++ [g] ∧ g.port = pePort (s.partner i)
      ∧ g.partner = i ∧ g.kind = 3 ∧ g.type = 5 ∧ g.payload = m.measurement :: 2 :: rest
      ∧ s.oneWayDelay p m = { s with fabric := (s.oneWayDelay p m).fabric, trust := (s.oneWayDelay p m).trust } := by
  generalize hv : s.received p i delayBytes m.prot = v
  have hsame : s.oneWayDelay p m = (v.emit (s.delayAnswer i m)).countPartner i pcTx 1 := by
    have hform : ¬ (m.revision ≠ 1 || m.concat || decide (1 < m.action.toNat)) = true := by simp [hr, hc, Nat.not_lt.mpr ha]
    simp only [State.oneWayDelay, hrx, hi, fromPartner_passes delayBytes hf hact, hform, Bool.not_true, Bool.false_eq_true, if_false, ← hv]
    rfl
  have hready : v.ready (s.delayAnswer i m) = true := by
    have hvup : (v.port (pePort (s.partner i))).up = true := hv ▸ (congrArg Prod.fst (received_port s p i delayBytes m.prot _)).trans hup
    have hvsec : v.secured i = true := hv ▸ (received_secured s p i delayBytes m.prot).trans hsec
    simp [State.ready, State.delayAnswer, hvup, hvsec]
  have honly : FabricOnly s v := hv ▸ received_only ..
  have hfree : v.free = s.free := hv ▸ received_free ..
  obtain ⟨-, h⟩ | ⟨-, h⟩ | ⟨at_, h⟩ := emit_cases v (s.delayAnswer i m)
  · have hsize := delayAnswer_size (s := s) i m
    have hvj : v.jtag.inEffect = false := by rw [honly.jtag, hj]
    simp only [hvj, Bool.false_eq_true, false_or] at h
    omega
  · exact absurd hready (Bool.eq_false_iff.mp h)
  · refine ⟨{ v.address (s.delayAnswer i m) with at_ := at_ }, _, ?sent, rfl, rfl, rfl, rfl, rfl, ?rest⟩
    case sent =>
      rw [hsame, h]
      exact (transmit_sent v (s.delayAnswer i m) at_).trans (by rw [← hv, received_fabric])
    case rest =>
      have hall : FabricOnly s (s.oneWayDelay p m) := by
        rw [hsame]
        exact honly.trans ((emit_sending v _).only.trans (FabricOnly.countPartner _ i pcTx 1))
      have hallfree : (s.oneWayDelay p m).free = s.free := by
        rw [hsame, h, State.countPartner, State.modDyn_free, State.modPort_free, transmit_free, hfree]
      exact Eq.trans hall (by rw [hallfree])

/-! ## Lanes (R340, R341, R542) -/

theorem linksOn_of_offLinks {s t : State} (h : t.offLinks = s.offLinks) : t.linksOn = s.linksOn := by
  have hp : t.power = s.power := (congrArg State.power h :)
  rw [State.linksOn, hp, State.linksOn]

/-- The state of a lane that has gone dark, with its report. -/
def State.laneOut (s : State) (p lane : Nat) : State :=
  (s.modPort p (fun x => { x with dark := x.dark ||| (1#8 <<< lane) })).light 0xFF liPortDark 0xFF 0xFF 0xFFFF (p * 8 + lane) (s.isInjected 5 p)

theorem laneDark_out {lane : Nat} (hl : s.linksOn = true) (hd : (s.port p).dark.getLsbD lane = false) :
    s.laneDark p lane = (s.laneOut p lane).portOut p 0 (s.isInjected 5 p) := if_neg (by simp [hl, hd])

theorem laneRelight_lit {lane : Nat} (hl : s.linksOn = true) (hd : (s.port p).dark.getLsbD lane = true) :
    s.laneRelight p lane = (s.modPort p (fun x => { x with dark := x.dark &&& ~~~(1#8 <<< lane) })).light 0xFF liPortRelit 0xFF 0xFF 0xFFFF
      (p * 8 + lane) (s.isInjected 5 p) := if_neg (by simp [hl, hd])

theorem laneOut_port (s : State) (p lane : Nat) : ((s.laneOut p lane).port p).link
    = ((s.port p).up, (s.port p).dark ||| (1#8 <<< lane), (s.port p).lacp, (s.port p).lacpAt) := by
  unfold State.laneOut
  rw [link_of_links (links_light ..) p, State.port_modPort_same]
  rfl

theorem offLinks_laneOut (s : State) (p lane : Nat) : (s.laneOut p lane).offLinks = s.offLinks :=
  (offLinks_of_links (links_light ..)).trans (offLinks_modPort ..)

/-- A dark lane takes its port down. -/
theorem laneDark_port {lane : Nat} (hl : s.linksOn = true) (hd : (s.port p).dark.getLsbD lane = false) :
    ((s.laneDark p lane).port p).dark = (s.port p).dark ||| (1#8 <<< lane) ∧ ((s.laneDark p lane).port p).up = false
      ∧ (s.laneDark p lane).mem = s.mem := by
  have hon := (linksOn_of_offLinks (offLinks_laneOut s p lane)).trans hl
  obtain ⟨hup, hdark⟩ := portOut_port (s.laneOut p lane) p 0 (s.isInjected 5 p) hon
  rw [laneDark_out hl hd]
  exact ⟨hdark.trans (congrArg (fun x => x.2.1) (laneOut_port s p lane)), hup,
    mem_of_offLinks ((offLinks_portOut ..).trans (offLinks_laneOut s p lane))⟩

/-- Of a port that is down a dark lane is reported, and nothing more. -/
theorem laneDark_down {lane : Nat} (hl : s.linksOn = true) (hd : (s.port p).dark.getLsbD lane = false) (hp : (s.port p).up = false) :
    EventsOnly (s.modPort p (fun x => { x with dark := x.dark ||| (1#8 <<< lane) })) (s.laneDark p lane) := by
  have hup : ((s.laneOut p lane).port p).up = false := (congrArg Prod.fst (laneOut_port s p lane)).trans hp
  have hidle : (s.laneOut p lane).portRuns p = false := by rw [State.portRuns, hup, Bool.and_false]
  rw [laneDark_out hl hd, portOut_idle _ _ hidle]
  exact raise_eventsOnly ..

end

/-- Settles O49: each frame by what it counts or answers, and each lane by its port and its report. -/
theorem linksAndLanes : Obligations.LinksAndLanes := by
  intro s dt p l ca sak u keyed hu hsak hkeyed
  have hlinks : s.linksOn = u.linksOn := by rw [hu]; rfl
  have hca : s.ca = u.ca := by rw [hu]; rfl
  have hport : s.port = u.port := by rw [hu]; rfl
  have hpartner : s.partner = u.partner := by rw [hu]; rfl
  have hlength : ∀ k, some sak = some k → k.length = 32 := fun k h => Option.some.inj h ▸ hsak
  have hnone : ∀ k : List Byte, none = some k → k.length = 32 := nofun
  have hfree : s.free = u.free := by rw [hu]; rfl
  simp only [exec_pauseFrameRx, exec_lacpFrame, exec_frameDropped, exec_oneWayDelay, exec_laneDark, exec_laneRelight, exec_laneProbe,
    exec_mkaFrame s dt ca hlength, exec_mkaFrame s dt ca hnone, exec_sakReplace s dt ca hlength, exec_sakReplace s dt ca hnone, ← hu, hlinks,
    hca, hport, hpartner, hfree, Host.Outcome.next.injEq, hkeyed]
  refine ⟨?frames, ?mka, ?sak, ?delay, ?dark, ?relit, trivial⟩
  case frames =>
    intro h
    refine ⟨pauseFrame_counts h, fun b => ⟨_, rfl, ?_, lacpFrame_members b h, ?_⟩, frameDropped_counts h _, frameDropped_counts h _,
      frameDropped_counts h _, frameDropped_counts h _, frameDropped_counts h _⟩
    · exact congrArg (fun x => x.2.2.1) (lacpFrame_sets b h).2
    · exact (mem_of_offLinks (lacpFrame_sets b h).1).trans (by rw [hu]; rfl)
  case mka =>
    intro hl hc
    rw [mkaFrame_takes _ hl hc, mkaFrame_takes _ hl hc]
    exact ⟨rfl, _, rfl, takeSak_own u ca.toNat⟩
  case sak =>
    intro hl hc
    rw [sakReplace_takes _ hl hc, sakReplace_takes _ hl hc]
    exact ⟨rfl, _, rfl, takeSak_own u ca.toNat⟩
  case delay =>
    intro q i hrx hi hr hc ha hf hact hsec hup hj
    subst hu
    obtain ⟨g, rest, h⟩ := oneWayDelay_answers (s := s.elapse dt) (p := q.port) hrx hi hr hc ha hf hact hsec hup hj
    exact ⟨_, g, rest, rfl, h⟩
  case dark =>
    intro hl hd
    obtain ⟨hdark, hup, hmem⟩ := laneDark_port hl hd
    exact ⟨_, rfl, hdark, hup, hmem.trans (by rw [hu]; rfl), laneDark_down hl hd⟩
  case relit =>
    intro hl hd
    rw [laneRelight_lit hl hd]
    exact ⟨_, rfl, raise_eventsOnly ..⟩

end Sys2Proof.Machine
end

section
/-! PROOFS. What the light supply's own steps leave of memory, of the feeds, of the cartridges and of the power supply: engines that
swap and lines re-based, loops that are acquired, spares tuned, lasers that go off (R251, R326, R330, R333, R361, R392). -/

namespace Sys2Proof.Machine

/-- A state without its engines, its loops and what the traffic of the ports changes: memory, the feeds of the stacks, the cartridges and the
power supply stand in it. -/
def State.supply (s : State) : State := { s.offLinks with engines := [], loops := [] }

section
variable {s t : State}

theorem supply_of_links (h : t.links = s.links) : t.supply = s.supply :=
  congrArg (fun u : State => { u with engines := [], loops := [] }) (offLinks_of_links h)

theorem mem_of_supply (h : t.supply = s.supply) : t.mem = s.mem := (congrArg State.mem h :)
theorem feed_of_supply (h : t.supply = s.supply) : t.feed = s.feed := (congrArg State.feed h :)
theorem carts_of_supply (h : t.supply = s.supply) : t.carts = s.carts := (congrArg State.carts h :)

theorem feedOf_congr (h : t.feed = s.feed) (j : Nat) : t.feedOf j = s.feedOf j := by rw [State.feedOf, h, State.feedOf]
theorem cart_congr (h : t.carts = s.carts) (j : Nat) : t.cart j = s.cart j := by rw [State.cart, h, State.cart]

theorem feedOf_of_supply (h : t.supply = s.supply) (j : Nat) : t.feedOf j = s.feedOf j := feedOf_congr (feed_of_supply h) j
theorem cart_of_supply (h : t.supply = s.supply) (j : Nat) : t.cart j = s.cart j := cart_congr (carts_of_supply h) j

end

section
variable (s : State)

@[simp] theorem feedOf_setFeed_same (k v : Nat) : (s.setFeed k v).feedOf k = v := tabGet_tabSet_same ..
theorem feedOf_setFeed_other {k j : Nat} (v : Nat) (h : j ≠ k) : (s.setFeed k v).feedOf j = s.feedOf j := tabGet_tabSet_other _ _ _ _ h

@[simp] theorem supply_light (cart kind line spare loop detail : Nat) (inj : Bool) :
    (s.light cart kind line spare loop detail inj).supply = s.supply := supply_of_links (links_light ..)
@[simp] theorem supply_raise (a b : Nat) (m i : Bool) (p : Nat) : (s.raise a b m i p).supply = s.supply := supply_of_links (links_raise ..)
@[simp] theorem supply_feedPorts : s.feedPorts.supply = s.supply := supply_of_links (links_feedPorts s)
@[simp] theorem supply_modEngine (e : Nat) (f : Engine → Engine) : (s.modEngine e f).supply = s.supply := rfl
@[simp] theorem supply_modLoop (k : Nat) (f : Loop → Loop) : (s.modLoop k f).supply = s.supply := rfl

/-! ## Engines (R251, R262, R264, R326) -/

@[simp] theorem supply_rebase (n : Nat) : (s.rebase n).supply = s.supply := forEach_keeps State.supply _ (fun s e => supply_modEngine s e _) _ _

@[simp] theorem supply_thaw (k detail : Nat) : (s.thaw k detail).supply = s.supply := by
  unfold State.thaw
  dsimp only
  split
  · rw [supply_light, supply_modLoop]
  · rfl

@[simp] theorem supply_takeRow (e q k cause old : Nat) (inj : Bool) : (s.takeRow e q k cause old inj).supply = s.supply :=
  supply_raise ..

@[simp] theorem supply_rotateRows (e : Nat) : (s.rotateRows e).supply = s.supply := by
  unfold State.rotateRows
  dsimp only
  split
  · split
    · rfl
    · rw [supply_modEngine]
      split
      · rw [supply_thaw, supply_modEngine, supply_takeRow]
      · rfl
  · rfl

@[simp] theorem supply_swapSets (e : Nat) (f : Engine → Engine) : (s.swapSets e f).supply = s.supply :=
  (supply_rotateRows ..).trans (supply_modEngine ..)

@[simp] theorem supply_feedChanged (n first : Nat) : (s.feedChanged n first).supply = s.supply := by
  unfold State.feedChanged
  exact forEach_keeps State.supply _ (fun s e => supply_swapSets s e _) _ _

/-! ## Loops that are acquired (R361, R362, R364) -/

@[simp] theorem supply_startSweeps : s.startSweeps.supply = s.supply := by
  unfold State.startSweeps
  refine forEach_keeps State.supply _ (fun s die => ?_) _ _
  dsimp only
  split
  · rfl
  · exact forEach_keeps State.supply _ (fun s k => supply_modLoop s k _) _ _

@[simp] theorem supply_queueSweep (k : Nat) : (s.queueSweep k).supply = s.supply := by
  unfold State.queueSweep
  dsimp only
  split
  · split
    · rw [supply_modEngine, supply_modLoop]
    · rfl
  · rfl

@[simp] theorem supply_acquireLoops (l : List Nat) : (s.acquireLoops l).supply = s.supply := by
  unfold State.acquireLoops
  rw [supply_startSweeps, forEach_keeps State.supply _ (fun s k => supply_queueSweep s k)]

@[simp] theorem supply_sweepPorts (stack : Nat) : (s.sweepPorts stack).supply = s.supply := supply_acquireLoops ..

/-! ## Spares (R330, R333) -/

/-- `t` is `s` but for the spares and the flags of its cartridges, and reports; a flag that is set stays. -/
structure SparesOnly (s t : State) : Prop where
  mem : t.mem = s.mem
  feed : t.feed = s.feed
  engines : t.engines = s.engines
  cart : ∀ j, t.cart j = { s.cart j with spares := (t.cart j).spares, status := (t.cart j).status }
  flags : ∀ j i, (s.cart j).status.has i = true → (t.cart j).status.has i = true

variable {s}

theorem SparesOnly.refl (s : State) : SparesOnly s s := ⟨rfl, rfl, rfl, fun _ => rfl, fun _ _ => id⟩

theorem SparesOnly.trans {t u : State} (h : SparesOnly s t) (g : SparesOnly t u) : SparesOnly s u where
  mem := g.mem.trans h.mem
  feed := g.feed.trans h.feed
  engines := g.engines.trans h.engines
  cart j := by
    rw [g.cart j]
    conv_lhs => rw [h.cart j]
  flags j i hi := g.flags j i (h.flags j i hi)

theorem SparesOnly.light (s : State) (cart kind line spare loop detail : Nat) (inj : Bool) :
    SparesOnly s (s.light cart kind line spare loop detail inj) where
  mem := mem_of_supply (supply_light ..)
  feed := feed_of_supply (supply_light ..)
  engines := raise_engines ..
  cart j := by rw [cart_of_supply (supply_light ..)]
  flags j i := by rw [cart_of_supply (supply_light ..)]; exact id

theorem SparesOnly.modCart (s : State) (k : Nat) {f : Cart → Cart} (hf : ∀ x, f x = { x with spares := (f x).spares, status := (f x).status })
    (hs : ∀ x i, x.status.has i = true → (f x).status.has i = true) : SparesOnly s (s.modCart k f) := by
  refine ⟨rfl, rfl, rfl, fun j => ?_, fun j i => ?_⟩ <;> by_cases h : j = k
  · rw [h, State.cart_modCart_same]
    exact hf _
  · rw [State.cart_modCart_other _ _ h]
  · rw [h, State.cart_modCart_same]
    exact hs _ i
  · rw [State.cart_modCart_other _ _ h]
    exact id

theorem SparesOnly.tuneSpare (s : State) (k n : Nat) (inj : Bool) : SparesOnly s (s.tuneSpare k n inj) := by
  unfold State.tuneSpare
  dsimp only
  split
  · exact .refl s
  · split
    · refine SparesOnly.trans ?_ (.light ..)
      exact .modCart s k (fun _ => rfl) (fun _ _ => id)
    · refine SparesOnly.trans (.light s k liSpareExhausted n 0xFF 0xFFFF 0 inj) ?_
      exact .modCart _ k (fun _ => rfl) (fun _ _ => W1c.has_hit_of_has 6)

theorem SparesOnly.feedOf {t : State} (h : SparesOnly s t) (j : Nat) : t.feedOf j = s.feedOf j := feedOf_congr h.feed j

end

/-! ## Lasers (R324, R336, R392) -/

section
variable (x : Cart) (n : Nat) (l : LaserState)

@[simp] theorem Cart.laser_setLaser_same : (x.setLaser n l).laser n = l := tabGet_tabSet_same ..
theorem Cart.laser_setLaser_other {n j : Nat} (h : j ≠ n) : (x.setLaser n l).laser j = x.laser j := tabGet_tabSet_other _ _ _ _ h

/-- The cartridge's own DFB gives light on a line. -/
def Cart.lights (x : Cart) (n : Nat) : Bool := x.laser n == .on || x.laser n == .donor

theorem Cart.gives_eq : x.gives n = (x.lights n || x.spares.any (fun y => y.line == some n && y.inService)) := rfl

/-- A laser that is put out gives no light, nor does another that gave none. -/
theorem Cart.lights_setLaser {j : Nat} (hl : l ≠ .on ∧ l ≠ .donor) (h : j = n ∨ x.lights j = false) : (x.setLaser n l).lights j = false := by
  by_cases e : j = n
  · rw [e, Cart.lights, Cart.laser_setLaser_same, beq_eq_false_iff_ne.mpr hl.1, beq_eq_false_iff_ne.mpr hl.2, Bool.or_self]
  · rw [Cart.lights, Cart.laser_setLaser_other _ _ e]
    exact h.resolve_left e

/-- Only the lasers are set dark. -/
theorem Cart.setDark_eq : x.setDark l = { x with lasers := (x.setDark l).lasers } := by
  have hfold : ∀ (ns : List Nat) (y : Cart), ∃ ls, ns.foldl (fun (x : Cart) n => if x.laser n = .failed then x else x.setLaser n l) y
      = { y with lasers := ls } := by
    intro ns
    induction ns with
    | nil => exact fun y => ⟨_, rfl⟩
    | cons a ns ih =>
      intro y
      obtain ⟨ls, h⟩ := ih (if y.laser a = .failed then y else y.setLaser a l)
      refine ⟨ls, h.trans ?_⟩
      split <;> rfl
  obtain ⟨ls, h⟩ := hfold (List.range 64) x
  rw [Cart.setDark, h]

theorem Cart.lights_setDark (hl : l ≠ .on ∧ l ≠ .donor) (h : x.lights n = false) : (x.setDark l).lights n = false := by
  unfold Cart.setDark
  generalize List.range 64 = ns
  induction ns generalizing x with
  | nil => exact h
  | cons a ns ih =>
    refine ih _ ?_
    dsimp only
    split
    · exact h
    · exact x.lights_setLaser a l hl (.inr h)

/-- A cartridge whose lasers and spares are dark gives no light. -/
theorem Cart.gives_dark (h : x.lights n = false) (hs : x.spares = Cart.init.spares) : x.gives n = false := by
  rw [Cart.gives_eq, h, hs]
  rfl

end

/-! ## A line is lost (R324, R325) -/

/-- A cartridge that gives no more light on a line. -/
def Cart.lost (x : Cart) (n now : Nat) (l : LaserState) : Cart :=
  { x.setLaser n l with
    spares := x.spares.map (fun y => if y.line = some n ∧ y.inService then { y with inService := false, verified := false, failed := true } else y)
    relit := tabDel x.relit n, named := tabDel x.named n, autoNamed := x.autoNamed.filter (· ≠ n), powerOut := tabDel x.powerOut n
    failedAt := tabPut x.failedAt n now }

section
variable (s : State) (k n : Nat) (l : LaserState)

/-- What a lost line has fed loses its source; nothing but the feeds and its cartridge changes. -/
theorem loseLine_eq : s.loseLine k n l = ({ s with feed := (s.loseLine k n l).feed } : State).modCart k (fun x => x.lost n s.now l) := by
  unfold State.loseLine
  dsimp only
  split <;> split <;> rfl

theorem loseLine_only : s.loseLine k n l = { s with feed := (s.loseLine k n l).feed, carts := (s.loseLine k n l).carts } := by
  conv_lhs => rw [loseLine_eq]
  rw [loseLine_eq]
  rfl

theorem cart_loseLine_same : (s.loseLine k n l).cart k = (s.cart k).lost n s.now l := by
  rw [loseLine_eq, State.cart_modCart_same]
  rfl

/-- The own feed of a lost line is without source. -/
theorem feedOf_loseLine (h : fedOwn (s.feedOf (k * 64 + n)) = true) (ho : (1 - k) * 64 + n ≠ k * 64 + n) :
    (s.loseLine k n l).feedOf (k * 64 + n) = feedNone := by
  unfold State.loseLine
  dsimp only
  rw [if_pos h]
  show State.feedOf (if _ then _ else _) _ = _
  split
  · rw [feedOf_setFeed_other _ _ ho.symm, feedOf_setFeed_same]
  · rw [feedOf_setFeed_same]

end

end Sys2Proof.Machine
end

section
/-! PROOFS. Line failure, takeover, spares and relighting (R324 to R334, R339). -/

namespace Sys2Proof.Machine

theorem exec_lineFail (s : State) (dt : Nat) (k : CartId) (n : LineId) (b : Bool) :
    exec (.lineFail dt k n b) s = .next ((s.elapse dt).failLine k n b) := rfl
theorem exec_takeover (s : State) (dt : Nat) (k : CartId) (n : LineId) : exec (.takeover dt k n) s = .next ((s.elapse dt).takeOver k n) := rfl
theorem exec_spareVerified (s : State) (dt : Nat) (k : CartId) (n : LineId) :
    exec (.spareVerified dt k n) s = .next (((s.elapse dt).rampDone k).verifySpare k n) := rfl
theorem exec_spareIn (s : State) (dt : Nat) (k : CartId) (n : LineId) : exec (.spareIn dt k n) s = .next ((s.elapse dt).switchIn k n) := rfl

theorem SparesOnly.feedPorts (s : State) : SparesOnly s s.feedPorts where
  mem := mem_of_supply (supply_feedPorts s)
  feed := feed_of_supply (supply_feedPorts s)
  engines := engines_of_offLinks (offLinks_of_links (links_feedPorts s))
  cart j := by rw [cart_of_supply (supply_feedPorts s)]
  flags j i := by rw [cart_of_supply (supply_feedPorts s)]; exact id

theorem SparesOnly.laser {s t : State} (h : SparesOnly s t) (j n : Nat) : (t.cart j).laser n = (s.cart j).laser n := by
  rw [h.cart j]
  rfl

/-- Several keys are given one value. -/
theorem tabFind_foldl_tabPut {α : Type} (v : α) (ns : List Nat) (t : Tab α) (n : Nat) :
    tabFind (ns.foldl (fun t n => tabPut t n v) t) n = if n ∈ ns then some v else tabFind t n := by
  induction ns generalizing t with
  | nil => rfl
  | cons a ns ih =>
    rw [List.foldl_cons, ih]
    by_cases hn : n ∈ ns
    · rw [if_pos hn, if_pos (List.mem_cons_of_mem _ hn)]
    · by_cases ha : n = a
      · rw [if_neg hn, ha, tabFind_tabPut_same, if_pos (List.mem_cons_self ..)]
      · rw [if_neg hn, tabFind_tabPut_other _ _ ha, if_neg (by simp [hn, ha])]

section
variable {s : State} {k n : Nat}

/-! ## Failure and takeover (R324, R325, R330) -/

/-- A line that fails is lost, with its flag; what follows concerns spares, ports and reports. -/
theorem failLine_loses (b : Bool) (h : fedOwn (s.feedOf (k * 64 + n)) = true) :
    SparesOnly (s.loseLine k n .failed) (s.failLine k n b) ∧ ((s.failLine k n b).cart k).status.has 5 = true := by
  generalize hv : ((s.loseLine k n .failed).light k liLineFail n 0xFF 0xFFFF (if b then 1 else 0) (s.isInjected 1 (k * 64 + n))).modCart k
    (fun x => { x with status := x.status.hit 5 }) = v
  have hflag : (v.cart k).status.has 5 = true := by
    rw [← hv, State.cart_modCart_same]
    exact W1c.has_hit_same _ (by decide)
  have hlost : SparesOnly (s.loseLine k n .failed) v := by
    subst hv
    refine SparesOnly.trans (.light _ k liLineFail n 0xFF 0xFFFF (if b then 1 else 0) (s.isInjected 1 (k * 64 + n))) ?_
    exact .modCart _ k (fun _ => rfl) (fun _ _ => W1c.has_hit_of_has 5)
  have htail : SparesOnly v (s.failLine k n b) := by
    have hfed : ¬ (!(s.cart k).gives n && !fedOwn (s.feedOf (k * 64 + n))) = true := by simp [h]
    simp only [State.failLine, if_neg hfed, hv]
    split
    · exact .feedPorts v
    · exact (SparesOnly.feedPorts v).trans (.tuneSpare ..)
  exact ⟨hlost.trans htail, htail.flags k 5 hflag⟩

/-- A cartridge whose laser is a donor on a line; where its own stack had lost the line too (`own`), it no longer counts as failed. -/
def Cart.donates (x : Cart) (n : Nat) (own : Bool) : Cart :=
  { (if x.laser n = .on then x.setLaser n .donor else x) with
    relit := if own then tabDel x.relit n else x.relit, named := if own then tabDel x.named n else x.named
    autoNamed := if own then x.autoNamed.filter (· ≠ n) else x.autoNamed
    failedAt := if own then tabDel x.failedAt n else x.failedAt }

theorem Cart.laser_donates {x : Cart} (own : Bool) (h : x.laser n = .on) : (x.donates n own).laser n = .donor := by
  have hl : (x.donates n own).laser n = (if x.laser n = .on then x.setLaser n .donor else x).laser n := rfl
  rw [hl, if_pos h, Cart.laser_setLaser_same]

/-- The twin's line feeds both stacks: of a line that its own stack had lost too, its laser serves that stack again (R325). -/
def State.twinFeeds (s : State) (k n : Nat) : State :=
  let own := s.feedOf ((1 - k) * 64 + n) == feedNone
  let s := (s.setFeed (k * 64 + n) feedTwin).modCart (1 - k) (fun x => x.donates n own)
  let s := if own then s.setFeed ((1 - k) * 64 + n) feedOwn else s
  s.modCart k (fun x => { x with failedAt := tabDel x.failedAt n })

theorem takeOver_feeds {c : Nat} (hc : tabFind (s.cart k).failedAt n = some c) (ht : c + 39000 ≤ s.now)
    (hg : (s.cart (1 - k)).gives n = true) :
    ∃ v, v.supply = (s.twinFeeds k n).supply ∧ SparesOnly v (s.takeOver k n) := by
  have hcond : ¬ (!(s.cart (1 - k)).gives n || decide (s.now < c + 39000)) = true := by simp [hg, Nat.not_lt.mpr ht]
  simp only [State.takeOver, hc, if_neg hcond]
  refine ⟨_, ?_, .tuneSpare _ k n _⟩
  rw [supply_light, supply_feedPorts, supply_feedChanged, supply_rebase]
  rfl

theorem twinFeeds_mem : (s.twinFeeds k n).mem = s.mem := by
  unfold State.twinFeeds
  dsimp only
  split <;> rfl

theorem feedOf_twinFeeds (ho : (1 - k) * 64 + n ≠ k * 64 + n) : (s.twinFeeds k n).feedOf (k * 64 + n) = feedTwin := by
  unfold State.twinFeeds
  dsimp only
  rw [feedOf_congr (State.modCart_feed ..)]
  split
  · rw [feedOf_setFeed_other _ _ ho.symm, feedOf_congr (State.modCart_feed ..), feedOf_setFeed_same]
  · rw [feedOf_congr (State.modCart_feed ..), feedOf_setFeed_same]

theorem failedAt_twinFeeds : tabFind ((s.twinFeeds k n).cart k).failedAt n = none := by
  unfold State.twinFeeds
  dsimp only
  rw [State.cart_modCart_same]
  exact tabFind_tabDel_same ..

/-- The twin's laser becomes a donor. -/
theorem laser_twinFeeds (hk : 1 - k ≠ k) (hl : (s.cart (1 - k)).laser n = .on) : ((s.twinFeeds k n).cart (1 - k)).laser n = .donor := by
  unfold State.twinFeeds
  dsimp only
  rw [State.cart_modCart_other _ _ hk]
  have hon : ((s.setFeed (k * 64 + n) feedTwin).cart (1 - k)).laser n = .on := hl
  split
  · rw [cart_congr (State.setFeed_carts ..), State.cart_modCart_same, Cart.laser_donates _ hon]
  · rw [State.cart_modCart_same, Cart.laser_donates _ hon]

/-! ## Verification (R330, R331) -/

/-- A spare of line `n`, tuned for 1 ms, is ready for verification. -/
def Spare.tuned (y : Spare) (n now : Nat) : Bool := y.line == some n && !y.verified && !y.failed && decide (y.tunedAt + 1000000 ≤ now)

/-- The cartridge with its tuned spares of a line verified, and the line too if it is relit. -/
def Cart.verified (x : Cart) (n now : Nat) (relit : Bool) : Cart :=
  { x with
    spares := x.spares.map (fun y => if y.tuned n now then { y with verified := true } else y)
    relit := if relit then tabPut x.relit n true else x.relit }

theorem verifySpare_verifies (h : (s.cart k).spares.any (fun y => y.tuned n s.now) = true) :
    ∃ relit, s.verifySpare k n = (s.modCart k (fun x => x.verified n s.now relit)).autoName k := by
  refine ⟨(tabFind (s.cart k).relit n) == some false && decide ((s.cart k).litAt + 1000000 ≤ s.now), if_neg ?_⟩
  rw [Bool.and_eq_true, not_and_or]
  exact .inr (by simpa [Spare.tuned, and_assoc] using h)

/-- A cartridge with a spare that is tuned, and in no service yet, has a line that waits. -/
theorem Cart.waits_verified {x : Cart} {now : Nat} (relit : Bool) (h : x.spares.any (fun y => y.tuned n now && !y.inService) = true) :
    (x.verified n now relit).waits n = true := by
  obtain ⟨y, hy, hready⟩ := List.any_eq_true.mp h
  obtain ⟨htuned, hfree⟩ := Bool.and_eq_true_iff.mp hready
  have hline : (y.line == some n) = true := by
    simp only [Spare.tuned, Bool.and_eq_true] at htuned
    exact htuned.1.1.1
  have hverified : (x.verified n now relit).spares.any (fun z => z.line == some n && z.verified && !z.inService) = true := by
    refine List.any_eq_true.mpr ⟨{ y with verified := true }, List.mem_map.mpr ⟨y, hy, if_pos htuned⟩, ?_⟩
    rw [hline, hfree]
    rfl
  rw [Cart.waits, hverified, Bool.true_or]

/-- Under HOLD no boundary is set. -/
theorem autoName_held (h : (s.cart k).hold = true) : (s.autoName k).cart k = s.cart k := by
  rw [State.autoName, State.cart_modCart_same, if_pos h]

/-- A line that waits without a boundary gets the first at least 5 us from now on. -/
theorem autoName_names (h : (s.cart k).hold = false) (hw : (s.cart k).waits n = true) (hn : n < 64) (hnone : tabFind (s.cart k).named n = none) :
    tabFind ((s.autoName k).cart k).named n = some (s.timeNat + (s.boundaryAt s.leadFrom - s.now)) := by
  rw [State.autoName, State.cart_modCart_same, if_neg (Bool.eq_false_iff.mp h)]
  dsimp only
  rw [tabFind_foldl_tabPut, if_pos]
  rw [List.mem_filter, List.mem_range, hw, hnone]
  exact ⟨hn, rfl⟩

theorem autoName_spares : ((s.autoName k).cart k).spares = (s.cart k).spares := by
  rw [State.autoName, State.cart_modCart_same]
  split <;> rfl

theorem rampDone_none (h : (s.cart k).ramp = none) : s.rampDone k = s := by rw [State.rampDone, h]

/-! ## Switch-in (R332, R334, R339) -/

/-- Line `n` of a stack is fed from a source of its own again, and its twin's laser feeds its own stack alone. -/
def State.fedAnew (s : State) (k n src : Nat) : State :=
  ((s.setFeed (k * 64 + n) src).modCart k (fun x => { x with
    named := tabDel x.named n, autoNamed := x.autoNamed.filter (· ≠ n), relit := tabDel x.relit n, failedAt := tabDel x.failedAt n })).endSplit k n

theorem feedOf_fedAnew (src : Nat) : (s.fedAnew k n src).feedOf (k * 64 + n) = src := by
  rw [State.fedAnew, State.endSplit, feedOf_congr (State.modCart_feed ..), feedOf_congr (State.modCart_feed ..), feedOf_setFeed_same]

theorem fedAnew_mem (src : Nat) : (s.fedAnew k n src).mem = s.mem := rfl

theorem cart_fedAnew (src : Nat) (hk : 1 - k ≠ k) : (s.fedAnew k n src).cart k = { s.cart k with
    named := tabDel (s.cart k).named n, autoNamed := (s.cart k).autoNamed.filter (· ≠ n), relit := tabDel (s.cart k).relit n
    failedAt := tabDel (s.cart k).failedAt n } := by
  rw [State.fedAnew, State.endSplit, State.cart_modCart_other _ _ hk.symm, State.cart_modCart_same]
  rfl

theorem switchIn_relit (hd : (s.cart k).due n s.timeNat = true) (hr : tabFind (s.cart k).relit n = some true) :
    (s.switchIn k n).supply = (s.fedAnew k n feedOwn).supply := by
  have hdue : ¬ (!(s.cart k).due n s.timeNat) = true := by simp [hd]
  simp only [State.switchIn, if_neg hdue, hr, if_true]
  rw [supply_feedPorts, supply_feedChanged, supply_rebase]
  rfl

/-- The spare that serves a line: the lowest that is verified for it and not yet in service. -/
theorem find_spare {l : List Spare} {i : Nat} {y : Spare} (hi : i < 4) (hy : l[i]? = some y) (hl : y.line = some n) (hv : y.verified = true)
    (hs : y.inService = false) (hbefore : ∀ j z, j < i → l[j]? = some z → z.line ≠ some n) :
    (List.range 4).find? (fun i => (nth Spare.init l i).line == some n && (nth Spare.init l i).verified && !(nth Spare.init l i).inService)
      = some i := by
  have hnth : ∀ {j z}, l[j]? = some z → nth Spare.init l j = z := fun {j z} h => by rw [nth, List.getD, h, Option.getD_some]
  rw [List.find?_range_eq_some]
  refine ⟨?_, List.mem_range.mpr hi, fun j hj => ?_⟩
  · rw [hnth hy, hl, hv, hs]
    simp
  · have hjlen : j < l.length := hj.trans (List.getElem?_eq_some_iff.mp hy).1
    obtain ⟨z, hz⟩ : ∃ z, l[j]? = some z := ⟨_, List.getElem?_eq_getElem hjlen⟩
    rw [hnth hz]
    simp [hbefore j z hj hz]

/-- The state with a spare of a cartridge in service, its line at its power. -/
def State.spareLit (s : State) (k n i : Nat) : State :=
  s.takeFree.modCart k (fun x => { x with
    spares := x.spares.set i { nth Spare.init (s.cart k).spares i with inService := true }, powerOut := tabPut x.powerOut n (nominalPower s.freeNat) })

theorem switchIn_spare {i : Nat} (hd : (s.cart k).due n s.timeNat = true) (hr : tabFind (s.cart k).relit n = none)
    (hf : (List.range 4).find? (fun i => (nth Spare.init (s.cart k).spares i).line == some n && (nth Spare.init (s.cart k).spares i).verified
      && !(nth Spare.init (s.cart k).spares i).inService) = some i) :
    (s.switchIn k n).supply = ((s.spareLit k n i).fedAnew k n (2 + i)).supply := by
  have hdue : ¬ (!(s.cart k).due n s.timeNat) = true := by simp [hd]
  simp only [State.switchIn, if_neg hdue, hr, hf, reduceCtorEq, if_false]
  rw [supply_light, supply_feedPorts, supply_feedChanged, supply_rebase]
  rfl

theorem spareLit_spares {i : Nat} {y : Spare} (hy : (s.cart k).spares[i]? = some y) :
    ((s.spareLit k n i).cart k).spares[i]? = some { y with inService := true } := by
  have hlen := (List.getElem?_eq_some_iff.mp hy).1
  rw [State.spareLit, State.cart_modCart_same]
  show ((s.cart k).spares.set i _)[i]? = _
  rw [List.getElem?_set_self hlen, nth, List.getD, hy, Option.getD_some]

end

/-- Settles O34: what a failed line, a takeover, a verification and a switch-in each leave of the feeds and of their cartridge. -/
theorem linesAndSpares : Obligations.LinesAndSpares := by
  intro s dt k n u hu
  have hk : 1 - k.val ≠ k.val := by omega
  have ho : (1 - k.val) * 64 + n.val ≠ k.val * 64 + n.val := by omega
  have hcart : s.cart = u.cart := by rw [hu]; rfl
  have hfeed : s.feedOf = u.feedOf := by rw [hu]; rfl
  have hmem : s.mem = u.mem := by rw [hu]; rfl
  have hengines : s.engines = u.engines := by rw [hu]; rfl
  simp only [exec_lineFail, exec_takeover, exec_spareVerified, exec_spareIn, ← hu, hcart, hfeed, hmem, hengines]
  refine ⟨?fails, ?takeover, ?verified, ?relit, ?spare⟩
  case fails =>
    intro b hfed
    obtain ⟨hrest, hflag⟩ := failLine_loses b hfed
    refine ⟨_, rfl, (hrest.feedOf _).trans (feedOf_loseLine u k n .failed hfed ho), ?_, ?_, hflag, hrest.mem.trans ?_, hrest.engines.trans ?_⟩
    · rw [hrest.laser, cart_loseLine_same]
      exact Cart.laser_setLaser_same (u.cart k) n .failed
    · rw [hrest.cart k, cart_loseLine_same]
      exact tabFind_tabPut_same ..
    · rw [loseLine_only]
    · rw [loseLine_only]
  case takeover =>
    intro c hc ht hg
    obtain ⟨v, hv, hrest⟩ := takeOver_feeds hc ht hg
    refine ⟨_, rfl, ?_, ?_, ?_, fun hl => ?_⟩
    · rw [hrest.feedOf, feedOf_of_supply hv, feedOf_twinFeeds ho]
    · rw [hrest.cart, cart_of_supply hv]
      exact failedAt_twinFeeds
    · rw [hrest.mem, mem_of_supply hv, twinFeeds_mem]
    · rw [hrest.laser, cart_of_supply hv]
      exact laser_twinFeeds hk hl
  case verified =>
    intro hramp hready
    have hwaits : (u.cart k).spares.any (fun y => y.tuned n u.now && !y.inService) = true := by
      rw [← hready]
      congr 1
      funext y
      simp only [Spare.tuned]
      grind
    have htuned : (u.cart k).spares.any (fun y => y.tuned n u.now) = true := by
      obtain ⟨y, hy, h⟩ := List.any_eq_true.mp hwaits
      exact List.any_eq_true.mpr ⟨y, hy, (Bool.and_eq_true_iff.mp h).1⟩
    obtain ⟨relit, hverify⟩ := verifySpare_verifies htuned
    rw [rampDone_none hramp, hverify]
    have hv := State.cart_modCart_same u k (fun x => x.verified n u.now relit)
    refine ⟨_, rfl, ?_, rfl, fun hh => ?_, fun hh hnone => ?_⟩
    · rw [autoName_spares, hv]
      refine List.map_congr_left (fun y _ => ?_)
      simp only [Spare.tuned, Bool.and_eq_true, Bool.not_eq_true', beq_iff_eq, decide_eq_true_eq, and_assoc]
    · rw [autoName_held (by rw [hv]; exact hh), hv]
      rfl
    · exact autoName_names (by rw [hv]; exact hh) (by rw [hv]; exact Cart.waits_verified relit hwaits) n.isLt (by rw [hv]; exact hnone)
  case relit =>
    intro hd hr
    have hv := switchIn_relit hd hr
    refine ⟨_, rfl, ?_, ?_, ?_⟩
    · rw [feedOf_of_supply hv, feedOf_fedAnew]
    · rw [cart_of_supply hv, cart_fedAnew _ hk]
      exact tabFind_tabDel_same ..
    · rw [mem_of_supply hv, fedAnew_mem]
  case spare =>
    intro i y hd hr hi hy hl hver hs hbefore
    have hv := switchIn_spare hd hr (find_spare hi hy hl hver hs hbefore)
    refine ⟨_, rfl, ?_, ?_, ?_⟩
    · rw [feedOf_of_supply hv, feedOf_fedAnew]
    · rw [cart_of_supply hv, cart_fedAnew _ hk]
      exact spareLit_spares hy
    · rw [mem_of_supply hv, fedAnew_mem]
      rfl

end Sys2Proof.Machine
end

section
/-! PROOFS. Cartridges in their sockets and eye safety (R336 to R339, R842 to R844, R861). -/

namespace Sys2Proof.Machine

theorem exec_cartridgeInsert (s : State) (dt : Nat) (k : CartId) (c : Bool) :
    exec (.cartridgeInsert dt k c) s = .next ((s.elapse dt).insertCart k c) := rfl
theorem exec_interlockClosed (s : State) (dt : Nat) (k : CartId) :
    exec (.interlockClosed dt k) s = .next ((s.elapse dt).closeInterlock k) := rfl
theorem exec_interlockOpen (s : State) (dt : Nat) (k : CartId) : exec (.interlockOpen dt k) s = .next ((s.elapse dt).openInterlock k) := rfl
theorem exec_returnLoss (s : State) (dt : Nat) (k : CartId) : exec (.returnLoss dt k) s = .next ((s.elapse dt).returnLost k) := rfl
theorem exec_socketOvercurrent (s : State) (dt : Nat) (k : CartId) :
    exec (.socketOvercurrent dt k) s = .next ((s.elapse dt).socketCut k) := rfl
theorem exec_cartridgeProbe (s : State) (dt : Nat) (k : CartId) (seen : Bool) :
    exec (.cartridgeProbe dt k seen) s = .next ((s.elapse dt).probeCart k seen) := rfl
theorem exec_cartLost (s : State) (dt : Nat) (k : CartId) (detail : Fin 3) :
    exec (.cartLost dt k detail) s = .next ((s.elapse dt).cartLost k detail) := rfl

section
variable (s : State) (k : Nat)

/-! ## A cartridge goes dark (R336, R844) -/

/-- The lines whose light goes with a cartridge. -/
def State.fedLines (s : State) (k : Nat) : List Nat :=
  (List.range 64).filter (fun n => (s.cart k).gives n || fedOwn (s.feedOf (k * 64 + n)))

/-- A line of a cartridge that goes dark is lost; a failed laser stays failed. -/
def State.darkLine (s : State) (k n : Nat) : State := s.loseLine k n (if (s.cart k).laser n = .failed then .failed else .off)

theorem lights_darkLine {s : State} {k j : Nat} (n : Nat) (h : j = n ∨ (s.cart k).lights j = false) :
    ((s.darkLine k n).cart k).lights j = false := by
  have hl : (if (s.cart k).laser n = .failed then LaserState.failed else .off) ≠ .on
      ∧ (if (s.cart k).laser n = .failed then LaserState.failed else .off) ≠ .donor := by split <;> decide
  rw [State.darkLine, cart_loseLine_same]
  exact (s.cart k).lights_setLaser n _ hl h

/-- A line that is lost gives no light afterwards, nor does one that gave none. -/
theorem lights_darkLines {ns : List Nat} {k n : Nat} {s : State} (h : n ∈ ns ∨ (s.cart k).lights n = false) :
    ((forEach ns s (fun s n => s.darkLine k n)).cart k).lights n = false := by
  unfold forEach
  induction ns generalizing s with
  | nil => exact h.resolve_left List.not_mem_nil
  | cons a ns ih =>
    refine ih ?_
    obtain h | h := h
    · obtain rfl | h := List.mem_cons.mp h
      · exact .inr (lights_darkLine n (.inl rfl))
      · exact .inl h
    · exact .inr (lights_darkLine a (.inr h))

/-- The socket of a cartridge that goes dark is as it was. -/
theorem present_darkLine (n : Nat) : ((s.darkLine k n).cart k).present = (s.cart k).present := by
  rw [State.darkLine, cart_loseLine_same]
  rfl

/-- The cartridge that has gone dark: no laser gives light, every spare is as at delivery, and its path is no longer checked. -/
theorem cart_darkCart : (s.darkCart k).cart k = { (forEach (s.fedLines k) s (fun s n => s.darkLine k n)).cart k with
    lit := false, returnOk := false, spares := Cart.init.spares, relit := [], named := [], autoNamed := [], probes := 0
    probedAt := none, ramp := none, powerOut := [] } := by
  unfold State.darkCart
  dsimp only
  rw [cart_of_supply (supply_feedPorts _), State.cart_modCart_same]
  rfl

/-- A dark cartridge gives no light on any of its lines. -/
theorem gives_darkCart {n : Nat} (hn : n < 64) : ((s.darkCart k).cart k).gives n = false := by
  have hlights : (s.cart k).lights n = true → n ∈ s.fedLines k := fun h =>
    List.mem_filter.mpr ⟨List.mem_range.mpr hn, by rw [Cart.gives_eq, h]; rfl⟩
  have hdark : ((forEach (s.fedLines k) s (fun s n => s.darkLine k n)).cart k).lights n = false :=
    lights_darkLines (or_iff_not_imp_right.mpr (fun h => hlights ((Bool.not_eq_false _).mp h)))
  rw [cart_darkCart]
  exact Cart.gives_dark _ n hdark rfl

theorem present_darkCart : ((s.darkCart k).cart k).present = (s.cart k).present := by
  rw [cart_darkCart]
  exact forEach_keeps (fun t => (t.cart k).present) _ (fun t n => present_darkLine t k n) _ _

end

/-! ## The cartridge of each step (R336, R842 to R844, R861) -/

section
variable (x : Cart)

/-- Whether a line has light is a matter of the lasers and the spares. -/
theorem Cart.gives_congr {x y : Cart} (hl : y.lasers = x.lasers) (hs : y.spares = x.spares) (n : Nat) : y.gives n = x.gives n := by
  unfold Cart.gives Cart.laser
  rw [hl, hs]

/-- Lasers set to OFF give no light where those that were not set gave none. -/
theorem Cart.gives_setDark {n : Nat} (h : x.gives n = false) : (x.setDark .off).gives n = false := by
  obtain ⟨hl, hs⟩ := Bool.or_eq_false_iff.mp (x.gives_eq n ▸ h)
  rw [Cart.gives_eq, x.lights_setDark n .off ⟨by decide, by decide⟩ hl, Cart.setDark_eq]
  exact hs

/-- A cartridge with its EYE_OFF flag. -/
def Cart.flagged : Cart := { x with status := x.status.hit 4 }

@[simp] theorem Cart.gives_flagged (n : Nat) : x.flagged.gives n = x.gives n := Cart.gives_congr rfl rfl n
@[simp] theorem Cart.lit_flagged : x.flagged.lit = x.lit := rfl
@[simp] theorem Cart.returnOk_flagged : x.flagged.returnOk = x.returnOk := rfl
theorem Cart.has_flagged : x.flagged.status.has 4 = true := W1c.has_hit_same _ (by decide)

/-- A cartridge whose interlock has opened. -/
def Cart.opened : Cart := { x.setDark .off with
  intlk := false, powered := false, limited := false, starting := false, probes := 0, probedAt := none, ramp := none }

@[simp] theorem Cart.intlk_opened : x.opened.intlk = false := rfl
@[simp] theorem Cart.powered_opened : x.opened.powered = false := rfl
@[simp] theorem Cart.lit_opened : x.opened.lit = x.lit := by rw [Cart.opened, Cart.setDark_eq]
@[simp] theorem Cart.status_opened : x.opened.status = x.status := by rw [Cart.opened, Cart.setDark_eq]
@[simp] theorem Cart.gives_opened (n : Nat) : x.opened.gives n = (x.setDark .off).gives n := by
  unfold Cart.opened
  generalize x.setDark .off = y
  exact Cart.gives_congr rfl rfl n

/-- A cartridge whose socket its current limit has cut. -/
def Cart.cut : Cart := { x.setDark .off with powered := false, limited := true }

@[simp] theorem Cart.powered_cut : x.cut.powered = false := rfl
@[simp] theorem Cart.limited_cut : x.cut.limited = true := rfl
@[simp] theorem Cart.lit_cut : x.cut.lit = x.lit := by rw [Cart.cut, Cart.setDark_eq]
@[simp] theorem Cart.gives_cut (n : Nat) : x.cut.gives n = (x.setDark .off).gives n := by
  unfold Cart.cut
  generalize x.setDark .off = y
  exact Cart.gives_congr rfl rfl n

/-- A cartridge that has left its socket. -/
def Cart.removed : Cart := { x.setDark .off with present := false, intlk := false, powered := false, starting := false }

@[simp] theorem Cart.present_removed : x.removed.present = false := rfl
@[simp] theorem Cart.powered_removed : x.removed.powered = false := rfl
@[simp] theorem Cart.lit_removed : x.removed.lit = x.lit := by rw [Cart.removed, Cart.setDark_eq]

/-- A cartridge with other lines counted as failed. -/
def Cart.failing (f : Tab Nat) : Cart := { x with failedAt := f }

@[simp] theorem Cart.present_failing (f : Tab Nat) : (x.failing f).present = x.present := rfl
@[simp] theorem Cart.powered_failing (f : Tab Nat) : (x.failing f).powered = x.powered := rfl
@[simp] theorem Cart.lit_failing (f : Tab Nat) : (x.failing f).lit = x.lit := rfl
@[simp] theorem Cart.lasers_failing (f : Tab Nat) : (x.failing f).lasers = x.lasers := rfl
@[simp] theorem Cart.failedAt_failing (f : Tab Nat) : (x.failing f).failedAt = f := rfl

/-- A cartridge whose lasers probe its path. -/
def Cart.probing (n now : Nat) : Cart := { x.setDark .probe with probes := n, probedAt := some now }

@[simp] theorem Cart.probes_probing (n now : Nat) : (x.probing n now).probes = n := rfl
@[simp] theorem Cart.lit_probing (n now : Nat) : (x.probing n now).lit = x.lit := by rw [Cart.probing, Cart.setDark_eq]
@[simp] theorem Cart.powered_probing (n now : Nat) : (x.probing n now).powered = x.powered := by rw [Cart.probing, Cart.setDark_eq]

/-- A cartridge on a ramp. -/
def Cart.ramping (r : Nat × Int) : Cart := { x.setDark .probe with ramp := some r }

@[simp] theorem Cart.ramp_ramping (r : Nat × Int) : (x.ramping r).ramp = some r := rfl
@[simp] theorem Cart.lit_ramping (r : Nat × Int) : (x.ramping r).lit = x.lit := by rw [Cart.ramping, Cart.setDark_eq]
@[simp] theorem Cart.powered_ramping (r : Nat × Int) : (x.ramping r).powered = x.powered := by rw [Cart.ramping, Cart.setDark_eq]

/-- A cartridge whose ramp ended at a time. -/
def Cart.litFrom (c : Nat) : Cart := { x with litAt := c }

@[simp] theorem Cart.lit_litFrom (c : Nat) : (x.litFrom c).lit = x.lit := rfl
@[simp] theorem Cart.litAt_litFrom (c : Nat) : (x.litFrom c).litAt = c := rfl
@[simp] theorem Cart.ramp_litFrom (c : Nat) : (x.litFrom c).ramp = x.ramp := rfl

end

section
variable {s : State} {k : Nat}

/-! ## Eye safety and the socket (R336, R842 to R844) -/

theorem cart_eyeOff (detail : Nat) : (s.eyeOff k detail).cart k = ((s.darkCart k).cart k).flagged := by
  unfold State.eyeOff
  rw [State.cart_modCart_same, cart_of_supply (supply_light ..), Cart.flagged]

theorem gives_eyeOff (detail : Nat) {n : Nat} (hn : n < 64) : ((s.eyeOff k detail).cart k).gives n = false := by
  rw [cart_eyeOff, Cart.gives_flagged, gives_darkCart s k hn]

theorem flag_eyeOff (detail : Nat) : ((s.eyeOff k detail).cart k).status.has 4 = true := by
  rw [cart_eyeOff]
  exact Cart.has_flagged _

theorem lit_darkCart : ((s.darkCart k).cart k).lit = false := by rw [cart_darkCart]

theorem lit_eyeOff (detail : Nat) : ((s.eyeOff k detail).cart k).lit = false := by rw [cart_eyeOff, Cart.lit_flagged, lit_darkCart]

theorem returnOk_eyeOff (detail : Nat) : ((s.eyeOff k detail).cart k).returnOk = false := by
  rw [cart_eyeOff, Cart.returnOk_flagged, cart_darkCart]

/-- An interlock that opens puts a lit cartridge out. -/
theorem cart_openInterlock : ∃ x : Cart, (s.openInterlock k).cart k = x.opened ∧ x.lit = false
    ∧ ((s.cart k).lit = true → (∀ n, n < 64 → x.gives n = false) ∧ x.status.has 4 = true) := by
  unfold State.openInterlock
  dsimp only
  rw [State.cart_modCart_same]
  split
  · exact ⟨_, rfl, lit_eyeOff 2, fun _ => ⟨fun _ => gives_eyeOff 2, flag_eyeOff 2⟩⟩
  · next h =>
    have hlit : (s.cart k).lit = false := by
      simp only [Bool.or_eq_true, not_or, Bool.not_eq_true] at h
      exact h.1.1
    exact ⟨_, rfl, hlit, fun hl => absurd (hlit.symm.trans hl) Bool.false_ne_true⟩

theorem returnLost_off (h : (s.cart k).lit = true) : s.returnLost k = s.eyeOff k 1 := if_neg (by simp [h])

theorem cart_socketCut (h : (s.cart k).powered = true) : (s.socketCut k).cart k = ((s.eyeOff k 4).cart k).cut := by
  have hc : s.socketCut k = (s.eyeOff k 4).modCart k Cart.cut := if_neg (by simp [h])
  rw [hc, State.cart_modCart_same]

/-! ## Probes and the ramp (R338) -/

theorem cart_powerSocket : ((s.powerSocket k).cart k).powered = true ∧ ((s.powerSocket k).cart k).lit = (s.cart k).lit
    ∧ ((s.powerSocket k).cart k).probes = (s.cart k).probes := by
  rw [State.powerSocket, State.cart_modCart_same]
  split
  · next h => exact ⟨h, rfl, rfl⟩
  · exact ⟨rfl, rfl, rfl⟩

/-- A probe of a cartridge whose socket may be powered, a second after the one before. -/
structure ProbeDue (s : State) (k : Nat) : Prop where
  may : s.mayPower k = true
  dark : (s.cart k).lit = false
  ramp : (s.cart k).ramp = none
  second : ∀ c, (s.cart k).probedAt = some c → c + 1000000000 ≤ s.now

theorem ProbeDue.due (h : ProbeDue s k) : ((s.cart k).probedAt.all fun t => decide (t + 1000000000 ≤ s.now)) = true := by
  cases hp : (s.cart k).probedAt with
  | none => rfl
  | some c => rw [Option.all_some, decide_eq_true (h.second c hp)]

theorem probeCart_due (h : ProbeDue s k) (seen : Bool) : s.probeCart k seen
    = if (if seen then (s.cart k).probes + 1 else 0) < 2 then
        (s.powerSocket k).modCart k (fun x => x.probing (if seen then (s.cart k).probes + 1 else 0) (s.powerSocket k).now)
      else (s.powerSocket k).takeFree.modCart k (fun x => x.ramping ((s.powerSocket k).now + 10000000, ((s.powerSocket k).freeNat : Int))) := by
  unfold State.probeCart
  rw [rampDone_none h.ramp]
  dsimp only
  rw [h.may, h.dark, h.ramp, h.due, if_neg (by decide), cart_powerSocket.2.2]
  rfl

theorem now_powerSocket : (s.powerSocket k).now = s.now := rfl

/-- A probe that is not the second in a row to see the path leaves the cartridge dark, its socket powered, and counts. -/
theorem cart_probe {n : Nat} {seen : Bool} (h : ProbeDue s k) (hn : (if seen then (s.cart k).probes + 1 else 0) = n) (h2 : n < 2) :
    ((s.probeCart k seen).cart k).lit = false ∧ ((s.probeCart k seen).cart k).probes = n
      ∧ ((s.probeCart k seen).cart k).powered = true := by
  obtain ⟨hpowered, hlit, -⟩ := cart_powerSocket (s := s) (k := k)
  rw [probeCart_due h, hn, if_pos h2, State.cart_modCart_same, Cart.lit_probing, Cart.probes_probing, Cart.powered_probing]
  exact ⟨hlit.trans h.dark, rfl, hpowered⟩

/-- The second probe in a row that sees the path begins the ramp. -/
theorem cart_secondProbe (h : ProbeDue s k) (hp : (s.cart k).probes = 1) : ((s.probeCart k true).cart k).lit = false
    ∧ ((s.probeCart k true).cart k).powered = true ∧ ∃ r, ((s.probeCart k true).cart k).ramp = some (s.now + 10000000, r) := by
  obtain ⟨hpowered, hlit, -⟩ := cart_powerSocket (s := s) (k := k)
  rw [probeCart_due h, hp, if_neg (by decide), State.cart_modCart_same, Cart.lit_ramping, Cart.powered_ramping, Cart.ramp_ramping,
    now_powerSocket]
  exact ⟨hlit.trans h.dark, hpowered, _, rfl⟩

/-! ## Lighting (R338, R339) -/

/-- Of a cartridge, whether it is lit and what ramp it is on. -/
def Cart.lamp (x : Cart) : Bool × Option (Nat × Int) := (x.lit, x.ramp)

theorem lamp_modCart (s : State) (k : Nat) {f : Cart → Cart} (hf : ∀ x, (f x).lamp = x.lamp) :
    ((s.modCart k f).cart k).lamp = (s.cart k).lamp := by rw [State.cart_modCart_same, hf]

theorem SparesOnly.lamp {s t : State} (h : SparesOnly s t) (j : Nat) : (t.cart j).lamp = (s.cart j).lamp := by
  rw [h.cart j]
  rfl

/-- The cartridge with its working lasers on. -/
def Cart.withLasersOn (x : Cart) (good : List Nat) : Cart := good.foldl (fun x n => x.setLaser n .on) x

theorem Cart.ramp_withLasersOn (x : Cart) (good : List Nat) : (x.withLasersOn good).ramp = x.ramp :=
  foldl_keeps Cart.ramp (fun (x : Cart) n => x.setLaser n .on) (fun _ _ => rfl) good x

/-- A cartridge that is lit is lit, and on the ramp that it was on. -/
theorem lamp_lightCart (returnPower : Int) : ((s.lightCart k returnPower).cart k).lamp = (true, (s.cart k).ramp) := by
  -- What start-up adds leaves the lamp, and so do the power recorded for each line and the spares tuned.
  have htuned : ∀ (ns : List Nat) (inj : State → Nat → Bool) (t : State),
      ((forEach ns t (fun s n => s.tuneSpare k n (inj s n))).cart k).lamp = (t.cart k).lamp := fun ns inj t =>
    forEach_keeps (fun t => (t.cart k).lamp) _ (fun t n => (SparesOnly.tuneSpare t k n (inj t n)).lamp k) ns t
  have hpower : ∀ (ns : List Nat) (t : State), ((forEach ns t (fun s n => s.takeFree.modCart k (fun x => { x with
      powerOut := tabPut x.powerOut n (nominalPower s.freeNat) }))).cart k).lamp = (t.cart k).lamp := fun ns t =>
    forEach_keeps (fun t => (t.cart k).lamp) _ (fun t n => lamp_modCart t.takeFree k (by intro; rfl)) ns t
  have hfeeds : ∀ (ns : List Nat) (t : State),
      ((forEach ns t (fun s n => s.setFeed (k * 64 + n) feedOwn)).cart k).lamp = (t.cart k).lamp := fun ns t =>
    forEach_keeps (fun t => (t.cart k).lamp) _ (fun t n => congrArg Cart.lamp (cart_congr (State.setFeed_carts ..) k)) ns t
  unfold State.lightCart
  dsimp only
  rw [cart_of_supply (supply_sweepPorts ..), cart_of_supply (supply_feedPorts ..), htuned]
  generalize (s.cart k).starting = starting
  cases starting
  · rw [if_neg Bool.false_ne_true, if_neg Bool.false_ne_true, hpower, State.cart_modCart_same]
    exact congrArg (Prod.mk true) (Cart.ramp_withLasersOn ..)
  · rw [if_pos rfl, if_pos rfl, lamp_modCart _ k (by intro; rfl), hfeeds, hpower, State.cart_modCart_same]
    exact congrArg (Prod.mk true) (Cart.ramp_withLasersOn ..)

/-- A ramp that is over has lit its cartridge. -/
theorem cart_rampDone {r : Nat × Int} (hr : (s.cart k).ramp = some r) (ht : r.1 ≤ s.now) (hm : s.mayPower k = true) :
    ((s.rampDone k).cart k).lit = true ∧ ((s.rampDone k).cart k).litAt = r.1 ∧ ((s.rampDone k).cart k).ramp = none := by
  have hover : ¬ (s.now < r.1 ∨ (!s.mayPower k) = true) := by simp [hm, ht]
  have hlamp := lamp_lightCart (s := s.modCart k (fun x => { x with ramp := none })) (k := k) r.2
  obtain ⟨hlit, hramp⟩ := Prod.mk.inj hlamp
  have hdone : (s.rampDone k).cart k = (((s.modCart k (fun x => { x with ramp := none })).lightCart k r.2).cart k).litFrom r.1 := by
    unfold State.rampDone
    rw [hr]
    dsimp only
    rw [if_neg hover, cart_of_supply (supply_light ..), State.cart_modCart_same, Cart.litFrom]
  rw [State.cart_modCart_same] at hramp
  rw [hdone, Cart.lit_litFrom, Cart.litAt_litFrom, Cart.ramp_litFrom]
  exact ⟨hlit, rfl, hramp⟩

/-- A probe then finds the cartridge lit. -/
theorem probeCart_lit (seen : Bool) (h : ((s.rampDone k).cart k).lit = true) : s.probeCart k seen = s.rampDone k := if_pos (by simp [h])

/-! ## CART_LOST (R861) -/

/-- The lines of a stack without source, those that count as failed already left out. -/
def State.newlyFailed (s : State) (k : Nat) : List Nat :=
  (List.range 64).filter (fun n => s.feedOf (k * 64 + n) == feedNone && (tabFind (s.cart k).failedAt n).isNone)

/-- Lines without source of a cartridge count as failed from now on. -/
def State.countFailed (s : State) (k : Nat) : State :=
  s.modCart k (fun x => x.failing ((s.newlyFailed k).foldl (fun t n => tabPut t n s.now) x.failedAt))

theorem cart_countFailed : ∃ f, (s.countFailed k).cart k = (s.cart k).failing f
    ∧ ∀ n, n < 64 → s.feedOf (k * 64 + n) = feedNone → (tabFind f n).isSome = true := by
  refine ⟨_, by rw [State.countFailed, State.cart_modCart_same], fun n hn hf => ?_⟩
  rw [tabFind_foldl_tabPut]
  split
  · rfl
  · next h =>
    rw [State.newlyFailed, List.mem_filter, List.mem_range, hf] at h
    simpa [hn, Option.isSome_iff_ne_none] using h

theorem cart_cartLost (detail : Nat) : (s.cartLost k detail).cart k = ((if detail = 0 then
    (if detail = 2 then s else s.darkCart k).modCart k Cart.removed else if detail = 2 then s else s.darkCart k).countFailed k).cart k := by
  unfold State.cartLost State.faultEv
  dsimp only
  rw [cart_of_supply (supply_raise ..)]
  rfl

theorem cart_removed : ∃ f, (s.cartLost k (0 : Fin 3)).cart k = ((s.darkCart k).cart k).removed.failing f := by
  obtain ⟨f, hf, -⟩ := cart_countFailed (s := (s.darkCart k).modCart k Cart.removed) (k := k)
  exact ⟨f, by rw [cart_cartLost, if_pos (by decide), if_neg (by decide), hf, State.cart_modCart_same]⟩

theorem cart_shutDown : ∃ f, (s.cartLost k (1 : Fin 3)).cart k = ((s.darkCart k).cart k).failing f := by
  obtain ⟨f, hf, -⟩ := cart_countFailed (s := s.darkCart k) (k := k)
  exact ⟨f, by rw [cart_cartLost, if_neg (by decide), if_neg (by decide), hf]⟩

theorem cart_linesLost : ∃ f, (s.cartLost k (2 : Fin 3)).cart k = (s.cart k).failing f
    ∧ ∀ n, n < 64 → s.feedOf (k * 64 + n) = feedNone → (tabFind f n).isSome = true := by
  obtain ⟨f, hf, hfailed⟩ := cart_countFailed (s := s) (k := k)
  exact ⟨f, by rw [cart_cartLost, if_neg (by decide), if_pos (by decide), hf], hfailed⟩

end

/-- Settles O35: what each step leaves of its cartridge. -/
theorem cartridgesAndEyeSafety : Obligations.CartridgesAndEyeSafety := by
  intro s dt k u hu
  have hcart : s.cart = u.cart := by rw [hu]; rfl
  have hfeed : s.feedOf = u.feedOf := by rw [hu]; rfl
  simp only [exec_cartridgeInsert, exec_interlockClosed, exec_interlockOpen, exec_returnLoss, exec_socketOvercurrent, exec_cartridgeProbe,
    exec_cartLost, ← hu, hcart, hfeed, Host.Outcome.next.injEq]
  refine ⟨fun c hp => if_neg (by simp [hp]), fun hp hi => if_neg (by simp [hp, hi]), ?opened, ?returned, ?cut, ?probes, ?ramp, ?removed, ?dark,
    ?lines⟩
  case opened =>
    obtain ⟨x, hx, hlit, heye⟩ := cart_openInterlock (s := u) (k := k)
    refine ⟨_, rfl, ?_, ?_, ?_, fun hl => ⟨fun n hn => ?_, ?_⟩⟩ <;> rw [hx]
    · exact x.intlk_opened
    · exact x.powered_opened
    · rw [Cart.lit_opened, hlit]
    · rw [Cart.gives_opened, Cart.gives_setDark x ((heye hl).1 n hn)]
    · rw [Cart.status_opened, (heye hl).2]
  case returned =>
    intro hl
    rw [returnLost_off hl]
    exact ⟨_, rfl, lit_eyeOff 1, returnOk_eyeOff 1, fun n => gives_eyeOff 1, flag_eyeOff 1⟩
  case cut =>
    intro hp
    refine ⟨_, rfl, ?_, ?_, ?_, fun n hn => ?_⟩ <;> rw [cart_socketCut hp]
    · rw [Cart.lit_cut, lit_eyeOff]
    · rw [Cart.powered_cut]
    · rw [Cart.limited_cut]
    · rw [Cart.gives_cut, Cart.gives_setDark _ (gives_eyeOff 4 hn)]
  case probes =>
    intro hm hd hr hs
    have hdue : ProbeDue u k := ⟨hm, hd, hr, hs⟩
    refine ⟨⟨_, rfl, cart_probe hdue rfl (by decide)⟩, fun hp => ?_, fun hp => ?_⟩
    · obtain ⟨hlit, hn, -⟩ := cart_probe (n := 1) (seen := true) hdue (by rw [hp]; rfl) (by decide)
      exact ⟨_, rfl, hlit, hn⟩
    · obtain ⟨hlit, hpowered, r, hramp⟩ := cart_secondProbe hdue hp
      exact ⟨_, r, rfl, hlit, hpowered, hramp⟩
  case ramp =>
    intro b r hm hr ht
    have hover := cart_rampDone hr ht hm
    rw [probeCart_lit b hover.1]
    exact ⟨_, rfl, hover⟩
  case removed =>
    obtain ⟨f, hf⟩ := cart_removed (s := u) (k := k)
    refine ⟨_, rfl, ?_, ?_, ?_⟩ <;> rw [hf]
    · rw [Cart.lit_failing, Cart.lit_removed, lit_darkCart]
    · rw [Cart.present_failing, Cart.present_removed]
    · rw [Cart.powered_failing, Cart.powered_removed]
  case dark =>
    obtain ⟨f, hf⟩ := cart_shutDown (s := u) (k := k)
    refine ⟨_, rfl, ?_, ?_⟩ <;> rw [hf]
    · rw [Cart.lit_failing, lit_darkCart]
    · rw [Cart.present_failing, present_darkCart]
  case lines =>
    obtain ⟨f, hf, hfailed⟩ := cart_linesLost (s := u) (k := k)
    refine ⟨_, rfl, ?_, ?_, fun n hn hnone => ?_⟩ <;> rw [hf]
    · rw [Cart.lit_failing]
    · rw [Cart.lasers_failing]
    · rw [Cart.failedAt_failing]
      exact hfailed n hn hnone

end Sys2Proof.Machine
end

section
/-! PROOFS. What a control tick leaves of memory, of the time and of the power state, in the order of its parts: ramps, sensors, protection, rings
that are out of service, lock loops, power loops and trims (R251, R338, R349 to R391, R753 to R768). -/

namespace Sys2Proof.Machine

/-- Memory, the time but for the sources of the tick, and the power supply but for what a control tick measures and computes. -/
def State.steady (s : State) : List Host.Cell × TimeState × Power :=
  (s.mem, { s.time with sources := [], srcState := .free, lostAt := none }, { s.power with
    activity := 0, limiter := 0, stop := false, stopDue := false, sensors := [], hbm := [], hostLimit := 0, refTrim := [] })

section
variable {s t : State}

theorem steady_of_supply (h : t.supply = s.supply) : t.steady = s.steady := (congrArg State.steady h :)
theorem steady_of_offLinks (h : t.offLinks = s.offLinks) : t.steady = s.steady := (congrArg State.steady h :)

theorem mem_of_steady (h : t.steady = s.steady) : t.mem = s.mem := congrArg Prod.fst h

theorem time_of_steady (h : t.steady = s.steady) :
    t.time = { s.time with sources := t.time.sources, srcState := t.time.srcState, lostAt := t.time.lostAt } :=
  congrArg (fun x : List Host.Cell × TimeState × Power =>
    { x.2.1 with sources := t.time.sources, srcState := t.time.srcState, lostAt := t.time.lostAt }) h

theorem watts_of_steady (h : t.steady = s.steady) : t.power.watts = s.power.watts := (congrArg (fun x => x.2.2.watts) h :)
theorem amps_of_steady (h : t.steady = s.steady) : t.power.amps = s.power.amps := (congrArg (fun x => x.2.2.amps) h :)
theorem volts_of_steady (h : t.steady = s.steady) : t.power.volts = s.power.volts := (congrArg (fun x => x.2.2.volts) h :)

theorem sensorsOn_of_steady (h : t.steady = s.steady) : t.sensorsOn = s.sensorsOn := by
  have hb : t.power.boot = s.power.boot := (congrArg (fun x => x.2.2.boot) h :)
  have hp : t.power.pstate = s.power.pstate := (congrArg (fun x => x.2.2.pstate) h :)
  rw [State.sensorsOn, hb, hp, State.sensorsOn]

end

section
variable (s : State)

@[simp] theorem steady_raise (a b : Nat) (m i : Bool) (p : Nat) : (s.raise a b m i p).steady = s.steady := steady_of_supply (supply_raise ..)
@[simp] theorem steady_light (cart kind line spare loop detail : Nat) (inj : Bool) :
    (s.light cart kind line spare loop detail inj).steady = s.steady := steady_raise ..
@[simp] theorem steady_powerEv (source kind sensor : Nat) (temp : Int) (detail : Nat) (inj : Bool) :
    (s.powerEv source kind sensor temp detail inj).steady = s.steady := steady_raise ..
@[simp] theorem steady_converter (conv kind detail : Nat) : (s.converter conv kind detail).steady = s.steady := steady_raise ..
@[simp] theorem steady_optical (e kind row line epoch detail : Nat) (inj : Bool) :
    (s.optical e kind row line epoch detail inj).steady = s.steady := steady_raise ..

@[simp] theorem steady_modCart (k : Nat) (f : Cart → Cart) : (s.modCart k f).steady = s.steady := rfl
@[simp] theorem steady_modCluster (c : Nat) (f : Cluster → Cluster) : (s.modCluster c f).steady = s.steady := rfl
@[simp] theorem steady_modEngine (e : Nat) (f : Engine → Engine) : (s.modEngine e f).steady = s.steady := rfl
@[simp] theorem steady_modLoop (k : Nat) (f : Loop → Loop) : (s.modLoop k f).steady = s.steady := rfl
@[simp] theorem steady_setLoop (k : Nat) (x : Loop) : (s.setLoop k x).steady = s.steady := rfl
@[simp] theorem steady_modSensor (k : Nat) (f : Sensor → Sensor) : (s.modSensor k f).steady = s.steady := rfl
@[simp] theorem steady_pmSet (f : Pmbus → Pmbus) : (s.pmSet f).steady = s.steady := rfl

theorem steady_forEach {α : Type} {f : State → α → State} (h : ∀ s a, (f s a).steady = s.steady) (l : List α) (s : State) :
    (forEach l s f).steady = s.steady := forEach_keeps State.steady f h l s

theorem steady_ite {c : Prop} [Decidable c] {s t u : State} (ht : t.steady = s.steady) (hu : u.steady = s.steady) :
    (if c then t else u).steady = s.steady := by
  split
  · exact ht
  · exact hu

/-! ## Ramps and readings (R338, R753 to R755, R739) -/

@[simp] theorem steady_tuneSpare (k n : Nat) (inj : Bool) : (s.tuneSpare k n inj).steady = s.steady := by
  unfold State.tuneSpare
  dsimp only
  split
  · rfl
  · split
    · exact (steady_light ..).trans (steady_modCart ..)
    · exact (steady_modCart ..).trans (steady_light ..)

@[simp] theorem steady_lightCart (k : Nat) (returnPower : Int) : (s.lightCart k returnPower).steady = s.steady := by
  unfold State.lightCart
  dsimp only
  rw [steady_of_supply (supply_sweepPorts ..), steady_of_supply (supply_feedPorts ..), steady_forEach (fun s n => steady_tuneSpare s k n _)]
  have hpower : ∀ (l : List Nat) (s : State), (forEach l s (fun s n => s.takeFree.modCart k (fun x => { x with
      powerOut := tabPut x.powerOut n (nominalPower s.freeNat) }))).steady = s.steady := steady_forEach (fun _ _ => rfl)
  have hfeeds : ∀ (l : List Nat) (s : State), (forEach l s (fun s n => s.setFeed (k * 64 + n) feedOwn)).steady = s.steady :=
    steady_forEach (fun _ _ => rfl)
  split
  · rw [steady_modCart, hfeeds, hpower, steady_modCart]
  · rw [hpower, steady_modCart]

@[simp] theorem steady_rampDone (k : Nat) : (s.rampDone k).steady = s.steady := by
  unfold State.rampDone
  split
  · rfl
  · refine steady_ite rfl ?_
    rw [steady_light, steady_modCart, steady_lightCart, steady_modCart]

@[simp] theorem steady_failSensor (k check : Nat) (inj : Bool) : (s.failSensor k check inj).steady = s.steady :=
  steady_ite rfl ((steady_powerEv ..).trans (steady_modSensor ..))

@[simp] theorem steady_readSensor (m : Measurements) (k : Nat) : (s.readSensor m k).steady = s.steady := by
  unfold State.readSensor
  dsimp only
  split
  · rw [steady_failSensor, steady_modSensor]
  · split
    · rw [steady_failSensor, steady_modSensor]
    · rfl

theorem steady_further (z : Nat) : (s.further z).2.steady = s.steady := by
  unfold State.further
  dsimp only
  split
  · rfl
  · split <;> rfl

@[simp] theorem steady_pairCheck (z : Nat) : (s.pairCheck z).steady = s.steady := by
  unfold State.pairCheck
  extract_lets a b n r
  clear_value n
  split
  · split
    · rfl
    · exact steady_modSensor ..
  · rw [steady_failSensor, steady_further, steady_modSensor]

@[simp] theorem steady_readSensors (m : Measurements) : (s.readSensors m).steady = s.steady := by
  have hpairs : ∀ s : State, (if s.power.sensors.isEmpty then s else forEach (List.range 128) s State.pairCheck).steady = s.steady :=
    fun s => steady_ite rfl (steady_forEach steady_pairCheck _ s)
  have hhbm : ∀ s : State, (s.modPower (fun p => { p with hbm := m.hbm ++ p.hbm.drop m.hbm.length })).steady = s.steady := fun _ => rfl
  unfold State.readSensors
  dsimp only
  rw [steady_forEach (fun s x => steady_modCart s _ _), hhbm, hpairs, steady_forEach (fun s k => steady_readSensor s m k)]

@[simp] theorem steady_pmSample : s.pmSample.steady = s.steady := rfl

/-! ## Converters, stop conditions, and rings out of service (R542, R760, R766, R807) -/

@[simp] theorem steady_dacUnderruns (l : List Nat) : (s.dacUnderruns l).steady = s.steady := steady_forEach (fun s _ => steady_converter s _ _ _) l s

@[simp] theorem steady_thermalStop : s.thermalStop.steady = s.steady := by
  unfold State.thermalStop
  have hstop : ∀ s : State, (s.modPower (fun p => { p with stop := true, stopDue := true })).steady = s.steady := fun _ => rfl
  split
  · rfl
  · split
    · rfl
    · dsimp only
      rw [hstop, steady_forEach (fun s c => steady_modCluster s c _), steady_pmSet, steady_powerEv]

@[simp] theorem steady_ringReceiver (k : Nat) : (s.ringReceiver k).steady = s.steady := by
  unfold State.ringReceiver
  split
  · refine steady_ite rfl ?_
    split
    · exact steady_ite (steady_modCluster ..) (steady_ite rfl (steady_modCluster ..))
    · rfl
  · rfl

@[simp] theorem steady_ringPort (k : Nat) (inj : Bool) : (s.ringPort k inj).steady = s.steady := by
  unfold State.ringPort
  split
  · exact steady_ite rfl (steady_of_offLinks (offLinks_portOut ..))
  · rfl

@[simp] theorem steady_ringsOut : s.ringsOut.steady = s.steady := by
  have hports : ∀ s : State, (forEach ((List.range 16).filter s.portRuns) s (fun s p =>
      forEach (portLoops p) s (fun s k => s.ringPort k false))).steady = s.steady :=
    fun s => steady_forEach (fun s p => steady_forEach (fun s k => steady_ringPort s k false) _ s) _ s
  unfold State.ringsOut
  dsimp only
  rw [hports, steady_forEach (fun s d => steady_forEach (fun s j => steady_ringReceiver s _) _ s)]

/-! ## The boundary of the loops (R381 to R388, R763) -/

@[simp] theorem steady_setPower : s.setPower.steady = s.steady := by
  unfold State.setPower
  refine steady_ite ?_ (steady_setLoop ..)
  rw [steady_light, steady_modLoop, steady_setLoop]

@[simp] theorem steady_loopBoundary : s.loopBoundary.steady = s.steady := by
  have hlimit : ∀ (s : State) (v : Int), (s.modPower (fun p => { p with hostLimit := v })).steady = s.steady := fun _ _ => rfl
  unfold State.loopBoundary
  extract_lets s1
  have h1 : s1.steady = s.steady := by
    refine steady_forEach (fun s k => ?_) _ s
    dsimp only
    split
    · rw [steady_setPower, hlimit, steady_setLoop]
    · exact steady_setLoop ..
  refine (steady_forEach ?_ _ _).trans h1
  intro _ _
  rfl

/-! ## Rows that are removed, and loops that fail (R261, R265, R359 to R361) -/

@[simp] theorem links_setCapacity (c cap : Nat) (inj : Bool) : (s.setCapacity c cap inj).links = s.links := by
  unfold State.setCapacity
  dsimp only
  split
  · rfl
  · split
    · rw [links_walk, links_fabricEv, links_modCluster]
    · rw [links_fabricEv, links_modCluster]

@[simp] theorem steady_updateCapacity (c : Nat) : (s.updateCapacity c).steady = s.steady := steady_of_supply (supply_of_links (links_setCapacity ..))

@[simp] theorem steady_removeRow (e p cause : Nat) (pilot inj : Bool) : (s.removeRow e p cause pilot inj).steady = s.steady := by
  unfold State.removeRow
  dsimp only
  split
  · have hout : ((s.modEngine e (fun x => x.setRow p .reacquire)).dirtyRow e p pilot inj).steady = s.steady := rfl
    split
    · rw [steady_of_supply (supply_rotateRows ..), steady_of_supply (supply_takeRow ..), hout]
    · rw [steady_modEngine, steady_of_supply (supply_takeRow ..), hout]
    · rw [steady_updateCapacity, steady_modEngine, steady_optical, hout]
  · rw [steady_updateCapacity, steady_modEngine]
  · rfl
  · rfl

@[simp] theorem steady_lockFailed (k : Nat) : (s.lockFailed k).steady = s.steady := by
  unfold State.lockFailed
  dsimp only
  split
  · refine (steady_ite ?_ rfl).trans ((steady_ite (steady_removeRow ..) rfl).trans ((steady_light ..).trans (steady_modLoop ..)))
    rw [steady_optical, steady_modEngine]
  · exact (steady_light ..).trans (steady_modLoop ..)

@[simp] theorem steady_attemptFailed (k : Nat) : (s.attemptFailed k).steady = s.steady := by
  unfold State.attemptFailed
  rw [steady_of_supply (supply_startSweeps _)]
  exact steady_ite (steady_modLoop ..) (steady_lockFailed ..)

@[simp] theorem steady_loopOut (k cause : Nat) (pilot inj : Bool) : (s.loopOut k cause pilot inj).steady = s.steady := by
  unfold State.loopOut
  refine steady_ite (steady_attemptFailed ..) ?_
  rw [steady_of_supply (supply_startSweeps _)]
  split
  · rw [steady_removeRow, steady_modLoop, steady_of_supply (supply_thaw ..)]
  · rw [steady_ringPort, steady_ringReceiver, steady_modLoop, steady_of_supply (supply_thaw ..)]

/-! ## Lock loops (R346 to R352, R364, R366) -/

@[simp] theorem steady_dirtyEnded (k point : Nat) (pilot inj : Bool) : (s.dirtyEnded k point pilot inj).steady = s.steady := by
  unfold State.dirtyEnded
  split
  · exact steady_ite (steady_modEngine ..) rfl
  · rfl

@[simp] theorem steady_leftWindow (k : Nat) : (s.leftWindow k).steady = s.steady := by
  unfold State.leftWindow
  exact steady_ite rfl (steady_ite ((steady_modLoop ..).trans (steady_dirtyEnded ..)) (steady_dirtyEnded ..))

@[simp] theorem steady_lightLoops : s.lightLoops.steady = s.steady := by
  unfold State.lightLoops
  refine steady_forEach (fun s x => ?_) _ s
  dsimp only
  refine steady_ite (steady_ite ?_ rfl) (steady_ite rfl (steady_ite ?_ (steady_ite ?_ (steady_modLoop ..))))
  · rw [steady_modLoop, steady_leftWindow]
  · rw [steady_loopOut, steady_modLoop]
  · rw [steady_of_supply (supply_acquireLoops ..), steady_modLoop]

@[simp] theorem steady_checkHeat (k : Nat) : (s.checkHeat k).steady = s.steady := by
  unfold State.checkHeat
  refine steady_ite rfl ?_
  rw [steady_loopOut, steady_light, steady_modLoop]

@[simp] theorem steady_applyHeat (k : Nat) : (s.applyHeat k).steady = s.steady := by
  have hheat : ∀ (l : List (Nat × Int)) (s : State), (forEach l s (fun s h =>
      s.heat h.1 (clampI 0 heatMax h.2) (fun i => if h.1 = k then s.ditherOf k i else 0))).steady = s.steady :=
    steady_forEach (fun _ _ => rfl)
  unfold State.applyHeat
  refine steady_ite ((steady_light ..).trans ?_) ?_ <;> rw [hheat, steady_modLoop]

@[simp] theorem steady_lockLoops (m : Measurements) : (s.lockLoops m).steady = s.steady := by
  unfold State.lockLoops
  dsimp only
  rw [steady_forEach steady_checkHeat, steady_lightLoops, steady_forEach steady_leftWindow, steady_forEach (fun s k => steady_modLoop s k _),
    steady_forEach steady_applyHeat, steady_forEach (fun s k => steady_modLoop s k _), steady_forEach (fun s k => steady_modLoop s k _)]

/-! ## Power loops and what else the loop units write (R205, R251, R375 to R380) -/

/-- The power loops' least output, 255 at most (R377). -/
def State.leastOut (s : State) : Nat := ((List.range 9).map (fun k => (clampI 0 255 (s.loop (5120 + k)).u).toNat)).foldl min 255

theorem leastOut_congr {s t : State} (h : t.loops = s.loops) : t.leastOut = s.leastOut := by
  unfold State.leastOut State.loop
  rw [h]

theorem steady_powerLoops : s.powerLoops.steady = s.steady := by
  have hlevel : ∀ (s : State) (a lim : Nat), (s.modPower (fun p => { p with activity := a, limiter := lim })).steady = s.steady :=
    fun _ _ _ => rfl
  unfold State.powerLoops
  extract_lets s1 outs a lim changed s2 s3
  have h1 : s1.steady = s.steady := steady_forEach (fun s k => steady_modLoop s _ _) _ s
  have h3 : s3.steady = s2.steady := steady_ite (steady_pmSet ..) rfl
  exact (steady_ite (steady_light ..) rfl).trans (h3.trans ((hlevel ..).trans h1))

/-- The loops, and the activity level that the power loops have set. -/
def State.gauge (s : State) : Tab Loop × Nat := (s.loops, s.power.activity)

@[simp] theorem gauge_light (cart kind line spare loop detail : Nat) (inj : Bool) :
    (s.light cart kind line spare loop detail inj).gauge = s.gauge := (congrArg State.gauge (offLinks_of_links (links_light ..)) :)

variable {s} in
/-- The activity level is the least output also where the loops and the level are as they were. -/
theorem activity_of_gauge {t : State} (h : t.gauge = s.gauge) (hs : s.power.activity = s.leastOut) : t.power.activity = t.leastOut := by
  obtain ⟨hloops, hlevel⟩ := Prod.mk.inj h
  rw [leastOut_congr hloops, ← hs]
  exact hlevel

/-- The power loops compute their outputs, and the activity level is the least of them. -/
theorem activity_powerLoops : s.powerLoops.power.activity = s.powerLoops.leastOut := by
  unfold State.powerLoops
  extract_lets s1 outs a lim changed s2 s3
  clear_value s1
  have ha : a = s1.leastOut := rfl
  have hloops : s2.leastOut = s1.leastOut := leastOut_congr (State.modPower_loops ..)
  have h2 : s2.power.activity = s2.leastOut := Eq.trans rfl hloops.symm
  clear_value s2 changed lim a
  have h3 : s3.gauge = s2.gauge := by
    unfold s3
    split <;> rfl
  clear_value s3
  refine activity_of_gauge (s := s2) ?_ h2
  split
  · exact (gauge_light ..).trans h3
  · exact h3

theorem steady_driftTrims : s.driftTrims.steady = s.steady := rfl
theorem gauge_driftTrims : s.driftTrims.gauge = s.gauge := rfl

theorem steady_refTrims : s.refTrims.steady = s.steady := by
  unfold State.refTrims
  exact steady_forEach (fun s i => by dsimp only; split <;> rfl) _ s

theorem gauge_refTrims : s.refTrims.gauge = s.gauge := by
  unfold State.refTrims
  exact forEach_keeps State.gauge _ (fun s i => by dsimp only; split <;> rfl) _ s

theorem steady_lineNorm (e n p : Nat) : (s.lineNorm e n p).steady = s.steady := steady_modEngine ..

theorem steady_lineNorms (l : List (Nat × Nat × Nat)) : (s.lineNorms l).steady = s.steady :=
  steady_forEach (fun _ _ => steady_ite (steady_lineNorm ..) rfl) l s

theorem gauge_lineNorms (l : List (Nat × Nat × Nat)) : (s.lineNorms l).gauge = s.gauge :=
  forEach_keeps State.gauge _ (fun s x => by split <;> rfl) l s

theorem steady_closeEpoch : s.closeEpoch.steady = s.steady := rfl
theorem gauge_closeEpoch : s.closeEpoch.gauge = s.gauge := rfl

/-! ## The control tick (R91, R366, R769) -/

/-- The module before its sensors are read: the readings of its input, and ramps that are over. -/
def State.tickRead (s : State) (m : Measurements) : State :=
  (((s.modTime (fun q => { q with controlAt := some s.controlPoint })).readInput m).rampDone 0).rampDone 1

/-- Of a control tick below the trip temperature, all that follows the protection. -/
def State.tickLoops (s : State) (m : Measurements) : State :=
  ((((((s.dacUnderruns m.underruns).thermalStop.ringsOut).loopBoundary.lockLoops m).powerLoops.driftTrims).refTrims).lineNorms m.linePower).closeEpoch

theorem steady_tickLoops (m : Measurements) : (s.tickLoops m).steady = s.steady := by
  unfold State.tickLoops
  rw [steady_closeEpoch, steady_lineNorms, steady_refTrims, steady_driftTrims, steady_powerLoops, steady_lockLoops, steady_loopBoundary,
    steady_ringsOut, steady_thermalStop, steady_dacUnderruns]

theorem activity_tickLoops (m : Measurements) : (s.tickLoops m).power.activity = (s.tickLoops m).leastOut := by
  unfold State.tickLoops
  exact activity_of_gauge ((gauge_closeEpoch _).trans ((gauge_lineNorms ..).trans ((gauge_refTrims _).trans (gauge_driftTrims _))))
    (activity_powerLoops _)

theorem steady_readInput (m : Measurements) : (s.readInput m).steady
    = (s.modPower (fun p => { p with watts := m.power, amps := m.current, volts := m.voltage })).steady := by
  unfold State.readInput
  exact (steady_ite (steady_pmSet ..) rfl).trans (steady_ite (steady_pmSet ..) rfl)

theorem steady_tickRead (m : Measurements) : (s.tickRead m).steady
    = ((s.modTime (fun q => { q with controlAt := some s.controlPoint })).modPower (fun p => { p with
        watts := m.power, amps := m.current, volts := m.voltage })).steady := by
  unfold State.tickRead
  rw [steady_rampDone, steady_rampDone, steady_readInput]

variable {s}

theorem tripCheck_cool (h : ∀ d, d < 4 → s.dieTemp d < 460) : s.tripCheck = s := by
  have hnone : (List.range 4).find? (fun d => decide (460 ≤ s.dieTemp d)) = none :=
    List.find?_eq_none.mpr (fun d hd => by simpa using h d (List.mem_range.mp hd))
  rw [State.tripCheck, hnone]

theorem tripCheck_hot (h : ∃ d, d < 4 ∧ 460 ≤ s.dieTemp d) : ∃ x, s.tripCheck = s.tripNow x := by
  obtain ⟨d, hd, hhot⟩ := h
  cases hfind : (List.range 4).find? (fun d => decide (460 ≤ s.dieTemp d)) with
  | none => exact absurd (decide_eq_true hhot) (List.find?_eq_none.mp hfind d (List.mem_range.mpr hd))
  | some e => exact ⟨_, by rw [State.tripCheck, hfind]⟩

theorem tripNow_off (x : Trip) : (s.tripNow x).power.tripped = true ∧ (s.tripNow x).power.pstate = .ps5 ∧ (s.tripNow x).mem = []
    ∧ (s.tripNow x).sensorsOn = false := ⟨rfl, rfl, rfl, rfl⟩

/-- A control tick that comes: without sensors it takes the readings of the input; with them, the protection first, then the loops. -/
theorem controlTick_eq (m : Measurements) (hp : s.powered = true) (hd : s.controlDue = true) : s.controlTick m
    = if !(s.tickRead m).sensorsOn then (s.tickRead m).restSensors.pmSample
      else if !(((s.tickRead m).readSensors m).pmSample.tripCheck).sensorsOn then ((s.tickRead m).readSensors m).pmSample.tripCheck
      else (((s.tickRead m).readSensors m).pmSample.tripCheck).tickLoops m := by
  have hdue : ¬ (!s.powered || !s.controlDue) = true := by simp [hp, hd]
  rw [State.controlTick, if_neg hdue]
  rfl

theorem exec_controlTick (m : Measurements) (dt : Nat) (hm : m.wellFormed = true) :
    exec (.controlTick dt m) s = .next ((s.elapse dt).controlTick m) := if_neg (by simp [hm])

end

/-! ## The law (R366, R386) -/

section
variable (x : Loop) (e ff : Int) (lock : Bool)

theorem Loop.law_frozen (h : x.frozen = true) : (x.law e ff lock).i = x.i ∧ (x.law e ff lock).d = x.d ∧ (x.law e ff lock).p = x.p := by
  unfold Loop.law
  dsimp only
  rw [if_pos h]
  split <;> exact ⟨rfl, rfl, rfl⟩

theorem Loop.law_free (h : x.frozen = false) : (x.law e ff lock).p = shiftRound (coKp x.coef * e) 16
    ∧ ∃ v, (x.law e ff lock).u = if decide (coOutMax x.coef < v) then coOutMax x.coef
        else if decide (v < coOutMin x.coef) then coOutMin x.coef else v := by
  unfold Loop.law
  dsimp only
  rw [if_neg (Bool.eq_false_iff.mp h)]
  exact ⟨rfl, _, rfl⟩

theorem Loop.law_limited (h : x.frozen = false) (hc : coOutMin x.coef ≤ coOutMax x.coef) :
    coOutMin x.coef ≤ (x.law e ff lock).u ∧ (x.law e ff lock).u ≤ coOutMax x.coef := by
  obtain ⟨-, v, hv⟩ := x.law_free e ff lock h
  rw [hv]
  simp only [decide_eq_true_eq]
  split
  · exact ⟨hc, le_rfl⟩
  · split <;> omega

end

/-- Settles O45: with the sensors on, by whether a die is at the trip temperature; what the loops leave of the tick is `steady`. -/
theorem controlTicks : Obligations.ControlTicks := by
  intro s dt m u v hu hv hm hpowered hdue
  have hp : u.powered = true := by rw [hu]; exact hpowered
  have hson : s.sensorsOn = u.sensorsOn := by rw [hu]; rfl
  have hmem : s.mem = u.mem := by rw [hu]; rfl
  have hread := steady_tickRead u m
  have hon : (u.tickRead m).sensorsOn = u.sensorsOn := (sensorsOn_of_steady hread).trans rfl
  replace hv : v = ((u.tickRead m).readSensors m).pmSample := hv
  have hsteady : v.steady = (u.tickRead m).steady := by rw [hv, steady_pmSample, steady_readSensors]
  rw [exec_controlTick m dt hm, ← hu, controlTick_eq m hp hdue, ← hv, hon, hson, hmem]
  refine ⟨fun hs hcool => ?_, fun hs hhot => ?_, fun hs => ?_, fun x e ff lock => ⟨fun hf => ⟨(x.law_free e ff lock hf).1,
    x.law_limited e ff lock hf⟩, x.law_frozen e ff lock⟩⟩
  · have hv' : v.sensorsOn = true := (sensorsOn_of_steady hsteady).trans (hon.trans hs)
    have ht := (steady_tickLoops v m).trans (hsteady.trans hread)
    rw [tripCheck_cool hcool, hs, hv']
    exact ⟨v.tickLoops m, rfl, (watts_of_steady ht).trans rfl, (amps_of_steady ht).trans rfl, (volts_of_steady ht).trans rfl,
      (mem_of_steady ht).trans rfl, (time_of_steady ht).trans rfl, activity_tickLoops v m⟩
  · obtain ⟨x, hx⟩ := tripCheck_hot hhot
    obtain ⟨htrip, hps, hmem', hoff⟩ := tripNow_off (s := v) x
    rw [hx, hs, hoff]
    exact ⟨_, rfl, htrip, hps, hmem'⟩
  · rw [hs]
    rfl

end Sys2Proof.Machine
end

section
/-! PROOFS. The model and slab commands: MODEL_DECLARE, MODEL_MAP_PAGES, SLAB_DRESS and SLAB_RELEASE (R188, R190, R230, R426, R492, R625, R705,
R881). -/

namespace Sys2Proof.Machine

theorem snd_mem_of_mem_indexed {α : Type} {l : List α} {x : Nat × α} (hx : x ∈ indexed l) : x.2 ∈ l := (List.of_mem_zip hx).2

section
variable (h : CmdHdr) {f : State}

/-! ## MODEL_DECLARE (R426, R625, R881) -/

theorem cmdModelDeclare_declares {n : Nat} {cs : List Nat} {rs : List (List Byte)} (hn : n = leAt h.bulk 4 2 % 2048)
    (hcs : cs = maskBits (BitVec.ofNat 64 (leAt h.bulk 8 8))) (hrs : rs = scaleRecords n (h.bulk.drop 32)) (hmax : n ≤ 1024)
    (hlen : h.bulk.length = 32 + 16 * n) (hmodel : leAt h.bulk 0 2 ≠ 0xFFFF) (hfault : ∀ r ∈ rs, scaleFault r = none)
    (hidle : ∀ c ∈ cs, (f.cluster c).scaleCount = n ∨ (f.cluster c).busy = false)
    (hhist : (rs.filter (fun r => decide (leAt r 4 1 % 32 ≠ 0))).length ≤ 64)
    (hup : ∀ c ∈ cs, f.banksUp c 0xFF 0x100000 (16 * n) = true) :
    cmdModelDeclare h f = Answer.ok ((forEach cs f (fun g c => g.declare n (rs.map scaleOf) c)).modTrust (fun y =>
      { y with mrModel := tabSet 0 y.mrModel (sessionTenant h) (extend (tabGet 0 y.mrModel (sessionTenant h)) h.bulk) })) := by
  have hrecords : (indexed rs).findSome? (fun x => (scaleFault x.2).map (fun o => bulkBit + 32 + 16 * x.1 + o)) = none :=
    List.findSome?_eq_none_iff.mpr (fun x hx => Option.map_eq_none_iff.mpr (hfault x.2 (snd_mem_of_mem_indexed hx)))
  have hbusy : ¬ cs.any (fun c => decide ((f.cluster c).scaleCount ≠ n) && (f.cluster c).busy) = true := by
    rw [List.any_eq_true]
    rintro ⟨c, hc, hx⟩
    rcases hidle c hc with heq | hfree
    · simp [heq] at hx
    · simp [hfree] at hx
  have hdown : ¬ cs.any (fun c => !f.banksUp c 0xFF 0x100000 (16 * n)) = true := by
    rw [List.any_eq_true]
    rintro ⟨c, hc, hx⟩
    simp [hup c hc] at hx
  have hshort : ¬ h.bulk.length < 32 := by omega
  simp only [cmdModelDeclare, ← hn, ← hcs, ← hrs, hrecords, if_neg hshort, if_neg (Nat.not_lt.mpr hmax), if_neg (not_not.mpr hlen),
    if_neg hmodel, if_neg hbusy, if_neg (Nat.not_lt.mpr hhist), if_neg hdown]
  rfl

/-! ## MODEL_MAP_PAGES (R492, R705) -/

/-- MODEL_MAP_PAGES accepts a tile record of tenant `t`: the master copy lies aligned within its page, and the page is a
MODEL page of the tenant, not one of the manager's. -/
def State.tileAccepted (s : State) (t : Nat) (r : List Byte) : Prop :=
  trOfs r + 102400 ≤ 2 ^ 23 ∧ trOfs r % 64 = 0 ∧ trPage r < 98304 ∧ s.managerPage (trPage r) = false ∧ (s.page (trPage r)).kind = 1
    ∧ (s.page (trPage r)).tenant = t

/-- The tiles that `rs` names are mapped for tenant `t` and their pages marked as the model's, from the next boundary with its lead on;
fills made ahead from those pages are cancelled (R492, R529). -/
def State.mapTiles (s : State) (t model : Nat) (rs : List (List Byte)) : State :=
  ({ s with
    tiles := s.tiles ++ rs.map (fun r =>
      { tenant := t, tileId := BitVec.ofNat 64 (leAt r 0 8), page := trPage r, ofs := trOfs r, notBefore := some s.leadFrom })
    pageChanges := s.pageChanges ++ (rs.map trPage).dedup.map (fun q =>
      { notBefore := s.leadFrom, page := q, entry := { s.page q with model := model } }) } : State).cancelPages
    (fun q => (rs.map trPage).dedup.contains q) (s.boundaryAt s.leadFrom)

theorem cmdModelMapPages_maps {p : MapPagesParams} {rs : List (List Byte)} (hrs : rs = tileRecords p.count.toNat h.bulk)
    (h0 : 0 < p.count.toNat) (hmax : p.count.toNat ≤ 4096) (hlen : h.bulk.length = 16 * p.count.toNat)
    (hok : ∀ r ∈ rs, f.tileAccepted (sessionTenant h) r) :
    cmdModelMapPages h p f = Answer.ok (f.mapTiles (sessionTenant h) p.model.toNat rs) := by
  have hrecord : ∀ x ∈ indexed rs, f.tileAccepted (sessionTenant h) x.2 := fun x hx => hok x.2 (snd_mem_of_mem_indexed hx)
  have hfits : (indexed rs).find? (fun x => decide (2 ^ 23 < trOfs x.2 + Config.masterBytes)) = none := by
    refine List.find?_eq_none.mpr (fun x hx => ?_)
    obtain ⟨hend, -⟩ := hrecord x hx
    exact decide_eq_true_iff.not.mpr (Nat.not_lt.mpr hend)
  have hpages : (indexed rs).find? (fun x => decide (Config.pages ≤ trPage x.2) || f.managerPage (trPage x.2)
      || decide ((f.page (trPage x.2)).kind ≠ 1) || decide ((f.page (trPage x.2)).tenant ≠ sessionTenant h)) = none := by
    refine List.find?_eq_none.mpr (fun x hx => ?_)
    obtain ⟨-, -, hpage, hmanager, hkind, htenant⟩ := hrecord x hx
    have hexists : ¬ Config.pages ≤ trPage x.2 := Nat.not_le.mpr hpage
    simp [hexists, hmanager, hkind, htenant]
  have haligned : (indexed rs).find? (fun x => decide (trOfs x.2 % 64 ≠ 0)) = none := by
    refine List.find?_eq_none.mpr (fun x hx => ?_)
    obtain ⟨-, halign, -⟩ := hrecord x hx
    simp [halign]
  simp only [cmdModelMapPages, ← hrs, hfits, hpages, haligned, if_neg (Nat.not_lt.mpr hmax), if_neg (not_not.mpr hlen),
    if_neg (Nat.pos_iff_ne_zero.mp h0)]
  rfl

/-! ## SLAB_DRESS and SLAB_RELEASE (R188, R190, R230) -/

theorem cmdSlabDress_queues {p : SlabDressParams} {loc : Nat × Nat} {u : State} (hp : (f.slab p.slab.toNat).pinned = false)
    (ht : f.tileAt (f.cluster (slabCluster p.slab.toNat)).tenant p.tileId = some loc) (hon : f.hbmOn = true)
    (hm : mapFault (f.copyMap loc.1 loc.2) = none)
    (hu : u = f.queueDress p.slab.toNat 2 (some
      { tileId := p.tileId, seamThresh := if p.seamThresh = 0 then 2880 else p.seamThresh.toNat,
        redressAge := p.redressAge.toNat, model := p.model.toNat })) :
    cmdSlabDress h p f = Answer.okR u ((u.dressQueue.takeWhile (· ≠ p.slab.toNat)).length % 65536) := by
  simp only [cmdSlabDress, hp, ht, hon, hm, hu, Config.seamThresh, Bool.not_true, Bool.false_eq_true, if_false]

theorem cmdSlabRelease_unpinned {k : BitVec 14} (hp : (f.slab k.toNat).pinned = false) : cmdSlabRelease h k f = Answer.ok f :=
  if_pos (by simp [hp])

theorem cmdSlabRelease_pinned {k : BitVec 14} (hp : (f.slab k.toNat).pinned = true) (hr : (f.slab k.toNat).recon = []) :
    cmdSlabRelease h k f = Answer.ok (f.modSlab k.toNat (fun x => { x with pinned := false })) := by
  refine (if_neg (by simp [hp])).trans (congrArg Answer.ok ?_)
  split
  · rfl
  · next hcons => exact absurd (hr.symm.trans hcons) (List.cons_ne_nil _ _).symm

/-- A slab that is reconstructing is handled as an unpinned one: SEAM_FAIL names the column, and the slab turns to its detour (R199, R230). -/
theorem cmdSlabRelease_reconstructing {k : BitVec 14} {j : Nat} {js : List Nat} (hp : (f.slab k.toNat).pinned = true)
    (hr : (f.slab k.toNat).recon = j :: js) :
    cmdSlabRelease h k f = Answer.ok (((f.modSlab k.toNat (fun x => { x with pinned := false })).seamFail k.toNat (seamGroup j)
      ((f.slab k.toNat).physOf j) 0 (f.slabInjected k.toNat)).leaveRecon k.toNat (seamGroup j)) := by
  refine (if_neg (by simp [hp])).trans (congrArg Answer.ok ?_)
  split
  · next hnil => exact absurd (hr.symm.trans hnil) (List.cons_ne_nil _ _)
  · next hcons =>
    obtain ⟨rfl, -⟩ := List.cons.inj (hr.symm.trans hcons)
    rfl

end

/-- Settles O9: each command passes its checks and leaves what its meaning leaves; SLAB_RELEASE by whether the slab is pinned. -/
theorem modelAndSlabCommands : Obligations.ModelAndSlabCommands := by
  intro s dt h f hf
  refine ⟨?declare, ?map, ?dress, ?release, ?recon⟩
  case declare =>
    rintro n cs rs t hn hcs hrs rfl hr hmax hlen hmodel hfault hidle hhist hup
    exact row_ok rfl hf hr (cmdModelDeclare_declares h hn hcs hrs hmax hlen hmodel hfault hidle hhist hup)
  case map => exact fun p rs hrs hr h0 hmax hlen hok => row_ok rfl hf hr (cmdModelMapPages_maps h hrs h0 hmax hlen hok)
  case dress => exact fun p loc u hr hp ht hon hm hu => row_ended rfl hf hr (cmdSlabDress_queues h hp ht hon hm hu)
  case release =>
    intro k hr hrecon
    split
    · next hp => exact row_ok rfl hf hr (cmdSlabRelease_pinned h hp hrecon)
    · next hp => exact row_ok rfl hf hr (cmdSlabRelease_unpinned h (Bool.eq_false_iff.mpr hp))
  case recon => exact fun k j js hr hp hrecon => row_ok rfl hf hr (cmdSlabRelease_reconstructing h hp hrecon)

end Sys2Proof.Machine
end

section
/-! PROOFS. Canonical memory and the queue (R462): the operations of the state, its records and the partners.
Each function of the model that gives a state or an answer has the lemma of its own name. -/

namespace Sys2Proof.Machine

/-- Memory is in its canonical form, and `rest` are the commands that wait. -/
structure State.Canon (rest : List Instr) (s : State) : Prop where
  memOk : s.MemOk
  pending : s.pending = rest

/-- The state that an answer carries is canonical. -/
def Answer.Canon (rest : List Instr) (a : Answer) : Prop := a.s.Canon rest

section
variable {s t : State} {a b : Answer} {rest : List Instr}

/-! ## How operations are put together -/

/-- An update of the other fields leaves memory and the queue as they are. -/
theorem State.Canon.frame (h : s.Canon rest) (hk : (t.mem, t.pending) = (s.mem, s.pending)) : t.Canon rest := by
  obtain ⟨hmem, hpending⟩ := Prod.mk.inj hk
  exact ⟨by unfold State.MemOk; rw [hmem]; exact h.memOk, hpending.trans h.pending⟩

theorem State.Canon.ite {p : Prop} [Decidable p] (hs : s.Canon rest) (ht : t.Canon rest) : (if p then s else t).Canon rest := by
  split
  · exact hs
  · exact ht

theorem Answer.Canon.ite {p : Prop} [Decidable p] (ha : a.Canon rest) (hb : b.Canon rest) : (if p then a else b).Canon rest := by
  split
  · exact ha
  · exact hb

theorem State.Canon.withResult {β : Type} {x : β} (h : s.Canon rest) : (s, x).1.Canon rest := h

theorem State.Canon.iteFst {β : Type} {p : Prop} [Decidable p] {v w : State × β} (hv : v.1.Canon rest) (hw : w.1.Canon rest) :
    (if p then v else w).1.Canon rest := by
  split
  · exact hv
  · exact hw

theorem State.Canon.carried (h : a.s.Canon rest) : a.Canon rest := h
theorem State.Canon.inAnswer (h : s.Canon rest) : Answer.Canon rest { a with s := s } := h
theorem Answer.Canon.state (ha : a.Canon rest) : a.s.Canon rest := ha

theorem State.Canon.foldl {α : Type} {l : List α} {f : State → α → State} (h : s.Canon rest)
    (hf : ∀ {t x}, t.Canon rest → (f t x).Canon rest) : (l.foldl f s).Canon rest :=
  List.foldlRecOn l f h fun _ ht _ _ => hf ht

/-- A fold that carries a result beside the state. -/
theorem State.Canon.foldlFst {α β : Type} {l : List α} {f : State × β → α → State × β} {w : State × β} (h : w.1.Canon rest)
    (hf : ∀ {v x}, v.1.Canon rest → (f v x).1.Canon rest) : (l.foldl f w).1.Canon rest :=
  List.foldlRecOn (motive := fun v => v.1.Canon rest) l f h fun _ hv _ _ => hf hv

theorem State.Canon.foldlSnd {α β : Type} {l : List α} {f : β × State → α → β × State} {w : β × State} (h : w.2.Canon rest)
    (hf : ∀ {v x}, v.2.Canon rest → (f v x).2.Canon rest) : (l.foldl f w).2.Canon rest :=
  List.foldlRecOn (motive := fun v => v.2.Canon rest) l f h fun _ hv _ _ => hf hv

/-! ## Ops -/

theorem State.Canon.setCluster {c : Nat} {x : Cluster} (h : s.Canon rest) : (s.setCluster c x).Canon rest := h.frame rfl

theorem State.Canon.modCluster {c : Nat} {f : Cluster → Cluster} (h : s.Canon rest) : (s.modCluster c f).Canon rest := h.setCluster

theorem State.Canon.setSlab {k : Nat} {x : Slab} (h : s.Canon rest) : (s.setSlab k x).Canon rest := h.frame rfl

theorem State.Canon.modSlab {k : Nat} {f : Slab → Slab} (h : s.Canon rest) : (s.modSlab k f).Canon rest := h.setSlab

theorem State.Canon.modVec {core : Nat} {f : W1c → W1c} (h : s.Canon rest) : (s.modVec core f).Canon rest := h.frame rfl

theorem State.Canon.setEngine {e : Nat} {x : Engine} (h : s.Canon rest) : (s.setEngine e x).Canon rest := h.frame rfl

theorem State.Canon.modEngine {e : Nat} {f : Engine → Engine} (h : s.Canon rest) : (s.modEngine e f).Canon rest := h.setEngine

theorem State.Canon.setBank {k : Nat} {x : Bank} (h : s.Canon rest) : (s.setBank k x).Canon rest := h.frame rfl

theorem State.Canon.modBank {k : Nat} {f : Bank → Bank} (h : s.Canon rest) : (s.modBank k f).Canon rest := h.setBank

theorem State.Canon.modHaul {k : Nat} {f : Haul → Haul} (h : s.Canon rest) : (s.modHaul k f).Canon rest := h.frame rfl

theorem State.Canon.setPage {k : Nat} {x : Page} (h : s.Canon rest) : (s.setPage k x).Canon rest := h.frame rfl

theorem State.Canon.modCart {k : Nat} {f : Cart → Cart} (h : s.Canon rest) : (s.modCart k f).Canon rest := h.frame rfl

theorem State.Canon.setLoop {k : Nat} {x : Loop} (h : s.Canon rest) : (s.setLoop k x).Canon rest := h.frame rfl

theorem State.Canon.modLoop {k : Nat} {f : Loop → Loop} (h : s.Canon rest) : (s.modLoop k f).Canon rest := h.setLoop

theorem State.Canon.setFeed {k v : Nat} (h : s.Canon rest) : (s.setFeed k v).Canon rest := h.frame rfl

theorem State.Canon.modMc {k : Nat} {f : Monconv → Monconv} (h : s.Canon rest) : (s.modMc k f).Canon rest := h.frame rfl

theorem State.Canon.modCorr {k : Nat} {f : ConvCorr → ConvCorr} (h : s.Canon rest) : (s.modCorr k f).Canon rest := h.frame rfl

theorem State.Canon.modPort {k : Nat} {f : Port → Port} (h : s.Canon rest) : (s.modPort k f).Canon rest := h.frame rfl

theorem State.Canon.setPartner {k : Nat} {x : BitVec 512} (h : s.Canon rest) : (s.setPartner k x).Canon rest := h.frame rfl

theorem State.Canon.modDyn {k : Nat} {f : PartnerDyn → PartnerDyn} (h : s.Canon rest) : (s.modDyn k f).Canon rest := h.frame rfl

theorem State.Canon.modTenant {t : Nat} {f : Tenant → Tenant} (h : s.Canon rest) : (s.modTenant t f).Canon rest := h.frame rfl

theorem State.Canon.modCa {k : Nat} {f : Ca → Ca} (h : s.Canon rest) : (s.modCa k f).Canon rest := h.frame rfl

theorem State.Canon.modRing {r : Nat} {f : RingState → RingState} (h : s.Canon rest) : (s.modRing r f).Canon rest := h.frame rfl

theorem State.Canon.modSensor {k : Nat} {f : Sensor → Sensor} (h : s.Canon rest) : (s.modSensor k f).Canon rest := h.frame rfl

theorem State.Canon.modMbx {f : Mailbox → Mailbox} (h : s.Canon rest) : (s.modMbx f).Canon rest := h.frame rfl

theorem State.Canon.modPower {f : Power → Power} (h : s.Canon rest) : (s.modPower f).Canon rest := h.frame rfl

theorem State.Canon.modFabric {f : Fabric → Fabric} (h : s.Canon rest) : (s.modFabric f).Canon rest := h.frame rfl

theorem State.Canon.modTrust {f : Trust → Trust} (h : s.Canon rest) : (s.modTrust f).Canon rest := h.frame rfl

theorem State.Canon.modTime {f : TimeState → TimeState} (h : s.Canon rest) : (s.modTime f).Canon rest := h.frame rfl

theorem State.Canon.modDomain {f : Domain → Domain} (h : s.Canon rest) : (s.modDomain f).Canon rest := h.modFabric

theorem State.Canon.modRelay {f : RelayState → RelayState} (h : s.Canon rest) : (s.modRelay f).Canon rest := h.modFabric

theorem State.Canon.forEach {α : Type} {l : List α} {f : State → α → State} (h : s.Canon rest) (hf : ∀ {t}
    {y}, t.Canon rest → (f t y).Canon rest) : (forEach l s f).Canon rest := Canon.foldl h fun h => hf h

theorem State.Canon.takeFree (h : s.Canon rest) : s.takeFree.Canon rest := h.frame rfl

theorem State.Canon.elapse {dt : Nat} (h : s.Canon rest) : (s.elapse dt).Canon rest := h.frame rfl

theorem State.Canon.store {k : Nat} {bs : List Byte} (h : s.Canon rest) : (s.store k bs).Canon rest :=
  ⟨memStore_wf _ _ h.memOk, h.pending⟩

theorem State.Canon.sealLines {first last key : Nat} (h : s.Canon rest) : (s.sealLines first last key).Canon rest := h.ite (h.frame rfl)

theorem State.Canon.hubWrite {k n : Nat} {f : State → State} (h : s.Canon rest) (hf : ∀ {t}, t.Canon rest → (f t).Canon rest) :
    (s.hubWrite k n f).Canon rest := h.ite ((hf h).ite (hf ((h.ite h.store).ite (h.ite h.store).store)).sealLines)

theorem State.Canon.hbmWrite {k : Nat} {bs : List Byte} (h : s.Canon rest) : (s.hbmWrite k bs).Canon rest :=
  h.ite (h.hubWrite (fun h => h.store))

theorem State.Canon.haulWrite {c k : Nat} {bs : List Byte} (h : s.Canon rest) : (s.haulWrite c k bs).Canon rest := h.hbmWrite.ite h

theorem State.Canon.wipe {p : Nat → Bool} (h : s.Canon rest) : (s.wipe p).Canon rest := ⟨State.wipe_wf _ h.memOk, h.pending⟩

theorem State.Canon.hbmZero {k n : Nat} (h : s.Canon rest) : (s.hbmZero k n).Canon rest := h.ite (h.hubWrite (fun h => h.wipe))

theorem State.Canon.setTags {key n : Nat} {t : Option Tag} (h : s.Canon rest) : (s.setTags key n t).Canon rest := by
  unfold State.setTags
  split; exacts [h.frame rfl, h.ite (h.frame rfl)]

theorem State.Canon.storeTagged {key : Nat} {bs : List Byte} {t : Option Tag} (h : s.Canon rest) :
    (s.storeTagged key bs t).Canon rest := h.store.setTags

theorem State.Canon.dropOldest (h : s.Canon rest) : s.dropOldest.Canon rest := by
  unfold State.dropOldest
  split; exacts [h, h.ite (h.forEach (fun h => h.modTenant.ite h))]

theorem State.Canon.append {e : Event} (h : s.Canon rest) : (s.append e).Canon rest := h.dropOldest.modMbx

theorem State.Canon.post {e : Event} (h : s.Canon rest) : (s.post e).Canon rest := h.append.ite h.modMbx

theorem State.Canon.raise {cls tenant : Nat} {module injected : Bool} {payload : Nat} (h : s.Canon rest) :
    (s.raise cls tenant module injected payload).Canon rest := h.post

theorem State.Canon.ok (h : s.Canon rest) : (Answer.ok s).Canon rest := h.carried

theorem State.Canon.okR {r : Nat} (h : s.Canon rest) : (Answer.okR s r).Canon rest := h.carried

theorem State.Canon.err {status : Nat} (h : s.Canon rest) : (Answer.err s status).Canon rest := h.carried

theorem State.Canon.errD {status detail : Nat} (h : s.Canon rest) : (Answer.errD s status detail).Canon rest := h.carried

theorem State.Canon.errWith {status : Nat} (h : s.Canon rest) : (Answer.errWith s status).Canon rest := h.carried

theorem State.Canon.after {a : Answer} (h : s.Canon rest) (ha : a.Canon rest) : (Answer.after a s).Canon rest := ha.state.ite h

theorem State.Canon.wait {left : Nat} (h : s.Canon rest) : (Answer.wait s left).Canon rest := h.carried

theorem State.Canon.setFw {f : FwState} (h : s.Canon rest) : (s.setFw f).Canon rest := h.ite (h.frame rfl)

/-! ## Flags -/

theorem State.Canon.miss {c cause tag late skipped : Nat} (h : s.Canon rest) : (s.miss c cause tag late skipped).Canon rest := by
  unfold State.miss
  exact h.raise.modCluster

theorem State.Canon.ticksrc {kind detail : Nat} (h : s.Canon rest) : (s.ticksrc kind detail).Canon rest := h.raise

theorem State.Canon.phaseJump {phase : Int} (h : s.Canon rest) : (s.phaseJump phase).Canon rest := h.ticksrc.forEach fun h => h.modCluster

theorem State.Canon.relayMissed (h : s.Canon rest) : s.relayMissed.Canon rest := h.ticksrc.forEach fun h => h.modCluster

theorem State.Canon.upkeep {k kind group column detail : Nat} {injected : Bool} (h : s.Canon rest) :
    (s.upkeep k kind group column detail injected).Canon rest := h.raise

theorem State.Canon.optical {e kind row line epoch detail : Nat} {injected : Bool} (h : s.Canon rest) :
    (s.optical e kind row line epoch detail injected).Canon rest := h.raise

theorem State.Canon.opticalFlag {e kind flag row line epoch detail : Nat} (h : s.Canon rest) :
    (s.opticalFlag e kind flag row line epoch detail).Canon rest := h.optical.modEngine

theorem State.Canon.light {cart kind line spare loop detail : Nat} {injected : Bool} (h : s.Canon rest) :
    (s.light cart kind line spare loop detail injected).Canon rest := h.raise

theorem State.Canon.number {core kind tag detail addr : Nat} (h : s.Canon rest) : (s.number core kind tag detail addr).Canon rest :=
  h.raise.modVec

theorem State.Canon.memory {c kind unit addr detail : Nat} (h : s.Canon rest) : (s.memory c kind unit addr detail).Canon rest := h.raise

theorem State.Canon.fabricEv {tenant port kind unit partner detail : Nat} {injected : Bool} (h : s.Canon rest) :
    (s.fabricEv tenant port kind unit partner detail injected).Canon rest := h.raise

theorem State.Canon.trustEv {tenant kind cluster detail : Nat} (h : s.Canon rest) :
    (s.trustEv tenant kind cluster detail).Canon rest := h.raise

theorem State.Canon.powerEv {source kind sensor : Nat} {temp : Int} {detail : Nat} {injected : Bool} (h : s.Canon rest) :
    (s.powerEv source kind sensor temp detail injected).Canon rest := h.raise

theorem State.Canon.converter {conv kind detail : Nat} (h : s.Canon rest) : (s.converter conv kind detail).Canon rest := h.raise

theorem State.Canon.faultEv {unit kind detail tenant : Nat} {injected : Bool} (h : s.Canon rest) :
    (s.faultEv unit kind detail tenant injected).Canon rest := h.raise

theorem State.Canon.raiseHeld {c : Nat} {t : Option Tag} {f : State → State} (h : s.Canon rest)
    (hf : ∀ {t}, t.Canon rest → (f t).Canon rest) : (s.raiseHeld c t f).Canon rest := by
  unfold State.raiseHeld
  split
  · exact hf h
  · extract_lets mbx probe
    have hp : probe.Canon rest := hf (h.frame rfl)
    exact hp.frame rfl

theorem State.Canon.releaseHeld {c : Nat} {done : Nat → Bool} (h : s.Canon rest) : (s.releaseHeld c done).Canon rest :=
  Canon.foldl (h.frame rfl) fun h => h.post

theorem State.Canon.dropHeld {c : Nat} {spoiled : Nat → Bool} (h : s.Canon rest) : (s.dropHeld c spoiled).Canon rest := h.frame rfl

theorem State.Canon.resumeEvents (h : s.Canon rest) : s.resumeEvents.Canon rest :=
  (Canon.foldl h.modMbx (fun h => h.append)).ite (Canon.foldl h.modMbx (fun h => h.append)).faultEv

theorem State.Canon.breakHolds {key n : Nat} (h : s.Canon rest) : (s.breakHolds key n).Canon rest :=
  h.ite (Canon.foldl h (fun h => h.opticalFlag))

/-! ## Rings -/

theorem State.Canon.closeSession {t reason : Nat} (h : s.Canon rest) : (s.closeSession t reason).Canon rest := by
  unfold State.closeSession
  split; exacts [h, h.modTenant.trustEv]

theorem State.Canon.closeAll {reason : Nat} (h : s.Canon rest) : (s.closeAll reason).Canon rest := h.forEach fun h => h.closeSession

theorem State.Canon.useSeq {t chan : Nat} (h : s.Canon rest) : (s.useSeq t chan).Canon rest := by
  unfold State.useSeq
  split; exacts [h, h.modTenant.closeSession.ite h.modTenant]

theorem State.Canon.sealOn {t chan : Nat} {plain : List Byte} (h : s.Canon rest) : (s.sealOn t chan plain).2.Canon rest := by
  unfold State.sealOn
  split; exacts [h, h.useSeq]

theorem State.Canon.postCpl {r : Nat} {c : Cpl} (h : s.Canon rest) : (s.postCpl r c).Canon rest := by
  unfold State.postCpl
  extract_lets w
  have hw : w.2.Canon rest := by unfold w; split; exacts [h.sealOn, h]
  exact hw.frame rfl

theorem State.Canon.bulkOut {session : Option TenantId} {out : List Byte} (h : s.Canon rest) : (s.bulkOut session out).Canon rest := by
  refine h.ite (Canon.frame (s := match session with
    | some t => _
    | none => _) ?_ rfl)
  split; exacts [Canon.foldl h fun h => h.sealOn.frame rfl, h.frame rfl]

theorem State.Canon.f3Out {session : Option TenantId} {out : List Byte} (h : s.Canon rest) : (s.f3Out session out).Canon rest := by
  unfold State.f3Out
  extract_lets e
  have he : e.2.Canon rest := by unfold e; split; exacts [h.sealOn, h]
  exact h.ite (he.frame rfl)

theorem State.Canon.finish {hd : CmdHdr} {opcode : Nat} {clear : Bool} {a : Answer} (h : s.Canon rest) (ha : a.Canon rest) :
    (s.finish hd opcode clear a).Canon rest := ((h.after ha).f3Out.ite (h.after ha).bulkOut).postCpl

/-! ## Tile -/

theorem State.Canon.writeAt {c core addr : Nat} {bs : List Byte} {t : Option Tag} (h : s.Canon rest) :
    (s.writeAt c core addr bs t).Canon rest := by
  unfold State.writeAt
  split; exacts [h, h.storeTagged.ite (h.forEach (fun h => h.storeTagged.ite h))]

theorem State.Canon.movePlain {c i pass n : Nat} (h : s.Canon rest) : (s.movePlain c i pass n).Canon rest := by
  unfold State.movePlain
  exact Canon.foldl h fun h => by extract_lets; split; exacts [h.writeAt, h]

/-! ## Credit -/

theorem State.Canon.partFill {c : Nat} {a : Ahead} (h : s.Canon rest) : (s.partFill c a).Canon rest := h.ite h.takeFree.movePlain

theorem State.Canon.cancelAhead {c : Nat} {p : Ahead → Bool} (h : s.Canon rest) : (s.cancelAhead c p).Canon rest :=
  h.ite (Canon.foldl h (fun h => h.partFill.modHaul.modCluster)).modCluster

theorem State.Canon.cancelFrom {c boundary : Nat} (h : s.Canon rest) : (s.cancelFrom c boundary).Canon rest := h.cancelAhead

theorem State.Canon.cancelBanks {c : Nat} {banks : List Nat} {boundary : Nat} (h : s.Canon rest) :
    (s.cancelBanks c banks boundary).Canon rest := h.cancelAhead

theorem State.Canon.cancelPages {p : Nat → Bool} {boundary : Nat} (h : s.Canon rest) : (s.cancelPages p boundary).Canon rest :=
  h.forEach fun h => h.ite h.cancelAhead

/-! ## TopRegion -/

theorem State.Canon.putPlan {c : Nat} (h : s.Canon rest) : (s.putPlan c).Canon rest := by
  unfold State.putPlan
  split; exacts [h.store, h]

theorem State.Canon.putScale {c n : Nat} (h : s.Canon rest) : (s.putScale c n).Canon rest := h.store

theorem State.Canon.putScales {c : Nat} (h : s.Canon rest) : (s.putScales c).Canon rest := h.forEach fun h => h.putScale

theorem State.Canon.rereadTop {c : Nat} (h : s.Canon rest) : (s.rereadTop c).Canon rest := by
  unfold State.rereadTop
  exact h.modCluster

/-! ## CmdTick -/

theorem State.Canon.setSources {p : TickSourceParams} (h : s.Canon rest) : (s.setSources p).Canon rest :=
  (h.frame (by rfl)).ite ((h.frame (by rfl)).phaseJump.ite (h.frame rfl))

theorem State.Canon.extendCfg {hd : CmdHdr} {c : HostCmd} (h : s.Canon rest) : (s.extendCfg hd c).Canon rest := h.frame rfl

theorem State.Canon.cmdTickSourceSet {hd : CmdHdr} {p : TickSourceParams} (h : s.Canon rest) : (cmdTickSourceSet hd p s).Canon rest := by
  refine h.errD.ite (h.errD.ite (h.errD.ite ?_))
  split; exacts [h.errD, h.err.ite h.setSources.extendCfg.ok]

theorem State.Canon.loadShadow {p : PlanLoadParams} {plan : Plan} {c : Nat} (h : s.Canon rest) : (s.loadShadow p plan c).Canon rest :=
  (h.modCluster.ite h.modCluster.putScales).putPlan

theorem State.Canon.cmdTickPlanLoad {hd : CmdHdr} {p : PlanLoadParams} (h : s.Canon rest) : (cmdTickPlanLoad hd p s).Canon rest := by
  refine h.errD.ite (h.errD.ite (h.errD.ite ?_))
  split
  · exact h.errD
  · split
    · exact h.errD
    · refine h.errD.ite (h.err.ite (h.err.ite ?_))
      split; exacts [h.errD, h.err.ite (h.err.ite (h.forEach (fun h => h.loadShadow)).ok)]

theorem State.Canon.armCluster {t : ArmTarget} {c : Nat} (h : s.Canon rest) : (s.armCluster t c).Canon rest := by
  unfold State.armCluster
  exact h.cancelFrom.modCluster

theorem State.Canon.extendPlans {cs : List Nat} (h : s.Canon rest) : (s.extendPlans cs).Canon rest := Canon.foldl h fun h => h.frame rfl

theorem State.Canon.cmdTickPlanArm {hd : CmdHdr} {p : PlanArmParams} (h : s.Canon rest) : (cmdTickPlanArm hd p s).Canon rest := by
  refine h.errD.ite ?_
  split
  · exact h.err
  · split; exacts [h.err, h.ok.ite (h.forEach (fun h => h.armCluster)).extendPlans.ok]

theorem State.Canon.disarmCluster {c : Nat} (h : s.Canon rest) : (s.disarmCluster c).Canon rest :=
  h.modCluster.ite h.cancelFrom.modCluster

theorem State.Canon.cmdTickPlanDisarm {hd : CmdHdr} {clusters : Dword} (h : s.Canon rest) :
    (cmdTickPlanDisarm hd clusters s).Canon rest := (h.forEach (fun h => h.disarmCluster)).ok

theorem State.Canon.cmdTickStatus {hd : CmdHdr} (h : s.Canon rest) : (cmdTickStatus hd s).Canon rest := h.okR

/-! ## FabricBase -/

theorem State.Canon.assignPort {i : Nat} (h : s.Canon rest) : (s.assignPort i).Canon rest := h.takeFree.setPartner

theorem State.Canon.movePartner {i : Nat} {inj : Bool} (h : s.Canon rest) : (s.movePartner i inj).Canon rest := by
  unfold State.movePartner
  exact h.assignPort.fabricEv

theorem State.Canon.walk {sel : Entry → Bool} {size : Entry → Nat} {cap : Nat} (h : s.Canon rest) : (s.walk sel size cap).Canon rest :=
  h.ite (Canon.foldl h.takeFree (fun h => h.frame rfl))

theorem State.Canon.setCapacity {c cap : Nat} {injected : Bool} (h : s.Canon rest) : (s.setCapacity c cap injected).Canon rest :=
  h.ite (h.modCluster.fabricEv.walk.ite h.modCluster.fabricEv)

theorem State.Canon.groupChanged {g port was : Nat} {injected : Bool} (h : s.Canon rest) :
    (s.groupChanged g port was injected).Canon rest := h.ite (h.fabricEv.walk.ite h.fabricEv)

theorem State.Canon.updateCapacity {c : Nat} (h : s.Canon rest) : (s.updateCapacity c).Canon rest := h.setCapacity

theorem State.Canon.standbyTakes {c : Nat} (h : s.Canon rest) : (s.standbyTakes c).Canon rest := by
  unfold State.standbyTakes
  extract_lets
  split
  · exact h
  · split; exacts [h, h.modCluster.updateCapacity]

theorem State.Canon.countPartner {i k n : Nat} (h : s.Canon rest) : (s.countPartner i k n).Canon rest := h.modDyn

theorem State.Canon.countPort {p k n : Nat} (h : s.Canon rest) : (s.countPort p k n).Canon rest := h.modPort

theorem State.Canon.transmit {f : TxFrame} {at_ : Nat} (h : s.Canon rest) : (s.transmit f at_).Canon rest :=
  (Canon.modFabric (by split; exacts [h.modCa, h])).countPort.countPort

theorem State.Canon.emit {f : TxFrame} (h : s.Canon rest) : (s.emit f).Canon rest := h.ite (h.modFabric.ite h.transmit.modPort)

theorem State.Canon.emitDone {f : TxFrame} (h : s.Canon rest) : (s.emitDone f).Canon rest := h.ite h.transmit

theorem State.Canon.portFlag {p i : Nat} (h : s.Canon rest) : (s.portFlag p i).Canon rest := h.modPort

theorem State.Canon.countRx {p n : Nat} (h : s.Canon rest) : (s.countRx p n).Canon rest := h.countPort.countPort

theorem State.Canon.checked {p k : Nat} {pr : Protection} (h : s.Canon rest) : (s.checked p k pr).1.Canon rest := by
  unfold State.checked
  split
  · exact h.portFlag
  · exact h.frame rfl

theorem State.Canon.fromPartner {p i n : Nat} {pr : Protection} (h : s.Canon rest) : (s.fromPartner p i n pr).1.Canon rest := by
  unfold State.fromPartner
  extract_lets
  split
  · exact h.countRx.checked
  · split; exacts [h.countRx.checked.countPartner, h.countRx.checked]

theorem State.Canon.breakEgress {p c i : Nat} {r : TaskRun} (h : s.Canon rest) : (s.breakEgress p c i r).Canon rest :=
  h.ite (h.takeFree.ite h.takeFree.portFlag.modCluster)

theorem State.Canon.breakOff {p : Nat} (h : s.Canon rest) : (s.breakOff p).Canon rest :=
  (h.portFlag.modFabric.ite h).forEach fun h => h.forEach (fun h => by split; exacts [h.breakEgress, h])

theorem State.Canon.withdraw {p : Nat} (h : s.Canon rest) : (s.withdraw p).Canon rest :=
  h.modFabric.modPort.forEach fun h => h.countPort.countPort

theorem State.Canon.release (h : s.Canon rest) : s.release.Canon rest := h.modFabric.forEach fun h => h.emit

theorem State.Canon.sendNumbered {f : TxFrame} {since : Nat} {go : State → TxFrame → State} (h : s.Canon rest) (hf : ∀ {t}
    {y}, t.Canon rest → (go t y).Canon rest) : (s.sendNumbered f since go).Canon rest := by
  unfold State.sendNumbered
  exact (hf h).countPartner.modDyn

theorem State.Canon.sendTo {i type tag offset : Nat} {last : Bool} {payload : List Byte} (h : s.Canon rest) :
    (s.sendTo i type tag offset last payload).Canon rest :=
  h.ite (h.takeFree.emit.countPartner.ite (h.modDyn.ite (h.sendNumbered (fun h => h.emit))))

theorem State.Canon.drainQueue {i : Nat} (h : s.Canon rest) : (s.drainQueue i).Canon rest :=
  h.modDyn.forEach fun h => h.sendNumbered (fun h => h.emit)

theorem State.Canon.sendLink {p kind : Nat} {payload : List Byte} (h : s.Canon rest) : (s.sendLink p kind payload).Canon rest := h.emit

theorem State.Canon.sendLacp {p : Nat} (h : s.Canon rest) : (s.sendLacp p).Canon rest := h.takeFree.sendLink.modPort

theorem State.Canon.sendMka {k : Nat} (h : s.Canon rest) : (s.sendMka k).Canon rest := by
  unfold State.sendMka
  extract_lets p
  cases p with
  | none => exact h
  | some p => exact h.takeFree.sendLink

theorem State.Canon.partnerApplied {x : Entry} {i detail : Nat} (h : s.Canon rest) : (s.partnerApplied x i detail).Canon rest :=
  h.fabricEv

theorem State.Canon.detach {i : Nat} (h : s.Canon rest) : (s.detach i).Canon rest := h.ite h.setPartner.modDyn.modFabric.partnerApplied

theorem State.Canon.applyPartner {ch : PartnerChange} (h : s.Canon rest) : (s.applyPartner ch).Canon rest := by
  unfold State.applyPartner
  split
  · exact h.setPartner.modFabric.modDyn.assignPort.partnerApplied
  · exact h.ite (h.setPartner.ite h.setPartner.assignPort).partnerApplied
  · exact h.detach
  · exact h.ite (h.setPartner.fabricEv.sendTo.ite h.setPartner.fabricEv)

theorem State.Canon.applyPartners (h : s.Canon rest) : s.applyPartners.Canon rest := Canon.foldl (h.frame rfl) fun h => h.applyPartner

theorem State.Canon.changePartner {i kind : Nat} {x : Entry} (h : s.Canon rest) : (s.changePartner i kind x).Canon rest := h.frame rfl

/-! ## CmdPartner -/

theorem State.Canon.cmdPartnerAttach {hd : CmdHdr} (h : s.Canon rest) : (cmdPartnerAttach hd s).Canon rest := by
  refine h.errD.ite ?_
  split
  · split; exacts [h.errD, h.err]
  · split; exacts [h.errD, h.changePartner.okR]

theorem State.Canon.cmdPartnerModify {hd : CmdHdr} {p : PartnerModifyParams} (h : s.Canon rest) :
    (cmdPartnerModify hd p s).Canon rest := by
  refine h.errD.ite (h.errD.ite (h.errD.ite (h.errD.ite ?_)))
  split; exacts [h.errD, h.changePartner.ok]

theorem State.Canon.cmdPartnerDetach {hd : CmdHdr} {index : BitVec 17} (h : s.Canon rest) : (cmdPartnerDetach hd index s).Canon rest :=
  h.errD.ite h.changePartner.ok

theorem State.Canon.cmdPhaseMapLoad {hd : CmdHdr} {phases : BitVec 5} (h : s.Canon rest) : (cmdPhaseMapLoad hd phases s).Canon rest :=
  h.errD.ite (h.errD.ite (h.ok.ite (h.errD.ite (h.errD.ite (h.errD.ite h.modFabric.extendCfg.ok)))))

/-! ## SlabBase -/

theorem State.Canon.queueDress {k cls : Nat} {p : Option DressParams} (h : s.Canon rest) : (s.queueDress k cls p).Canon rest := by
  unfold State.queueDress
  exact h.modSlab

theorem State.Canon.queueCut {k : Nat} (h : s.Canon rest) : (s.queueCut k).Canon rest := h.queueDress.ite h

theorem State.Canon.bindSlab {t : TileMap} {k : Nat} (h : s.Canon rest) : (s.bindSlab t k).Canon rest :=
  (h.setSlab.queueCut.ite h.setSlab).ite h

theorem State.Canon.applyTile {t : TileMap} (h : s.Canon rest) : (s.applyTile t).Canon rest :=
  (h.frame (by rfl)).forEach fun h => h.bindSlab

theorem State.Canon.seamFail {k g column row : Nat} {inj : Bool} (h : s.Canon rest) : (s.seamFail k g column row inj).Canon rest :=
  h.modSlab.upkeep

theorem State.Canon.unplannedDetour {k n : Nat} (h : s.Canon rest) : (s.unplannedDetour k n).Canon rest := h.modSlab.queueDress

/-! ## OptBase -/

theorem State.Canon.putTrims {force : Bool} {key : Nat} {l : List (Nat × Int)} (h : s.Canon rest) :
    (s.putTrims force key l).Canon rest := h.forEach fun h => (h.takeFree.ite h).frame rfl

theorem State.Canon.thaw {k detail : Nat} (h : s.Canon rest) : (s.thaw k detail).Canon rest := h.modLoop.light.ite h.modLoop

theorem State.Canon.integrate {e from_ till symbols : Nat} (h : s.Canon rest) : (s.integrate e from_ till symbols).Canon rest := by
  unfold State.integrate
  exact h.modEngine

theorem State.Canon.pauseOptical {c i : Nat} {r : TaskRun} (h : s.Canon rest) : (s.pauseOptical c i r).Canon rest :=
  h.takeFree.ite h.takeFree.integrate.modCluster

theorem State.Canon.pauseTask {c i : Nat} {r : TaskRun} (h : s.Canon rest) : (s.pauseTask c i r).Canon rest :=
  h.pauseOptical.ite h.modCluster

theorem State.Canon.pauseTasks {c : Nat} {sel : Nat → Bool} (h : s.Canon rest) : (s.pauseTasks c sel).Canon rest :=
  h.forEach fun h => by split; exacts [h.pauseTask.ite h, h]

/-! ## Rows -/

theorem State.Canon.takeRow {e q k cause old : Nat} {inj : Bool} (h : s.Canon rest) : (s.takeRow e q k cause old inj).Canon rest :=
  h.modEngine.optical

theorem State.Canon.rotateRows {e : Nat} (h : s.Canon rest) : (s.rotateRows e).Canon rest := by
  unfold State.rotateRows
  extract_lets
  split
  · refine h.ite ?_
    exact Canon.modEngine (by split; exacts [h.takeRow.modEngine.thaw, h])
  · exact h

theorem State.Canon.swapSets {e : Nat} {f : Engine → Engine} (h : s.Canon rest) : (s.swapSets e f).Canon rest := h.modEngine.rotateRows

theorem State.Canon.dirtyRow {e p : Nat} {pilot inj : Bool} (h : s.Canon rest) : (s.dirtyRow e p pilot inj).Canon rest := h.modEngine

theorem State.Canon.removeRow {e p cause : Nat} {pilot inj : Bool} (h : s.Canon rest) : (s.removeRow e p cause pilot inj).Canon rest := by
  unfold State.removeRow
  extract_lets
  split
  · split
    · exact h.modEngine.dirtyRow.takeRow.rotateRows
    · exact h.modEngine.dirtyRow.takeRow.modEngine
    · exact h.modEngine.dirtyRow.optical.modEngine.updateCapacity
  · exact h.modEngine.updateCapacity
  · exact h.modEngine
  · exact h

theorem State.Canon.rowStandby {e p : Nat} (h : s.Canon rest) : (s.rowStandby e p).Canon rest := by
  unfold State.rowStandby
  extract_lets
  split; exacts [h.modEngine, h.modEngine.modEngine.takeRow.modEngine.updateCapacity.rotateRows]

theorem State.Canon.calRowStandby {e : Nat} (h : s.Canon rest) : (s.calRowStandby e).Canon rest := by
  unfold State.calRowStandby
  extract_lets
  split; exacts [h.ite h.modEngine.rowStandby, h]

/-! ## CmdDomain -/

theorem State.Canon.joinMember {own : Nat} {ckn r : List Byte} (h : s.Canon rest) : (s.joinMember own ckn r).Canon rest :=
  h.takeFree.modCa.setPartner.modFabric.modDyn.assignPort

theorem State.Canon.join {b : List Byte} (h : s.Canon rest) : (s.join b).Canon rest := by
  unfold State.join
  exact Canon.foldl h.modDomain fun h => h.joinMember

theorem State.Canon.cmdDomainJoin {hd : CmdHdr} (h : s.Canon rest) : (cmdDomainJoin hd s).Canon rest := by
  refine h.errD.ite (h.errD.ite (h.errD.ite ?_))
  split; exacts [h.errD, h.err.ite h.join.extendCfg.ok]

theorem State.Canon.cmdDomainLeave {hd : CmdHdr} (h : s.Canon rest) : (cmdDomainLeave hd s).Canon rest :=
  (h.forEach (fun h => h.detach)).modDomain.extendCfg.ok

theorem State.Canon.cmdDomainRelay {hd : CmdHdr} {worker : Byte} (h : s.Canon rest) : (cmdDomainRelay hd worker s).Canon rest :=
  h.errD.ite (h.err.ite (h.err.ite (Canon.foldl h.sendTo (fun h => h.sendTo)).takeFree.modDomain.wait))

theorem State.Canon.cmdRoleSet {hd : CmdHdr} {manager : Bool} (h : s.Canon rest) : (cmdRoleSet hd manager s).Canon rest :=
  h.err.ite (h.err.ite ((h.modMbx.modDomain.forEach (fun h => h.sendTo)).ite h.modMbx).extendCfg.ok)

/-! ## SlabTime -/

theorem State.Canon.leaveRecon {k g : Nat} (h : s.Canon rest) : (s.leaveRecon k g).Canon rest :=
  h.unplannedDetour.ite h.unplannedDetour.modSlab

theorem State.Canon.driftPair {k : Nat} {d : Int} (h : s.Canon rest) : (s.driftPair k d).Canon rest := by
  unfold State.driftPair
  exact h.modSlab

theorem State.Canon.driftAfter {k : Nat} (h : s.Canon rest) : (s.driftAfter k).Canon rest := by
  unfold State.driftAfter
  split; exacts [h.driftPair.ite h, h]

theorem State.Canon.driftOver (h : s.Canon rest) : s.driftOver.Canon rest := h.frame rfl

end

end Sys2Proof.Machine
end

section
/-! PROOFS. Canonical memory and the queue (R462): the mailbox commands. -/

namespace Sys2Proof.Machine

section
variable {s t : State} {a b : Answer} {rest : List Instr}

/-! ## CmdModel -/

theorem State.Canon.declare {n : Nat} {es : List Scale} {c : Nat} (h : s.Canon rest) : (s.declare n es c).Canon rest :=
  h.modCluster.ite h.modCluster.putScales

theorem State.Canon.cmdModelDeclare {hd : CmdHdr} (h : s.Canon rest) : (cmdModelDeclare hd s).Canon rest := by
  refine h.errD.ite (h.errD.ite (h.errD.ite (h.errD.ite ?_)))
  split
  · exact h.errD
  · refine h.err.ite (h.err.ite ?_)
    exact h.err.ite ((h.forEach (fun h => h.declare)).frame (by rfl)).ok

theorem State.Canon.cmdModelMapPages {hd : CmdHdr} {p : MapPagesParams} (h : s.Canon rest) : (cmdModelMapPages hd p s).Canon rest := by
  refine h.errD.ite (h.errD.ite ?_)
  split
  · exact h.errD
  · refine h.ok.ite ?_
    split
    · exact h.errD
    · split
      · exact h.errD
      · exact (h.frame (by rfl)).cancelPages.ok

theorem State.Canon.cmdSlabDress {hd : CmdHdr} {p : SlabDressParams} (h : s.Canon rest) : (cmdSlabDress hd p s).Canon rest := by
  refine h.err.ite ?_
  split
  · exact h.err
  · refine h.err.ite ?_
    split; exacts [h.carried, h.queueDress.okR]

theorem State.Canon.cmdSlabPin {hd : CmdHdr} {slab : BitVec 14} (h : s.Canon rest) : (cmdSlabPin hd slab s).Canon rest :=
  h.err.ite (h.err.ite h.setSlab.ok)

theorem State.Canon.cmdSlabRelease {hd : CmdHdr} {slab : BitVec 14} (h : s.Canon rest) : (cmdSlabRelease hd slab s).Canon rest := by
  refine h.ok.ite ?_
  exact Canon.ok (by split; exacts [h.setSlab, h.setSlab.seamFail.leaveRecon])

/-! ## CmdMemory -/

theorem State.Canon.changeBanks {c : Nat} {l : List Nat} {owner : Option (Nat × Nat)} {power : Option BankPower} (h : s.Canon rest) :
    (s.changeBanks c l owner power).Canon rest := (h.forEach (fun h => h.modBank)).cancelBanks

theorem State.Canon.cmdBankAssign {hd : CmdHdr} {p : BankAssignParams} (h : s.Canon rest) : (cmdBankAssign hd p s).Canon rest := by
  unfold Machine.cmdBankAssign
  extract_lets
  split; exacts [h.errD, h.errD.ite (h.err.ite h.changeBanks.ok)]

theorem State.Canon.cmdBankPower {hd : CmdHdr} {p : BankPowerParams} (h : s.Canon rest) : (cmdBankPower hd p s).Canon rest := by
  unfold Machine.cmdBankPower
  extract_lets
  split; exacts [h.errD, h.errD.ite (h.err.ite h.changeBanks.ok)]

theorem State.Canon.givePage {p kind tenant from_ : Nat} (h : s.Canon rest) : (s.givePage p kind tenant from_).Canon rest := h.frame rfl

theorem State.Canon.dropLoad (h : s.Canon rest) : s.dropLoad.Canon rest := h.frame rfl

theorem State.Canon.cmdPageLoad {hd : CmdHdr} {p : PageLoadParams} (h : s.Canon rest) : (cmdPageLoad hd p s).Canon rest :=
  h.errD.ite (h.errD.ite (h.errD.ite
    (h.errD.ite (h.errD.ite (h.err.ite
    (h.err.ite (h.err.ite (h.ok.ite
    ((h.givePage.cancelPages.ite h).hbmZero.ok.ite
    ((h.givePage.cancelPages.ite h).hbmWrite.ok.ite (h.givePage.cancelPages.ite h).wait))))))))))

theorem State.Canon.cmdPageRelease {hd : CmdHdr} {p : PageReleaseParams} (h : s.Canon rest) : (cmdPageRelease hd p s).Canon rest :=
  h.errD.ite (h.err.ite (h.frame (by rfl)).cancelPages.ok)

/-! ## CmdTrust -/

theorem State.Canon.identityAnswer {i : Identity} (h : s.Canon rest) : (identityAnswer s i).Canon rest := h.carried

theorem State.Canon.cmdDevIdentify {hd : CmdHdr} (h : s.Canon rest) : (cmdDevIdentify hd s).Canon rest := by
  unfold Machine.cmdDevIdentify
  split; exacts [h.identityAnswer, h.err.ite (h.errD.ite (h.errD.ite (h.errD.ite h.wait)))]

theorem State.Canon.endDevIdentify {hd : CmdHdr} {si : Silicon} (h : s.Canon rest) : (endDevIdentify hd si s).Canon rest := by
  unfold Machine.endDevIdentify
  split
  · exact h.trustEv.errWith
  · exact (h.frame (by rfl)).identityAnswer

theorem State.Canon.cmdDevAttest {hd : CmdHdr} {p : AttestParams} (h : s.Canon rest) : (cmdDevAttest hd p s).Canon rest :=
  h.err.ite (h.errD.ite h.wait)

theorem State.Canon.endDevAttest {p : AttestParams} {si : Silicon} (h : s.Canon rest) : (endDevAttest p si s).Canon rest := h.carried

theorem State.Canon.cmdDevSessionOpen {hd : CmdHdr} {tenant : BitVec 4} (h : s.Canon rest) :
    (cmdDevSessionOpen hd tenant s).Canon rest := h.errD.ite (h.err.ite (h.err.ite (h.err.ite h.wait)))

theorem State.Canon.endDevSessionOpen {tenant : BitVec 4} {si : Silicon} (h : s.Canon rest) :
    (endDevSessionOpen tenant si s).Canon rest := by
  unfold Machine.endDevSessionOpen
  split
  · exact h.err
  · exact h.err.ite (h.err.ite (h.err.ite (h.modTrust.modTenant.setPartner.ite h.modTrust.modTenant).trustEv.okR))

theorem State.Canon.cmdDevSessionClose {hd : CmdHdr} (h : s.Canon rest) : (cmdDevSessionClose hd s).Canon rest := h.ok

theorem State.Canon.dropPageKeys {t : Nat} (h : s.Canon rest) : (s.dropPageKeys t).Canon rest := h.modTenant

theorem State.Canon.freePages {p : Nat → Page → Bool} (h : s.Canon rest) : (s.freePages p).Canon rest := h.ite (h.frame rfl)

theorem State.Canon.deleteTenant {t reason : Nat} (h : s.Canon rest) : (s.deleteTenant t reason).Canon rest :=
  ((h.forEach (fun h => h.detach)).forEach (fun h => h.modCa)).dropPageKeys.freePages.closeSession.modTenant.trustEv

theorem State.Canon.newPageKey {t gen : Nat} (h : s.Canon rest) : (s.newPageKey t gen).Canon rest := h.takeFree.modTenant

theorem State.Canon.dropKeys {reason : Nat} (h : s.Canon rest) : (s.dropKeys reason).Canon rest := by
  unfold State.dropKeys
  exact (h.closeAll.forEach (fun h => h.ite h.dropPageKeys)).modTrust

theorem State.Canon.scheduleStrip {c target : Nat} {delete : Bool} (h : s.Canon rest) : (s.scheduleStrip c target delete).Canon rest :=
  h.modCluster

theorem State.Canon.cmdTenantCreate {hd : CmdHdr} {tenant : BitVec 4} (h : s.Canon rest) : (cmdTenantCreate hd tenant s).Canon rest :=
  h.errD.ite (h.errD.ite (h.err.ite h.modTenant.newPageKey.trustEv.extendCfg.ok))

theorem State.Canon.cmdTenantAssign {hd : CmdHdr} {clusters : Dword} {tenant : BitVec 4} (h : s.Canon rest) :
    (cmdTenantAssign hd clusters tenant s).Canon rest := h.err.ite (h.err.ite (h.forEach (fun h => h.scheduleStrip)).extendCfg.ok)

theorem State.Canon.cmdTenantStrip {hd : CmdHdr} {p : TenantStripParams} (h : s.Canon rest) : (cmdTenantStrip hd p s).Canon rest :=
  h.errD.ite (h.err.ite (h.err.ite
    ((h.forEach (fun h => h.scheduleStrip)).extendCfg.ok.ite
    (h.extendCfg.deleteTenant.ok.ite (h.extendCfg.forEach (fun h => h.scheduleStrip)).modTenant.ok))))

theorem State.Canon.cmdKeyRotate {hd : CmdHdr} {tenant : BitVec 4} (h : s.Canon rest) : (cmdKeyRotate hd tenant s).Canon rest :=
  h.err.ite h.newPageKey.modTenant.ok

theorem State.Canon.cmdKeyImport {hd : CmdHdr} {p : KeyImportParams} (h : s.Canon rest) : (cmdKeyImport hd p s).Canon rest :=
  h.errD.ite (h.errD.ite (h.errD.ite (h.err.ite h.modCa.ok)))

theorem State.Canon.cutDressing {k : Nat} {report : Bool} (h : s.Canon rest) : (s.cutDressing k report).Canon rest := by
  unfold State.cutDressing
  extract_lets
  split; exacts [h, h.ite (h.setSlab.upkeep.ite h.setSlab)]

theorem State.Canon.cutDressings {report : Bool} (h : s.Canon rest) : (s.cutDressings report).Canon rest :=
  h.forEach fun h => h.cutDressing

theorem State.Canon.devReset (h : s.Canon rest) : s.devReset.Canon rest := by
  unfold State.devReset
  exact (((((h.forEach (fun h => h.cancelFrom.modCluster.ite h.modCluster)).cutDressings.forEach (fun h => h.modSlab)).forEach
    (fun h => h.scheduleStrip)).forEach (fun h => h.deleteTenant.ite h)).forEach (fun h => h.detach)).modFabric.dropKeys.setFw.modMbx

theorem State.Canon.cmdDevReset {hd : CmdHdr} (h : s.Canon rest) : (cmdDevReset hd s).Canon rest := by
  unfold Machine.cmdDevReset
  exact h.devReset.ok

/-! ## LoopBase -/

theorem State.Canon.writeLoop {k o v : Nat} (h : s.Canon rest) : (s.writeLoop k o v).Canon rest := h.modLoop

/-! ## CmdControl -/

theorem State.Canon.cmdLoopWrite {hd : CmdHdr} {p : LoopWriteParams} (h : s.Canon rest) : (cmdLoopWrite hd p s).Canon rest := by
  refine h.errD.ite ?_
  split; exacts [h.errD, h.errD.ite (h.errD.ite (h.errD.ite (h.err.ite (h.err.ite h.writeLoop.ok))))]

theorem State.Canon.cmdLoopFreeze {hd : CmdHdr} {p : LoopRange} (h : s.Canon rest) : (cmdLoopFreeze hd p s).Canon rest :=
  h.errD.ite (h.err.ite (h.err.ite (h.forEach (fun h => h.modLoop)).ok))

theorem State.Canon.cmdLoopRelease {hd : CmdHdr} {p : LoopRange} (h : s.Canon rest) : (cmdLoopRelease hd p s).Canon rest :=
  h.errD.ite (h.err.ite (h.forEach (fun h => h.modLoop)).ok)

theorem State.Canon.stageXtalk {base : Nat} {es : List (Nat × BitVec 256)} (h : s.Canon rest) : (s.stageXtalk base es).Canon rest :=
  h.frame rfl

theorem State.Canon.cmdXtalkLoad {hd : CmdHdr} {p : XtalkParams} (h : s.Canon rest) : (cmdXtalkLoad hd p s).Canon rest := by
  refine h.errD.ite (h.errD.ite ?_)
  split
  · exact h.errD
  · exact h.err.ite ((h.frame (by rfl)).ite h.stageXtalk).ok

theorem State.Canon.cmdPowerLimitSet {hd : CmdHdr} {p : PowerLimitParams} (h : s.Canon rest) : (cmdPowerLimitSet hd p s).Canon rest :=
  h.errD.ite (h.errD.ite h.writeLoop.writeLoop.ok)

theorem State.Canon.cmdThermalLimitsSet {hd : CmdHdr} {l : List Half} (h : s.Canon rest) : (cmdThermalLimitsSet hd l s).Canon rest := by
  unfold Machine.cmdThermalLimitsSet
  split; exacts [h.errD, (h.forEach (fun h => h.ite h.writeLoop)).ok]

theorem State.Canon.cmdPowerStateSet {hd : CmdHdr} {st : BitVec 3} (h : s.Canon rest) : (cmdPowerStateSet hd st s).Canon rest :=
  h.errD.ite (h.err.ite (h.err.ite (h.ok.ite (h.wait.ite h.modPower.wait))))

theorem State.Canon.cmdMonconvConfigure {hd : CmdHdr} {p : MonconvParams} (h : s.Canon rest) :
    (cmdMonconvConfigure hd p s).Canon rest := h.err.ite (h.modMc.wait.ite h.modMc.ok)

theorem State.Canon.cmdMonconvInject {hd : CmdHdr} {p : InjectParams} (h : s.Canon rest) : (cmdMonconvInject hd p s).Canon rest :=
  h.err.ite (h.err.ite h.modMc.wait)

/-! ## Complete -/

theorem State.Canon.finishRelayed {i tag : Nat} {hd : CmdHdr} {op : Nat} {clear : Bool} {a : Answer} (h : s.Canon rest)
    (ha : a.Canon rest) : (s.finishRelayed i tag hd op clear a).Canon rest := by
  unfold State.finishRelayed
  extract_lets s1 c o w s2
  have ho : o.2.Canon rest := by
    unfold o
    split
    · split
      · exact (h.after ha).sealOn
      · exact Canon.foldlSnd (h.after ha) fun h => h.sealOn
    · exact h.after ha
  have hw : w.2.Canon rest := by
    unfold w
    split
    · exact ho.sealOn
    · exact ho
  exact (Canon.foldl hw fun h => h.sendTo).sendTo

theorem State.Canon.afterFinish {c : HostCmd} {hd : CmdHdr} {status : Nat} (h : s.Canon rest) :
    (afterFinish c hd status s).Canon rest := by
  unfold Machine.afterFinish
  split; exacts [h.closeSession.ite h, h]

theorem State.Canon.deliver {relay : Option (Nat × Nat)} {hd : CmdHdr} {c : HostCmd} {a : Answer} (h : s.Canon rest)
    (ha : a.Canon rest) : (s.deliver relay hd c a).Canon rest :=
  Canon.afterFinish (by split; exacts [(h.finishRelayed ha).modRing, h.finish ha])

theorem State.Canon.completeRing {r : Nat} {a : Answer} (h : s.Canon rest) (ha : a.Canon rest) : (s.completeRing r a).Canon rest := by
  unfold State.completeRing
  split
  · exact h
  · exact (h.modRing.deliver ha.state.modRing.inAnswer).ite h

/-! ## Converters -/

theorem State.Canon.reportLost {k : Nat} (h : s.Canon rest) : (s.reportLost k).Canon rest := h.ite h.modMc.converter

theorem State.Canon.beginPass {k : Nat} (h : s.Canon rest) : (s.beginPass k).Canon rest := h.ite h.reportLost.modMc

theorem State.Canon.deliverResult {k raw : Nat} (h : s.Canon rest) : (s.deliverResult k raw).Canon rest := by
  unfold State.deliverResult
  extract_lets
  split; exacts [h, h.ite (h.modMc.reportLost.ite h.modMc)]

theorem State.Canon.readData {k : Nat} (h : s.Canon rest) : (s.readData k).Canon rest := h.modMc.ite h

theorem State.Canon.injectedResult {k raw : Nat} (h : s.Canon rest) : (s.injectedResult k raw).Canon rest := by
  unfold State.injectedResult
  split; exacts [h, h.ite (h.modMc.completeRing h.modMc.okR)]

theorem State.Canon.refSettled {k : Nat} (h : s.Canon rest) : (s.refSettled k).Canon rest := by
  refine h.ite ?_
  split; exacts [h.modMc.completeRing h.modMc.ok, h.modMc]

theorem State.Canon.calibrated {i : Nat} {ofs : Int} {gain : Nat} {fault : Option Nat} (h : s.Canon rest) :
    (s.calibrated i ofs gain fault).Canon rest := by
  unfold State.calibrated
  extract_lets
  split; exacts [h.modCorr.converter, h.modCorr]

theorem State.Canon.crossCheck {a b rawA rawB : Nat} (h : s.Canon rest) : (s.crossCheck a b rawA rawB).Canon rest :=
  h.modMc.modMc.modMc.modMc.converter.ite h.modMc.modMc

theorem State.Canon.calibrateMonitors {bandgap : List Nat} {cal : List (Nat × Int × Nat)} {stage : List Nat} (h : s.Canon rest) :
    (s.calibrateMonitors bandgap cal stage).Canon rest := by
  refine h.ite ?_
  exact Canon.forEach (by split; exacts [h.crossCheck.crossCheck, h.takeFree.takeFree.takeFree.takeFree.crossCheck.crossCheck])
    (fun h => h.modMc)

theorem State.Canon.monitorsMeasured (h : s.Canon rest) : s.monitorsMeasured.Canon rest :=
  h.forEach fun h => by split; exacts [h, h.calibrated.modMc]

theorem State.Canon.calibrateColumn {k : Nat} {result : Option (Int × Nat)} (h : s.Canon rest) :
    (s.calibrateColumn k result).Canon rest := by
  refine h.ite ?_
  split; exacts [h.setSlab, h.setSlab.calibrated]

/-! ## ReadBack -/

theorem State.Canon.setFlagWord {c i : Nat} {w : W1c} (h : s.Canon rest) : (s.setFlagWord c i w).Canon rest := by
  unfold State.setFlagWord
  split
  · exact h.modCluster
  · exact h.modSlab
  · exact h.modEngine
  · exact h.modLoop
  · exact h.modCart
  · exact h.modBank
  · exact h.modHaul
  · exact h.modVec
  · exact h.modPort
  · exact h.modCluster
  · exact h.modRing
  · exact h.modMc
  · exact h

theorem State.Canon.clearFlags {c i : Nat} (h : s.Canon rest) : (s.clearFlags c i).Canon rest := h.setFlagWord

theorem State.Canon.readObjects {c : Nat} {clear : Bool} {i n : Nat} (h : s.Canon rest) : (s.readObjects c clear i n).2.Canon rest := by
  induction n generalizing s i with
  | zero => exact h
  | succ n ih => exact ih (h.clearFlags.ite h)

theorem State.Canon.readPortA {c w : Nat} {l : List (List Byte)} (h : s.Canon rest) : (s.readPortA c w l).1.Canon rest := by
  induction l generalizing s w with
  | nil => exact h
  | cons b l ih => exact ih (Canon.ite (h.frame rfl) (h.frame rfl))

theorem State.Canon.markAccums {c i n : Nat} (h : s.Canon rest) : (s.markAccums c i n).Canon rest :=
  (h.forEach (fun h => h.modSlab)).ite h

theorem State.Canon.readNow {p : StateReadParams} {x : ObjClass} (h : s.Canon rest) : (s.readNow p x).Canon rest := by
  unfold State.readNow
  extract_lets c i data r1 a1 r2 tag a2
  have h1 : r1.1.Canon rest := by unfold r1; split; exacts [h.readPortA, h]
  have h2 : r2.2.Canon rest := h.readObjects
  exact Answer.Canon.ite h1.carried h2.markAccums.carried

theorem State.Canon.cmdStateRead {hd : CmdHdr} {p : StateReadParams} (h : s.Canon rest) : (cmdStateRead hd p s).Canon rest := by
  unfold Machine.cmdStateRead
  extract_lets
  split
  · exact h.errD
  · exact (h.errD.ite (h.errD.ite (h.errD.ite
      (h.errD.ite (h.ok.ite (by split; exacts [h.err, by split; exacts [h.wait, h.readNow]])))))).ite
      (h.errD.ite (h.errD.ite (h.ok.ite (by split; exacts [h.err, by split; exacts [h.wait, h.readNow]]))))

theorem State.Canon.endStateRead {hd : CmdHdr} {p : StateReadParams} (h : s.Canon rest) : (endStateRead hd p s).Canon rest := by
  unfold Machine.endStateRead
  split
  · exact h.err
  · split; exacts [h.err, h.readNow]

theorem State.Canon.cmdStateList {hd : CmdHdr} {p : StateListParams} (h : s.Canon rest) : (cmdStateList hd p s).Canon rest := by
  refine h.errD.ite (h.carried.ite ?_)
  split; exacts [h.errD, h.carried]

theorem State.Canon.cmdEventRead {hd : CmdHdr} {max : BitVec 11} (h : s.Canon rest) : (cmdEventRead hd max s).Canon rest := by
  unfold Machine.cmdEventRead
  extract_lets t x r left b
  have hb : b.Canon rest := h.modTenant.okR
  exact h.errD.ite (h.ok.ite hb.state.carried)

/-! ## CmdLight -/

theorem State.Canon.cmdLightStatus {hd : CmdHdr} (h : s.Canon rest) : (cmdLightStatus hd s).Canon rest := h.okR

theorem State.Canon.autoName {k : Nat} (h : s.Canon rest) : (s.autoName k).Canon rest := h.modCart

theorem State.Canon.sparePolicy {k : Nat} {hold : Bool} (h : s.Canon rest) : (s.sparePolicy k hold).Canon rest := h.modCart.autoName

theorem State.Canon.cmdLineAssignSpare {hd : CmdHdr} {p : AssignSpareParams} (h : s.Canon rest) :
    (cmdLineAssignSpare hd p s).Canon rest :=
  h.errD.ite (h.errD.ite (h.err.ite (h.err.ite ((h.modCart.ite h).ite (h.modCart.ite h).sparePolicy).ok)))

theorem State.Canon.beginSweep {k : Nat} (h : s.Canon rest) : (s.beginSweep k).Canon rest := h.modLoop

theorem State.Canon.startSweeps (h : s.Canon rest) : s.startSweeps.Canon rest :=
  h.forEach fun h => h.ite (h.forEach (fun h => h.beginSweep))

theorem State.Canon.queueSweep {k : Nat} (h : s.Canon rest) : (s.queueSweep k).Canon rest := by
  unfold State.queueSweep
  split; exacts [h.modLoop.modEngine.ite h.modLoop, h.modLoop]

theorem State.Canon.acquireLoops {l : List Nat} (h : s.Canon rest) : (s.acquireLoops l).Canon rest :=
  (h.forEach (fun h => h.queueSweep)).startSweeps

theorem State.Canon.acquireOff {l : List Nat} (h : s.Canon rest) : (s.acquireOff l).Canon rest := h.acquireLoops

theorem State.Canon.cmdLockAcquire {hd : CmdHdr} {p : LoopRange} (h : s.Canon rest) : (cmdLockAcquire hd p s).Canon rest :=
  h.errD.ite (h.okR.ite (h.err.ite (h.err.ite h.acquireLoops.wait)))

theorem State.Canon.lockFailed {k : Nat} (h : s.Canon rest) : (s.lockFailed k).Canon rest := by
  unfold State.lockFailed
  split
  · exact (h.modLoop.light.removeRow.ite h.modLoop.light).modEngine.optical.ite (h.modLoop.light.removeRow.ite h.modLoop.light)
  · exact h.modLoop.light

theorem State.Canon.lockDone {k : Nat} (h : s.Canon rest) : (s.lockDone k).Canon rest := by
  unfold State.lockDone
  split; exacts [h.modLoop.rowStandby.ite h.modLoop, h.modLoop]

theorem State.Canon.acquired {k : Nat} {o : List Int} (h : s.Canon rest) : (s.acquired k o).Canon rest := by
  unfold State.acquired
  split; exacts [h.modLoop.ite h, h]

theorem State.Canon.endLockAcquire {p : LoopRange} {si : Silicon} (h : s.Canon rest) (ha : Machine.endLockAcquire p si s = some a) :
    a.Canon rest := by
  unfold Machine.endLockAcquire at ha
  extract_lets l failed s1 r at ha
  have h1 : s1.Canon rest := h.forEach fun h => h.acquired
  split at ha
  · cases ha; exact h.carried
  · split at ha <;> cases ha
    exact h1.okR.ite h1.carried

theorem State.Canon.cmdEngineCalibrate {hd : CmdHdr} {engine : BitVec 6} (h : s.Canon rest) :
    (cmdEngineCalibrate hd engine s).Canon rest := h.err.ite (h.err.ite h.wait)

theorem State.Canon.endEngineCalibrate {engine : BitVec 6} {si : Silicon} (h : s.Canon rest) :
    (endEngineCalibrate engine si s).Canon rest := (h.putTrims.modEngine.forEach (fun h => h.modLoop)).ok

/-! ## CmdFirmware -/

theorem State.Canon.inject {kind target : Nat} {hold : Option Nat} (h : s.Canon rest) : (s.inject kind target hold).Canon rest :=
  (h.frame (by rfl)).modCart.ite ((h.frame (by rfl)).modMbx.ite (h.frame rfl))

theorem State.Canon.cmdFaultInject {hd : CmdHdr} {p : FaultInjectParams} (h : s.Canon rest) : (cmdFaultInject hd p s).Canon rest :=
  h.errD.ite (h.errD.ite (h.errD.ite (h.ok.ite h.inject.ok)))

theorem State.Canon.cmdSelftestRun {hd : CmdHdr} {p : SelftestParams} (h : s.Canon rest) : (cmdSelftestRun hd p s).Canon rest :=
  h.errD.ite (h.errD.ite ((h.err.ite (h.err.ite h.modBank.wait)).ite (h.err.ite h.wait)))

theorem State.Canon.marchBank {k : Nat} (h : s.Canon rest) : (s.marchBank k).Canon rest :=
  ((Canon.foldl (Canon.foldl h (fun h => h.breakHolds)) (fun h => h.storeTagged)).frame (by rfl)).rereadTop.putScales.ite
    ((Canon.foldl (Canon.foldl h (fun h => h.breakHolds)) (fun h => h.storeTagged)).frame rfl)

theorem State.Canon.endSelftestRun {p : SelftestParams} {left : Nat} {si : Silicon} (h : s.Canon rest) :
    (endSelftestRun p left si s).Canon rest := (h.marchBank.modBank.ite h).okR

theorem State.Canon.discardImage (h : s.Canon rest) : s.discardImage.Canon rest := h.setFw.modMbx

theorem State.Canon.cmdFwLoadBegin {hd : CmdHdr} {imageLen : Word} (h : s.Canon rest) : (cmdFwLoadBegin hd imageLen s).Canon rest := by
  unfold Machine.cmdFwLoadBegin
  exact h.errD.ite (h.errD.ite (h.err.ite (h.devReset.ite h.dropKeys).modTrust.modMbx.setFw.ok))

theorem State.Canon.cmdFwLoadBlock {hd : CmdHdr} {offset : Word} (h : s.Canon rest) : (cmdFwLoadBlock hd offset s).Canon rest :=
  h.errD.ite (h.err.ite (h.errD.ite (h.errD.ite h.modMbx.ok)))

theorem State.Canon.cmdFwLoadEnd {hd : CmdHdr} (h : s.Canon rest) : (cmdFwLoadEnd hd s).Canon rest :=
  h.err.ite (h.discardImage.errWith.ite (h.discardImage.errWith.ite h.setFw.wait))

theorem State.Canon.reportTrip (h : s.Canon rest) : s.reportTrip.Canon rest := by
  refine h.ite ?_
  split; exacts [h.modPower.append, h]

theorem State.Canon.findSlabs (h : s.Canon rest) : s.findSlabs.Canon rest :=
  h.forEach fun h => (h.modSlab.upkeep.ite h).queueDress.ite ((h.modSlab.upkeep.ite h).modSlab.upkeep.unplannedDetour.ite
    (h.modSlab.upkeep.ite h))

theorem State.Canon.tenant0Key (h : s.Canon rest) : s.tenant0Key.Canon rest := h.modTenant.newPageKey.ite h

theorem State.Canon.startFirmware (h : s.Canon rest) : s.startFirmware.Canon rest := by
  have h1 : ((s.setFw .running).tenant0Key.reportTrip.resumeEvents.findSlabs).Canon rest :=
    h.setFw.tenant0Key.reportTrip.resumeEvents.findSlabs
  unfold State.startFirmware
  extract_lets s1 s2
  have h2 : s2.Canon rest := h1.frame rfl
  clear_value s2
  exact h2.ite h2.acquireOff

theorem State.Canon.endFwLoadEnd {si : Silicon} (h : s.Canon rest) : (endFwLoadEnd si s).Canon rest :=
  h.discardImage.errWith.ite h.modTrust.modMbx.startFirmware.carried

end

end Sys2Proof.Machine
end

section
/-! PROOFS. Canonical memory and the queue (R462): light, power, tasks and hauls. -/

namespace Sys2Proof.Machine

section
variable {s t : State} {a b : Answer} {rest : List Instr}

/-! ## Light -/

theorem State.Canon.pausePort {p : Nat} (h : s.Canon rest) : (s.pausePort p).Canon rest := h.breakOff.takeFree.withdraw.modPort.release

theorem State.Canon.feedPorts (h : s.Canon rest) : s.feedPorts.Canon rest := h.forEach fun h => (h.pausePort.ite h).modPort

theorem State.Canon.feedChanged {n first : Nat} (h : s.Canon rest) : (s.feedChanged n first).Canon rest := h.forEach fun h => h.swapSets

theorem State.Canon.rebase {n : Nat} (h : s.Canon rest) : (s.rebase n).Canon rest := h.forEach fun h => h.modEngine

theorem State.Canon.loseLine {k n : Nat} {l : LaserState} (h : s.Canon rest) : (s.loseLine k n l).Canon rest := by
  unfold State.loseLine
  exact ((h.setFeed.ite h).setFeed.ite (h.setFeed.ite h)).modCart

theorem State.Canon.tuneSpare {k n : Nat} {inj : Bool} (h : s.Canon rest) : (s.tuneSpare k n inj).Canon rest := by
  refine h.ite ?_
  split; exacts [h.modCart.light, h.light.modCart]

theorem State.Canon.failLine {k n : Nat} {driver : Bool} (h : s.Canon rest) : (s.failLine k n driver).Canon rest :=
  h.ite (h.loseLine.light.modCart.feedPorts.ite h.loseLine.light.modCart.feedPorts.tuneSpare)

theorem State.Canon.takeOver {k n : Nat} (h : s.Canon rest) : (s.takeOver k n).Canon rest := by
  unfold State.takeOver
  split
  · exact h
  · exact h.ite (h.setFeed.modCart.setFeed.ite h.setFeed.modCart).modCart.rebase.feedChanged.feedPorts.light.tuneSpare

theorem State.Canon.verifySpare {k n : Nat} (h : s.Canon rest) : (s.verifySpare k n).Canon rest := h.ite h.modCart.autoName

theorem State.Canon.endSplit {k n : Nat} (h : s.Canon rest) : (s.endSplit k n).Canon rest := h.modCart

theorem State.Canon.switchIn {k n : Nat} (h : s.Canon rest) : (s.switchIn k n).Canon rest := by
  refine h.ite (h.setFeed.modCart.endSplit.rebase.feedChanged.feedPorts.ite ?_)
  split; exacts [h.takeFree.modCart.setFeed.modCart.endSplit.rebase.feedChanged.feedPorts.light, h]

theorem State.Canon.darkCart {k : Nat} (h : s.Canon rest) : (s.darkCart k).Canon rest :=
  (h.forEach (fun h => h.loseLine)).modCart.feedPorts

theorem State.Canon.eyeOff {k detail : Nat} (h : s.Canon rest) : (s.eyeOff k detail).Canon rest := h.darkCart.light.modCart

theorem State.Canon.powerSocket {k : Nat} (h : s.Canon rest) : (s.powerSocket k).Canon rest := h.modCart

theorem State.Canon.sweepPorts {stack : Nat} (h : s.Canon rest) : (s.sweepPorts stack).Canon rest := h.acquireOff

theorem State.Canon.lightCart {k : Nat} {returnPower : Int} (h : s.Canon rest) : (s.lightCart k returnPower).Canon rest := by
  unfold State.lightCart
  extract_lets good starting s1 s2 s3 s4 s5
  have h3 : s3.Canon rest :=
    have h2 : s2.Canon rest := h.modCart.forEach fun h => h.takeFree.modCart
    (h2.forEach fun h => h.setFeed).ite h2
  have h5 : s5.Canon rest := (h3.modCart.ite h3).forEach fun h => h.tuneSpare
  exact h5.feedPorts.sweepPorts

theorem State.Canon.startLighting {k : Nat} {probe1 probe2 : Bool} {returnPower : Int} (h : s.Canon rest) :
    (s.startLighting k probe1 probe2 returnPower).Canon rest := h.ite (h.powerSocket.lightCart.ite h.powerSocket.modCart)

theorem State.Canon.rampDone {k : Nat} (h : s.Canon rest) : (s.rampDone k).Canon rest := by
  unfold State.rampDone
  split; exacts [h, h.ite h.modCart.lightCart.modCart.light]

theorem State.Canon.probeCart {k : Nat} {seen : Bool} (h : s.Canon rest) : (s.probeCart k seen).Canon rest :=
  h.rampDone.ite (h.rampDone.powerSocket.modCart.ite h.rampDone.powerSocket.takeFree.modCart)

theorem State.Canon.insertCart {k : Nat} {closed : Bool} (h : s.Canon rest) : (s.insertCart k closed).Canon rest := h.ite h.modCart

theorem State.Canon.openInterlock {k : Nat} (h : s.Canon rest) : (s.openInterlock k).Canon rest := by
  unfold State.openInterlock
  exact (h.eyeOff.ite h).modCart

theorem State.Canon.closeInterlock {k : Nat} (h : s.Canon rest) : (s.closeInterlock k).Canon rest := h.ite h.modCart

theorem State.Canon.returnLost {k : Nat} (h : s.Canon rest) : (s.returnLost k).Canon rest := h.ite h.eyeOff

theorem State.Canon.socketCut {k : Nat} (h : s.Canon rest) : (s.socketCut k).Canon rest := h.ite h.eyeOff.modCart

theorem State.Canon.cartLost {k detail : Nat} (h : s.Canon rest) : (s.cartLost k detail).Canon rest :=
  ((h.ite h.darkCart).modCart.ite (h.ite h.darkCart)).modCart.faultEv

theorem State.Canon.laneRelight {p lane : Nat} (h : s.Canon rest) : (s.laneRelight p lane).Canon rest := h.ite h.modPort.light

/-! ## Power -/

theorem State.Canon.pmSet {f : Pmbus → Pmbus} (h : s.Canon rest) : (s.pmSet f).Canon rest := h.frame rfl

theorem State.Canon.powerLoss {boot : Boot} {keepTrip : Bool} (h : s.Canon rest) : (s.powerLoss boot keepTrip).Canon rest :=
  ⟨rfl, h.pending⟩

theorem State.Canon.dormant (h : s.Canon rest) : s.dormant.Canon rest := by
  unfold State.dormant
  extract_lets p s1
  have h1 : s1.Canon rest := h.powerLoss.modPower
  exact h1.frame rfl

theorem State.Canon.uninjected (h : s.Canon rest) : s.uninjected.Canon rest := h.modPower

theorem State.Canon.pauseBatch (h : s.Canon rest) : s.pauseBatch.Canon rest := h.forEach fun h => h.pauseTasks.ite h

theorem State.Canon.stopConverters (h : s.Canon rest) : s.stopConverters.Canon rest :=
  (h.forEach (fun h => by split; exacts [((h.completeRing h.err).ite h), h])).forEach fun h => h.modMc

theorem State.Canon.banked (h : s.Canon rest) : s.banked.Canon rest := by
  unfold State.banked
  exact (h.forEach (fun h => h.withdraw.modPort)).stopConverters.modTime.modRelay

theorem State.Canon.loseTables (h : s.Canon rest) : s.loseTables.Canon rest := h.modDomain

theorem State.Canon.cold (h : s.Canon rest) : s.cold.Canon rest := by
  unfold State.cold
  exact Canon.feedPorts (Canon.loseTables ⟨rfl, h.pending⟩)

theorem State.Canon.relightAll (h : s.Canon rest) : s.relightAll.Canon rest :=
  h.forEach fun h => h.powerSocket.modCart.lightCart.ite h.modCart

theorem State.Canon.sweepAll (h : s.Canon rest) : s.sweepAll.Canon rest := h.acquireOff

theorem State.Canon.linesNominal (h : s.Canon rest) : s.linesNominal.Canon rest := h.forEach fun h => h.swapSets

theorem State.Canon.enterState {p : PState} {thermal : Bool} (h : s.Canon rest) : (s.enterState p thermal).Canon rest := by
  unfold State.enterState
  extract_lets old detail inj s1 s2 s3 s4 s5 s6 s7 s8
  have h3 : s3.Canon rest :=
    have h1 : s1.Canon rest := h.pauseBatch.ite h
    have h2 : s2.Canon rest := h1.banked.ite h1
    h2.cold.ite h2
  have h6 : s6.Canon rest :=
    have h5 : s5.Canon rest := h3.modPower.relightAll.sweepAll.ite h3.modPower
    h5.linesNominal.ite h5
  have h8 : s8.Canon rest := (h6.modPower.forEach fun h => h.queueCut).ite h6.modPower
  exact h.powerEv.closeAll.dormant.ite h8.powerEv

theorem State.Canon.statesAtBoundary (h : s.Canon rest) : s.statesAtBoundary.Canon rest := by
  unfold State.statesAtBoundary
  refine Canon.ite ?stop ?asked
  case stop =>
    refine h.modPower.ite ?_
    have h1 : (((s.modPower fun p => { p with stopDue := false }).cutDressings true).enterState .ps2 true).Canon rest :=
      h.modPower.cutDressings.enterState
    dsimp only
    split
    · exact h1.completeRing h1.err
    · exact h1
  case asked =>
    split
    · next p nb _ =>
      refine h.ite ?_
      extract_lets finish
      have hf {u} (hu : u.Canon rest) : (finish u).Canon rest := by
        dsimp only [finish]
        split
        · exact hu.completeRing hu.ok
        · exact hu
      exact (hf h).enterState.ite (hf h.enterState)
    · exact h

theorem State.Canon.resumeAtBoundary (h : s.Canon rest) : s.resumeAtBoundary.Canon rest := by
  unfold State.resumeAtBoundary
  split; exacts [h.modPower.ite h, h]

theorem State.Canon.endPowerStateSet {st : BitVec 3} (h : s.Canon rest) : (endPowerStateSet st s).Canon rest :=
  h.ok.ite (h.err.ite h.enterState.ok)

theorem State.Canon.setPower (h : s.Canon rest) : s.setPower.Canon rest := h.setLoop.modLoop.light.ite h.setLoop

theorem State.Canon.throttle (h : s.Canon rest) : s.throttle.Canon rest :=
  h.ite ((h.modTime.modPower.setPower.pmSet.ite h.modTime.modPower.setPower).powerEv.ite
    ((h.modTime.modPower.setPower.pmSet.ite h.modTime.modPower.setPower).powerEv.ite
    (h.modTime.modPower.setPower.pmSet.ite h.modTime.modPower.setPower)))

theorem State.Canon.thermalStop (h : s.Canon rest) : s.thermalStop.Canon rest := by
  refine h.ite ?_
  split; exacts [h, (h.powerEv.pmSet.forEach (fun h => h.modCluster)).modPower]

theorem State.Canon.tripNow {t : Trip} (h : s.Canon rest) : (s.tripNow t).Canon rest := by
  unfold State.tripNow
  exact h.pmSet.dormant.modPower

theorem State.Canon.tripCheck (h : s.Canon rest) : s.tripCheck.Canon rest := by
  unfold State.tripCheck
  split; exacts [h.tripNow, h]

/-! ## TaskBase -/

theorem State.Canon.clashed {c : Nat} {l : List Clashed} (h : s.Canon rest) : (s.clashed c l).Canon rest := h.forEach fun h => h.writeAt

theorem State.Canon.clashWrites {c : Nat} {l : List Clashed} (h : s.Canon rest) : (s.clashWrites c l).Canon rest :=
  h.forEach fun h => h.writeAt

theorem State.Canon.meet {c i pass : Nat} {k : Clash} (h : s.Canon rest) : (s.meet c i pass k).1.Canon rest := by
  unfold State.meet
  extract_lets x reads writes fabric port other
  cases other with
  | none => exact h
  | some at_ =>
    dsimp only
    split
    · exact h
    · exact Canon.ite (h.frame rfl) (h.frame rfl)

theorem State.Canon.meets {c i pass : Nat} {ws : List Clash} (h : s.Canon rest) : (s.meets c i pass ws).1.Canon rest :=
  Canon.foldlFst h fun h => h.meet

theorem State.Canon.skip {c i : Nat} (h : s.Canon rest) : (s.skip c i).1.Canon rest := h.frame rfl

theorem State.Canon.skipLate {c i : Nat} {r : TaskRun} (h : s.Canon rest) : (s.skipLate c i r).Canon rest :=
  h.skip.ite (h.skip.miss.ite h.skip.miss)

theorem State.Canon.complete {c i : Nat} {r : TaskRun} {t : Option Tag} (h : s.Canon rest) : (s.complete c i r t).Canon rest := by
  unfold State.complete
  extract_lets late kind s1
  have h1 : s1.Canon rest := h.modCluster
  cases late with
  | none => exact h1
  | some n => exact h1.ite h1.miss

theorem State.Canon.completeEmpty {c i : Nat} {r : TaskRun} (h : s.Canon rest) : (s.completeEmpty c i r).Canon rest := h.modCluster

theorem State.Canon.stopped {c i : Nat} {r : TaskRun} {t : Option Tag} (h : s.Canon rest) : (s.stopped c i r t).Canon rest := h.modCluster

theorem State.Canon.endShort {c i : Nat} {r : TaskRun} {t : Option Tag} {whole : Bool} (h : s.Canon rest) :
    (s.endShort c i r t whole).Canon rest := h.complete.ite h.stopped

/-! ## SlabArith -/

theorem State.Canon.writePieces {c core addr : Nat} {l : List (List Byte × Option Tag)} (h : s.Canon rest) :
    (s.writePieces c core addr l).Canon rest := by
  induction l generalizing s addr with
  | nil => exact h
  | cons x l ih => exact ih ((h.ite h.writeAt).ite (h.ite h.writeAt).writeAt)

theorem State.Canon.writeRegionsOf {c core addr len : Nat} {rs : List (List Byte × Option Tag)} (h : s.Canon rest) :
    (s.writeRegionsOf c core addr len rs).Canon rest := by
  unfold State.writeRegionsOf
  extract_lets total all
  cases all with
  | nil => exact h
  | cons r l => exact (h.writeAt.ite h.writeAt.writeAt).writePieces

theorem State.Canon.drainTask {c i : Nat} {r : TaskRun} {late : Bool} (h : s.Canon rest) : (s.drainTask c i r late).1.Canon rest := by
  unfold State.drainTask
  extract_lets
  split; exacts [h, (h.forEach (fun h => h.modSlab)).writeRegionsOf]

theorem State.Canon.beginSlab {c i : Nat} (h : s.Canon rest) : (s.beginSlab c i).Canon rest := by
  unfold State.beginSlab
  exact h.modCluster

theorem State.Canon.latchTrims (h : s.Canon rest) : s.latchTrims.Canon rest := h.frame rfl

theorem State.Canon.toDetour {c i : Nat} (h : s.Canon rest) : (s.toDetour c i).Canon rest := by
  unfold State.toDetour
  extract_lets
  split; exacts [h.ite (h.modCluster.opticalFlag.ite h.modCluster), h]

theorem State.Canon.turnDetours {c : Nat} {ks : List Nat} (h : s.Canon rest) : (s.turnDetours c ks).Canon rest :=
  h.forEach fun h => h.toDetour.ite h

theorem State.Canon.slabResult {c i : Nat} {n : Nat → Nat} {r : TaskRun} {late : Bool} {noise : Nat → Nat → Nat → Int}
    (h : s.Canon rest) : (s.slabResult c i n r late noise).1.Canon rest :=
  Canon.drainTask (by split; exacts [((h.forEach (fun h => h.modSlab)).forEach (fun h => h.modSlab.modSlab)),
    (h.forEach (fun h => h.modSlab))])

theorem State.Canon.leaveSlabs {c i : Nat} (h : s.Canon rest) : (s.leaveSlabs c i).Canon rest :=
  (h.forEach (fun h => h.modSlab)).turnDetours.forEach fun h => h.driftAfter

theorem State.Canon.slabComplete {c i : Nat} {noise : List Int} (h : s.Canon rest) : (s.slabComplete c i noise).Canon rest := by
  unfold State.slabComplete
  split; exacts [h, h.ite ((h.forEach (fun h => h.modSlab)).ite h.slabResult.complete.leaveSlabs)]

/-! ## Optical -/

theorem State.Canon.orphans {c core tag addr : Nat} {l : List Nat} {t : Option Tag} (h : s.Canon rest) :
    (s.orphans c core tag addr l t).Canon rest := h.forEach fun h => h.raiseHeld (fun h => h.number)

theorem State.Canon.releaseHolds {c : Nat} (h : s.Canon rest) : (s.releaseHolds c).Canon rest := h.ite h.modCluster

theorem State.Canon.weightComplete {c i : Nat} {ws : List Clash} (h : s.Canon rest) : (s.weightComplete c i ws).Canon rest := by
  unfold State.weightComplete
  split; exacts [h, h.ite (h.meets.modEngine.stopped.ite h.meets.modEngine.complete).releaseHolds]

theorem State.Canon.refreshWeights {e : Nat} (h : s.Canon rest) : (s.refreshWeights e).Canon rest := h.ite h.swapSets

theorem State.Canon.takeSet {c i : Nat} {r : TaskRun} (h : s.Canon rest) : (s.takeSet c i r).Canon rest := by
  unfold State.takeSet
  extract_lets
  split; exacts [h.swapSets, h.ite (h.opticalFlag.ite h.swapSets)]

theorem State.Canon.beginOptical {c i start : Nat} {r : TaskRun} (h : s.Canon rest) : (s.beginOptical c i start r).Canon rest :=
  h.takeSet.modCluster.modEngine.releaseHolds

theorem State.Canon.beginBatch {c i start : Nat} (h : s.Canon rest) : (s.beginBatch c i start).Canon rest := by
  unfold State.beginBatch
  exact h.modCluster.modEngine

theorem State.Canon.engineNext {c : Nat} (h : s.Canon rest) : (s.engineNext c).Canon rest := by
  refine h.ite ?_
  split
  · exact h
  · split; exacts [h.modEngine.beginBatch.ite h.modEngine.beginOptical, h]

theorem State.Canon.omWrite {c i n till : Nat} {r : TaskRun} {late : Bool} {noise : Nat → Int} (h : s.Canon rest) :
    (s.omWrite c i n till r late noise).1.Canon rest :=
  (((Canon.foldl h (fun h => h.orphans)).forEach (fun h => h.writeAt)).ite
    ((Canon.foldl h (fun h => h.orphans)).forEach (fun h => h.writeAt)).clashWrites).modEngine.ite
    (((Canon.foldl h (fun h => h.orphans)).forEach (fun h => h.writeAt)).ite
    ((Canon.foldl h (fun h => h.orphans)).forEach (fun h => h.writeAt)).clashWrites).modEngine.integrate

theorem State.Canon.opticalComplete {c i stallNs : Nat} {ws : List Clash} {noise : List Int} (h : s.Canon rest) :
    (s.opticalComplete c i stallNs ws noise).Canon rest := by
  unfold State.opticalComplete
  split; exacts [h, h.ite h.meets.modEngine.omWrite.complete.releaseHolds.engineNext]

theorem State.Canon.stopOptical {c i : Nat} {r : TaskRun} {tile late : Bool} (h : s.Canon rest) :
    (s.stopOptical c i r tile late).Canon rest := h.stopped.ite (h.frame (by rfl)).modEngine.omWrite.endShort.releaseHolds

theorem State.Canon.detourTask {c n size i : Nat} {noise : List Int} (h : s.Canon rest) : (s.detourTask c n size i noise).Canon rest := by
  unfold State.detourTask
  split
  · exact h
  · refine h.ite ?_
    exact (Canon.ite (by split; exacts [(h.modSlab.forEach (fun h => h.modSlab)), h])
      (h.forEach (fun h => h.modSlab))).modEngine.drainTask.stopped.ite
      (Canon.ite (by split; exacts [(h.modSlab.forEach (fun h => h.modSlab)), h])
      (h.forEach (fun h => h.modSlab))).modEngine.drainTask.complete

theorem State.Canon.batchComplete {c : Nat} {noise : List Int} (h : s.Canon rest) : (s.batchComplete c noise).Canon rest := by
  unfold State.batchComplete
  extract_lets b
  cases b with
  | nil => exact h
  | cons => exact h.ite (h.forEach fun h => h.detourTask).integrate.swapSets.engineNext

/-! ## Vector -/

theorem State.Canon.vecWrite {c i n : Nat} {r : TaskRun} {late : Bool} (h : s.Canon rest) : (s.vecWrite c i n r late).1.Canon rest :=
  ((Canon.foldl h (fun h => h.orphans)).forEach (fun h => h.writeAt.writeAt.ite h.writeAt)).modVec

theorem State.Canon.vecReport {c i obs : Nat} {r : TaskRun} {t : Option Tag} (h : s.Canon rest) :
    (s.vecReport c i obs r t).Canon rest := h.ite h.modCluster

theorem State.Canon.vectorDone {c i : Nat} (h : s.Canon rest) : (s.vectorDone c i).Canon rest := by
  unfold State.vectorDone
  split; exacts [h, h.ite h.vecWrite.vecReport.complete]

theorem State.Canon.stopVector {c i : Nat} {r : TaskRun} {late : Bool} (h : s.Canon rest) : (s.stopVector c i r late).Canon rest :=
  (h.takeFree.vecWrite.vecReport.ite h.takeFree.vecWrite).endShort

/-! ## Haul -/

theorem State.Canon.sideWrite {c core : Nat} {x : Side} {bs : List Byte} {t : Option Tag} (h : s.Canon rest) :
    (s.sideWrite c core x bs t).Canon rest := by
  unfold State.sideWrite
  split
  · exact h
  · exact h.haulWrite
  · split; exacts [h.forEach (fun h => h.modSlab), h.writeAt]

theorem State.Canon.sideMark {c core : Nat} {x : Side} {n : Nat} (h : s.Canon rest) : (s.sideMark c core x n).Canon rest := by
  unfold State.sideMark
  split
  · split; exacts [h.modSlab, h]
  · exact h

theorem State.Canon.copyBytes {c core : Nat} {a b : Side} {n : Nat} (h : s.Canon rest) : (s.copyBytes c core a b n).1.Canon rest :=
  Canon.foldlFst h fun h => h.sideMark.sideWrite

theorem State.Canon.copyTile {c core : Nat} {a b : Side} {late : Bool} (h : s.Canon rest) :
    (s.copyTile c core a b late).1.Canon rest := by
  unfold State.copyTile
  extract_lets tg s1 r
  have h1 : r.1.Canon rest := h.sideMark.sideWrite.copyBytes
  exact h1

theorem State.Canon.haulMove {c i pass n : Nat} {late : Bool} (h : s.Canon rest) : (s.haulMove c i pass n late).1.Canon rest := by
  unfold State.haulMove
  exact Canon.foldlFst h fun hv => (Canon.iteFst hv.copyTile hv.copyBytes).withResult

theorem State.Canon.clashHaul {c i pass : Nat} {l : List Clashed} (h : s.Canon rest) : (s.clashHaul c i pass l).Canon rest :=
  (h.forEach (fun h => h.forEach (fun h => h.sideWrite))).clashWrites

theorem State.Canon.endTransfer {c i bytes : Nat} (h : s.Canon rest) : (s.endTransfer c i bytes).Canon rest := h.modHaul

theorem State.Canon.underEntry {c i : Nat} {f : State → State × Option Tag} (h : s.Canon rest)
    (hf : ∀ {t}, t.Canon rest → (f t).1.Canon rest) : (s.underEntry c i f).1.Canon rest := by
  unfold State.underEntry
  extract_lets x
  split; exacts [hf h, (hf h.setPage).setPage]

theorem State.Canon.haulAll {c i pass : Nat} {late : Bool} {before : List Clashed} {ws : List Clash} (h : s.Canon rest) :
    (s.haulAll c i pass late before ws).1.Canon rest := by
  have hm : (s.meets c i pass ws).1.Canon rest := h.meets
  exact (hm.underEntry fun h => h.haulMove).clashHaul.endTransfer

theorem State.Canon.aheadDone {c i : Nat} {ws : List Clash} (h : s.Canon rest) : (s.aheadDone c i ws).Canon rest := by
  unfold State.aheadDone
  split; exacts [h, h.ite h.haulAll.modCluster]

theorem State.Canon.haulDone {kind c i : Nat} {ws : List Clash} (h : s.Canon rest) : (s.haulDone kind c i ws).Canon rest := by
  refine h.ite ?_
  split; exacts [h.aheadDone, h.ite h.haulAll.complete]

theorem State.Canon.stopHaul {c i : Nat} {r : TaskRun} {late : Bool} (h : s.Canon rest) : (s.stopHaul c i r late).Canon rest := by
  unfold State.stopHaul
  extract_lets d us n whole out
  have ho : out.1.Canon rest := h.takeFree.underEntry fun h => h.haulMove
  exact h.stopped.ite (ho.ite ho.clashHaul).endTransfer.endShort

end

end Sys2Proof.Machine
end

section
/-! PROOFS. Canonical memory and the queue (R462): time, the fabric, plans and the boundary. -/

namespace Sys2Proof.Machine

section
variable {s t : State} {a b : Answer} {rest : List Instr}

/-! ## TickSources -/

theorem State.Canon.modSources {f : TickSource → TickSource} (h : s.Canon rest) : (s.modSources f).Canon rest := h.modTime

theorem State.Canon.loseSources {was : Bool} (h : s.Canon rest) : (s.loseSources was).Canon rest :=
  (h.modTime.ite h).modTime.ticksrc.ite (h.modTime.ite h)

theorem State.Canon.disqualify {p : TickSource → Bool} (h : s.Canon rest) : (s.disqualify p).Canon rest := h.modSources.loseSources

theorem State.Canon.steer {d : Int} (h : s.Canon rest) : (s.steer d).Canon rest := h.modTime

theorem State.Canon.qualifyEdge {edge : Nat} {pps : Bool} (h : s.Canon rest) : (s.qualifyEdge edge pps).Canon rest := by
  unfold State.qualifyEdge
  exact h.modSources.modTime

theorem State.Canon.followEdge (h : s.Canon rest) : s.followEdge.Canon rest := by
  unfold State.followEdge
  split; exacts [h.steer.ite h, h]

theorem State.Canon.tickInEdge (h : s.Canon rest) : s.tickInEdge.Canon rest := by
  refine h.ite ?_
  split
  · exact h
  · refine (h.modSources.followEdge.ite h.modSources.disqualify).ite (h.modSources.ite ?_)
    exact Canon.ite (by split; exacts [h.modSources.qualifyEdge.ite h.modSources, h.modSources]) h.modSources.qualifyEdge

theorem State.Canon.tickInLate (h : s.Canon rest) : s.tickInLate.Canon rest := by
  unfold State.tickInLate
  split
  · split; exacts [h.modSources.disqualify.ite h, h]
  · exact h

theorem State.Canon.ppsEdge (h : s.Canon rest) : s.ppsEdge.Canon rest := by
  unfold State.ppsEdge
  extract_lets
  refine h.ite ?_
  split
  · split; exacts [h.modTime.qualifyEdge.ite h.modTime, h.modTime]
  · exact h.modTime

theorem State.Canon.ptpCheck {p : Nat} (h : s.Canon rest) : (s.ptpCheck p).Canon rest := by
  unfold State.ptpCheck
  exact h.modSources.modPort

theorem State.Canon.ptpLost {p : Nat} (h : s.Canon rest) : (s.ptpLost p).Canon rest := h.disqualify.modPort

theorem State.Canon.ptpAnnounce {p : Nat} {a : PtpAnnounce} (h : s.Canon rest) : (s.ptpAnnounce p a).Canon rest := h.modPort

theorem State.Canon.ptpDelayReq {p : Nat} (h : s.Canon rest) : (s.ptpDelayReq p).Canon rest := h.takeFree.sendLink

theorem State.Canon.ptpSync {p : Nat} {ofs : Int} (h : s.Canon rest) : (s.ptpSync p ofs).Canon rest :=
  (h.modSources.ptpLost.ite h.modSources.ptpCheck).ptpDelayReq

theorem State.Canon.ptpFrame {p : Nat} {hd : PtpHdr} {m : PtpMsg} (h : s.Canon rest) : (s.ptpFrame p hd m).Canon rest := by
  refine h.ite (h.countRx.checked.ite ?_)
  split
  · exact h.countRx.checked.ptpAnnounce
  · exact h.countRx.checked.ptpSync.ite h.countRx.checked
  · exact h.countRx.checked

theorem State.Canon.ptpSilent {p : Nat} (h : s.Canon rest) : (s.ptpSilent p).Canon rest := h.ptpLost.modPort

theorem State.Canon.synceLock {p : Nat} {locked : Bool} (h : s.Canon rest) : (s.synceLock p locked).Canon rest := h.ite h.modPort.ptpCheck

theorem State.Canon.esmc {p : Nat} {dnu : Bool} (h : s.Canon rest) : (s.esmc p dnu).Canon rest := h.ite h.modPort.ptpCheck

theorem State.Canon.retime {d : Int} (h : s.Canon rest) : (s.retime d).Canon rest := h.frame rfl

theorem State.Canon.fixFrame {edge : Nat} (h : s.Canon rest) : (s.fixFrame edge).Canon rest := by
  unfold State.fixFrame
  exact h.retime.modTime

theorem State.Canon.applyPhase {phase : Int} (h : s.Canon rest) : (s.applyPhase phase).Canon rest :=
  h.modTime.ite h.retime.modTime.phaseJump

theorem State.Canon.firstTai (h : s.Canon rest) : s.firstTai.Canon rest := h.ite (h.frame rfl)

theorem State.Canon.changeSource {phase : Int} (h : s.Canon rest) : (s.changeSource phase).Canon rest := by
  refine h.ite ?_
  split
  · exact h
  · split
    · exact h
    · exact ((Canon.applyPhase (by split; exacts [h.modTime.fixFrame.modSources, h.modTime])).firstTai.ite
        (Canon.applyPhase (by split; exacts [h.modTime.fixFrame.modSources, h.modTime]))).ticksrc

theorem State.Canon.announce {p : RelayPayload} (h : s.Canon rest) : (s.announce p).Canon rest := h.modRelay

theorem State.Canon.sendRelay (h : s.Canon rest) : s.sendRelay.Canon rest := h.ite (h.forEach (fun h => h.sendTo)).announce.modRelay

theorem State.Canon.followRelay {p : RelayPayload} (h : s.Canon rest) : (s.followRelay p).Canon rest := by
  unfold State.followRelay
  split; exacts [h.ite (h.steer.ite h.applyPhase), h]

theorem State.Canon.relayValid {p : RelayPayload} (h : s.Canon rest) : (s.relayValid p).Canon rest :=
  h.announce.modRelay.modSources.followRelay

theorem State.Canon.relayBroken (h : s.Canon rest) : s.relayBroken.Canon rest := h.modRelay.modSources

theorem State.Canon.fromMember {member n : Nat} {pr : Protection} (h : s.Canon rest) : (s.fromMember member n pr).1.Canon rest := by
  unfold State.fromMember
  extract_lets
  split; exacts [h.countRx.portFlag, h.fromPartner.countPartner.ite h.fromPartner]

theorem State.Canon.relayFrame {src : Nat} {pr : Protection} {p : RelayPayload} (h : s.Canon rest) :
    (s.relayFrame src pr p).Canon rest := h.ite (h.fromMember.ite (h.fromMember.relayValid.ite h.fromMember.relayBroken).sendTo)

theorem State.Canon.relayMiss (h : s.Canon rest) : s.relayMiss.Canon rest := h.ite h.relayBroken.disqualify.relayMissed

theorem State.Canon.relayAcked {worker : Nat} {pr : Protection} (h : s.Canon rest) : (s.relayAcked worker pr).Canon rest :=
  h.ite (h.fromMember.modRelay.ite h.fromMember)

theorem State.Canon.workerLost {worker : Nat} (h : s.Canon rest) : (s.workerLost worker).Canon rest := h.ite h.modRelay.fabricEv

theorem State.Canon.sendDelayReq (h : s.Canon rest) : s.sendDelayReq.Canon rest := h.ite h.sendTo.modRelay

theorem State.Canon.delayReq {src : Nat} {pr : Protection} (h : s.Canon rest) : (s.delayReq src pr).Canon rest :=
  h.ite (h.fromMember.sendTo.ite h.fromMember)

theorem State.Canon.delayResp {src : Nat} {pr : Protection} {pathNs : Nat} (h : s.Canon rest) :
    (s.delayResp src pr pathNs).Canon rest := h.ite (h.fromMember.modRelay.ite h.fromMember)

/-! ## Router -/

theorem State.Canon.landBytes {c addr : Nat} {bs : List Byte} (h : s.Canon rest) : (s.landBytes c addr bs).Canon rest :=
  h.writeAt.modCluster

theorem State.Canon.routerDrop {d src : Nat} (h : s.Canon rest) : (s.routerDrop d src).Canon rest := h.modCluster.fabricEv

theorem State.Canon.arrive {p : Packet} (h : s.Canon rest) : (s.arrive p).Canon rest := h.routerDrop.ite h.modFabric

theorem State.Canon.sendPackets {c i n : Nat} {r : TaskRun} {late : Bool} (h : s.Canon rest) :
    (s.sendPackets c i n r late).Canon rest := by
  unfold State.sendPackets
  extract_lets
  split; exacts [(h.forEach (fun h => h.arrive)).ite h, h]

theorem State.Canon.sendUpTo {c i n : Nat} {r : TaskRun} {late : Bool} (h : s.Canon rest) : (s.sendUpTo c i n r late).Canon rest := by
  unfold State.sendUpTo
  extract_lets
  split; exacts [h.sendPackets.modCluster, h]

theorem State.Canon.sendsSoFar {whole : Bool} (h : s.Canon rest) : (s.sendsSoFar whole).Canon rest :=
  h.forEach fun h => h.forEach (fun h => by split; exacts [h.sendUpTo.ite h, h])

theorem State.Canon.routerDone {c i : Nat} {ws : List Clash} (h : s.Canon rest) : (s.routerDone c i ws).Canon rest := by
  unfold State.routerDone
  split; exacts [h, h.ite h.meets.sendUpTo.endTransfer.complete]

theorem State.Canon.stopRouter {c i : Nat} {r : TaskRun} {late : Bool} (h : s.Canon rest) : (s.stopRouter c i r late).Canon rest :=
  h.stopped.ite h.takeFree.sendUpTo.endTransfer.endShort

theorem State.Canon.setPhase {i : Nat} {map : Option (List Phase)} (h : s.Canon rest) : (s.setPhase i map).Canon rest :=
  h.modFabric.forEach fun h => h.modCluster

theorem State.Canon.phaseStart (h : s.Canon rest) : s.phaseStart.Canon rest := by
  refine h.ite ?_
  split; exacts [h.sendsSoFar.setPhase.ite h, h]

theorem State.Canon.retuneFail {d k : Nat} (h : s.Canon rest) : (s.retuneFail d k).Canon rest := h.ite h.modCluster.fabricEv

theorem State.Canon.sendOn {d src addr : Nat} (h : s.Canon rest) : (s.sendOn d src addr).Canon rest := by
  unfold State.sendOn
  split; exacts [h, h.ite h.sendUpTo]

theorem State.Canon.routerReceive {d k src addr : Nat} {data : List Byte} (h : s.Canon rest) :
    (s.routerReceive d k src addr data).Canon rest := by
  unfold State.routerReceive
  extract_lets
  split
  · exact h.ite h.sendOn
  · refine (h.ite h.sendOn).ite ((h.ite h.sendOn).modFabric.routerDrop.ite ?_)
    exact (h.ite h.sendOn).modFabric.routerDrop.ite ((h.ite h.sendOn).ite (h.ite h.sendOn).modFabric.landBytes)

/-! ## Transport -/

theorem State.Canon.landFrame {p c addr : Nat} {bs : List Byte} (h : s.Canon rest) : (s.landFrame p c addr bs).1.Canon rest := by
  unfold State.landFrame
  split
  · exact h
  · split
    · exact h
    · split; exacts [h.portFlag, h.breakHolds.landBytes]

theorem State.Canon.deliverElems {p : Nat} {x : Entry} {base e : Nat} {vs : List Int} (h : s.Canon rest) :
    (s.deliverElems p x base e vs).1.Canon rest := Canon.foldlFst h fun h => h.landFrame

theorem State.Canon.finishSlot {p : Nat} {x : Entry} {symbol : Nat} {late : Bool} (h : s.Canon rest) :
    (s.finishSlot p x symbol late).Canon rest := (h.ite h.deliverElems).forEach fun h => h.landFrame

theorem State.Canon.symbolLanded {partner symbol : Nat} (h : s.Canon rest) : (s.symbolLanded partner symbol).Canon rest :=
  h.forEach fun h => h.forEach (fun h => Canon.ite (by split; exacts [h.complete, h]) h)

theorem State.Canon.landPrb {p i : Nat} {x : Entry} {stream frame tick symbol prb : Nat} {b : Prb} (h : s.Canon rest) :
    (s.landPrb p i x stream frame tick symbol prb b).Canon rest :=
  h.portFlag.ite ((h.countPartner.ite h).deliverElems.ite (h.countPartner.ite h).deliverElems.modDyn)

theorem State.Canon.uplane {p : Nat} {x : Section} (h : s.Canon rest) : (s.uplane p x).Canon rest := by
  refine h.ite (h.countPort.ite ?_)
  split
  · exact h.countRx.portFlag
  · refine h.fromPartner.ite (h.fromPartner.portFlag.ite (h.fromPartner.countPartner.countPartner.ite ?_))
    refine (h.fromPartner.countPartner.modDyn.forEach (fun h => h.landPrb)).ite ?_
    exact (h.fromPartner.countPartner.modDyn.forEach (fun h => h.landPrb)).finishSlot.modDyn.symbolLanded.ite
      (h.fromPartner.countPartner.modDyn.forEach (fun h => h.landPrb)).finishSlot.modDyn

theorem State.Canon.ingressLate {c i : Nat} (h : s.Canon rest) : (s.ingressLate c i).Canon rest := by
  unfold State.ingressLate
  split; exacts [h, h.ite (h.forEach (fun h => h.deliverElems)).finishSlot.modDyn.fabricEv.miss.complete]

theorem State.Canon.sendEcpri {i type eaxc tag : Nat} {body : List Byte} {lost : Bool} (h : s.Canon rest) :
    (s.sendEcpri i type eaxc tag body lost).Canon rest := by
  unfold State.sendEcpri
  exact (h.ite h.emitDone).countPartner.modDyn

theorem State.Canon.sendEgress {c i n : Nat} {r : TaskRun} (h : s.Canon rest) : (s.sendEgress c i n r).Canon rest := by
  unfold State.sendEgress
  extract_lets
  split
  · exact h.forEach (fun h => h.sendNumbered (fun h => h.ite h.emitDone))
  · exact h.forEach (fun h => h.sendEcpri)
  · exact h.forEach (fun h => h.sendEcpri)

theorem State.Canon.pushEgress {p n : Nat} (h : s.Canon rest) : (s.pushEgress p n).Canon rest :=
  h.forEach fun h => h.forEach (fun h => by split; exacts [h.sendEgress.modCluster.ite h, h])

theorem State.Canon.egressDone {c i : Nat} {ws : List Clash} (h : s.Canon rest) : (s.egressDone c i ws).Canon rest := by
  unfold State.egressDone
  split
  · exact h
  · exact h.ite (h.fabricEv.endTransfer.complete.ite (h.ite h.meets.sendEgress.endTransfer.complete))

theorem State.Canon.cutEgress {c i : Nat} {r : TaskRun} (h : s.Canon rest) : (s.cutEgress c i r).Canon rest :=
  h.ite h.takeFree.sendEgress.endTransfer

theorem State.Canon.egressDeadline {c i : Nat} (h : s.Canon rest) : (s.egressDeadline c i).Canon rest := by
  unfold State.egressDeadline
  extract_lets
  split; exacts [h, h.ite (h.miss.ite h).cutEgress.countPartner.stopped]

theorem State.Canon.stopEgress {c i : Nat} {r : TaskRun} (h : s.Canon rest) : (s.stopEgress c i r).Canon rest :=
  (h.countPartner.ite h).cutEgress.stopped

theorem State.Canon.sendAck {i : Nat} (h : s.Canon rest) : (s.sendAck i).Canon rest := h.ite h.takeFree.emit.countPartner.modDyn

theorem State.Canon.accepted {i : Nat} (h : s.Canon rest) : (s.accepted i).Canon rest := h.modDyn.sendAck.ite h.modDyn

theorem State.Canon.seqGap {i seq : Nat} (h : s.Canon rest) : (s.seqGap i seq).Canon rest := by
  unfold State.seqGap
  exact (h.ite h.countPartner).modDyn

theorem State.Canon.loadFrame {r : Nat} {x : Exec} {p : PageLoadParams} {ofs : Nat} {bs : List Byte} (h : s.Canon rest) :
    (s.loadFrame r x p ofs bs).Canon rest :=
  ((h.hbmWrite.frame (by rfl)).completeRing (h.hbmWrite.frame (by rfl)).ok).ite h.hbmWrite.modRing

theorem State.Canon.joryarData {p : Nat} {mac : BitVec 48} {hd : JoryarHdr} {bs : List Byte} (h : s.Canon rest) :
    (s.joryarData p mac hd bs).Canon rest := by
  unfold State.joryarData
  refine h.ite ?_
  extract_lets
  split
  · exact h.countRx.portFlag
  · refine h.fromPartner.ite (h.fromPartner.countPartner.ite (h.fromPartner.ite ?_))
    extract_lets
    split
    · exact (h.fromPartner.countPartner.accepted.ite h.fromPartner.countPartner.seqGap).loadFrame
    · exact (h.fromPartner.countPartner.accepted.ite h.fromPartner.countPartner.seqGap).landFrame

theorem State.Canon.joryarAck {p : Nat} {mac : BitVec 48} {hd : JoryarHdr} (h : s.Canon rest) : (s.joryarAck p mac hd).Canon rest := by
  refine h.ite ?_
  split
  · exact h.countRx.portFlag
  · exact h.fromPartner.ite (h.fromPartner.countPartner.pushEgress.ite h.fromPartner.countPartner.pushEgress.modDyn.drainQueue)

theorem State.Canon.ackTimer {i : Nat} (h : s.Canon rest) : (s.ackTimer i).Canon rest := h.ite h.sendAck

theorem State.Canon.resend {i : Nat} (h : s.Canon rest) : (s.resend i).Canon rest :=
  (h.pushEgress.ite h).ite (((h.pushEgress.ite h).forEach (fun h => h.emit.countPartner)).countPartner.modDyn.fabricEv.modDyn.ite
    ((h.pushEgress.ite h).forEach (fun h => h.emit.countPartner)).countPartner.modDyn)

/-! ## Ports -/

theorem State.Canon.leavePort {p : Nat} {inj : Bool} (h : s.Canon rest) : (s.leavePort p inj).Canon rest :=
  (h.ite (h.forEach (fun h => h.movePartner))).release

theorem State.Canon.portOut {p cause : Nat} {inj : Bool} (h : s.Canon rest) : (s.portOut p cause inj).Canon rest :=
  h.ite (h.breakOff.withdraw.modPort.takeFree.countPort.ite h.breakOff.withdraw.modPort).ptpSilent.fabricEv.leavePort.groupChanged

theorem State.Canon.portDown {p cause : Nat} (h : s.Canon rest) : (s.portDown p cause).Canon rest := h.ite h.portOut

theorem State.Canon.laneDark {p lane : Nat} (h : s.Canon rest) : (s.laneDark p lane).Canon rest := h.ite h.modPort.light.portOut

theorem State.Canon.joinGroup {p : Nat} {f : Port → Port} (h : s.Canon rest) : (s.joinGroup p f).Canon rest :=
  ((h.modPort.forEach (fun h => h.movePartner)).ite h.modPort).release

theorem State.Canon.portUp {p : Nat} (h : s.Canon rest) : (s.portUp p).Canon rest :=
  h.ite h.modPort.sendLacp.joinGroup.fabricEv.groupChanged

theorem State.Canon.lacpFrame {p : Nat} {collecting : Bool} (h : s.Canon rest) : (s.lacpFrame p collecting).Canon rest :=
  h.ite (h.countRx.modPort.ite (h.countRx.modPort.joinGroup.ite h.countRx.modPort.modPort.leavePort))

theorem State.Canon.lacpTick (h : s.Canon rest) : s.lacpTick.Canon rest :=
  h.forEach fun h => h.ite ((h.sendLacp.ite h).modPort.leavePort.ite (h.sendLacp.ite h))

theorem State.Canon.fecTick (h : s.Canon rest) : s.fecTick.Canon rest := (h.ite h.takeFree).forEach fun h => h.countPort.countPort

theorem State.Canon.takeSak {k : Nat} {sak : Option (List Byte)} (h : s.Canon rest) : (s.takeSak k sak).Canon rest :=
  (h.takeFree.sendMka.ite h).modCa.release

theorem State.Canon.mkaFrame {k : Nat} {sak : Option (List Byte)} (h : s.Canon rest) : (s.mkaFrame k sak).Canon rest := h.ite h.takeSak

theorem State.Canon.sakReplace {k : Nat} {sak : Option (List Byte)} (h : s.Canon rest) : (s.sakReplace k sak).Canon rest :=
  h.ite h.takeSak

theorem State.Canon.oneWayDelay {p : Nat} {m : DelayRequest} (h : s.Canon rest) : (s.oneWayDelay p m).Canon rest := by
  refine h.ite ?_
  split
  · exact h.countRx.portFlag
  · exact h.fromPartner.ite (h.fromPartner.portFlag.ite h.fromPartner.countPartner.emit.countPartner)

theorem State.Canon.pauseFrame {p : Nat} (h : s.Canon rest) : (s.pauseFrame p).Canon rest := h.ite h.countPort

theorem State.Canon.frameDropped {p : Nat} {r : DropReason} (h : s.Canon rest) : (s.frameDropped p r).Canon rest := by
  refine h.ite ?_
  split; exacts [h.countPort, h.portFlag, h.portFlag, h.portFlag, h.portFlag]

/-! ## Seam -/

theorem State.Canon.beginSpare {k j : Nat} {inj : Bool} (h : s.Canon rest) : (s.beginSpare k j inj).Canon rest := by
  refine h.ite ?_
  split; exacts [h.modSlab, h.upkeep]

theorem State.Canon.seamHandled {k ph g : Nat} {flag : Bool} (h : s.Canon rest) : (s.seamHandled k ph g flag).Canon rest := h.modSlab

theorem State.Canon.seamMany {k ph g : Nat} {inj : Bool} (h : s.Canon rest) : (s.seamMany k ph g inj).Canon rest :=
  (h.modSlab.upkeep.ite h).seamFail.modSlab.unplannedDetour.seamHandled

theorem State.Canon.seamTransient {k ph g : Nat} {inj : Bool} (h : s.Canon rest) : (s.seamTransient k ph g inj).Canon rest :=
  h.seamMany.ite h.modSlab.upkeep.seamHandled

theorem State.Canon.seamOutcome {k ph g : Nat} {faulty : List Nat} (h : s.Canon rest) : (s.seamOutcome k ph g faulty).Canon rest := by
  unfold State.seamOutcome
  split
  · exact h.seamTransient
  · refine h.seamMany.ite (h.seamFail.modSlab.beginSpare.seamHandled.ite ?_)
    exact h.seamFail.modSlab.beginSpare.seamHandled.ite h.seamFail.unplannedDetour.seamHandled
  · exact h.seamMany

theorem State.Canon.seamDelay {k : Nat} (h : s.Canon rest) : (s.seamDelay k).Canon rest := by
  unfold State.seamDelay
  exact h.modCluster

theorem State.Canon.seamLocalised {k : Nat} {reads : List Int} (h : s.Canon rest) : (s.seamLocalised k reads).Canon rest := by
  unfold State.seamLocalised
  split; exacts [h.seamDelay.seamOutcome, h]

theorem State.Canon.settleSeams {phs : List BenchPhase} {conv : Nat → Conversion} {k fuel : Nat} (h : s.Canon rest) :
    (State.settleSeams phs conv k fuel s).Canon rest := by
  induction fuel generalizing s with
  | zero => exact h
  | succ fuel ih =>
    unfold State.settleSeams
    extract_lets x
    split
    · exact h
    · exact ih (Canon.frame h (by rfl)).seamLocalised

theorem State.Canon.stopSlab {c i : Nat} {r : TaskRun} (h : s.Canon rest) : (s.stopSlab c i r).Canon rest :=
  h.stopped.leaveSlabs.ite ((h.frame (by rfl)).forEach (fun h => h.settleSeams)).slabResult.stopped.leaveSlabs

/-! ## Tasks -/

theorem State.Canon.ownerReport {c i : Nat} {f : Nat × Nat × Nat} (h : s.Canon rest) : (s.ownerReport c i f).Canon rest :=
  (Canon.opticalFlag (by split; exacts [h.modBank, h])).ite
    (Canon.ite (by split; exacts [h.modBank, h]) (Canon.modHaul (by split; exacts [h.modBank, h]))).memory

theorem State.Canon.dispatchFault {c i pass : Nat} (h : s.Canon rest) (ht : s.dispatchFault c i pass = some t) : t.Canon rest := by
  unfold State.dispatchFault at ht
  extract_lets at ht
  split at ht
  · cases ht; exact h.countPartner
  split at ht
  · cases ht; exact h.upkeep
  split at ht
  · cases ht; exact h.ownerReport
  split at ht
  · cases ht; exact h.modHaul.memory
  split at ht
  · cases ht; exact h.modHaul.memory
  split at ht
  · cases ht; exact h.raiseHeld fun h => h.number
  split at ht <;> cases ht
  exact h.raiseHeld fun h => h.number

theorem State.Canon.startSlab {c i : Nat} {r : TaskRun} (h : s.Canon rest) : (s.startSlab c i r).Canon rest :=
  h.modCluster.orphans.engineNext.ite h.modCluster.orphans.beginSlab.engineNext

theorem State.Canon.beginTransfer {c i : Nat} (h : s.Canon rest) : (s.beginTransfer c i).Canon rest := h.modHaul

theorem State.Canon.startTask {c i : Nat} {r : TaskRun} (h : s.Canon rest) : (s.startTask c i r).Canon rest := by
  unfold State.startTask
  extract_lets d put
  have hput {t r} (h : t.Canon rest) : (put t r).Canon rest := h.modCluster
  refine h.completeEmpty.ite ?_
  split
  · next ht => exact (h.dispatchFault ht).completeEmpty
  split
  · exact h.startSlab
  · exact (hput h).engineNext
  · exact (hput h).modCluster
  · exact hput h
  · exact (hput h).complete.ite (hput h)
  · exact (hput h).ite (hput h).beginTransfer

theorem State.Canon.takeUp {c i : Nat} {r : TaskRun} (h : s.Canon rest) : (s.takeUp c i r).Canon rest := h.setCluster.startTask

theorem State.Canon.tryTask {c i : Nat} {r : TaskRun} (h : s.Canon rest) : (s.tryTask c i r).Canon rest :=
  h.modCluster.ite ((h.ite h.modCluster.opticalFlag).ite (h.modCluster.ite h.takeUp))

theorem State.Canon.coreSkip {c i : Nat} (h : s.Canon rest) : (s.coreSkip c i).Canon rest := by
  unfold State.coreSkip
  exact h.skip.modCluster

theorem State.Canon.dispatch {c i : Nat} (h : s.Canon rest) : (s.dispatch c i).Canon rest :=
  h.ite (h.ite (h.skipLate.ite (h.coreSkip.ite (h.ite h.tryTask))))

theorem State.Canon.slotGrant {c i : Nat} (h : s.Canon rest) : (s.slotGrant c i).Canon rest := by
  refine h.ite ?_
  split; exacts [h.ite (h.coreSkip.ite (h.ite h.tryTask)), h]

theorem State.Canon.dataLate {c i : Nat} (h : s.Canon rest) : (s.dataLate c i).Canon rest := by
  refine h.ite ?_
  split; exacts [h.ite h.skipLate, h]

theorem State.Canon.confirmedStart {c i : Nat} (h : s.Canon rest) : (s.confirmedStart c i).Canon rest := by
  unfold State.confirmedStart
  extract_lets
  split; exacts [h.ite h.modCluster.beginTransfer, h]

theorem State.Canon.aheadIssue {c i k : Nat} (h : s.Canon rest) : (s.aheadIssue c i k).Canon rest := h.ite h.modHaul.modCluster

theorem State.Canon.stopTask {c i : Nat} {r : TaskRun} {late : Bool} (h : s.Canon rest) : (s.stopTask c i r late).Canon rest := by
  unfold State.stopTask
  extract_lets
  split
  · exact (h.modCluster.ite h.stopped).ite h.stopSlab
  · exact h.stopOptical
  · exact h
  · exact h.stopVector
  · exact h.stopHaul
  · exact h.stopHaul
  · exact h.stopRouter
  · exact h.stopEgress
  · exact h.stopped

theorem State.Canon.stopAll {c : Nat} {late : Bool} {sel : Nat → Bool} {after : State → Nat → State} (h : s.Canon rest) (hf : ∀ {t}
    {y}, t.Canon rest → (after t y).Canon rest) : (s.stopAll c late sel after).Canon rest :=
  h.forEach fun h => by split; exacts [(((hf h.stopTask).ite h.stopTask).ite h), h]

theorem State.Canon.detourStart {k : Nat} (h : s.Canon rest) : (s.detourStart k).Canon rest := h.ite h.modSlab.upkeep.engineNext

/-! ## Confirm -/

theorem State.Canon.mapStates {c : Nat} {tag : Tag → Option Tag} {acc : AccSet → AccSet} {set : WeightSet → WeightSet}
    {run : TaskRun → TaskRun} (h : s.Canon rest) : (s.mapStates c tag acc set run).Canon rest := by
  unfold State.mapStates
  exact (h.frame (by rfl)).modEngine.modCluster

theorem State.Canon.confirmTo {c ep : Nat} (h : s.Canon rest) : (s.confirmTo c ep).Canon rest := by
  unfold State.confirmTo
  exact h.mapStates.modCluster.releaseHolds.releaseHeld

theorem State.Canon.spoilFrom {c ep : Nat} (h : s.Canon rest) : (s.spoilFrom c ep).Canon rest := by
  unfold State.spoilFrom
  exact h.mapStates.dropHeld.modCluster

theorem State.Canon.toReplay {c i : Nat} (h : s.Canon rest) : (s.toReplay c i).Canon rest := by
  unfold State.toReplay
  extract_lets
  split
  · exact h
  · exact h.modCluster.ite ((h.ite (h.stopOptical.ite h.stopTask)).modCluster.ite (h.ite (h.stopOptical.ite h.stopTask)).modCluster)

theorem State.Canon.runSpoil {e : Nat} (h : s.Canon rest) : (s.runSpoil e).Canon rest := by
  unfold State.runSpoil
  split; exacts [h, (h.spoilFrom.modEngine.optical.forEach (fun h => h.toReplay)).releaseHolds.engineNext]

theorem State.Canon.publish {e ep : Nat} {late : Bool} (h : s.Canon rest) : (s.publish e ep late).Canon rest :=
  h.modEngine.confirmTo.ite (h.modEngine.optical.ite h.modEngine.optical.spoilFrom.modEngine)

theorem State.Canon.publishAll {e : Nat} {late : Nat → Bool} {l : List Nat} (h : s.Canon rest) : (s.publishAll e late l).Canon rest := by
  induction l generalizing s with
  | nil => exact h
  | cons ep l ih => exact ih h.runSpoil.publish

theorem State.Canon.verdict {e ago limit : Nat} (h : s.Canon rest) : (s.verdict e ago limit).Canon rest := by
  refine h.ite ?_
  split; exacts [h, h.publishAll]

/-! ## Housekeeping -/

theorem State.Canon.cutTask {c i : Nat} (h : s.Canon rest) : (s.cutTask c i).Canon rest := h.modCluster.miss

theorem State.Canon.sweepTask {c i : Nat} (h : s.Canon rest) : (s.sweepTask c i).Canon rest :=
  (h.ite (h.coreSkip.ite h.skipLate)).ite (h.modCluster.ite h)

theorem State.Canon.reportSkips {c : Nat} (h : s.Canon rest) : (s.reportSkips c).Canon rest := h.ite h.faultEv.modCluster

theorem State.Canon.cutRt {c : Nat} (h : s.Canon rest) : (s.cutRt c).Canon rest :=
  ((h.stopAll (fun h => h.cutTask)).forEach (fun h => h.sweepTask)).modCluster.reportSkips

theorem State.Canon.pauseRuns {c : Nat} (h : s.Canon rest) : (s.pauseRuns c).Canon rest := h.pauseTasks

theorem State.Canon.resumeRuns {c : Nat} (h : s.Canon rest) : (s.resumeRuns c).Canon rest := h.modCluster

theorem State.Canon.cutPlans (h : s.Canon rest) : s.cutPlans.Canon rest := h.sendsSoFar.forEach fun h => h.ite (h.pauseRuns.ite h.cutRt)

theorem State.Canon.resumePlans (h : s.Canon rest) : s.resumePlans.Canon rest :=
  h.ite (h.forEach (fun h => h.resumeRuns.engineNext.ite h))

theorem State.Canon.finishRow {e p : Nat} {pairs : List (Nat × Nat)} {ok stage : Bool} (h : s.Canon rest) :
    (s.finishRow e p pairs ok stage).Canon rest := by
  unfold State.finishRow
  extract_lets ep s1 taken s2 conv trims wrong s3 old r fault s4
  have h2 : s2.Canon rest := h.frame rfl
  have h3 : s3.Canon rest := (h2.forEach fun h => h.frame (by rfl)).ite h2.putTrims
  have h4 : s4.Canon rest := h3.calibrated
  exact h4.modEngine.optical.rowStandby.ite (h4.ite (h4.modLoop.ite h4.modLoop.modLoop.modEngine.optical))

theorem State.Canon.calibrateRow {e : Nat} {result : Option (List (Nat × Nat) × Bool)} {stage : List Nat} (h : s.Canon rest) :
    (s.calibrateRow e result stage).Canon rest := by
  unfold State.calibrateRow
  extract_lets; split; exacts [h, (h.ite (by extract_lets; split; exacts [h.setEngine.ite h.setEngine.finishRow, h.setEngine]))]

theorem State.Canon.calibrateRows {l : List (Nat × List (Nat × Nat) × Bool)} {stage : List Nat} (h : s.Canon rest) :
    (s.calibrateRows l stage).Canon rest := h.ite (h.forEach (fun h => h.modEngine.ite h.calibrateRow))

theorem State.Canon.waitedCal {e : Nat} (h : s.Canon rest) : (s.waitedCal e).Canon rest := by
  unfold State.waitedCal
  split; exacts [h, h.ite h.modEngine.calibrateRow]

theorem State.Canon.waitedCals (h : s.Canon rest) : s.waitedCals.Canon rest := h.forEach fun h => h.waitedCal.modEngine

theorem State.Canon.driftRead {k : Nat} {d : Option Int} (h : s.Canon rest) : (s.driftRead k d).Canon rest :=
  h.ite (h.modSlab.ite h.driftPair)

theorem State.Canon.driftReads {l : List (Nat × Int)} (h : s.Canon rest) : (s.driftReads l).Canon rest := h.forEach fun h => h.driftRead

theorem State.Canon.spareSlot {k : Nat} {v : Bool × Bool} {b : Option Int} (h : s.Canon rest) : (s.spareSlot k v b).Canon rest := by
  unfold State.spareSlot
  extract_lets
  split; exacts [h, h.ite (h.setSlab.beginSpare.ite (h.setSlab.ite (h.setSlab.ite h.setSlab)))]

theorem State.Canon.spareSlots {ok : List (Nat × Bool × Bool)} {b : List (Nat × Int)} (h : s.Canon rest) :
    (s.spareSlots ok b).Canon rest := h.forEach fun h => h.spareSlot

theorem State.Canon.wordFails {c core addr mask : Nat} (h : s.Canon rest) : (s.wordFails c core addr mask).Canon rest := by
  unfold State.wordFails
  split; exacts [h.ite h.modBank.memory, h]

theorem State.Canon.walk256 {c : Nat} {fails : List (Nat × Nat × Nat)} (h : s.Canon rest) : (s.walk256 c fails).Canon rest :=
  (h.modCluster.forEach (fun h => by split; exacts [h.breakHolds.ite h, h])).forEach fun h => h.wordFails

theorem State.Canon.walkers {fails : List (Nat × Nat × Nat)} (h : s.Canon rest) : (s.walkers fails).Canon rest :=
  h.forEach fun h => h.walk256

theorem State.Canon.trackerStep {c : Nat} (h : s.Canon rest) : (s.trackerStep c).Canon rest := h.ite h.modCluster

theorem State.Canon.calibrateColumns {l : List (Nat × Option (Int × Nat))} (h : s.Canon rest) : (s.calibrateColumns l).Canon rest :=
  h.forEach fun h => h.calibrateColumn

theorem State.Canon.housekeeping {input : HkInput} (h : s.Canon rest) : (s.housekeeping input).Canon rest :=
  h.ite ((h.cutPlans.modTime.calibrateRows.forEach (fun h => h.trackerStep)).calibrateMonitors.ite
    (h.cutPlans.modTime.calibrateRows.forEach (fun h => h.trackerStep)).calibrateMonitors.driftReads.spareSlots.walkers.calibrateColumns)

theorem State.Canon.slotOver (h : s.Canon rest) : s.slotOver.Canon rest := h.waitedCals.driftOver.monitorsMeasured

theorem State.Canon.housekeepingEnd (h : s.Canon rest) : s.housekeepingEnd.Canon rest := h.ite h.slotOver.modTime.resumePlans

/-! ## Upkeep -/

theorem State.Canon.ageTrim {k : Nat} (h : s.Canon rest) : (s.ageTrim k).Canon rest :=
  h.ite (h.takeFree.setSlab.ite h.takeFree.setSlab.modSlab.upkeep.queueDress)

theorem State.Canon.ageRedress {k : Nat} (h : s.Canon rest) : (s.ageRedress k).Canon rest := by
  unfold State.ageRedress
  extract_lets
  split; exacts [h.queueDress.ite h, h]

theorem State.Canon.beginDress {k : Nat} {q : QueuedDress} {page ofs : Nat} (h : s.Canon rest) :
    (s.beginDress k q page ofs).Canon rest := by
  unfold State.beginDress
  extract_lets x c m run inj cells r y written s1 s2
  have hwritten : written.Canon rest := h.setSlab
  clear_value written
  have h1 : s1.Canon rest := hwritten.frame rfl
  exact ((h1.upkeep.ite h1).forEach fun h => h.toDetour).engineNext

theorem State.Canon.dressStart {k : Nat} (h : s.Canon rest) : (s.dressStart k).Canon rest := by
  refine h.ite ?_
  split
  · split; exacts [h.modSlab.upkeep, h.beginDress]
  · exact h

theorem State.Canon.finishRecord {k : Nat} {r : RunningDress} {b : List (Nat × Int)} (h : s.Canon rest) :
    (s.finishRecord k r b).Canon rest := h.setSlab

theorem State.Canon.writeImage {k : Nat} {r : RunningDress} (h : s.Canon rest) : (s.writeImage k r).Canon rest := h.hbmWrite.ite h

theorem State.Canon.firstFinish {k : Nat} {r : RunningDress} {out : DressOutcome} (h : s.Canon rest) :
    (s.firstFinish k r out).Canon rest := h.setSlab.finishRecord

theorem State.Canon.endDress {k : Nat} {r : RunningDress} {bad : List Nat} {out : DressOutcome} (h : s.Canon rest) :
    (s.endDress k r bad out).Canon rest := h.modSlab.writeImage.upkeep.ite (h.ite h.setSlab.finishRecord).modSlab.writeImage.upkeep

theorem State.Canon.dressDone {k : Nat} {out : DressOutcome} (h : s.Canon rest) : (s.dressDone k out).Canon rest := by
  unfold State.dressDone
  split
  · exact h
  refine h.ite ?_
  extract_lets s1
  have h1 : s1.Canon rest := h.ite h.firstFinish
  split
  · exact h1
  · exact h1.endDress.ite h1

theorem State.Canon.detourEnd {k : Nat} (h : s.Canon rest) : (s.detourEnd k).Canon rest := by
  unfold State.detourEnd
  extract_lets
  split; exacts [h.ite h.setSlab.upkeep, h]

theorem State.Canon.bankDone {c mem : Nat} (h : s.Canon rest) : (s.bankDone c mem).Canon rest :=
  ((h.frame (by rfl)).wipe.rereadTop.ite (h.frame (by rfl)).wipe).forEach fun h => h.modBank

/-! ## Strips -/

theorem State.Canon.retireKey {t : Nat} (h : s.Canon rest) : (s.retireKey t).Canon rest := by
  unfold State.retireKey
  split; exacts [h, h.ite h.modTenant.trustEv]

theorem State.Canon.settleRekey {t stack : Nat} (h : s.Canon rest) : (s.settleRekey t stack).Canon rest := by
  unfold State.settleRekey
  split; exacts [h.ite h.setPage.modTenant.retireKey, h]

theorem State.Canon.rekeyChunk {t stack : Nat} (h : s.Canon rest) : (s.rekeyChunk t stack).Canon rest := by
  unfold State.rekeyChunk
  extract_lets s1
  have h1 : s1.Canon rest := h.settleRekey
  clear_value s1
  split
  · split
    · exact h1.retireKey
    · exact h1.ite (h1.frame (by rfl)).modTenant
  · exact h1

theorem State.Canon.darkRouter {c : Nat} (h : s.Canon rest) : (s.darkRouter c).Canon rest := h.modFabric.forEach fun h => h.modCluster

theorem State.Canon.stopOutward {c : Nat} (h : s.Canon rest) : (s.stopOutward c).Canon rest := h.stopAll fun h => h

theorem State.Canon.beginStrip {c : Nat} {y : Strip} (h : s.Canon rest) : (s.beginStrip c y).Canon rest := by
  unfold State.beginStrip
  extract_lets s1 s2 ps s3 s4 s5
  have h3 : s3.Canon rest := (h.stopOutward.trustEv.cancelAhead.forEach fun h => h.detach).darkRouter.wipe
  clear_value s3
  have h4 : s4.Canon rest := h3.frame rfl
  clear_value s4
  exact h4.modEngine.modCluster

theorem State.Canon.stripStart {c : Nat} (h : s.Canon rest) : (s.stripStart c).Canon rest := by
  unfold State.stripStart
  split; exacts [h.ite h.beginStrip, h]

theorem State.Canon.stripDone {c : Nat} (h : s.Canon rest) : (s.stripDone c).Canon rest := by
  unfold State.stripDone
  split
  · refine h.ite ?_
    exact (h.frame (by rfl)).modCluster.trustEv.deleteTenant.ite (h.frame (by rfl)).modCluster.trustEv
  · exact h

/-! ## Boundary -/

theorem State.Canon.slewTick (h : s.Canon rest) : s.slewTick.Canon rest := by
  unfold State.slewTick
  exact h.steer.modTime

theorem State.Canon.beginTick {b : Nat} (h : s.Canon rest) : (s.beginTick b).Canon rest := h.modTime

theorem State.Canon.hold (h : s.Canon rest) : s.hold.Canon rest := h.modRelay.modTime

theorem State.Canon.watchRelay {b : Nat} (h : s.Canon rest) : (s.watchRelay b).Canon rest := by
  refine h.ite ?_
  exact Canon.ite (by split; exacts [h.modRelay.modTime.modRelay.ticksrc.ite h.modRelay, h.modRelay])
    (h.modRelay.hold.ticksrc.ite h.modRelay)

theorem State.Canon.watchDs0 (h : s.Canon rest) : s.watchDs0.Canon rest := by
  unfold State.watchDs0
  split; exacts [h, h.modPower.hold.ite h.modPower]

theorem State.Canon.applyBank {k : Nat} (h : s.Canon rest) : (s.applyBank k).Canon rest := by
  unfold State.applyBank
  extract_lets
  split
  · exact h
  · exact h.ite ((h.cancelBanks.setBank.wipe.rereadTop.ite h.cancelBanks.setBank.wipe).ite h.cancelBanks.setBank).memory

theorem State.Canon.applyBanks (h : s.Canon rest) : s.applyBanks.Canon rest := h.forEach fun h => h.applyBank

theorem State.Canon.applyScales {c : Nat} (h : s.Canon rest) : (s.applyScales c).Canon rest :=
  h.modCluster.forEach fun h => h.ite h.modCluster.putScale

theorem State.Canon.keepEntry {p : Nat} (h : s.Canon rest) : (s.keepEntry p).Canon rest := h.frame rfl

theorem State.Canon.applyPage {p : PageChange} (h : s.Canon rest) : (s.applyPage p).Canon rest :=
  h.cancelPages.keepEntry.freePages.ite h.cancelPages.keepEntry.setPage

theorem State.Canon.applyPages (h : s.Canon rest) : s.applyPages.Canon rest := Canon.foldl (h.frame rfl) fun h => h.applyPage

theorem State.Canon.applyTiles (h : s.Canon rest) : s.applyTiles.Canon rest := Canon.foldl (h.frame rfl) fun h => h.applyTile

theorem State.Canon.loseStack {k : Nat} (h : s.Canon rest) : (s.loseStack k).Canon rest :=
  (h.frame (by rfl)).cancelPages.freePages.faultEv

theorem State.Canon.applyLost (h : s.Canon rest) : s.applyLost.Canon rest := by
  refine h.forEach fun {t x} h => ?_
  have h1 : (t.loseStack x.1).Canon rest := h.loseStack
  dsimp only
  generalize t.loseStack x.1 = u at h1 ⊢
  exact h1.frame rfl

theorem State.Canon.rotateKey {t : Nat} (h : s.Canon rest) : (s.rotateKey t).Canon rest := by
  unfold State.rotateKey
  extract_lets
  split; exacts [h, h.ite h.modTenant.trustEv.retireKey]

theorem State.Canon.firstPhase (h : s.Canon rest) : s.firstPhase.Canon rest := by
  unfold State.firstPhase
  exact h.setPhase.modFabric

theorem State.Canon.remapSpare {k : Nat} (h : s.Canon rest) : (s.remapSpare k).Canon rest := by
  unfold State.remapSpare
  extract_lets; split; exacts [h,
    (h.ite (by extract_lets; split; exacts [(h.frame (by rfl)).setSlab.upkeep.beginSpare, (h.frame (by rfl)).setSlab.upkeep]))]

theorem State.Canon.remapSpares (h : s.Canon rest) : s.remapSpares.Canon rest := h.forEach fun h => h.remapSpare

theorem State.Canon.mapChains {c : Nat} {f : List Nat → List Nat} (h : s.Canon rest) : (s.mapChains c f).Canon rest := h.frame rfl

theorem State.Canon.endPlan {c : Nat} (h : s.Canon rest) : (s.endPlan c).Canon rest := by
  unfold State.endPlan
  exact (h.stopAll (fun h => h)).cancelAhead.modCluster.modEngine.mapChains.modCluster

theorem State.Canon.swapPlan {c : Nat} (h : s.Canon rest) : (s.swapPlan c).Canon rest := by
  unfold State.swapPlan
  exact h.endPlan.modCluster.standbyTakes

theorem State.Canon.disarmPlan {c : Nat} (h : s.Canon rest) : (s.disarmPlan c).Canon rest := by
  unfold State.disarmPlan
  exact h.endPlan.modCluster

theorem State.Canon.nextPass {c : Nat} (h : s.Canon rest) : (s.nextPass c).Canon rest := h.mapChains.modCluster

theorem State.Canon.sequenceCluster {b c : Nat} (h : s.Canon rest) : (s.sequenceCluster b c).Canon rest := by
  unfold State.sequenceCluster
  extract_lets s1 x
  have h1 : s1.Canon rest := by unfold s1; split; exacts [h.disarmPlan.ite h, h]
  split
  · exact h1.swapPlan.ite (h1.modEngine.nextPass.ite (h1.reportSkips.nextPass.ite h1))
  · exact h1.modEngine.nextPass.ite (h1.reportSkips.nextPass.ite h1)
  · exact h1

theorem State.Canon.recheckIngress {c : Nat} (h : s.Canon rest) : (s.recheckIngress c).Canon rest := by
  refine h.ite ?_
  exact h.forEach (fun h => by split; exacts [h.complete.ite h, h])

theorem State.Canon.atBoundary {b : Nat} (h : s.Canon rest) : (s.atBoundary b).Canon rest :=
  ((((h.statesAtBoundary.resumeAtBoundary.applyBanks.forEach (fun h => h.applyScales)).forEach
    (fun h => h.rotateKey)).applyPages.applyTiles.applyLost.applyPartners.firstPhase.remapSpares.forEach
    (fun h => h.settleRekey.settleRekey.retireKey)).forEach (fun h => h.sequenceCluster)).resumePlans.forEach fun h => h.recheckIngress

theorem State.Canon.tickBoundary (h : s.Canon rest) : s.tickBoundary.Canon rest :=
  h.ite (h.sendsSoFar.slotOver.ite
    (h.sendsSoFar.forEach (fun h => h.cutRt.ite h))).slewTick.beginTick.watchRelay.watchDs0.atBoundary.lacpTick.fecTick

end

end Sys2Proof.Machine
end

section
/-! PROOFS. Canonical memory and the queue (R462): the loops, the mailbox and faults. -/

namespace Sys2Proof.Machine

section
variable {s t : State} {a b : Answer} {rest : List Instr}

/-! ## Pmbus -/

theorem State.Canon.pmSample (h : s.Canon rest) : s.pmSample.Canon rest := h.frame rfl

theorem State.Canon.clearFaults (h : s.Canon rest) : s.clearFaults.Canon rest := h.frame rfl

theorem State.Canon.pmAnswer {reply : List Byte} (h : s.Canon rest) : (s.pmAnswer reply).Canon rest := (h.frame (by rfl)).ite h

theorem State.Canon.pmReject {cmd : Nat} {write : Bool} (h : s.Canon rest) : (s.pmReject cmd write).Canon rest := h.pmSet.ite h

/-! ## Loops -/

theorem State.Canon.failSensor {k check : Nat} {inj : Bool} (h : s.Canon rest) : (s.failSensor k check inj).Canon rest :=
  h.ite h.modSensor.powerEv

theorem State.Canon.readSensor {m : Measurements} {k : Nat} (h : s.Canon rest) : (s.readSensor m k).Canon rest := by
  refine h.modSensor.failSensor.ite ?_
  split; exacts [h.modSensor.failSensor, h.modSensor]

theorem State.Canon.further {z : Nat} (h : s.Canon rest) : (s.further z).2.Canon rest := by
  unfold State.further
  extract_lets
  split
  · exact h
  · split; exacts [h, h.takeFree]

theorem State.Canon.pairCheck {z : Nat} (h : s.Canon rest) : (s.pairCheck z).Canon rest :=
  (h.ite h.modSensor).ite h.modSensor.further.failSensor

theorem State.Canon.readSensors {m : Measurements} (h : s.Canon rest) : (s.readSensors m).Canon rest :=
  ((h.forEach (fun h => h.readSensor)).ite
    ((h.forEach (fun h => h.readSensor)).forEach (fun h => h.pairCheck))).modPower.forEach fun h => h.modCart

theorem State.Canon.restSensors (h : s.Canon rest) : s.restSensors.Canon rest := h.modPower

theorem State.Canon.readInput {m : Measurements} (h : s.Canon rest) : (s.readInput m).Canon rest :=
  (h.modPower.pmSet.ite h.modPower).pmSet.ite (h.modPower.pmSet.ite h.modPower)

theorem State.Canon.loopBoundary (h : s.Canon rest) : s.loopBoundary.Canon rest :=
  ((h.forEach (fun h => h.setLoop.modPower.setPower.ite h.setLoop)).frame (by rfl)).forEach fun h => h.frame rfl

theorem State.Canon.heat {i : Nat} {a : Int} {dither : Nat → Int} (h : s.Canon rest) : (s.heat i a dither).Canon rest := h.frame rfl

theorem State.Canon.applyHeat {k : Nat} (h : s.Canon rest) : (s.applyHeat k).Canon rest :=
  (h.modLoop.forEach (fun h => h.heat)).light.ite (h.modLoop.forEach (fun h => h.heat))

theorem State.Canon.ringReceiver {k : Nat} (h : s.Canon rest) : (s.ringReceiver k).Canon rest := by
  unfold State.ringReceiver
  split
  · refine h.ite ?_
    split; exacts [h.modCluster.ite (h.ite h.modCluster), h]
  · exact h

theorem State.Canon.ringPort {k : Nat} {inj : Bool} (h : s.Canon rest) : (s.ringPort k inj).Canon rest := by
  unfold State.ringPort
  split; exacts [h.ite h.portOut, h]

theorem State.Canon.attemptFailed {k : Nat} (h : s.Canon rest) : (s.attemptFailed k).Canon rest :=
  (h.modLoop.ite h.lockFailed).startSweeps

theorem State.Canon.loopOut {k cause : Nat} {pilot inj : Bool} (h : s.Canon rest) : (s.loopOut k cause pilot inj).Canon rest := by
  refine h.attemptFailed.ite ?_
  exact Canon.startSweeps (by split; exacts [h.thaw.modLoop.removeRow, h.thaw.modLoop.ringReceiver.ringPort])

theorem State.Canon.ringsOut (h : s.Canon rest) : s.ringsOut.Canon rest :=
  (h.forEach (fun h => h.forEach (fun h => h.ringReceiver))).forEach fun h => h.forEach (fun h => h.ringPort)

theorem State.Canon.dirtyEnded {k point : Nat} {pilot inj : Bool} (h : s.Canon rest) : (s.dirtyEnded k point pilot inj).Canon rest := by
  unfold State.dirtyEnded
  split; exacts [h.modEngine.ite h, h]

theorem State.Canon.leftWindow {k : Nat} (h : s.Canon rest) : (s.leftWindow k).Canon rest := h.ite (h.dirtyEnded.modLoop.ite h.dirtyEnded)

theorem State.Canon.checkHeat {k : Nat} (h : s.Canon rest) : (s.checkHeat k).Canon rest := h.ite h.modLoop.light.loopOut

theorem State.Canon.lightLoops (h : s.Canon rest) : s.lightLoops.Canon rest :=
  h.forEach fun h => (h.leftWindow.modLoop.ite h).ite (h.ite (h.modLoop.loopOut.ite (h.modLoop.acquireLoops.ite h.modLoop)))

theorem State.Canon.lockLoops {m : Measurements} (h : s.Canon rest) : (s.lockLoops m).Canon rest :=
  (((((h.forEach (fun h => h.modLoop)).forEach (fun h => h.modLoop)).forEach (fun h => h.applyHeat)).forEach
    (fun h => h.modLoop)).forEach (fun h => h.leftWindow)).lightLoops.forEach fun h => h.checkHeat

theorem State.Canon.powerLoops (h : s.Canon rest) : s.powerLoops.Canon rest := by
  unfold State.powerLoops
  refine ((h.forEach (fun h => h.modLoop)).modPower.pmSet.ite (h.forEach (fun h => h.modLoop)).modPower).light.ite ?_
  exact (h.forEach (fun h => h.modLoop)).modPower.pmSet.ite (h.forEach (fun h => h.modLoop)).modPower

theorem State.Canon.driftTrims (h : s.Canon rest) : s.driftTrims.Canon rest := (h.frame (by rfl)).latchTrims

theorem State.Canon.refTrims (h : s.Canon rest) : s.refTrims.Canon rest := h.forEach fun h => h.ite h.modPower

theorem State.Canon.lineNorm {e n p : Nat} (h : s.Canon rest) : (s.lineNorm e n p).Canon rest := by
  unfold State.lineNorm
  exact h.modEngine

theorem State.Canon.lineNorms {l : List (Nat × Nat × Nat)} (h : s.Canon rest) : (s.lineNorms l).Canon rest :=
  h.forEach fun h => h.lineNorm.ite h

theorem State.Canon.closeEpoch (h : s.Canon rest) : s.closeEpoch.Canon rest := h.frame rfl

theorem State.Canon.dacUnderruns {l : List Nat} (h : s.Canon rest) : (s.dacUnderruns l).Canon rest := h.forEach fun h => h.converter

theorem State.Canon.controlTick {m : Measurements} (h : s.Canon rest) : (s.controlTick m).Canon rest := by
  unfold State.controlTick
  refine h.ite ?_
  extract_lets read checked due
  have hread : read.Canon rest := h.modTime.readInput.rampDone.rampDone
  have hchecked : checked.Canon rest := hread.readSensors.pmSample.tripCheck
  have hdue : due.Canon rest := hchecked.dacUnderruns.thermalStop.ringsOut
  exact hread.restSensors.pmSample.ite
    (hchecked.ite hdue.loopBoundary.lockLoops.powerLoops.driftTrims.refTrims.lineNorms.closeEpoch)

theorem State.Canon.lockLoss {k : Nat} (h : s.Canon rest) : (s.lockLoss k).Canon rest := h.ite h.light.loopOut

theorem State.Canon.pilotCheck {k : Nat} {tones : PilotTones} (h : s.Canon rest) : (s.pilotCheck k tones).Canon rest := by
  refine h.ite ?_
  exact (Canon.ite (by split; exacts [h.modLoop.lockDone.ringReceiver.engineNext, h.modLoop.lockDone.ringReceiver]) h.modLoop).ite
    (h.modLoop.attemptFailed.ite h.modLoop.dirtyEnded.light.loopOut)

theorem State.Canon.sweepEnd {k : Nat} {closed : Bool} {taps : List Nat} {slope : Int} (h : s.Canon rest) :
    (s.sweepEnd k closed taps slope).Canon rest := h.ite (h.modLoop.light.startSweeps.ite h.attemptFailed)

theorem State.Canon.freezeTimeout {k : Nat} (h : s.Canon rest) : (s.freezeTimeout k).Canon rest := h.thaw.ite h

/-! ## Startup -/

theorem State.Canon.startUp {role : Bool} {pmAddr : BitVec 3} (h : s.Canon rest) : (s.startUp role pmAddr).Canon rest := h.modPower.modMbx

theorem State.Canon.powerUp {role : Bool} {pmAddr : BitVec 3} (h : s.Canon rest) : (s.powerUp role pmAddr).Canon rest :=
  h.ite (h.modPower.ite h.startUp)

theorem State.Canon.releaseReset {role : Bool} {pmAddr : BitVec 3} (h : s.Canon rest) : (s.releaseReset role pmAddr).Canon rest :=
  h.modPower.startUp.ite h.modPower

theorem State.Canon.assertReset {lowNs : Nat} (h : s.Canon rest) : (s.assertReset lowNs).Canon rest :=
  h.ite (h.modPower.ite h.modPower.powerLoss)

theorem State.Canon.restart (h : s.Canon rest) : s.restart.Canon rest := h.powerLoss.releaseReset

theorem State.Canon.sensorStep {temps : List Int} (h : s.Canon rest) : (s.sensorStep temps).Canon rest :=
  h.ite ((h.modPower.forEach (fun h => h.modSensor)).modPower.ite (h.modPower.forEach (fun h => h.modSensor)))

theorem State.Canon.refclkStep (h : s.Canon rest) : s.refclkStep.Canon rest := h.ite (h.frame rfl)

theorem State.Canon.cartridgeStep (h : s.Canon rest) : s.cartridgeStep.Canon rest :=
  h.forEach fun h => h.powerSocket.modCart.ite (h.cartLost.ite h)

theorem State.Canon.bootRom (h : s.Canon rest) : s.bootRom.Canon rest :=
  h.ite ((h.frame (by rfl)).takeFree.modTrust.cartridgeStep.forEach (fun h => h.sweepPorts.ite h))

theorem State.Canon.inputRange {detail : Nat} (h : s.Canon rest) : (s.inputRange detail).Canon rest := h.powerEv.ite h

theorem State.Canon.overcurrent (h : s.Canon rest) : s.overcurrent.Canon rest := h.tripNow.ite h

theorem State.Canon.wake (h : s.Canon rest) : s.wake.Canon rest := h.modPower.ite h

/-! ## Serve -/

theorem State.Canon.runHostCmd {c : HostCmd} {hd : CmdHdr} (h : s.Canon rest) : (runHostCmd c hd s).Canon rest := by
  unfold Machine.runHostCmd
  split
  · exact h.cmdDevIdentify
  · exact h.cmdDevAttest
  · exact h.cmdDevSessionOpen
  · exact h.cmdDevSessionClose
  · exact h.cmdDevReset
  · exact h.cmdTickSourceSet
  · exact h.cmdTickPlanLoad
  · exact h.cmdTickPlanArm
  · exact h.cmdTickPlanDisarm
  · exact h.cmdTickStatus
  · exact h.cmdPartnerAttach
  · exact h.cmdPartnerModify
  · exact h.cmdPartnerDetach
  · exact h.cmdModelDeclare
  · exact h.cmdModelMapPages
  · exact h.cmdSlabDress
  · exact h.cmdSlabPin
  · exact h.cmdSlabRelease
  · exact h.cmdLightStatus
  · exact h.cmdLineAssignSpare
  · exact h.cmdLockAcquire
  · exact h.cmdEngineCalibrate
  · exact h.cmdPhaseMapLoad
  · exact h.cmdBankAssign
  · exact h.cmdBankPower
  · exact h.cmdPageLoad
  · exact h.cmdPageRelease
  · exact h.cmdTenantCreate
  · exact h.cmdTenantAssign
  · exact h.cmdTenantStrip
  · exact h.cmdKeyRotate
  · exact h.cmdKeyImport
  · exact h.cmdPowerStateSet
  · exact h.cmdPowerLimitSet
  · exact h.cmdThermalLimitsSet
  · exact h.cmdMonconvConfigure
  · exact h.cmdMonconvInject
  · exact h.cmdLoopWrite
  · exact h.cmdLoopFreeze
  · exact h.cmdLoopRelease
  · exact h.cmdXtalkLoad
  · exact h.cmdStateRead
  · exact h.cmdStateList
  · exact h.cmdEventRead
  · exact h.cmdFaultInject
  · exact h.cmdSelftestRun
  · exact h.cmdFwLoadBegin
  · exact h.cmdFwLoadBlock
  · exact h.cmdFwLoadEnd
  · exact h.cmdDomainJoin
  · exact h.cmdDomainLeave
  · exact h.cmdDomainRelay
  · exact h.cmdRoleSet

theorem State.Canon.answer {relayed : Bool} {hd : CmdHdr} {c : HostCmd} (h : s.Canon rest) : (s.answer relayed hd c).Canon rest := by
  unfold State.answer
  split; exacts [h.errD, h.runHostCmd]

theorem State.Canon.started {relay : Option (Nat × Nat)} {hd : CmdHdr} {c : HostCmd} {a : Answer} (h : s.Canon rest)
    (ha : a.Canon rest) : (s.started relay hd c a).Canon rest := ha.state.modRing.ite (h.deliver ha)

theorem State.Canon.served {r : Nat} (h : s.Canon rest) : (s.served r).Canon rest := h.ite h.modMbx

theorem State.Canon.goodEnvelope {t chan : Nat} (h : s.Canon rest) : (s.goodEnvelope t chan).Canon rest := h.modTenant.useSeq

theorem State.Canon.badEnvelope {t : Nat} {seq : Bool} (h : s.Canon rest) : (s.badEnvelope t seq).Canon rest := by
  unfold State.badEnvelope
  extract_lets
  split; exacts [h.modTenant.closeSession.ite h.modTenant, h.modTenant]

theorem State.Canon.takeEnvelopes {t k : Nat} {got src : List Byte} (h : s.Canon rest) :
    (State.takeEnvelopes t k s got src).1.Canon rest := by
  induction k generalizing s got src with
  | zero => exact h
  | succ k ih =>
    unfold State.takeEnvelopes
    extract_lets more
    split
    · exact ih h.badEnvelope
    · split; exacts [ih h.badEnvelope, ih h.goodEnvelope]

theorem State.Canon.takeBulk {a : Accepted} (h : s.Canon rest) : (s.takeBulk a).1.Canon rest := by
  unfold State.takeBulk
  refine Canon.iteFst h (Canon.iteFst h ?_)
  cases a.session with
  | none => exact Canon.iteFst h (Canon.iteFst h h.modMbx.withResult)
  | some u =>
    dsimp only
    exact Canon.iteFst h (Canon.iteFst h (Canon.iteFst (h.takeEnvelopes.ite h.takeEnvelopes.modMbx).modRing.withResult
      (h.takeEnvelopes.ite h.takeEnvelopes.modMbx).withResult))

theorem State.Canon.popHead {r : Nat} (h : s.Canon rest) : (s.popHead r).Canon rest := h.modRing

theorem State.Canon.completeHead {r : Nat} {a : Accepted} {op : Nat} {e : Nat × Nat} (h : s.Canon rest) :
    (s.completeHead r a op e).Canon rest := by
  unfold State.completeHead
  split; exacts [(h.popHead.finishRelayed h.popHead.errD).modRing, h.popHead.finish h.popHead.errD]

theorem State.Canon.startHead {r : Nat} {x : Accepted} {bulk : List Byte} (h : s.Canon rest) (ht : s.startHead r x bulk = some t) :
    t.Canon rest := by
  unfold State.startHead at ht
  extract_lets at ht
  split at ht
  · cases ht; exact h.completeHead
  split at ht
  · cases ht; exact h.completeHead
  extract_lets at ht
  split at ht <;> cases ht
  exact h.popHead.served.started h.popHead.served.answer

theorem State.Canon.dropHead {a : Accepted} {late : Nat × Nat} (h : s.Canon rest) : (s.dropHead a late).Canon rest :=
  h.completeHead.ite h.completeHead.modMbx

theorem State.Canon.rejectBulk {a : Accepted} (h : s.Canon rest) : (s.rejectBulk a).Canon rest := h.dropHead

theorem State.Canon.tryRing {r : Nat} (h : s.Canon rest) : (s.tryRing r).1.Canon rest := by
  unfold State.tryRing
  split
  · split
    · extract_lets b
      have hb : b.1.Canon rest := h.takeBulk
      split
      · exact hb
      · exact hb.rejectBulk
      · split
        · next ht => exact hb.startHead ht
        · exact h
    · split
      · next ht => exact h.startHead ht
      · exact h
  · exact h

theorem State.Canon.tryRings {l : List Nat} (h : s.Canon rest) : (State.tryRings l s).Canon rest := by
  induction l generalizing s with
  | nil => exact h
  | cons r l ih => exact h.tryRing.ite (ih h.tryRing)

theorem State.Canon.startNext (h : s.Canon rest) : s.startNext.Canon rest := h.ite h.tryRings

theorem State.Canon.dropRelay {worker tag : Nat} (h : s.Canon rest) : (s.dropRelay worker tag).Canon rest := h.modDomain

theorem State.Canon.relayAnswer {r : Relay} (h : s.Canon rest) : (Relay.answer r s).Canon rest := h.carried

theorem State.Canon.endDomainRelay {hd : CmdHdr} (h : s.Canon rest) (ha : Machine.endDomainRelay hd s = some a) : a.Canon rest := by
  obtain ⟨r, -, rfl⟩ := Option.map_eq_some_iff.mp ha
  exact h.dropRelay.relayAnswer

theorem State.Canon.ends {x : Exec} {si : Silicon} (h : s.Canon rest) (ha : x.ends si s = some a) : a.Canon rest := by
  unfold Exec.ends at ha
  split at ha
  · cases ha; exact h.endDevIdentify
  · cases ha; exact h.endDevAttest
  · cases ha; exact h.endDevSessionOpen
  · exact h.endLockAcquire ha
  · cases ha; exact h.endEngineCalibrate
  · cases ha; exact h.endSelftestRun
  · cases ha; exact h.endFwLoadEnd
  · exact h.endDomainRelay ha
  · split at ha <;> cases ha
    exact h.endPowerStateSet
  · split at ha <;> cases ha
    exact h.endStateRead
  · cases ha

theorem State.Canon.completeCmd {r : Nat} {si : Silicon} (h : s.Canon rest) : (s.completeCmd r si).Canon rest := by
  unfold State.completeCmd
  refine h.ite ?_
  split
  · exact h
  · split
    · next ha => exact h.completeRing (h.ends ha)
    · exact h

theorem State.Canon.bulkTimeout (h : s.Canon rest) : s.bulkTimeout.Canon rest := by
  refine h.ite ?_
  split; exacts [h.dropHead.ite h, h]

theorem State.Canon.pageLoadTimeout (h : s.Canon rest) : s.pageLoadTimeout.Canon rest := by
  unfold State.pageLoadTimeout
  split
  · exact h
  · split; exacts [(h.completeRing h.dropLoad.errWith).ite h, h]

theorem State.Canon.pushed {r code : Nat} (h : s.Canon rest) : (s.pushed r code).Canon rest := h.modRing

theorem State.Canon.pushBusy {r : Nat} (h : s.Canon rest) : (s.pushBusy r).Canon rest := h.modRing

theorem State.Canon.pushAccepted {r : Nat} (h : s.Canon rest) : (s.pushAccepted r).Canon rest := h.modRing

theorem State.Canon.queueCmd {r : Nat} {a : Accepted} (h : s.Canon rest) : (s.queueCmd r a).Canon rest := h.modRing

theorem State.Canon.pushClear {r : Nat} {bytes : List Byte} (h : s.Canon rest) : (s.pushClear r bytes).Canon rest :=
  h.ite (h.pushed.ite (h.pushBusy.ite h.pushAccepted.queueCmd))

theorem State.Canon.pushSealed {r : Nat} {bytes : List Byte} (h : s.Canon rest) : (s.pushSealed r bytes).Canon rest := by
  refine h.ite (h.pushed.ite (h.pushBusy.ite (h.pushed.ite ?_)))
  split
  · exact h.badEnvelope.pushed
  · exact h.badEnvelope.pushed.ite (h.goodEnvelope.pushed.ite h.goodEnvelope.pushAccepted.queueCmd)

theorem State.Canon.popCpl {r : Nat} (h : s.Canon rest) : (s.popCpl r).Canon rest := by
  refine h.ite ?_
  split <;> exact h.frame rfl

theorem State.Canon.bulkIn {bytes : List Byte} (h : s.Canon rest) : (s.bulkIn bytes).Canon rest := h.ite h.modMbx

theorem State.Canon.bulkRead {count : Nat} (h : s.Canon rest) : (s.bulkRead count).Canon rest := h.ite (h.frame rfl)

theorem State.Canon.writeRegister {addr value : Nat} (h : s.Canon rest) : (s.writeRegister addr value).Canon rest :=
  h.ite (h.modMbx.ite (h.modMbx.ite (h.modRing.ite (h.modMbx.ite h))))

theorem State.Canon.openEnvelopes {hd : CmdHdr} (h : s.Canon rest) : (s.openEnvelopes hd).Canon rest := by
  unfold State.openEnvelopes
  split; exacts [Canon.foldl h.goodEnvelope (fun h => h.goodEnvelope), h]

theorem State.Canon.found {hd : CmdHdr} (h : s.Canon rest) : (s.found hd).Canon rest := h.openEnvelopes.pushAccepted.served

theorem State.Canon.submit {hd : CmdHdr} {c : HostCmd} (h : s.Canon rest) : (s.submit hd c).Canon rest := by
  refine h.ite (h.pushBusy.ite ?_)
  exact Canon.ite (by split; exacts [h.badEnvelope.pushed, h])
    ((h.found.started h.found.answer).ite h.openEnvelopes.pushAccepted.queueCmd)

/-! ## Relayed -/

theorem State.Canon.relayPasses {p i n : Nat} {hd : JoryarHdr} (h : s.Canon rest) : (s.relayPasses p i n hd).1.Canon rest := by
  unfold State.relayPasses
  split
  · exact h.countRx
  · split
    · split; exacts [h.countRx.countPartner, h.countRx]
    · exact h.fromPartner

theorem State.Canon.takeNumbered {i : Nat} {hd : JoryarHdr} (h : s.Canon rest) (ht : s.takeNumbered i hd = some t) : t.Canon rest := by
  unfold State.takeNumbered at ht
  split at ht
  · cases ht
  · exact Option.some.inj ht ▸ h.countPartner.accepted

theorem State.Canon.relayFrameIn {p n : Nat} {src : Option Nat} {hd : JoryarHdr} {drop : State → Nat → Bool}
    {f : State → Nat → State} (h : s.Canon rest) (hf : ∀ {t i}, t.Canon rest → (f t i).Canon rest) :
    (s.relayFrameIn p n src hd drop f).Canon rest := by
  unfold State.relayFrameIn
  split
  · exact h.countRx.portFlag
  refine h.relayPasses.ite ?_
  split
  · exact h.relayPasses
  · next ht => exact hf (h.relayPasses.takeNumbered ht)

theorem State.Canon.queueRelayed {i tag : Nat} {bytes : List Byte} {session : Option TenantId} (h : s.Canon rest) :
    (s.queueRelayed i tag bytes session).Canon rest := h.ite h.modRing.queueCmd

theorem State.Canon.relayedCmd {i : Nat} {hd : JoryarHdr} {bs : List Byte} (h : s.Canon rest) : (s.relayedCmd i hd bs).Canon rest := by
  refine h.queueRelayed.ite ?_
  split; exacts [h.badEnvelope, h.badEnvelope.ite (h.goodEnvelope.ite h.goodEnvelope.queueRelayed)]

theorem State.Canon.joryarCmd {p : Nat} {hd : JoryarHdr} {bs : List Byte} (h : s.Canon rest) : (s.joryarCmd p hd bs).Canon rest :=
  h.ite (h.relayFrameIn (fun h => h.relayedCmd))

theorem State.Canon.joryarBulk {p : Nat} {hd : JoryarHdr} {bs : List Byte} (h : s.Canon rest) : (s.joryarBulk p hd bs).Canon rest :=
  h.ite (h.relayFrameIn (fun h => h.modRing))

theorem State.Canon.modRelayed {worker tag : Nat} {f : Relay → Relay} (h : s.Canon rest) : (s.modRelayed worker tag f).Canon rest :=
  h.modDomain

theorem State.Canon.joryarOutput {p : Nat} {hd : JoryarHdr} {bs : List Byte} (h : s.Canon rest) :
    (s.joryarOutput p hd bs).Canon rest := h.ite (h.relayFrameIn (fun h => h.modRelayed))

theorem State.Canon.endRelay {worker tag : Nat} {a : State → Answer} (h : s.Canon rest)
    (ha : ∀ {t}, t.Canon rest → (a t).Canon rest) : (s.endRelay worker tag a).Canon rest := by
  unfold State.endRelay
  split
  · split; exacts [(h.dropRelay.completeRing (ha h.dropRelay)).ite h, h.dropRelay]
  · exact h.dropRelay

theorem State.Canon.learn {r : Relay} {cpl : List Byte} {plain : Option (List Byte × List Byte)} (h : s.Canon rest) :
    (s.learn r cpl plain).Canon rest := by
  unfold State.learn
  extract_lets q
  cases q with
  | none => exact h
  | some q => exact h.ite (by split; exacts [h.modDomain, h])

theorem State.Canon.answerRelay {worker tag : Nat} (h : s.Canon rest) : (s.answerRelay worker tag).Canon rest := by
  unfold State.answerRelay
  split; exacts [h.endRelay (fun h => h.relayAnswer), h]

theorem State.Canon.joryarCpl {p : Nat} {hd : JoryarHdr} {bs : List Byte} {plain : Option (List Byte × List Byte)}
    (h : s.Canon rest) : (s.joryarCpl p hd bs plain).Canon rest := by
  refine h.ite ?_
  exact h.relayFrameIn (fun h => by split; exacts [h, h.ite h.learn.modRelayed.answerRelay])

theorem State.Canon.relayTimeout {worker tag : Nat} (h : s.Canon rest) : (s.relayTimeout worker tag).Canon rest := by
  unfold State.relayTimeout
  split; exacts [h, (h.endRelay (fun h => h.err)).ite h]

theorem State.Canon.joryarShed {p : Nat} {hd : JoryarHdr} (h : s.Canon rest) : (s.joryarShed p hd).Canon rest :=
  h.ite (h.countRx.portFlag.ite (h.fromPartner.countPartner.ite h.fromPartner))

theorem State.Canon.joryarTakeover {p src : Nat} {pr : Protection} {fp : BitVec 256} (h : s.Canon rest) :
    (s.joryarTakeover p src pr fp).Canon rest := by
  refine h.ite ?_
  exact Canon.ite (by split; exacts [h.countRx.portFlag, h.fromPartner])
    (Canon.modDomain (by split; exacts [h.countRx.portFlag, h.fromPartner])).modRelay.modTime.fabricEv

/-! ## Faults -/

theorem State.Canon.coreHang {core : Nat} (h : s.Canon rest) : (s.coreHang core).Canon rest :=
  h.ite (h.forEach (fun h => by split; exacts [h.stopTask.ite h, h])).cancelAhead.modCluster.faultEv.updateCapacity

theorem State.Canon.stackGone {k : Nat} (h : s.Canon rest) : (s.stackGone k).Canon rest := by
  unfold State.stackGone
  refine h.ite ?_
  extract_lets b s1 s2 s3 s4
  have h1 : s1.Canon rest := h.forEach fun h => (h.stopAll fun h => h).cancelAhead
  clear_value s1
  have h2 : s2.Canon rest := h1.frame rfl
  have h3 : s3.Canon rest := h2.loseTables.ite h2
  refine (h3.forEach fun h => ?_).forEach fun h => h.updateCapacity
  split
  · split
    · exact (h.completeRing h.dropLoad.carried).ite h
    · exact h
  · exact h

theorem State.Canon.dieStops {die : Nat} (h : s.Canon rest) : (s.dieStops die).Canon rest := by
  unfold State.dieStops
  exact (((h.forEach (fun h => h.modCluster)).forEach (fun h => h.modPort)).modFabric.forEach (fun h => h.updateCapacity)).groupChanged

theorem State.Canon.bridgeStops {die : Nat} (h : s.Canon rest) : (s.bridgeStops die).Canon rest :=
  h.forEach fun h => (h.stopAll (fun h => h)).cancelAhead

theorem State.Canon.dieGone {die : Nat} (h : s.Canon rest) : (s.dieGone die).Canon rest := by
  unfold State.dieGone
  refine h.ite ?_
  extract_lets s1 on unbind s2 s3
  have h1 : s1.Canon rest := h.bridgeStops
  have h3 : s3.Canon rest := h1.dieStops.modPower
  clear_value s1 s3
  exact ((h1.frame (by rfl)).freePages.dieStops.loseTables.faultEv).ite (h3.frame rfl)

theorem State.Canon.takeBack {x : Exec} (h : s.Canon rest) : (s.takeBack x).Canon rest := by
  unfold State.takeBack
  split; exacts [h.modPower, h.dropLoad, h.modBank.ite h, h]

theorem State.Canon.finishCut (h : s.Canon rest) : s.finishCut.Canon rest :=
  h.forEach fun h => by split; exacts [h.takeBack.completeRing h.takeBack.carried, h]

theorem State.Canon.haltFw {detail : Nat} (h : s.Canon rest) : (s.haltFw detail).Canon rest := h.finishCut.setFw.faultEv

theorem State.Canon.wdogExpires (h : s.Canon rest) : s.wdogExpires.Canon rest := h.ite (h.modMbx.setFw.haltFw.ite h.modMbx.setFw)

theorem State.Canon.wdogRestart {same : Bool} (h : s.Canon rest) : (s.wdogRestart same).Canon rest := by
  unfold State.wdogRestart
  refine h.ite (h.haltFw.ite ?_)
  extract_lets inj s1 s2
  have h2 : s2.Canon rest := h.modMbx.setFw.resumeEvents.faultEv
  clear_value s2
  exact h2.finishCut.frame rfl

theorem State.Canon.injectEnd {kind target : Nat} (h : s.Canon rest) : (s.injectEnd kind target).Canon rest :=
  h.ite ((h.frame (by rfl)).modSensor.ite (h.frame rfl))

/-! ## Jtag -/

theorem State.Canon.leaveTest (h : s.Canon rest) : s.leaveTest.Canon rest := h.restart.ite h

theorem State.Canon.selectTest {i : JtagInstr} {f : Jtag → Jtag} (h : s.Canon rest) : (s.selectTest i f).Canon rest :=
  h.ite ((h.frame (by rfl)).ite (h.leaveTest.frame rfl))

/-! ## Sdio -/

theorem State.Canon.cmd5 {s18r : Bool} (h : s.Canon rest) : (s.cmd5 s18r).Canon rest := h.ite (h.wake.frame rfl)

theorem State.Canon.cmd11 (h : s.Canon rest) : s.cmd11.Canon rest := (h.frame (by rfl)).ite h

theorem State.Canon.sdVddLoss (h : s.Canon rest) : s.sdVddLoss.Canon rest := h.frame rfl

end

end Sys2Proof.Machine
end

section
/-! PROOFS. Canonical memory and the queue (R462): the instructions, a step, and reset. -/

namespace Sys2Proof.Machine

section
variable {s : State} {rest : List Instr}

/-- The state that follows, where one does, is canonical. -/
def Leaves (rest : List Instr) (o : Host.Outcome State Fault Refusal) : Prop := ∀ t, o = .next t → t.Canon rest

theorem Leaves.next (h : s.Canon rest) : Leaves rest (.next s) := by
  rintro t ⟨⟩
  exact h

theorem Leaves.fault {f : Fault} : Leaves rest (.fault f) := by
  rintro t ⟨⟩

theorem Leaves.ite {p : Prop} [Decidable p] {o o' : Host.Outcome State Fault Refusal} (h : Leaves rest o) (h' : Leaves rest o') :
    Leaves rest (if p then o else o') := by
  split
  · exact h
  · exact h'

theorem State.Canon.exec (h : s.Canon rest) (i : Instr) : Leaves rest (exec i s) := by
  cases i with
  | devIdentify | devAttest | devSessionOpen | devSessionClose | devReset | tickSourceSet | tickPlanLoad | tickPlanArm | tickPlanDisarm
  | tickStatus | partnerAttach | partnerModify | partnerDetach | modelDeclare | modelMapPages | slabDress | slabPin | slabRelease
  | lightStatus | lineAssignSpare | lockAcquire | engineCalibrate | phaseMapLoad | bankAssign | bankPower | pageLoad | pageRelease
  | tenantCreate | tenantAssign | tenantStrip | keyRotate | keyImport | powerStateSet | powerLimitSet | monconvConfigure
  | monconvInject | loopWrite | loopFreeze | loopRelease | xtalkLoad | stateRead | stateList | eventRead | faultInject | selftestRun
  | fwLoadBegin | fwLoadBlock | fwLoadEnd | domainJoin | domainLeave | domainRelay | roleSet => exact .next h.elapse.submit
  | thermalLimitsSet => exact .ite .fault (.next h.elapse.submit)
  | cmdPortPush => exact .next h.elapse.pushClear
  | sealedPortPush => exact .next h.elapse.pushSealed
  | cplPortPop => exact .next h.elapse.popCpl
  | bulkInWrite => exact .next h.elapse.bulkIn
  | bulkOutRead => exact .next h.elapse.bulkRead
  | registerWrite => exact .next h.elapse.writeRegister
  | bulkTimeout => exact .next h.elapse.bulkTimeout
  | commandStart => exact .next h.elapse.startNext
  | sdioCmd5 => exact .next h.elapse.cmd5
  | sdioCmd11 => exact .next h.elapse.cmd11
  | sdVddLoss => exact .next h.elapse.sdVddLoss
  | powerUp => exact .next h.elapse.powerUp
  | startupSensorRecheck => exact .ite .fault (.next h.elapse.sensorStep)
  | refclkQualified => exact .next h.elapse.refclkStep
  | startupLighting => exact .next h.elapse.startLighting
  | bootRomStart => exact .next h.elapse.bootRom
  | inputPowerLoss => exact .next h.elapse.powerLoss
  | inputOutOfRange => exact .next h.elapse.inputRange
  | inputOvercurrent => exact .next h.elapse.overcurrent
  | resetAssert => exact .next h.elapse.assertReset
  | resetRelease => exact .next h.elapse.releaseReset
  | cartridgeInsert => exact .next h.elapse.insertCart
  | interlockOpen => exact .next h.elapse.openInterlock
  | returnLoss => exact .next h.elapse.returnLost
  | socketOvercurrent => exact .next h.elapse.socketCut
  | cartridgeProbe => exact .next h.elapse.probeCart
  | laneDark => exact .next h.elapse.laneDark
  | laneRelight => exact .next h.elapse.laneRelight
  | laneProbe => exact .next h.elapse
  | tickInEdge => exact .next h.elapse.tickInEdge
  | tickInEdgeLate => exact .next h.elapse.tickInLate
  | ppsInEdge => exact .next h.elapse.ppsEdge
  | ptpFrame => exact .next h.elapse.ptpFrame
  | ptpAnnounceTimeout => exact .next h.elapse.ptpSilent
  | esmcFrame => exact .next h.elapse.esmc
  | sourceChange => exact .next h.elapse.changeSource
  | tickBoundary => exact .next h.elapse.tickBoundary
  | tickRelaySend => exact .next h.elapse.sendRelay
  | relayFrame => exact .next h.elapse.relayFrame
  | relayMiss => exact .next h.elapse.relayMiss
  | relayAck => exact .next h.elapse.relayAcked
  | workerLost => exact .next h.elapse.workerLost
  | delayReqSend => exact .next h.elapse.sendDelayReq
  | delayReq => exact .next h.elapse.delayReq
  | delayResp => exact .next h.elapse.delayResp
  | housekeepingSlot => exact .next h.elapse.housekeeping
  | housekeepingEnd => exact .next h.elapse.housekeepingEnd
  | taskDispatch => exact .next h.elapse.dispatch
  | slotGrant => exact .next h.elapse.slotGrant
  | dataLate => exact .next h.elapse.dataLate
  | slabMvmComplete => exact .next h.elapse.slabComplete.engineNext
  | seamLocalised => exact .ite .fault (.next h.elapse.seamLocalised)
  | detourStart => exact .next h.elapse.detourStart
  | detourBatchComplete => exact .next h.elapse.batchComplete.waitedCal
  | opticalMvmComplete => exact .next h.elapse.opticalComplete
  | weightLoadComplete => exact .next h.elapse.weightComplete.waitedCal
  | vectorComplete => exact .next h.elapse.vectorDone
  | coreHaulComplete | clusterHaulComplete => exact .next h.elapse.haulDone
  | routerSendComplete => exact .next h.elapse.routerDone
  | egressComplete => exact .next h.elapse.egressDone
  | egressDeadline => exact .next h.elapse.egressDeadline
  | ingressLate => exact .next h.elapse.ingressLate
  | aheadIssue => exact .next h.elapse.aheadIssue
  | confirmedTransferStart => exact .next h.elapse.confirmedStart
  | epochVerdict | verdictLate => exact .next h.elapse.verdict
  | spoil => exact .next h.elapse.runSpoil
  | controlTick => exact .ite .fault (.next h.elapse.controlTick)
  | lockLoss => exact .next h.elapse.lockLoss
  | pilotCheck => exact .next h.elapse.pilotCheck
  | reacquired => exact .next h.elapse.sweepEnd
  | freezeTimeout => exact .next h.elapse.freezeTimeout
  | weightRefresh => exact .next h.elapse.refreshWeights
  | throttleStep => exact .next h.elapse.throttle
  | wakeRecheck => exact .ite .fault (.next (h.elapse.sensorStep.ite h.elapse))
  | ageTrimUpdate => exact .next h.elapse.ageTrim
  | ageRedress => exact .next h.elapse.ageRedress
  | dressStart => exact .next h.elapse.dressStart
  | dressDone => exact .next h.elapse.dressDone
  | detourEnd => exact .next h.elapse.detourEnd
  | bankPowerDone => exact .next h.elapse.bankDone
  | monconvPass => exact .next h.elapse.beginPass
  | monconvResult => exact .next h.elapse.deliverResult
  | monconvDataRead => exact .next h.elapse.readData
  | injectedConversion => exact .next h.elapse.injectedResult
  | refReady => exact .next h.elapse.refSettled
  | lineFail => exact .next h.elapse.failLine
  | takeover => exact .next h.elapse.takeOver
  | spareVerified => exact .next h.elapse.rampDone.verifySpare
  | spareIn => exact .next h.elapse.switchIn
  | uplaneRx => exact .ite .fault (.next h.elapse.uplane)
  | oneWayDelay => exact .next h.elapse.oneWayDelay
  | pauseFrameRx => exact .next h.elapse.pauseFrame
  | lacpFrame => exact .next h.elapse.lacpFrame
  | mkaFrame => exact .ite .fault (.next h.elapse.mkaFrame)
  | joryarData => exact .ite .fault (.next h.elapse.joryarData)
  | joryarAck => exact .next h.elapse.joryarAck
  | ackTimer => exact .next h.elapse.ackTimer
  | resendTimeout => exact .next h.elapse.resend
  | joryarCmd => exact .ite .fault (.next h.elapse.joryarCmd)
  | joryarBulk => exact .ite .fault (.next h.elapse.joryarBulk)
  | joryarOutput => exact .ite .fault (.next h.elapse.joryarOutput)
  | joryarCpl => exact .ite .fault (.next h.elapse.joryarCpl)
  | domainRelayTimeout => exact .next h.elapse.relayTimeout
  | joryarShed => exact .next h.elapse.joryarShed
  | joryarTakeover => exact .next h.elapse.joryarTakeover
  | portDown => exact .next h.elapse.portDown
  | portUp => exact .next h.elapse.portUp
  | phaseStart => exact .next h.elapse.phaseStart
  | retuneFail => exact .next h.elapse.retuneFail
  | routerReceive => exact .ite .fault (.next h.elapse.routerReceive)
  | rekeyChunk => exact .next h.elapse.rekeyChunk
  | stripStart => exact .next h.elapse.stripStart
  | stripDone => exact .next h.elapse.stripDone
  | coreHang => exact .next h.elapse.coreHang
  | hbmLost => exact .next h.elapse.stackGone
  | dieLost => exact .next h.elapse.dieGone
  | cartLost => exact .next h.elapse.cartLost
  | watchdogExpiry => exact .next h.elapse.wdogExpires
  | wdogRestart => exact .next h.elapse.wdogRestart
  | injectHoldEnd => exact .next h.elapse.injectEnd
  | clearFaults => exact .next (h.elapse.clearFaults.ite h.elapse)
  | capability | otFaultLimit | otWarnLimit | vinOvFaultLimit | vinUvFaultLimit | iinOcFaultLimit | statusByte | statusWord
  | statusInput | statusTemperature | statusCml | readVin | readIin | readTemperature1 | readTemperature2 | readTemperature3 | readPin
  | pmbusRevision | mfrId | mfrModel | mfrSerial => exact .next h.elapse.pmAnswer
  | pmbusWriteRejected => exact .next h.elapse.pmReject
  | extest | samplePreload | idcode | clamp | highz | bypass | jtagTestExit => exact .next h.elapse.selectTest
  | synceLock => exact .next h.elapse.synceLock
  | calRowStandby => exact .next h.elapse.calRowStandby
  | interlockClosed => exact .next h.elapse.closeInterlock
  | sakReplace => exact .ite .fault (.next h.elapse.sakReplace)
  | frameDropped => exact .next h.elapse.frameDropped
  | commandComplete => exact .next h.elapse.completeCmd
  | pageLoadTimeout => exact .next h.elapse.pageLoadTimeout
  | sdVddReturn => exact .next (h.frame rfl)
  | sdioCmd52 => exact .next ((h.frame (by rfl)).ite h.elapse)

/-- The command that a step takes is off the queue before it runs. -/
theorem step_leaves (h : s.MemOk) : Leaves s.pending.tail (step s) := by
  unfold step
  split
  · next hp => exact .next ⟨h, by rw [hp]; rfl⟩
  · next c more hp =>
    rw [hp]
    have hs : State.Canon more { s with pending := more } := ⟨h, rfl⟩
    exact hs.exec c

end

/-- Settles O59: every function that gives a state keeps memory canonical and the queue, from the state's operations up to the
instructions. -/
theorem stepKeepsMemoryAndQueue : Obligations.StepKeepsMemoryAndQueue := by
  intro s t h ht
  obtain ⟨hmem, hpending⟩ := step_leaves h t ht
  exact ⟨hmem, hpending⟩

/-- Settles O60: memory is the empty list at reset, and no command waits. -/
theorem resetMemoryIsCanonical : Obligations.ResetMemoryIsCanonical := ⟨rfl, rfl, rfl⟩

end Sys2Proof.Machine
end

section
/-! PROOFS. PAGE_LOAD into a page that is not FREE (R492, R529, R707): the page map does not change, so the fills made ahead stay. -/

namespace Sys2Proof.Machine

/-- A plan of one task, a CLUSTER_HAUL that reads page 0; and its fill made ahead for pass 100, done. -/
def pageHaulPlan : Plan := { header := 0, tasks := [BitVec.ofNat 512 (kClusterHaul <<< 16)], bufs := [] }
def pageFill : Ahead := { task := 0, pass := 100, done := true, clashes := [] }

/-- A running module in PS0, whose operator has a page of weights, a partner, and that plan with its fill in cluster 0. -/
def fillingModule : State :=
  { heldModule with
    clusters := [(0, { Cluster.init with active := some pageHaulPlan, ahead := [pageFill] })]
    pages := [(0, { Page.init with kind := 1 })]
    fabric := { Fabric.init with partners := [(0, BitVec.ofNat 512 psActive)] }
    power := { heldModule.power with pstate := .ps0 } }

/-- PAGE_LOAD of the first line of page 0 from partner 0, on the operator's session. -/
def pageLoadHeader : CmdHdr := { ring := .blk, id := 1, session := some 0, bulk := [] }
def pageLoadOperands : PageLoadParams := { page := 0, kind := 1, source := 2, pageOfs := 0, length := 64, partner := 0 }

/-- The state on which the command runs. -/
def pageLoadState : State := fillingModule.taken 0 pageLoadHeader

theorem ready_fillingModule : Ready fillingModule 0 pageLoadHeader (.pageLoad pageLoadOperands) := by
  unfold Ready
  decide +kernel

/-- The command waits for its 64 bytes, and leaves what it found. -/
theorem cmdPageLoad_waits : cmdPageLoad pageLoadHeader pageLoadOperands pageLoadState = Answer.wait pageLoadState 64 := rfl

theorem pageLoadState_ahead : (pageLoadState.cluster 0).ahead = [pageFill] := by decide +kernel

theorem exec_fillingModule : exec (.pageLoad 0 pageLoadHeader pageLoadOperands) fillingModule
    = .next (pageLoadState.staying pageLoadState pageLoadHeader (.pageLoad pageLoadOperands) 64) :=
  row_staying rfl rfl ready_fillingModule cmdPageLoad_waits

theorem cluster_staying (f u : State) (h : CmdHdr) (c : HostCmd) (left k : Nat) : (f.staying u h c left).cluster k = u.cluster k := rfl

/-- That state once a change of page 0 at the next boundary has met the fill. -/
def metPages : State :=
  pageLoadState.cancelPages (fun q => q == pageLoadOperands.page.toNat) (pageLoadState.boundaryAt pageLoadState.leadFrom)

theorem metPages_ahead : (metPages.cluster 0).ahead = [] := by decide +kernel

/-- Refutes O11: its third clause has PAGE_LOAD cancel the fills made ahead from its page whatever the page holds; into a page that is not
FREE the command changes no entry and cancels none. -/
theorem not_memoryCommands : ¬ Obligations.MemoryCommands := by
  intro hall
  obtain ⟨-, -, hload, -⟩ := hall fillingModule 0 pageLoadHeader pageLoadState rfl
  have hkind : pageLoadState.pageKind pageLoadOperands.page.toNat = 1 := by decide +kernel
  have hentry : ¬ pageLoadState.pageKind pageLoadOperands.page.toNat = 0 := by rw [hkind]; decide
  have hclaim := hload pageLoadOperands metPages ready_fillingModule (by decide) (fun h => absurd h (by decide)) (by decide) (.inl rfl)
    (by decide) (by decide) (by decide +kernel) (.inr hkind) (by decide +kernel) (by decide) (by rw [if_neg hentry]; rfl)
  rw [if_neg (by decide), if_neg (by decide)] at hclaim
  have hahead := congrArg (fun t => (t.cluster 0).ahead) (Host.Outcome.next.inj (exec_fillingModule.symm.trans hclaim))
  simp only [cluster_staying, pageLoadState_ahead, metPages_ahead] at hahead
  exact List.cons_ne_nil _ _ hahead

end Sys2Proof.Machine
end

section
/-! PROOFS. A haul row whose destination lies in a bank that is not ON (R478, R502, R503): the words of that bank keep what they hold. -/

namespace Sys2Proof.Machine

/-- A module in PS0 that holds 1 in the second word of cluster memory 0, while the bank of its first word is off. -/
def bankOffState : State :=
  { State.reset with
    power := { Power.init with pstate := .ps0 }
    banks := [(0, { Bank.init 0 with power := .off })]
    mem := [(cmKey 0 8, 1)] }

theorem bankOffState_source : bankOffState.byte (cmKey 0 8) = 1 := by decide

/-- The row's one byte does not arrive. -/
theorem copyBytes_bankOff : (bankOffState.copyBytes 0 0 (.at_ 0x100008) (.at_ 0x100000) 1).1.byte (cmKey 0 0) = 0 := by decide +kernel

/-- Refutes O38: it asks nothing of the banks, but a byte does not reach a word whose bank is off. -/
theorem not_rowsAreCopied : ¬ Obligations.RowsAreCopied := by
  intro hall
  obtain ⟨harrives, -⟩ := hall bankOffState 0 0 0x100008 0x100000 1 rfl (by decide) (by decide) (by decide) (by decide)
    (.inr (by decide))
  have hbyte : (0 : Byte) = 1 := copyBytes_bankOff.symm.trans ((harrives 0 (by decide)).trans bankOffState_source)
  exact absurd hbyte (by decide)

end Sys2Proof.Machine
end

section
/-! PROOFS. The partner commands, PHASE_MAP_LOAD, and the domain commands (R553, R566 to R568, R585, R586, R596, R599 to R603, R608, R708). -/

namespace Sys2Proof.Machine

section
variable (h : CmdHdr) {f : State}

/-! ## Partners (R585, R586, R596) -/

theorem cmdPartnerAttach_attaches {i : Nat} {x : Entry} (hx : x = bytesToBv 512 h.bulk) (hlen : h.bulk.length = 64)
    (hi : f.freeIndex = some i) (hcheck : f.entryCheck h i x true = none) :
    cmdPartnerAttach h f = Answer.okR (f.changePartner i 0 x) i := by
  simp only [cmdPartnerAttach, ← hx, hlen, hi, hcheck, ne_eq, not_true_eq_false, if_false]

/-- An index that a partner command may name: of an entry from 257 on that is not FREE. -/
theorem partner_nameable {i : Nat} (hi : 257 ≤ i) (hs : peState (f.partner i) ≠ psFree) :
    ¬ (i < Config.firstPartner ∨ peState (f.partner i) = psFree) := not_or.mpr ⟨Nat.not_lt.mpr hi, hs⟩

theorem cmdPartnerModify_modifies {p : PartnerModifyParams} {x : Entry} (hx : x = bytesToBv 512 h.bulk) (hlen : h.bulk.length = 64)
    (hi : 257 ≤ p.index.toNat) (hs : peState (f.partner p.index.toNat) ≠ psFree) (hk : peKind x = peKind (f.partner p.index.toNat))
    (ht : peTenant x = peTenant (f.partner p.index.toNat))
    (hcheck : f.entryCheck h p.index.toNat x (peState (f.partner p.index.toNat) == psActive || p.resume) = none) :
    cmdPartnerModify h p f
      = Answer.ok (f.changePartner p.index.toNat 1 (putField x 0 2 (if p.resume then psActive else psFree))) := by
  simp only [cmdPartnerModify, ← hx, hlen, if_neg (partner_nameable hi hs), hk, ht, hcheck, ne_eq, not_true_eq_false, if_false]

theorem cmdPartnerDetach_detaches {i : BitVec 17} (hi : 257 ≤ i.toNat) (hs : peState (f.partner i.toNat) ≠ psFree) :
    cmdPartnerDetach h i f = Answer.ok (f.changePartner i.toNat 2 0) := if_neg (partner_nameable hi hs)

/-! ## PHASE_MAP_LOAD (R566 to R568) -/

theorem cmdPhaseMapLoad_enters {n : BitVec 5} (h0 : 0 < n.toNat) (hmax : n.toNat ≤ 16) (hlen : h.bulk.length = 264 * n.toNat)
    (hfirst : ((phasesOf n.toNat h.bulk).head?.map (fun p => p.start)) = some 0) (hasc : phasesAscend (phasesOf n.toNat h.bulk) = true)
    (hok : ∀ p ∈ phasesOf n.toNat h.bulk, p.start < periodNs f.time.period ∧ p.bad = false) :
    cmdPhaseMapLoad h n f = Answer.ok ((f.modFabric (fun y => { y with
      mapChanges := y.mapChanges ++ [(f.leadFrom, phasesOf n.toNat h.bulk)] })).extendCfg h (.phaseMapLoad n)) := by
  have hlate : ¬ (phasesOf n.toNat h.bulk).any (fun p => decide (periodNs f.time.period ≤ p.start)) = true := by
    simpa using fun p hp => (hok p hp).1
  have hbad : ¬ (phasesOf n.toNat h.bulk).any Phase.bad = true := by
    simpa using fun p hp => (hok p hp).2
  have hshape : ¬ ((!phasesAscend (phasesOf n.toNat h.bulk)) = true
      ∨ (phasesOf n.toNat h.bulk).any (fun p => decide (periodNs f.time.period ≤ p.start)) = true) :=
    not_or.mpr ⟨by simp [hasc], hlate⟩
  simp only [cmdPhaseMapLoad, if_neg (Nat.not_lt.mpr hmax), if_neg (not_not.mpr hlen), if_neg (Nat.pos_iff_ne_zero.mp h0),
    if_neg (not_not.mpr hfirst), if_neg hshape, if_neg hbad]

/-! ## The domain (R599 to R603, R608, R708) -/

theorem cmdDomainJoin_joins (hn : leAt h.bulk 4 2 ≤ 256) (hlen : h.bulk.length = 160 + 64 * leAt h.bulk 4 2)
    (hok : ∀ r ∈ memberRecords (leAt h.bulk 4 2) (h.bulk.drop 160), 16 ≤ leAt r 2 2
      ∧ ((f.ca (leAt r 2 2 % 4096)).cak = none ∨ (f.ca (leAt r 2 2 % 4096)).tenant = 0)) :
    cmdDomainJoin h f = Answer.ok ((f.join h.bulk).extendCfg h .domainJoin) := by
  have hca : (indexed (memberRecords (leAt h.bulk 4 2) (h.bulk.drop 160))).find? (fun x => decide (leAt x.2 2 2 < 16)) = none :=
    List.find?_eq_none.mpr (fun x hx => by simpa using (hok x.2 (snd_mem_of_mem_indexed hx)).1)
  have howner : ¬ (memberRecords (leAt h.bulk 4 2) (h.bulk.drop 160)).any (fun r =>
      (f.ca (leAt r 2 2 % 4096)).cak.isSome && decide ((f.ca (leAt r 2 2 % 4096)).tenant ≠ 0)) = true := by
    rw [List.any_eq_true]
    rintro ⟨r, hr, hother⟩
    obtain ⟨-, hnone | hmine⟩ := hok r hr
    · simp [hnone] at hother
    · simp [hmine] at hother
  simp only [cmdDomainJoin, hca, if_neg howner, if_neg (Nat.not_lt.mpr hn), if_neg (not_not.mpr hlen),
    if_neg (show ¬ h.bulk.length < 160 by omega)]

theorem cmdDomainRelay_relays {w : Byte} {u : State} (hlen : relayedLen h.bulk ≤ h.bulk.length) (hm : f.mbx.manager = true)
    (hw : ∃ m ∈ f.fabric.domain.members, m.index = w.toNat) (hout : f.fabric.domain.outstanding w.toNat < 8)
    (hu : u = (blocks 8256 (h.bulk.drop (relayedLen h.bulk))).foldl
      (fun (g : State) x => g.sendTo (1 + w.toNat) jtBulk (h.id.toNat % 65536) x.1 x.2.1 x.2.2)
      (f.sendTo (1 + w.toNat) jtCmd (h.id.toNat % 65536) 0 false (h.bulk.take (relayedLen h.bulk)))) :
    cmdDomainRelay h w f = Answer.wait (u.takeFree.modDomain (fun d => { d with relays := d.relays ++
      [{ worker := w.toNat, tag := h.id.toNat % 65536, hdr := some h, cmd := h.bulk, data := [], cpl := none, since := u.now,
         limit := relayLimit h.bulk u.freeNat }] })) 0 := by
  have hmember : ¬ ((!f.mbx.manager) = true ∨ (!(f.fabric.domain.members.any (fun m => decide (m.index = w.toNat)))) = true) := by
    simpa [hm] using hw
  simp only [cmdDomainRelay, ← hu, if_neg (Nat.not_lt.mpr hlen), if_neg hmember, if_neg (Nat.not_le.mpr hout)]

theorem cmdRoleSet_sets {m : Bool} (hs : m = true → ∀ x ∈ f.time.sources, x.kind ≠ .relay)
    (hp : m = true → f.mbx.manager = false → f.managerPageTaken = false) :
    cmdRoleSet h m f = Answer.ok ((if m = true ∧ f.mbx.manager = false ∧ f.fabric.domain.joined = true then
        forEach f.fabric.domain.members
          ((f.modMbx (fun x => { x with manager := m })).modDomain (fun d => { d with managerIndex := d.index }))
          (fun g y => g.sendTo (1 + y.index) jtTakeover 0 0 false [])
      else f.modMbx (fun x => { x with manager := m })).extendCfg h (.roleSet m)) := by
  have hrelay : ¬ (m = true ∧ f.time.sources.any (fun x => x.kind == .relay) = true) := by
    rintro ⟨hm, hany⟩
    obtain ⟨x, hx, hkind⟩ := List.any_eq_true.mp hany
    exact hs hm x hx (eq_of_beq hkind)
  have hpages : ¬ (m = true ∧ f.mbx.manager = false ∧ f.managerPageTaken = true) := by
    rintro ⟨hm, hnone, htaken⟩
    exact Bool.false_ne_true ((hp hm hnone).symm.trans htaken)
  simp only [cmdRoleSet, if_neg hrelay, Bool.and_eq_true, Bool.not_eq_true', and_assoc, if_neg hpages]
  rfl

end

/-- Settles O8: each command passes its checks and enters its change. -/
theorem partnerCommands : Obligations.PartnerCommands := by
  intro s dt h f x hf hx
  refine ⟨?attach, ?modify, ?detach, ?map⟩
  case attach => exact fun i hr hlen hi hcheck => row_ended rfl hf hr (cmdPartnerAttach_attaches h hx hlen hi hcheck)
  case modify =>
    exact fun p hr hlen hi hs hk ht hcheck => row_ok rfl hf hr (cmdPartnerModify_modifies h hx hlen hi hs hk ht hcheck)
  case detach => exact fun i hr hi hs => row_ok rfl hf hr (cmdPartnerDetach_detaches h hi hs)
  case map =>
    exact fun n hr h0 hmax hlen hfirst hasc hok => row_ok rfl hf hr (cmdPhaseMapLoad_enters h h0 hmax hlen hfirst hasc hok)

/-- Settles O17: each command passes its checks; DOMAIN_RELAY stays in execution. -/
theorem domainCommands : Obligations.DomainCommands := by
  intro s dt h f hf
  refine ⟨?join, ?leave, ?relay, ?role⟩
  case join => exact fun hr hn hlen hok => row_ok rfl hf hr (cmdDomainJoin_joins h hn hlen hok)
  case leave => exact fun hr => row_ok rfl hf hr rfl
  case relay =>
    rintro w tag u hr hlen hm hw hout rfl hu
    exact row_staying rfl hf hr (cmdDomainRelay_relays h hlen hm hw hout hu)
  case role => exact fun m hr hs hp => row_ok rfl hf hr (cmdRoleSet_sets h hs hp)

end Sys2Proof.Machine
end

section
/-! PROOFS. Fabric delivery into a cluster's memory (R39, R470, R478, R481, R523): what it reads of a state, and what it leaves of the
fabric's books. -/

namespace Sys2Proof.Machine

/-- `t` has what fabric delivery reads and writes as `s` has it: memory, the banks and the power state they follow, the groups lost, the
reserved tops of the clusters. -/
structure SameLanding (s t : State) : Prop where
  mem : t.mem = s.mem
  banks : t.banks = s.banks
  pstate : t.power.pstate = s.power.pstate
  groupLost : t.fabric.groupLost = s.fabric.groupLost
  top : ∀ c, (t.cluster c).top = (s.cluster c).top

theorem SameLanding.refl (s : State) : SameLanding s s := ⟨rfl, rfl, rfl, rfl, fun _ => rfl⟩

theorem SameLanding.symm {s t : State} (h : SameLanding s t) : SameLanding t s :=
  ⟨h.mem.symm, h.banks.symm, h.pstate.symm, h.groupLost.symm, fun c => (h.top c).symm⟩

theorem SameLanding.trans {s t u : State} (h : SameLanding s t) (g : SameLanding t u) : SameLanding s u :=
  ⟨g.mem.trans h.mem, g.banks.trans h.banks, g.pstate.trans h.pstate, g.groupLost.trans h.groupLost, fun c => (g.top c).trans (h.top c)⟩

/-- Two states that each differ from one of a pair in nothing that delivery sees are such a pair. -/
theorem SameLanding.square {s t u v : State} (h : SameLanding s t) (hu : SameLanding s u) (hv : SameLanding t v) : SameLanding u v :=
  hu.symm.trans (h.trans hv)

theorem Sending.sameLanding {n : Nat} {s t : State} (h : Sending n s t) : SameLanding s t where
  mem := h.only.mem
  banks := by rw [h.only]
  pstate := by rw [h.only]
  groupLost := by rw [h.fabric]
  top c := by rw [State.cluster_congr h.only.clusters]

theorem EventsOnly.sameLanding {s t : State} (h : EventsOnly s t) : SameLanding s t where
  mem := by rw [h.1]
  banks := by rw [h.1]
  pstate := by rw [h.1]
  groupLost := by rw [h.1]
  top c := by rw [State.cluster_congr (t := t) (s := s) (by rw [h.1])]

theorem SameLanding.modCluster (s : State) (c : Nat) {f : Cluster → Cluster} (hf : ∀ x, (f x).top = x.top) :
    SameLanding s (s.modCluster c f) := by
  refine ⟨rfl, rfl, rfl, rfl, fun d => ?_⟩
  by_cases h : d = c
  · rw [h, State.cluster_modCluster_same, hf]
  · rw [State.cluster_modCluster_other _ _ h]

/-! ## Banks and words (R470, R472, R478) -/

section
variable {s t : State} (h : SameLanding s t)
include h

theorem SameLanding.bankNow (k : Nat) : t.bankNow k = s.bankNow k := by
  have hbank : t.bank k = s.bank k := by rw [State.bank, h.banks, State.bank]
  rw [State.bankNow, hbank, h.pstate, State.bankNow]

theorem SameLanding.banksUp (c core addr n : Nat) : t.banksUp c core addr n = s.banksUp c core addr n := by
  simp only [State.banksUp, State.bankUp, h.bankNow]

theorem SameLanding.barred (c : Nat) (a : Actor) (addr n : Nat) : t.barred c a addr n = s.barred c a addr n := by
  simp only [State.barred, State.wordFault, h.bankNow, h.top]

theorem SameLanding.bridged (a b : Nat) : t.bridged a b = s.bridged a b := by
  simp only [State.bridged, h.groupLost]

end

/-! ## Writing -/

theorem storeTagged_eq (s : State) (k : Nat) (bs : List Byte) (g : Option Tag) :
    ∃ tags, s.storeTagged k bs g = { s with mem := memStore s.mem k bs, tags := tags } := by
  unfold State.storeTagged State.setTags
  split
  · exact ⟨_, rfl⟩
  · split <;> exact ⟨_, rfl⟩

/-- A write changes memory and its tags alone. -/
theorem writeAt_only (s : State) (c core addr : Nat) (bs : List Byte) (g : Option Tag) :
    s.writeAt c core addr bs g = { s with mem := (s.writeAt c core addr bs g).mem, tags := (s.writeAt c core addr bs g).tags } := by
  have hstore : ∀ (u : State) k (l : List Byte), u.storeTagged k l g
      = { u with mem := (u.storeTagged k l g).mem, tags := (u.storeTagged k l g).tags } := fun u k l => by
    obtain ⟨tags, htags⟩ := storeTagged_eq u k l g
    rw [htags]
  unfold State.writeAt
  split
  · rfl
  · split
    · exact hstore ..
    · refine forEach_rel (R := fun s t => t = { s with mem := t.mem, tags := t.tags }) (fun _ => rfl)
        (fun h g => by rw [g]; conv_lhs => rw [h]) (fun u i => ?_) _ s
      split
      · exact hstore ..
      · rfl

theorem writeAt_fabric (s : State) (c core addr : Nat) (bs : List Byte) (g : Option Tag) :
    (s.writeAt c core addr bs g).fabric = s.fabric := by rw [writeAt_only]

/-- Steps that keep two states alike keep them alike in a run. -/
theorem SameLanding.forEach {α : Type} {f : State → α → State} (hf : ∀ s t a, SameLanding s t → SameLanding (f s a) (f t a)) (l : List α)
    {s t : State} (h : SameLanding s t) : SameLanding (forEach l s f) (forEach l t f) := by
  induction l generalizing s t with
  | nil => exact h
  | cons a l ih => exact ih (hf s t a h)

section
variable {s t : State} (h : SameLanding s t)
include h

theorem SameLanding.storeTagged (k : Nat) (bs : List Byte) (g : Option Tag) :
    SameLanding (s.storeTagged k bs g) (t.storeTagged k bs g) := by
  obtain ⟨gs, hs⟩ := storeTagged_eq s k bs g
  obtain ⟨gt, ht⟩ := storeTagged_eq t k bs g
  rw [hs, ht]
  exact ⟨congrArg (memStore · k bs) h.mem, h.banks, h.pstate, h.groupLost, h.top⟩

theorem SameLanding.writeAt (c core addr : Nat) (bs : List Byte) (g : Option Tag) :
    SameLanding (s.writeAt c core addr bs g) (t.writeAt c core addr bs g) := by
  unfold State.writeAt
  split
  · exact h
  · rw [h.banksUp]
    split
    · exact h.storeTagged ..
    · refine SameLanding.forEach (fun u v i hu => ?_) _ h
      rw [hu.banksUp]
      split
      · exact hu.storeTagged ..
      · exact hu

end

/-! ## Slots that count what lands (R574) -/

theorem Cluster.releaseSlot_top (x : Cluster) (k : Nat) : (x.releaseSlot k).top = x.top := by
  unfold Cluster.releaseSlot
  split
  · dsimp only
    split <;> rfl
  · rfl

theorem Cluster.countLanded_top (x : Cluster) (b : BitVec 128) (key copy n : Nat) : (x.countLanded b key copy n).top = x.top := by
  unfold Cluster.countLanded
  dsimp only
  split
  · unfold Cluster.fillSlots
    exact foldl_keeps Cluster.top _ (by intro x k; exact Cluster.releaseSlot_top _ k) _ _
  · rfl

/-- What lands leaves the reserved top where it is. -/
theorem Cluster.land_top (x : Cluster) (addr n : Nat) : (x.land addr n).top = x.top := by
  unfold Cluster.land
  split
  · rfl
  · refine foldl_keeps Cluster.top _ (fun x b => foldl_keeps Cluster.top _ (fun x k => ?_) _ x) _ x
    dsimp only
    split
    · rfl
    · exact Cluster.countLanded_top ..

theorem SameLanding.landBytes {s t : State} (h : SameLanding s t) (c addr : Nat) (bs : List Byte) :
    SameLanding (s.landBytes c addr bs) (t.landBytes c addr bs) :=
  (h.writeAt c 0xFF addr bs none).square (.modCluster _ c (fun x => Cluster.land_top x ..)) (.modCluster _ c (fun x => Cluster.land_top x ..))

theorem landBytes_fabric (s : State) (c addr : Nat) (bs : List Byte) : (s.landBytes c addr bs).fabric = s.fabric := by
  rw [State.landBytes, State.modCluster_fabric, writeAt_fabric]

/-! ## Held lines (R301) -/

/-- `t` is `s` but for the engines' flags and the event log. -/
structure HoldsBroken (s t : State) : Prop where
  same : SameLanding s t
  fabric : t.fabric = s.fabric

theorem HoldsBroken.refl (s : State) : HoldsBroken s s := ⟨.refl s, rfl⟩
theorem HoldsBroken.trans {s t u : State} (h : HoldsBroken s t) (g : HoldsBroken t u) : HoldsBroken s u :=
  ⟨h.same.trans g.same, g.fabric.trans h.fabric⟩

theorem breakHolds_broken (s : State) (key n : Nat) : HoldsBroken s (s.breakHolds key n) := by
  unfold State.breakHolds
  dsimp only
  split
  · exact .refl s
  · refine forEach_rel HoldsBroken.refl HoldsBroken.trans (fun u l => ?_) _ s
    exact ⟨(raise_eventsOnly ..).sameLanding.trans ⟨rfl, rfl, rfl, rfl, fun _ => rfl⟩, raise_fabric ..⟩

/-! ## Frames that land -/

/-- Delivery of bytes does the same to memory in states that are alike for it, and has the same outcome. -/
theorem SameLanding.landFrame {s t : State} (h : SameLanding s t) (p c addr : Nat) (bs : List Byte) :
    SameLanding (s.landFrame p c addr bs).1 (t.landFrame p c addr bs).1 ∧ (t.landFrame p c addr bs).2 = (s.landFrame p c addr bs).2 := by
  unfold State.landFrame
  rw [h.bridged, h.barred]
  split
  · exact ⟨h, rfl⟩
  · split
    · exact ⟨h, rfl⟩
    · split
      · exact ⟨⟨h.mem, h.banks, h.pstate, h.groupLost, h.top⟩, rfl⟩
      · exact ⟨(h.square (breakHolds_broken s ..).same (breakHolds_broken t ..).same).landBytes .., rfl⟩

/-- Delivery leaves of the fabric all but the flags of its ports. -/
theorem landFrame_fabric (s : State) (p c addr : Nat) (bs : List Byte) :
    (s.landFrame p c addr bs).1.fabric = { s.fabric with ports := (s.landFrame p c addr bs).1.fabric.ports } := by
  unfold State.landFrame
  split
  · rfl
  · split
    · rfl
    · split
      · rfl
      · rw [landBytes_fabric, (breakHolds_broken s ..).fabric]

theorem landFrame_dyn (s : State) (p c addr : Nat) (bs : List Byte) (i : Nat) : (s.landFrame p c addr bs).1.dyn i = s.dyn i := by
  rw [State.dyn, landFrame_fabric, State.dyn]

/-- Elements land alike in states that are alike for delivery. -/
theorem SameLanding.deliverElems {s t : State} (h : SameLanding s t) (p : Nat) (x : Entry) (base e : Nat) (vs : List Int) :
    SameLanding (s.deliverElems p x base e vs).1 (t.deliverElems p x base e vs).1
      ∧ (t.deliverElems p x base e vs).2 = (s.deliverElems p x base e vs).2 := by
  unfold State.deliverElems
  dsimp only
  generalize List.map _ _ = l
  generalize true = b
  induction l generalizing s t b with
  | nil => exact ⟨h, rfl⟩
  | cons q l ih =>
    rw [List.foldl_cons, List.foldl_cons]
    dsimp only
    obtain ⟨hland, hok⟩ := h.landFrame p (peCluster x) (base + 4128 * q.1 + 32 + 2 * q.2.1) (q.2.2.flatMap (fun v => toLe 2 (unsigned 16 v)))
    rw [hok]
    exact ih hland _

theorem deliverElems_dyn (s : State) (p : Nat) (x : Entry) (base e : Nat) (vs : List Int) (i : Nat) :
    (s.deliverElems p x base e vs).1.dyn i = s.dyn i := by
  unfold State.deliverElems
  exact foldl_keeps (fun a : State × Bool => a.1.dyn i) _ (by intro a q; exact landFrame_dyn ..) _ (s, true)

end Sys2Proof.Machine
end

section
/-! PROOFS. A partner's frame is received and counted (R548, R549, R590, R594), and a U-plane section lands in its slot (R552, R555, R556,
R558). -/

namespace Sys2Proof.Machine

/-! ## What a partner's record counts (R590) -/

/-- A count of PARTNER_COUNTERS. -/
def State.partnerCount (s : State) (i k : Nat) : BitVec 32 := tabGet 0 (s.dyn i).counters k

theorem partnerCount_congr {s t : State} {i : Nat} (h : t.dyn i = s.dyn i) (k : Nat) : t.partnerCount i k = s.partnerCount i k := by
  rw [State.partnerCount, h, State.partnerCount]

theorem partnerCount_countPartner_same (s : State) (i k n : Nat) :
    (s.countPartner i k n).partnerCount i k = s.partnerCount i k + BitVec.ofNat 32 n := by
  rw [State.partnerCount, State.countPartner, State.dyn_modDyn_same, tabGet_tabSet_same, State.partnerCount]

theorem partnerCount_countPartner_other (s : State) (i n : Nat) {k j : Nat} (h : j ≠ k) :
    (s.countPartner i k n).partnerCount i j = s.partnerCount i j := by
  rw [State.partnerCount, State.countPartner, State.dyn_modDyn_same, tabGet_tabSet_other 0 0 _ _ h, State.partnerCount]

theorem partnerCount_modDyn (s : State) (i k : Nat) {f : PartnerDyn → PartnerDyn} (h : ∀ d, (f d).counters = d.counters) :
    (s.modDyn i f).partnerCount i k = s.partnerCount i k := by
  rw [State.partnerCount, State.dyn_modDyn_same, h, State.partnerCount]

/-- Counting leaves the rest of a partner's record. -/
theorem dyn_countPartner (s : State) (i k n : Nat) :
    (s.countPartner i k n).dyn i = { s.dyn i with counters := ((s.countPartner i k n).dyn i).counters } := by
  rw [State.countPartner, State.dyn_modDyn_same]

/-! ## Frames of a partner (R548, R549, R594) -/

/-- A frame of `n` bytes of partner `i` passes its check: it is counted on its port, and its CA's replay window moved. -/
def State.admitted (s : State) (p i n : Nat) (pr : Protection) : State :=
  (s.countRx p n).modCa (peCa (s.partner i)) (fun c => { c with rxPn := max c.rxPn (pr.pn.toNat + 1) })

section
variable (s : State) (p i n : Nat) (pr : Protection)

theorem received_eq : s.received p i n pr = (s.admitted p i n pr).countPartner i pcRx 1 := rfl

theorem admitted_sending : Sending 0 s (s.admitted p i n pr) := (Sending.countRx s p n).trans (.received _ _ _)

theorem received_sending : Sending 0 s (s.received p i n pr) := (admitted_sending s p i n pr).trans (.countPartner _ i pcRx 1)

theorem admitted_dyn (j : Nat) : (s.admitted p i n pr).dyn j = s.dyn j := by
  have hf : (s.admitted p i n pr).fabric.dyn = s.fabric.dyn := by rw [State.admitted, State.modCa_fabric]; rfl
  rw [State.dyn, hf, State.dyn]

/-- A frame received is counted in RX. -/
theorem partnerCount_received : (s.received p i n pr).partnerCount i pcRx = s.partnerCount i pcRx + 1 := by
  rw [received_eq, partnerCount_countPartner_same, partnerCount_congr (admitted_dyn ..)]
  rfl

theorem partnerCount_shed : ((s.admitted p i n pr).countPartner i pcShedDrop 1).partnerCount i pcShedDrop = s.partnerCount i pcShedDrop + 1 := by
  rw [partnerCount_countPartner_same, partnerCount_congr (admitted_dyn ..)]
  rfl

theorem shed_sending : Sending 0 s ((s.admitted p i n pr).countPartner i pcShedDrop 1) :=
  (admitted_sending s p i n pr).trans (.countPartner _ i pcShedDrop 1)

theorem received_dyn : (s.received p i n pr).dyn i = { s.dyn i with counters := ((s.received p i n pr).dyn i).counters } := by
  rw [received_eq, dyn_countPartner, admitted_dyn]

end

/-- A frame of a partner that is SHED is admitted, counted in SHED_DROP, and goes no further. -/
theorem fromPartner_shed {s : State} {p i : Nat} (n : Nat) {pr : Protection} (hf : s.rxFault (peCa (s.partner i)) pr = none)
    (hs : peState (s.partner i) = psShed) :
    s.fromPartner p i n pr = ((s.admitted p i n pr).countPartner i pcShedDrop 1, false) := by
  have hpass : (s.countRx p n).rxFault (peCa (s.partner i)) pr = none := (rxFault_congr (countRx_trust ..) _ _).trans hf
  unfold State.fromPartner
  dsimp only
  rw [checked_passes hpass, if_neg (show ¬ (!true) = true by decide), if_pos hs]
  rfl

/-- A flag that is set on a port shows. -/
theorem portFlag_has (s : State) (p : Nat) {k : Nat} (hk : k < 64) : ((s.portFlag p k).port p).status.has k = true := by
  rw [State.portFlag, State.port_modPort_same]
  exact W1c.has_hit_same _ hk

/-! ## UPLANE_RX (R552, R555, R556) -/

theorem exec_uplaneRx {s : State} {dt : Nat} {p : PortId} {x : Section} {b : Prb} (hx : x.prbs = [b]) (hb : b.iq.length = 24) :
    exec (.uplaneRx dt p x) s = .next ((s.elapse dt).uplane p x) := by
  refine if_neg ?_
  simp [hx, hb]

/-- A message of one PRB is no longer than a port takes. -/
theorem frameSize_onePrb : ¬ frameMax < frameSize 28 := by
  have hm := Nat.mod_lt (Config.frameOverhead 28) (show 0 < 37 by decide)
  rw [frameSize, frameMax]
  omega

section
variable {s : State} {p i : Nat} {x : Section} {e : Entry} {b : Prb} (hrx : s.rxOn p = true) (hx : x.prbs = [b])
include hrx hx

theorem uplane_unknown (hi : s.uplanePartner x = none) : s.uplane p x = (s.countRx p 28).portFlag p prUnknown := by
  simp only [State.uplane, hrx, hx, hi, List.length_singleton, Nat.mul_one, if_neg frameSize_onePrb, Bool.not_true, Bool.false_eq_true,
    if_false]

theorem uplane_shed (hi : s.uplanePartner x = some (i, e)) (he : s.partner i = e) (hf : s.rxFault (peCa e) x.prot = none)
    (hs : peState e = psShed) : s.uplane p x = (s.admitted p i 28 x.prot).countPartner i pcShedDrop 1 := by
  subst he
  have hok := fromPartner_shed (p := p) 28 hf hs
  simp only [State.uplane, hrx, hx, hi, hok, List.length_singleton, Nat.mul_one, if_neg frameSize_onePrb, Bool.not_true, Bool.not_false,
    Bool.false_eq_true, if_false, if_true]

end

/-! ## Landings (R555, R558) -/

section
variable {s t : State} (h : t.time = s.time)
include h

theorem frameNow_congr : t.frameNow = s.frameNow := by rw [State.frameNow, State.timeNat, h, State.frameNow, State.timeNat]
theorem tickNow_congr : t.tickNow = s.tickNow := by rw [State.tickNow, State.timeNat, h, State.tickNow, State.timeNat]
theorem nextTick_congr : t.nextTick = s.nextTick := by simp only [State.nextTick, frameNow_congr h, tickNow_congr h, h]

end

/-- A partner without landings has none with a PRB. -/
theorem PartnerDyn.landing_of_nil {d : PartnerDyn} (h : d.landings = []) (frame tick symbol : Nat) :
    d.landing frame tick symbol = { frame := frame, tick := tick, symbol := symbol, prbs := [], done := false } := by
  rw [PartnerDyn.landing, h]
  rfl

section
variable {s : State} {p i : Nat} {e : Entry} {stream frame tick symbol prb : Nat} {b : Prb}

/-- A PRB's exponent beyond 7 is counted. -/
def State.clampCounted (s : State) (i : Nat) (b : Prb) : State := if 7 < b.exponent.toNat then s.countPartner i pcExpClamp 1 else s

theorem clampCounted_sending (s : State) (i : Nat) (b : Prb) : Sending 0 s (s.clampCounted i b) := by
  unfold State.clampCounted
  split
  · exact .countPartner ..
  · exact .refl s

theorem partnerCount_clampCounted (s : State) (i : Nat) (b : Prb) : (s.clampCounted i b).partnerCount i pcRx = s.partnerCount i pcRx := by
  unfold State.clampCounted
  split
  · exact partnerCount_countPartner_other s i 1 (by decide)
  · rfl

theorem landings_clampCounted (s : State) (i : Nat) (b : Prb) : ((s.clampCounted i b).dyn i).landings = (s.dyn i).landings := by
  unfold State.clampCounted
  split
  · rw [dyn_countPartner]
  · rfl

/-- A PRB of the partner's is delivered to its place, and joins the symbol's landing where it was not dropped. -/
theorem landPrb_delivers (h1 : pePrbFirst e ≤ prb) (h2 : prb < pePrbFirst e + pePrbCount e) {r : State × Bool}
    (hr : r = (s.clampCounted i b).deliverElems p e (slotBase e symbol) (24 * (stream * pePrbCount e + (prb - pePrbFirst e))) (prbElems b)) :
    s.landPrb p i e stream frame tick symbol prb b = if r.2 then r.1.modDyn i (fun d =>
      d.setLanding { d.landing frame tick symbol with
        prbs := if (d.landing frame tick symbol).prbs.contains (stream * 273 + (prb - pePrbFirst e)) then (d.landing frame tick symbol).prbs
          else (d.landing frame tick symbol).prbs ++ [stream * 273 + (prb - pePrbFirst e)] }) else r.1 := by
  have hin : ¬ (prb < pePrbFirst e ∨ pePrbFirst e + pePrbCount e ≤ prb) := by omega
  unfold State.clampCounted at hr
  simp only [State.landPrb, if_neg hin, ← hr]
  cases r.2 <;> rfl

/-- The first PRB of a partner's slot: memory holds what delivery of it leaves, its frame stays counted, and its landing is not complete. -/
theorem landPrb_first (h1 : pePrbFirst e ≤ prb) (h2 : prb < pePrbFirst e + pePrbCount e) (hn : (s.dyn i).landings = []) {t : State}
    (ht : t = s.landPrb p i e stream frame tick symbol prb b) :
    t.mem = (s.deliverElems p e (slotBase e symbol) (24 * (stream * pePrbCount e + (prb - pePrbFirst e))) (prbElems b)).1.mem
    ∧ t.partnerCount i pcRx = s.partnerCount i pcRx ∧ ((t.dyn i).landing frame tick symbol).prbs.length ≤ 1 := by
  rw [landPrb_delivers h1 h2 rfl] at ht
  have hmem := ((clampCounted_sending s i b).sameLanding.deliverElems p e (slotBase e symbol)
    (24 * (stream * pePrbCount e + (prb - pePrbFirst e))) (prbElems b)).1.mem
  have hdyn := deliverElems_dyn (s.clampCounted i b) p e (slotBase e symbol) (24 * (stream * pePrbCount e + (prb - pePrbFirst e)))
    (prbElems b) i
  have hcount := (partnerCount_congr hdyn pcRx).trans (partnerCount_clampCounted s i b)
  have hnone := (congrArg PartnerDyn.landings hdyn).trans ((landings_clampCounted s i b).trans hn)
  generalize (s.clampCounted i b).deliverElems p e _ _ _ = r at ht hmem hcount hnone
  cases hr : r.2 with
  | false =>
    rw [hr] at ht
    subst ht
    refine ⟨hmem, hcount, ?_⟩
    rw [if_neg Bool.false_ne_true, PartnerDyn.landing_of_nil hnone]
    exact Nat.zero_le 1
  | true =>
    rw [hr, if_pos rfl] at ht
    subst ht
    refine ⟨hmem, (partnerCount_modDyn _ i pcRx (by intro; rfl)).trans hcount, ?_⟩
    rw [State.dyn_modDyn_same, PartnerDyn.landing_of_nil hnone]
    exact (congrArg (fun l : Landing => l.prbs.length) (PartnerDyn.landing_setLanding (r.1.dyn i)
      { frame := frame, tick := tick, symbol := symbol, prbs := [stream * 273 + (prb - pePrbFirst e)], done := false })).le

end

section
variable {s : State} {p i : Nat} {x : Section} {e : Entry} {b : Prb}

/-- A section of an ACTIVE partner for the tick in progress, counted. -/
def State.sectionTaken (s : State) (p i : Nat) (pr : Protection) : State :=
  (s.received p i 28 pr).modDyn i (fun d => { d with
    landings := d.landings.filter (fun (l : Landing) => (l.frame, l.tick) == (s.frameNow, s.tickNow) || (l.frame, l.tick) == s.nextTick) })

theorem sectionTaken_sending (s : State) (p i : Nat) (pr : Protection) : Sending 0 s (s.sectionTaken p i pr) :=
  (received_sending ..).trans (.modDyn ..)

theorem sectionTaken_landings (pr : Protection) (h : (s.dyn i).landings = []) : ((s.sectionTaken p i pr).dyn i).landings = [] := by
  rw [State.sectionTaken, State.dyn_modDyn_same, received_dyn, h]
  rfl

theorem partnerCount_sectionTaken (s : State) (p i : Nat) (pr : Protection) :
    (s.sectionTaken p i pr).partnerCount i pcRx = s.partnerCount i pcRx + 1 := by
  rw [State.sectionTaken, partnerCount_modDyn _ i pcRx (by intro; rfl), partnerCount_received]

/-- The one PRB of a section for the tick in progress lands; a symbol of more PRBs is not complete with it. -/
theorem uplane_current {mu cur : Nat} (hrx : s.rxOn p = true) (hx : x.prbs = [b]) (hi : s.uplanePartner x = some (i, e))
    (he : s.partner i = e) (hf : s.rxFault (peCa e) x.prot = none) (ha : peState e = psActive) (hmu : mu = 4 - s.time.period)
    (hok : ¬ (s.time.period = 0 ∨ 10 ≤ x.subframe.toNat ∨ 2 ^ mu ≤ x.slot.toNat ∨ 14 ≤ x.symbol.toNat ∨ unsupported x e = true))
    (hcur : cur = s.frameNow % 256 * ticksPerFrame s.time.period + s.tickNow)
    (hat : x.frameId.toNat * ticksPerFrame s.time.period + (x.subframe.toNat * 2 ^ mu + x.slot.toNat) = cur)
    {w : State} (hw : w = (s.sectionTaken p i x.prot).landPrb p i e (x.eaxc.toNat - peEaxc e) s.frameNow s.tickNow x.symbol.toNat x.startPrb b)
    (hpart : ((w.dyn i).landing s.frameNow s.tickNow x.symbol.toNat).prbs.length < peStreams e * pePrbCount e) : s.uplane p x = w := by
  subst he hmu
  have hpass : s.fromPartner p i 28 x.prot = (s.admitted p i 28 x.prot, true) := fromPartner_passes 28 hf ha
  have hv := (received_sending s p i 28 x.prot).only.time
  have hzero : (cur + 256 * ticksPerFrame s.time.period - cur) % (256 * ticksPerFrame s.time.period) = 0 := by
    rw [Nat.add_sub_cancel_left, Nat.mod_self]
  have hone : ∀ (u : State) (f : State → Nat × Prb → State), forEach (indexed [b]) u f = f u (0, b) := fun _ _ => rfl
  unfold State.sectionTaken at hw
  simp only [State.uplane, hrx, hx, hi, hpass, List.length_singleton, Nat.mul_one, if_neg frameSize_onePrb, if_neg hok, Bool.not_true,
    Bool.false_eq_true, if_false, ← received_eq]
  generalize s.received p i 28 x.prot = v at hv hw ⊢
  simp only [frameNow_congr hv, tickNow_congr hv, nextTick_congr hv, hv, hat, ← hcur, hzero, hone, Nat.add_zero, Nat.not_lt_zero, if_false,
    if_true, ← hw, if_pos (Or.inr hpart)]

end

/-- Settles O50: the section is dropped, counted of a SHED partner, or taken and its PRB delivered to its place. -/
theorem uplaneLands : Obligations.UplaneLands := by
  intro s dt p x i e b mu at_ cur u hu hrx hx hb hmu
  rw [exec_uplaneRx hx hb, ← hu]
  have hrx' : u.rxOn p = true := hu ▸ hrx
  refine ⟨fun hi => ?unknown, fun hi h0 hsub hslot hsym he hf hsup => ⟨fun hs => ?shed, fun ha hat hcur hsame hlt h1 h2 hmany hn => ?lands⟩⟩
  case unknown =>
    have hi' : u.uplanePartner x = none := hu ▸ hi
    rw [uplane_unknown hrx' hx hi']
    exact ⟨_, rfl, portFlag_has _ p (by decide), hu ▸ rfl⟩
  case shed =>
    have hi' : u.uplanePartner x = some (i, e) := hu ▸ hi
    rw [uplane_shed hrx' hx hi' (hu ▸ he) hf hs]
    refine ⟨_, rfl, ?_, ?_⟩
    · exact (shed_sending u p i 28 x.prot).only.mem.trans (hu ▸ rfl)
    · exact (partnerCount_shed u p i 28 x.prot).trans (hu ▸ rfl)
  case lands =>
    have hi' : u.uplanePartner x = some (i, e) := hu ▸ hi
    have hnone : (u.dyn i).landings = [] := hu ▸ hn
    obtain ⟨hmem, hcount, hprbs⟩ := landPrb_first (p := p) (stream := x.eaxc.toNat - peEaxc e) (frame := u.frameNow) (tick := u.tickNow)
      (symbol := x.symbol.toNat) (b := b) h1 h2 (sectionTaken_landings (p := p) x.prot hnone) rfl
    have hmem' := ((sectionTaken_sending u p i x.prot).sameLanding.deliverElems p e (slotBase e x.symbol.toNat)
      (24 * ((x.eaxc.toNat - peEaxc e) * pePrbCount e + (x.startPrb - pePrbFirst e))) (prbElems b)).1.mem
    have hperiod : u.time.period ≠ 0 := hu ▸ h0
    have hok : ¬ (u.time.period = 0 ∨ 10 ≤ x.subframe.toNat ∨ 2 ^ mu ≤ x.slot.toNat ∨ 14 ≤ x.symbol.toNat ∨ unsupported x e = true) := by
      simp only [hperiod, Nat.not_le.mpr hsub, Nat.not_le.mpr hslot, Nat.not_le.mpr hsym, hsup, Bool.false_eq_true, or_self,
        not_false_eq_true]
    rw [uplane_current (mu := mu) (cur := cur) hrx' hx hi' (hu ▸ he) hf ha (hu ▸ hmu) hok (hu ▸ hcur) (by rw [← hsame, hat, hu]; rfl)
      rfl (by omega)]
    exact ⟨_, rfl, hcount.trans ((partnerCount_sectionTaken ..).trans (hu ▸ rfl)), hmem.trans hmem'⟩

end Sys2Proof.Machine
end

section
/-! PROOFS. DATA, ACK and resending of the Joryar transport (R575 to R579, R590). -/

namespace Sys2Proof.Machine

theorem exec_joryarData {s : State} {dt : Nat} {p : PortId} {mac : BitVec 48} {h : JoryarHdr} {bs : List Byte} (hb : bs.length ≤ 8256) :
    exec (.joryarData dt p mac h bs) s = .next ((s.elapse dt).joryarData p mac h bs) := if_neg (Nat.not_lt.mpr hb)
theorem exec_joryarAck (s : State) (dt : Nat) (p : PortId) (mac : BitVec 48) (h : JoryarHdr) :
    exec (.joryarAck dt p mac h) s = .next ((s.elapse dt).joryarAck p mac h) := rfl
theorem exec_ackTimer (s : State) (dt : Nat) (i : PartnerId) : exec (.ackTimer dt i) s = .next ((s.elapse dt).ackTimer i) := rfl
theorem exec_resendTimeout (s : State) (dt : Nat) (i : PartnerId) : exec (.resendTimeout dt i) s = .next ((s.elapse dt).resend i) := rfl

/-! ## What a frame that leaves does to the partners' records -/

theorem emit_dyn (s : State) (f : TxFrame) (i : Nat) : (s.emit f).dyn i = s.dyn i := by
  have hf : (s.emit f).fabric.dyn = s.fabric.dyn := by
    obtain ⟨h, -⟩ | ⟨h, -⟩ | ⟨t, h⟩ := emit_cases s f <;> rw [h]
    · rfl
    · exact transmit_dyn s f t
  rw [State.dyn, hf, State.dyn]

/-- A frame that can be sent goes out at once, addressed and with its clock. -/
theorem emit_sent {s : State} {f : TxFrame} (hj : s.jtag.inEffect = false) (hf : f.size ≤ frameMax) (hr : s.ready f = true) :
    ∃ t, (s.emit f).fabric.sent = s.fabric.sent ++ [{ s.address f with at_ := t }] := by
  obtain ⟨-, h | h⟩ | ⟨-, h⟩ | ⟨t, h⟩ := emit_cases s f
  · rw [hj] at h
    cases h
  · omega
  · rw [hr] at h
    cases h
  · exact ⟨t, (congrArg (fun u => u.fabric.sent) h).trans (transmit_sent s f t)⟩

/-- A Joryar frame of a partner whose CA serves it can be sent on a port that is up. -/
theorem ready_of_secured {s : State} {f : TxFrame} (hk : f.kind = 0) (hs : s.secured f.partner = true) (hu : (s.port f.port).up = true) :
    s.ready f = true := by
  simp only [State.ready, hu, hk, hs, OfNat.zero_ne_ofNat, if_false, Bool.or_true, Bool.and_self]

/-! ## ACK frames (R578) -/

/-- The ACK of what has been accepted of a partner. -/
def State.ackFrame (s : State) (i : Nat) : TxFrame :=
  { port := s.replyPort i, kind := 0, type := jtAck, partner := i, tag := 0, seq := (s.dyn i).rxSeq, offset := 0, last := false, payload := []
    header := s.joryarHeader i jtAck 0 0 (s.freeNat % 2 ^ 32) (s.dyn i).rxSeq false 0 }

theorem ackFrame_size (s : State) (i : Nat) : (s.ackFrame i).size ≤ frameMax := by
  have hm := Nat.mod_lt (Config.frameOverhead 32) (show 0 < 37 by decide)
  have hs : (s.ackFrame i).size = frameSize 32 := rfl
  rw [hs, frameSize, frameMax]
  omega

section
variable {s : State} {i : Nat}

theorem sendAck_secured (hs : s.secured i = true) : s.sendAck i
    = ((s.takeFree.emit (s.ackFrame i)).countPartner i pcTx 1).modDyn i (fun d => { d with sinceAck := 0 }) :=
  if_neg (by rw [hs]; decide)

theorem sendAck_sending (s : State) (i : Nat) : Sending 1 s (s.sendAck i) := by
  by_cases hs : s.secured i = true
  · rw [sendAck_secured hs]
    exact (Sending.takeFree s).trans ((emit_sending ..).trans ((Sending.countPartner ..).trans (.modDyn ..)))
  · rw [show s.sendAck i = s from if_pos (by simp [hs])]
    exact (Sending.refl s).mono (Nat.zero_le 1)

/-- An ACK is counted in TX, and nothing else of the partner's record changes than the frames since the last. -/
theorem dyn_sendAck (s : State) (i : Nat) : (s.sendAck i).dyn i
    = { s.dyn i with counters := ((s.sendAck i).dyn i).counters, sinceAck := ((s.sendAck i).dyn i).sinceAck } := by
  by_cases hs : s.secured i = true
  · rw [sendAck_secured hs, State.dyn_modDyn_same, dyn_countPartner, emit_dyn]
    rfl
  · rw [show s.sendAck i = s from if_pos (by simp [hs])]

theorem partnerCount_sendAck (s : State) (i : Nat) {k : Nat} (hk : k ≠ pcTx) : (s.sendAck i).partnerCount i k = s.partnerCount i k := by
  by_cases hs : s.secured i = true
  · rw [sendAck_secured hs, partnerCount_modDyn _ i k (by intro; rfl), partnerCount_countPartner_other _ i 1 hk,
      partnerCount_congr (emit_dyn ..)]
    rfl
  · rw [show s.sendAck i = s from if_pos (by simp [hs])]

/-- With frames accepted since the last ACK, and the partner's port and CA serving, the ACK goes out. -/
theorem ackTimer_sends (hl : s.linksOn = true) (hn : (s.dyn i).sinceAck ≠ 0) (hs : s.secured i = true)
    (hu : (s.port (s.replyPort i)).up = true) (hj : s.jtag.inEffect = false) : ∃ f, (s.ackTimer i).fabric.sent = s.fabric.sent ++ [f]
      ∧ f.type = jtAck ∧ f.seq = (s.dyn i).rxSeq ∧ ((s.ackTimer i).dyn i).sinceAck = 0 := by
  have hsame : s.ackTimer i = s.sendAck i := if_neg (by simp [hl, hn])
  obtain ⟨t, ht⟩ := emit_sent (s := s.takeFree) (f := s.ackFrame i) hj (ackFrame_size s i) (ready_of_secured rfl hs hu)
  rw [hsame, sendAck_secured hs]
  refine ⟨_, ht, rfl, rfl, ?_⟩
  rw [State.dyn_modDyn_same]

/-! ## Numbers of accepted frames (R578, R579) -/

theorem accepted_cases (s : State) (i : Nat) {v : State}
    (hv : v = s.modDyn i (fun d => { d with rxSeq := (d.rxSeq + 1) % 2 ^ 32, sinceAck := d.sinceAck + 1 })) :
    s.accepted i = v ∨ s.accepted i = v.sendAck i := by
  subst hv
  unfold State.accepted
  dsimp only
  split
  · exact .inr rfl
  · exact .inl rfl

/-- An accepted frame moves the number expected; what may leave for it is an ACK. -/
theorem accepted_next (s : State) (i : Nat) : Sending 1 s (s.accepted i) ∧ ((s.accepted i).dyn i).rxSeq = ((s.dyn i).rxSeq + 1) % 2 ^ 32
    ∧ (s.accepted i).partnerCount i pcRx = s.partnerCount i pcRx := by
  have hsend := Sending.modDyn s i (fun d => { d with rxSeq := (d.rxSeq + 1) % 2 ^ 32, sinceAck := d.sinceAck + 1 })
  have hcount := partnerCount_modDyn s i pcRx (f := fun d => { d with rxSeq := (d.rxSeq + 1) % 2 ^ 32, sinceAck := d.sinceAck + 1 })
    (by intro; rfl)
  have hseq : ((s.modDyn i (fun d => { d with rxSeq := (d.rxSeq + 1) % 2 ^ 32, sinceAck := d.sinceAck + 1 })).dyn i).rxSeq
      = ((s.dyn i).rxSeq + 1) % 2 ^ 32 := by rw [State.dyn_modDyn_same]
  have hcases := accepted_cases s i rfl
  generalize s.modDyn i _ = v at hsend hcount hseq hcases
  obtain h | h := hcases <;> rw [h]
  · exact ⟨hsend.mono (Nat.zero_le 1), hseq, hcount⟩
  · refine ⟨hsend.trans (sendAck_sending v i), ?_, (partnerCount_sendAck v i (by decide)).trans hcount⟩
    rw [dyn_sendAck]
    exact hseq

theorem seqGap_next (s : State) (i seq : Nat) : Sending 1 s (s.seqGap i seq) ∧ ((s.seqGap i seq).dyn i).rxSeq = (seq + 1) % 2 ^ 32
    ∧ (s.seqGap i seq).partnerCount i pcRx = s.partnerCount i pcRx := by
  unfold State.seqGap
  dsimp only
  refine ⟨?_, by rw [State.dyn_modDyn_same], ?_⟩
  · split
    · exact (Sending.modDyn ..).mono (Nat.zero_le 1)
    · exact ((Sending.countPartner ..).trans (.modDyn ..)).mono (Nat.zero_le 1)
  · rw [partnerCount_modDyn _ i pcRx (by intro; rfl)]
    split
    · rfl
    · exact partnerCount_countPartner_other s i 1 (by decide)

/-! ## DATA (R577, R579) -/

/-- The partner a Joryar frame is from is the one that it names. -/
theorem joryarPartner_eq {mac : BitVec 48} {h : JoryarHdr} {x : Entry} (hp : s.joryarPartner mac h = some x) :
    s.partner h.dstPartner.toNat = x := by
  unfold State.joryarPartner at hp
  dsimp only at hp
  split at hp
  · exact Option.some.inj hp
  · cases hp

theorem pageLoader_congr {s t : State} (h : t.mbx = s.mbx) (j ofs : Nat) : t.pageLoader j ofs = s.pageLoader j ofs := by
  simp only [State.pageLoader, State.ring, h]

end

section
variable {s : State} {p : Nat} {mac : BitVec 48} {h : JoryarHdr} (hrx : s.rxOn p = true)
include hrx

theorem joryarData_unknown (bs : List Byte) (hp : s.joryarPartner mac h = none) :
    s.joryarData p mac h bs = (s.countRx p (32 + bs.length)).portFlag p prUnknown := by
  simp only [State.joryarData, hrx, hp, Bool.not_true, Bool.false_eq_true, if_false]

variable {x : Entry} (hp : s.joryarPartner mac h = some x) (hf : s.rxFault (peCa x) h.prot = none)
include hp hf

theorem joryarData_shed (bs : List Byte) (hs : peState x = psShed) : s.joryarData p mac h bs
    = (s.admitted p h.dstPartner.toNat (32 + bs.length) h.prot).countPartner h.dstPartner.toNat pcShedDrop 1 := by
  have hx := joryarPartner_eq hp
  have hok := fromPartner_shed (s := s) (p := p) (i := h.dstPartner.toNat) (32 + bs.length) (by rw [hx]; exact hf) (by rw [hx]; exact hs)
  simp only [State.joryarData, hrx, hp, hok, Bool.not_true, Bool.not_false, Bool.false_eq_true, if_false, if_true]

/-- A frame in sequence, of an ACTIVE partner and for its area, is counted, its number taken, and its bytes delivered. -/
theorem joryarData_lands {bs : List Byte} (ha : peState x = psActive) (hload : s.pageLoader h.dstPartner.toNat h.offset.toNat = none)
    (hrange : h.offset.toNat + bs.length ≤ peLandBytes x)
    (hseq : peReliable x = true → h.seq.toNat = (s.dyn h.dstPartner.toNat).rxSeq) : ∃ v, Sending 1 s v
      ∧ (v.dyn h.dstPartner.toNat).rxSeq = (h.seq.toNat + 1) % 2 ^ 32
      ∧ v.partnerCount h.dstPartner.toNat pcRx = s.partnerCount h.dstPartner.toNat pcRx + 1
      ∧ s.joryarData p mac h bs = (v.landFrame p (peCluster x) (peLandBase x + h.offset.toNat) bs).1 := by
  have hx := joryarPartner_eq hp
  have hok : s.fromPartner p h.dstPartner.toNat (32 + bs.length) h.prot
      = (s.admitted p h.dstPartner.toNat (32 + bs.length) h.prot, true) :=
    fromPartner_passes _ (by rw [hx]; exact hf) (by rw [hx]; exact ha)
  have hdyn := admitted_dyn s p h.dstPartner.toNat (32 + bs.length) h.prot h.dstPartner.toNat
  have hload' : ∀ {v : State}, v.mbx = s.mbx → v.pageLoader h.dstPartner.toNat h.offset.toNat = none :=
    fun hv => (pageLoader_congr hv ..).trans hload
  have hadm : (s.admitted p h.dstPartner.toNat (32 + bs.length) h.prot).mbx = s.mbx := by rw [(admitted_sending ..).only]
  have hin : ¬ peLandBytes x < h.offset.toNat + bs.length := Nat.not_lt.mpr hrange
  have hnext : ¬ (peReliable x = true ∧ h.seq.toNat ≠ (s.dyn h.dstPartner.toNat).rxSeq) := fun hg => hg.2 (hseq hg.1)
  have hsend := received_sending s p h.dstPartner.toNat (32 + bs.length) h.prot
  have hcount := partnerCount_received s p h.dstPartner.toNat (32 + bs.length) h.prot
  have hrec := received_dyn s p h.dstPartner.toNat (32 + bs.length) h.prot
  simp only [State.joryarData, hrx, hp, hok, hload' hadm, hdyn, if_neg hnext, hin, Bool.not_true, Bool.false_eq_true, and_false, if_false,
    ← received_eq]
  generalize s.received p h.dstPartner.toNat (32 + bs.length) h.prot = r at hsend hcount hrec ⊢
  -- The number taken is the one expected; of an unreliable partner the frame's own.
  obtain ⟨v, hv, hseqv, hcountv, hcase⟩ : ∃ v, Sending 1 r v ∧ (v.dyn h.dstPartner.toNat).rxSeq = (h.seq.toNat + 1) % 2 ^ 32
      ∧ v.partnerCount h.dstPartner.toNat pcRx = r.partnerCount h.dstPartner.toNat pcRx
      ∧ (if peReliable x = true then r.accepted h.dstPartner.toNat else r.seqGap h.dstPartner.toNat h.seq.toNat) = v := by
    by_cases hrel : peReliable x = true
    · obtain ⟨ha, hb, hc⟩ := accepted_next r h.dstPartner.toNat
      rw [hrec] at hb
      exact ⟨_, ha, by rw [hseq hrel]; exact hb, hc, if_pos hrel⟩
    · obtain ⟨ha, hb, hc⟩ := seqGap_next r h.dstPartner.toNat h.seq.toNat
      exact ⟨_, ha, hb, hc, if_neg hrel⟩
  have hall := hsend.trans hv
  rw [hcase, hload' (by rw [hall.only])]
  exact ⟨v, hall.mono (by decide), hseqv, hcountv.trans hcount, rfl⟩

/-! ## ACK (R578) -/

omit hrx hp hf in
theorem pushEgress_zero (s : State) (i : Nat) : s.pushEgress i 0 = s := by
  refine forEach_same (fun c _ => forEach_same (fun k _ => ?_))
  split
  · exact if_neg (fun hk => by omega)
  · rfl

omit hrx hp hf in
/-- A partner without frames that wait for the window sends none. -/
theorem drainQueue_empty {i : Nat} (hq : (s.dyn i).queued = []) :
    s.drainQueue i = s.modDyn i (fun d => { d with queued := d.queued.drop 0 }) := by
  simp only [State.drainQueue, hq, List.take_nil, List.length_nil]
  rfl

/-- An ACK that acknowledges nothing of a running EGRESS takes the frames below it out of the window. -/
theorem joryarAck_takes (ha : peState x = psActive) (hq : (s.dyn h.dstPartner.toNat).queued = [])
    (hahead : (h.ack.toNat + 2 ^ 32 - (s.dyn h.dstPartner.toNat).txSeq) % 2 ^ 32 = 0
      ∨ 4096 < (h.ack.toNat + 2 ^ 32 - (s.dyn h.dstPartner.toNat).txSeq) % 2 ^ 32) :
    (s.joryarAck p mac h).mem = s.mem ∧ ((s.joryarAck p mac h).dyn h.dstPartner.toNat).unacked
      = (s.dyn h.dstPartner.toNat).unacked.filter (fun f => epLe h.ack.toNat f.seq) := by
  have hx := joryarPartner_eq hp
  have hok : s.fromPartner p h.dstPartner.toNat 32 h.prot = (s.admitted p h.dstPartner.toNat 32 h.prot, true) :=
    fromPartner_passes _ (by rw [hx]; exact hf) (by rw [hx]; exact ha)
  have hnone : (if (h.ack.toNat + 2 ^ 32 - (s.dyn h.dstPartner.toNat).txSeq) % 2 ^ 32 ≤ 4096
      then (h.ack.toNat + 2 ^ 32 - (s.dyn h.dstPartner.toNat).txSeq) % 2 ^ 32 else 0) = 0 := by
    split <;> omega
  have hdyn := admitted_dyn s p h.dstPartner.toNat 32 h.prot h.dstPartner.toNat
  have hmem := (received_sending s p h.dstPartner.toNat 32 h.prot).only.mem
  have hrec := received_dyn s p h.dstPartner.toNat 32 h.prot
  simp only [State.joryarAck, hrx, hp, hok, hdyn, hnone, pushEgress_zero, Bool.not_true, Bool.false_eq_true, if_false, ← received_eq]
  generalize s.received p h.dstPartner.toNat 32 h.prot = r at hmem hrec ⊢
  rw [hrec]
  dsimp only
  split
  · next hall =>
    refine ⟨hmem, ?_⟩
    rw [hrec, List.filter_eq_self.mpr (List.length_filter_eq_length_iff.mp hall)]
  · rw [drainQueue_empty (by rw [State.dyn_modDyn_same, hrec]; exact hq)]
    refine ⟨hmem, ?_⟩
    rw [State.dyn_modDyn_same, State.dyn_modDyn_same]

end

/-! ## Resending (R578) -/

/-- Frames of one partner that can all be sent leave one after another, each counted. -/
theorem resendAll_sending {i : Nat} (l : List TxFrame) (s : State) (hj : s.jtag.inEffect = false) (hs : s.secured i = true)
    (hn : (s.ca (peCa (s.partner i))).txPn + l.length ≤ 2 ^ 62) (hu : (s.port (s.replyPort i)).up = true)
    (h : ∀ f ∈ l, f.kind = 0 ∧ f.partner = i ∧ f.port = s.replyPort i ∧ f.size ≤ frameMax) {t : State}
    (ht : t = forEach l s (fun s f => (s.emit f).countPartner i pcTx 1)) :
    Sending l.length s t ∧ t.fabric.sent.length = s.fabric.sent.length + l.length
      ∧ t.dyn i = { s.dyn i with counters := (t.dyn i).counters } := by
  induction l generalizing s with
  | nil =>
    subst ht
    exact ⟨.refl _, rfl, rfl⟩
  | cons f l ih =>
    obtain ⟨hkind, hpart, hport, hsize⟩ := h f List.mem_cons_self
    rw [List.length_cons] at hn
    have hone : Sending 1 s ((s.emit f).countPartner i pcTx 1) := (emit_sending s f).trans (.countPartner ..)
    obtain ⟨at_, hsent⟩ := emit_sent hj hsize (ready_of_secured hkind (hpart ▸ hs) (hport ▸ hu))
    have hdyn : ((s.emit f).countPartner i pcTx 1).dyn i
        = { s.dyn i with counters := (((s.emit f).countPartner i pcTx 1).dyn i).counters } := by
      rw [dyn_countPartner, emit_dyn]
    have hsent' : ((s.emit f).countPartner i pcTx 1).fabric.sent = s.fabric.sent ++ [{ s.address f with at_ := at_ }] := hsent
    have ht' : t = forEach l ((s.emit f).countPartner i pcTx 1) (fun s f => (s.emit f).countPartner i pcTx 1) := ht
    generalize (s.emit f).countPartner i pcTx 1 = v at hone hdyn hsent' ht'
    have hpn := hone.txPn (peCa (s.partner i))
    obtain ⟨hall, hlen, hrest⟩ := ih v (by rw [hone.only.jtag]; exact hj) (hone.secured hs (by omega)) (by rw [hone.partner]; omega)
      (by rw [hone.replyPort, hone.ports.up]; exact hu)
      (fun g hg => by rw [hone.replyPort]; exact h g (List.mem_cons_of_mem _ hg)) ht'
    refine ⟨(hone.trans hall).mono (by rw [List.length_cons]; omega), ?_, ?_⟩
    · rw [hlen, hsent', List.length_append, List.length_singleton, List.length_cons]
      omega
    · rw [hrest, hdyn]

section
variable {s : State} {i : Nat}

/-- The window of a partner, once sent again: counted, and waited for anew. -/
def State.resent (s : State) (i : Nat) (l : List TxFrame) : State :=
  ((forEach l s (fun s f => (s.emit f).countPartner i pcTx 1)).countPartner i pcResent l.length).modDyn i (fun d => { d with
    resends := d.resends + 1, ackAt := (forEach l s (fun s f => (s.emit f).countPartner i pcTx 1)).now })

/-- The sixteenth resend without progress is reported, which leaves the frames, the memory and the rest of the record alone. -/
theorem resend_cases {l : List TxFrame} (hl : s.linksOn = true) (hun : (s.dyn i).unacked ≠ []) (hdue : (s.dyn i).ackAt + 100000 ≤ s.now)
    (hall : ((s.dyn i).unacked.map (fun (f : TxFrame) => { f with port := s.replyPort i })).filter s.ready = l) :
    s.resend i = s.resent i l ∨ ∃ tenant port unit partner, s.resend i
      = ((s.resent i l).fabricEv tenant port faPartnerStall unit partner 0 false).modDyn i (fun d => { d with stalled := true }) := by
  have hsome : (s.dyn i).unacked.isEmpty = false := by simpa using hun
  simp only [State.resend, hsome, hl, hall, Nat.not_lt.mpr hdue, Bool.not_true, Bool.false_eq_true, or_self, if_false]
  split
  · exact .inr ⟨_, _, _, _, rfl⟩
  · exact .inl rfl

/-- The whole window goes out again, where each of its frames can be sent. -/
theorem resend_sends (hl : s.linksOn = true) (hun : (s.dyn i).unacked ≠ []) (hdue : (s.dyn i).ackAt + 100000 ≤ s.now)
    (hj : s.jtag.inEffect = false) (hs : s.secured i = true) (hn : (s.ca (peCa (s.partner i))).txPn + (s.dyn i).unacked.length ≤ 2 ^ 62)
    (hu : (s.port (s.replyPort i)).up = true) (hf : ∀ f ∈ (s.dyn i).unacked, f.kind = 0 ∧ f.partner = i ∧ f.size ≤ frameMax) :
    (s.resend i).fabric.sent.length = s.fabric.sent.length + (s.dyn i).unacked.length ∧ (s.resend i).mem = s.mem
    ∧ ((s.resend i).dyn i).resends = (s.dyn i).resends + 1 ∧ ((s.resend i).dyn i).unacked = (s.dyn i).unacked
    ∧ ((s.resend i).dyn i).ackAt = s.now := by
  generalize hm : (s.dyn i).unacked.map (fun (f : TxFrame) => { f with port := s.replyPort i }) = l
  have hlen : l.length = (s.dyn i).unacked.length := by rw [← hm, List.length_map]
  have hframes : ∀ f ∈ l, f.kind = 0 ∧ f.partner = i ∧ f.port = s.replyPort i ∧ f.size ≤ frameMax := by
    intro f hfl
    rw [← hm] at hfl
    obtain ⟨g, hg, rfl⟩ := List.mem_map.mp hfl
    obtain ⟨hk, hp, hsize⟩ := hf g hg
    exact ⟨hk, hp, rfl, hsize⟩
  have hready : l.filter s.ready = l := List.filter_eq_self.mpr (fun f hfl => by
    obtain ⟨hk, hp, hport, -⟩ := hframes f hfl
    exact ready_of_secured hk (hp ▸ hs) (hport ▸ hu))
  obtain ⟨hsend, hsent, hdyn⟩ := resendAll_sending l s hj hs (hlen ▸ hn) hu hframes rfl
  have hnow : (forEach l s (fun s f => (s.emit f).countPartner i pcTx 1)).now = s.now := by rw [State.now, hsend.only.time, State.now]
  have hlast : (s.resent i l).fabric.sent.length = s.fabric.sent.length + (s.dyn i).unacked.length ∧ (s.resent i l).mem = s.mem
      ∧ ((s.resent i l).dyn i).resends = (s.dyn i).resends + 1 ∧ ((s.resent i l).dyn i).unacked = (s.dyn i).unacked
      ∧ ((s.resent i l).dyn i).ackAt = s.now := by
    refine ⟨hlen ▸ hsent, hsend.only.mem, ?_⟩
    rw [State.resent, State.dyn_modDyn_same, dyn_countPartner, hdyn, hnow]
    exact ⟨rfl, rfl, rfl⟩
  have hcases := resend_cases hl hun hdue ((congrArg (List.filter s.ready) hm).trans hready)
  generalize s.resent i l = r at hlast hcases
  obtain h | ⟨tenant, port, unit, partner, h⟩ := hcases <;> rw [h]
  · exact hlast
  · have hfab : (r.fabricEv tenant port faPartnerStall unit partner 0 false).fabric = r.fabric := raise_fabric ..
    have hrec : (r.fabricEv tenant port faPartnerStall unit partner 0 false).dyn i = r.dyn i := by rw [State.dyn, hfab, State.dyn]
    obtain ⟨hframes, hmem, hrest⟩ := hlast
    refine ⟨(congrArg (fun f : Fabric => f.sent.length) hfab).trans hframes, (raise_mem ..).trans hmem, ?_⟩
    rw [State.dyn_modDyn_same, hrec]
    exact hrest

end

/-- Settles O51: DATA is dropped, counted or delivered; an ACK leaves the frames not below it; the timers send. -/
theorem joryarTransport : Obligations.JoryarTransport := by
  rintro s dt p mac h bs x u rfl
  refine ⟨fun hrx hb hp hf => ⟨fun ha hload hrange hseq => ?lands, fun hs => ?shed, fun ha hq hahead => ?ack⟩, fun hrx hb hp => ?unknown,
    fun i hl hn hs hup hj => ?timer, fun i hl hun hdue hj hs hn hup hfr => ?resend⟩
  case lands =>
    obtain ⟨v, hsend, hnext, hcount, hsame⟩ := joryarData_lands (s := s.elapse dt) hrx hp hf ha hload hrange hseq
    rw [exec_joryarData hb, hsame]
    refine ⟨_, rfl, ?_, ?_, (hsend.sameLanding.landFrame p (peCluster x) (peLandBase x + h.offset.toNat) bs).1.mem⟩
    · rw [landFrame_dyn]
      exact hnext
    · exact (partnerCount_congr (landFrame_dyn ..) pcRx).trans hcount
  case shed =>
    rw [exec_joryarData hb, joryarData_shed (s := s.elapse dt) hrx hp hf bs hs]
    exact ⟨_, rfl, (shed_sending (s.elapse dt) p h.dstPartner.toNat (32 + bs.length) h.prot).only.mem,
      partnerCount_shed (s.elapse dt) p h.dstPartner.toNat (32 + bs.length) h.prot⟩
  case ack =>
    obtain ⟨hmem, hun⟩ := joryarAck_takes (s := s.elapse dt) hrx hp hf ha hq hahead
    exact ⟨_, exec_joryarAck .., hmem, hun⟩
  case unknown =>
    rw [exec_joryarData hb, joryarData_unknown (s := s.elapse dt) hrx bs hp]
    exact ⟨_, rfl, portFlag_has _ _ (by decide), (Sending.countRx (s.elapse dt) p (32 + bs.length)).only.mem⟩
  case timer =>
    obtain ⟨f, hsent, htype, hseq, hzero⟩ := ackTimer_sends (s := s.elapse dt) (i := i) hl hn hs hup hj
    exact ⟨_, f, exec_ackTimer s dt i, hsent, htype, hseq, hzero⟩
  case resend =>
    obtain ⟨hlen, hmem, hres, hkept, hat⟩ := resend_sends (s := s.elapse dt) (i := i) hl hun hdue hj hs hn hup hfr
    exact ⟨_, exec_resendTimeout s dt i, hlen, hres, hkept, hat, hmem⟩

end Sys2Proof.Machine
end

section
/-! PROOFS. Relayed commands between manager and worker, and the frames of a domain that carry no data (R595, R603 to R605, R608). -/

namespace Sys2Proof.Machine

section
variable {s : State} {dt : Nat} {p : PortId} {h : JoryarHdr} {bs : List Byte} (hb : bs.length ≤ 8256)
include hb

theorem exec_joryarCmd : exec (.joryarCmd dt p h bs) s = .next ((s.elapse dt).joryarCmd p h bs) := if_neg (Nat.not_lt.mpr hb)
theorem exec_joryarBulk : exec (.joryarBulk dt p h bs) s = .next ((s.elapse dt).joryarBulk p h bs) := if_neg (Nat.not_lt.mpr hb)
theorem exec_joryarOutput : exec (.joryarOutput dt p h bs) s = .next ((s.elapse dt).joryarOutput p h bs) := if_neg (Nat.not_lt.mpr hb)
theorem exec_joryarCpl (plain : Option (List Byte × List Byte)) :
    exec (.joryarCpl dt p h bs plain) s = .next ((s.elapse dt).joryarCpl p h bs plain) := if_neg (Nat.not_lt.mpr hb)

end

theorem exec_domainRelayTimeout (s : State) (dt : Nat) (w : Byte) (tag : Half) :
    exec (.domainRelayTimeout dt w tag) s = .next ((s.elapse dt).relayTimeout w.toNat tag.toNat) := rfl
theorem exec_joryarShed (s : State) (dt : Nat) (p : PortId) (h : JoryarHdr) :
    exec (.joryarShed dt p h) s = .next ((s.elapse dt).joryarShed p h) := rfl
theorem exec_joryarTakeover (s : State) (dt : Nat) (p : PortId) (m : Byte) (pr : Protection) (fp : BitVec 256) :
    exec (.joryarTakeover dt p m pr fp) s = .next ((s.elapse dt).joryarTakeover p m.toNat pr fp) := rfl

/-! ## A frame of a relay is taken (R604, R605) -/

section
variable {s : State} {p i n : Nat} {h : JoryarHdr}

/-- A frame of a partner that is not dropped has passed its check. -/
theorem fromPartner_true {pr : Protection} (hp : (s.fromPartner p i n pr).2 = true) :
    s.fromPartner p i n pr = (s.admitted p i n pr, true) := by
  have hcount : (s.countRx p n).rxFault (peCa (s.partner i)) pr = s.rxFault (peCa (s.partner i)) pr :=
    rxFault_congr (countRx_trust ..) _ _
  cases hf : s.rxFault (peCa (s.partner i)) pr with
  | some k =>
    have hc : (s.countRx p n).checked p (peCa (s.partner i)) pr = ((s.countRx p n).portFlag p k, false) := by
      rw [State.checked, hcount, hf]
    simp only [State.fromPartner, hc, Bool.not_false, if_true, Bool.false_eq_true] at hp
  | none =>
    by_cases hs : peState (s.partner i) = psShed
    · rw [fromPartner_shed n hf hs] at hp
      cases hp
    · simp only [State.fromPartner, checked_passes (p := p) (hcount.trans hf), Bool.not_true, Bool.false_eq_true, if_false, if_neg hs]
      rfl

/-- What a frame of a relay that passes leaves: its reception alone. -/
theorem relayPasses_true (hp : (s.relayPasses p i n h).2 = true) :
    (s.relayPasses p i n h).1 = s.countRx p (32 + n) ∨ (s.relayPasses p i n h).1 = s.admitted p i (32 + n) h.prot := by
  unfold State.relayPasses at hp ⊢
  split at hp
  · next hbare => exact .inl (by rw [if_pos hbare])
  · next hbare =>
    rw [if_neg hbare]
    split at hp
    · next hclear =>
      rw [if_pos hclear]
      split at hp
      · cases hp
      · next hshed => exact .inl (by rw [if_neg hshed])
    · next hclear =>
      rw [if_neg hclear]
      exact .inr (congrArg Prod.fst (fromPartner_true hp))

section
variable (s : State) (k : Nat)

theorem portsOpen_modPort (f : Port → Port) : (s.modPort k f).portsOpen = s.portsOpen := rfl
theorem portsOpen_modCa (f : Ca → Ca) : (s.modCa k f).portsOpen = s.portsOpen := rfl
theorem domainOn_modPort (f : Port → Port) : (s.modPort k f).domainOn = s.domainOn := rfl
theorem domainOn_modCa (f : Ca → Ca) : (s.modCa k f).domainOn = s.domainOn := rfl

end

theorem portsOpen_countRx (s : State) (p n : Nat) : (s.countRx p n).portsOpen = s.portsOpen := by
  rw [State.countRx, State.countPort, State.countPort, portsOpen_modPort, portsOpen_modPort]

theorem portsOpen_admitted (s : State) (p i n : Nat) (pr : Protection) : (s.admitted p i n pr).portsOpen = s.portsOpen := by
  rw [State.admitted, portsOpen_modCa, portsOpen_countRx]

theorem domainOn_admitted (s : State) (p i n : Nat) (pr : Protection) : (s.admitted p i n pr).domainOn = s.domainOn := by
  rw [State.admitted, domainOn_modCa, State.countRx, State.countPort, State.countPort, domainOn_modPort, domainOn_modPort]

/-- Reception of a frame leaves the partners' records and the sessions. -/
theorem relayPasses_kept (hp : (s.relayPasses p i n h).2 = true) : Sending 0 s (s.relayPasses p i n h).1
    ∧ (s.relayPasses p i n h).1.dyn i = s.dyn i ∧ (s.relayPasses p i n h).1.portsOpen = s.portsOpen := by
  obtain hsame | hsame := relayPasses_true hp <;> rw [hsame]
  · exact ⟨.countRx .., rfl, portsOpen_countRx ..⟩
  · exact ⟨admitted_sending .., admitted_dyn .., portsOpen_admitted ..⟩

/-- A frame of a relay that passes, is not dropped and has the expected number does what it is for, once its number is taken. -/
theorem relayFrameIn_taken {src : Option Nat} {drop : State → Nat → Bool} (hsrc : src = some i)
    (hp : (s.relayPasses p i n h).2 = true) (hd : drop (s.relayPasses p i n h).1 i = false) (hq : h.seq.toNat = (s.dyn i).rxSeq) :
    ∃ v, Sending 1 s v ∧ (v.dyn i).rxSeq = (h.seq.toNat + 1) % 2 ^ 32 ∧ ∀ f, s.relayFrameIn p n src h drop f = f v i := by
  subst hsrc
  obtain ⟨hsend, hdyn, -⟩ := relayPasses_kept hp
  have hpass : ¬ (!(s.relayPasses p i n h).2 || drop (s.relayPasses p i n h).1 i) = true := by rw [hp, hd]; decide
  simp only [State.relayFrameIn, if_neg hpass]
  generalize (s.relayPasses p i n h).1 = r at hsend hdyn ⊢
  have hcount : (r.countPartner i pcRx 1).dyn i = { s.dyn i with counters := ((r.countPartner i pcRx 1).dyn i).counters } := by
    rw [dyn_countPartner, hdyn]
  obtain ⟨hacc, hnext, -⟩ := accepted_next (r.countPartner i pcRx 1) i
  refine ⟨_, (hsend.trans (.countPartner r i pcRx 1)).trans hacc, ?_, fun f => ?_⟩
  · rw [hnext, hcount, hq]
  · rw [State.takeNumbered, hdyn, if_neg (not_not.mpr hq)]

/-! ## The worker (R604, R605) -/

section
variable (hrun : s.portRuns p = true) (hm : s.mailboxOn = true) (hw : s.mbx.manager = false) (hsrc : s.relaySource p h = some i)
  (hq : h.seq.toNat = (s.dyn i).rxSeq)
include hrun hm hw hsrc hq

/-- A command in clear joins its ring with the tag of its manager. -/
theorem joryarCmd_joins {bs : List Byte} (hp : (s.relayPasses p i bs.length h).2 = true) (hlen : bs.length = 64)
    (hopen : s.portsOpen = true ∨ bareOpcode (leAt bs 0 2) = true) (hfree : (s.ring (relayRing (leAt bs 0 2))).free ≠ 0) :
    ((s.joryarCmd p h bs).ring (relayRing (leAt bs 0 2))).cmds = (s.ring (relayRing (leAt bs 0 2))).cmds
        ++ [{ bytes := bs, session := none, headAt := s.now, relay := some (i, h.tag.toNat), direct := false, bulk := [] }]
      ∧ ((s.joryarCmd p h bs).dyn i).rxSeq = (h.seq.toNat + 1) % 2 ^ 32 := by
  have hkeep : (s.relayPasses p i bs.length h).1.dropsCmd bs = false := by
    obtain ⟨-, -, hsame⟩ := relayPasses_kept hp
    unfold State.dropsCmd
    rw [hsame, hlen]
    obtain ho | ho := hopen <;> simp [ho]
  obtain ⟨v, hsend, hseq, htaken⟩ := relayFrameIn_taken (drop := fun s _ => s.dropsCmd bs) hsrc hp hkeep hq
  have hsame : s.joryarCmd p h bs = v.relayedCmd i h bs := by
    simp only [State.joryarCmd, hrun, hm, hw, Bool.not_true, Bool.or_self, Bool.false_eq_true, if_false]
    exact htaken _
  have hring : v.ring (relayRing (leAt bs 0 2)) = s.ring (relayRing (leAt bs 0 2)) := by rw [State.ring, hsend.only, State.ring]
  have hnow : v.now = s.now := by rw [State.now, hsend.only.time, State.now]
  rw [hsame, State.relayedCmd, if_pos hlen, State.queueRelayed, if_neg (by rw [hring]; exact hfree), State.queueCmd,
    State.ring_modRing_same, State.ring_modRing_same, hring, hnow]
  exact ⟨rfl, hseq⟩

/-- Bulk that an entry waits for goes to it. -/
theorem joryarBulk_feeds {bs : List Byte} (hp : (s.relayPasses p i bs.length h).2 = true) (hs : s.strayBulk i h = false) :
    ((s.joryarBulk p h bs).ring 2).cmds = (s.ring 2).cmds.map (fun a => a.feed i h.tag.toNat h.offset.toNat bs)
      ∧ ((s.joryarBulk p h bs).dyn i).rxSeq = (h.seq.toNat + 1) % 2 ^ 32 := by
  have hstray : (s.relayPasses p i bs.length h).1.strayBulk i h = false := by
    obtain ⟨hsend, -⟩ := relayPasses_kept hp
    rw [State.strayBulk, State.ring, hsend.only]
    exact hs
  obtain ⟨v, hsend, hseq, htaken⟩ := relayFrameIn_taken (drop := fun s i => s.strayBulk i h) hsrc hp hstray hq
  have hsame : s.joryarBulk p h bs
      = v.modRing 2 (fun y => { y with cmds := y.cmds.map (fun a => a.feed i h.tag.toNat h.offset.toNat bs) }) := by
    simp only [State.joryarBulk, hrun, hm, hw, Bool.not_true, Bool.or_self, Bool.false_eq_true, if_false]
    exact htaken _
  have hring : v.ring 2 = s.ring 2 := by rw [State.ring, hsend.only, State.ring]
  rw [hsame, State.ring_modRing_same, hring]
  exact ⟨rfl, hseq⟩

end

/-! ## The SHED notice and the takeover (R595, R608) -/

theorem joryarShed_receives (hrx : s.rxOn p = true) (hj : s.isJoryar h = true) (ha : peState (s.partner h.dstPartner.toNat) = psActive)
    (hk : peKind (s.partner h.dstPartner.toNat) = pkSession ∨ peKind (s.partner h.dstPartner.toNat) = pkPeer)
    (hf : s.rxFault (peCa (s.partner h.dstPartner.toNat)) h.prot = none) :
    s.joryarShed p h = s.received p h.dstPartner.toNat 32 h.prot := by
  have hfree : peState (s.partner h.dstPartner.toNat) ≠ psFree := by rw [ha]; decide
  have hkind : ¬ (peKind (s.partner h.dstPartner.toNat) ≠ pkSession ∧ peKind (s.partner h.dstPartner.toNat) ≠ pkPeer) :=
    fun hn => hk.elim hn.1 hn.2
  simp only [State.joryarShed, hrx, hj, hfree, hkind, fromPartner_passes (p := p) 32 hf ha, Bool.not_true, Bool.false_eq_true,
    or_self, if_false, if_true]
  rfl

end

/-- The module that took over is the manager of record; its relay frames, and RELAY as a source, are counted anew (R608). -/
def State.takenOver (s : State) (m : Nat) : State :=
  ((s.modDomain (fun d => { d with managerIndex := m })).modRelay (fun r => { r with valid := 0, asked := false })).modTime (fun q => { q with
    sources := q.sources.map (fun y => if y.kind = .relay then { y with run := 0 } else y) })

/-- A worker without its manager takes a listed successor, and reports it. -/
theorem joryarTakeover_takes {s : State} {p m : Nat} {pr : Protection} {fp : BitVec 256} (hrx : s.rxOn p = true) (hd : s.domainOn = true)
    (hw : s.mbx.manager = false) (h0 : fp ≠ 0) (hfp : s.fabric.domain.succFps.contains fp = true) (hmiss : 8 ≤ s.fabric.relay.since)
    (ha : peState (s.partner (1 + m)) = psActive) (hf : s.rxFault (peCa (s.partner (1 + m))) pr = none) :
    s.joryarTakeover p m pr fp = ((s.admitted p (1 + m) 32 pr).takenOver m).fabricEv 0 0xFF faManagerChange m noPartner 0 false := by
  have hfree : peState (s.partner (1 + m)) ≠ psFree := by rw [ha]; decide
  have hok : s.fromPartner p (1 + m) 32 pr = (s.admitted p (1 + m) 32 pr, true) := fromPartner_passes 32 hf ha
  have hadm := admitted_sending s p (1 + m) 32 pr
  have hd' : (s.admitted p (1 + m) 32 pr).domainOn = true := (domainOn_admitted ..).trans hd
  have hw' : (s.admitted p (1 + m) 32 pr).mbx.manager = false := by rw [hadm.only]; exact hw
  have hmiss' : (s.admitted p (1 + m) 32 pr).fabric.relay.since = s.fabric.relay.since := by rw [hadm.relay]
  unfold State.joryarTakeover
  dsimp only
  rw [if_neg (by simp [hrx]), if_neg hfree, hok]
  dsimp only
  rw [hd', hw', hfp, hmiss', decide_eq_false h0, decide_eq_false (Nat.not_lt.mpr hmiss)]
  rfl

/-! ## The manager: what a completion leaves of the domain (R603, R604) -/

theorem Books.fabric {r : Nat} {s t : State} (h : Books r s t) : t.fabric = s.fabric := by rw [h.1]

theorem sendNumbered_sends (s : State) (f : TxFrame) (since : Nat) : Sending 1 s (s.sendNumbered f since State.emit) := by
  unfold State.sendNumbered
  exact (emit_sending ..).trans ((Sending.countPartner ..).trans (.modDyn ..))

/-- A Joryar frame of any type, sent, queued or withheld, changes only the books of transmission. -/
theorem sendTo_sends (s : State) (i type tag offset : Nat) (last : Bool) (payload : List Byte) :
    Sending 1 s (s.sendTo i type tag offset last payload) := by
  unfold State.sendTo
  dsimp only
  split
  · exact (Sending.refl s).mono (Nat.zero_le 1)
  · split
    · exact (Sending.takeFree s).trans ((emit_sending ..).trans (.countPartner ..))
    · split
      · exact (Sending.modDyn ..).mono (Nat.zero_le 1)
      · exact sendNumbered_sends ..

theorem sendTo_domain (s : State) (i type tag offset : Nat) (last : Bool) (payload : List Byte) :
    (s.sendTo i type tag offset last payload).fabric.domain = s.fabric.domain := by rw [(sendTo_sends ..).fabric]

section
variable (s : State)

theorem sealOn_fabric (t chan : Nat) (l : List Byte) : (s.sealOn t chan l).2.fabric = s.fabric := (sealOn_books 0 s t chan l).fabric

/-- The frames of a completion to another module leave the domain as the answer leaves it. -/
theorem finishRelayed_domain (i tag : Nat) (h : CmdHdr) (op : Nat) (clear : Bool) (a : Answer) :
    (s.finishRelayed i tag h op clear a).fabric.domain = (a.after s).fabric.domain := by
  have hframes : ∀ (l : List (Nat × Bool × List Byte)) (u : State),
      (l.foldl (fun (v : State) x => v.sendTo i jtOutput tag x.1 x.2.1 x.2.2) u).fabric.domain = u.fabric.domain :=
    fun l u => foldl_keeps (fun v : State => v.fabric.domain) _ (by intro v x; exact sendTo_domain ..) l u
  have hsealed : ∀ (t : Nat) (l : List (List Byte)) (u : State), (l.foldl (fun (x : List Byte × State) b =>
      (x.1 ++ (x.2.sealOn t 3 b).1, (x.2.sealOn t 3 b).2)) ([], u)).2.fabric.domain = u.fabric.domain :=
    fun t l u => foldl_keeps (fun x : List Byte × State => x.2.fabric.domain) _ (by intro x b; exact congrArg _ (sealOn_fabric ..)) l ([], u)
  unfold State.finishRelayed
  extract_lets s1 c o w t
  have ho : o.2.fabric.domain = s1.fabric.domain := by
    unfold o
    split
    · split
      · exact congrArg _ (sealOn_fabric ..)
      · exact hsealed ..
    · rfl
  have hw : w.2.fabric.domain = o.2.fabric.domain := by
    unfold w
    split
    · exact congrArg _ (sealOn_fabric ..)
    · rfl
  rw [sendTo_domain]
  exact (hframes ..).trans (hw.trans ho)

theorem afterFinish_domain (c : HostCmd) (h : CmdHdr) (status : Nat) : (afterFinish c h status s).fabric.domain = s.fabric.domain := by
  unfold afterFinish
  split
  · split
    · rw [(closeSession_books 0 s ..).fabric]
    · rfl
  · rfl

theorem deliver_domain (relay : Option (Nat × Nat)) (h : CmdHdr) (c : HostCmd) (a : Answer) :
    (s.deliver relay h c a).fabric.domain = (a.after s).fabric.domain := by
  unfold State.deliver
  extract_lets op t
  rw [afterFinish_domain]
  unfold t
  split
  · exact finishRelayed_domain s ..
  · rw [(finish_books s h op (clearCpl op) a).fabric]

/-- A command in execution that completes, or goes on waiting for room, leaves the domain as its answer has it. -/
theorem completeRing_domain (r : Nat) {a : Answer} (ha : a.s.fabric.domain = s.fabric.domain) :
    (s.completeRing r a).fabric.domain = s.fabric.domain := by
  unfold State.completeRing
  split
  · rfl
  · extract_lets clr
    split
    · rw [deliver_domain]
      unfold Answer.after
      split
      · exact ha
      · rfl
    · rfl

end

/-! ## The manager: relays outstanding (R603, R604) -/

/-- The relay is to worker `w` under tag `g`. -/
def Relay.isOf (w g : Nat) (r : Relay) : Bool := decide (r.worker = w) && decide (r.tag = g)

/-- What a relay in the list becomes where it is to worker `w` under tag `g`. -/
def Relay.changed (w g : Nat) (f : Relay → Relay) (r : Relay) : Relay := if r.worker = w ∧ r.tag = g then f r else r

theorem Relay.isOf_iff {w g : Nat} {r : Relay} : r.isOf w g = true ↔ r.worker = w ∧ r.tag = g := by
  simp only [Relay.isOf, Bool.and_eq_true, decide_eq_true_eq]

section
variable {w g : Nat} {f : Relay → Relay} (hf : ∀ r, (f r).worker = r.worker ∧ (f r).tag = r.tag)
include hf

theorem Relay.isOf_changed (r : Relay) : (r.changed w g f).isOf w g = r.isOf w g := by
  unfold Relay.changed Relay.isOf
  split
  · rw [(hf r).1, (hf r).2]
  · rfl

/-- The relay found after a change is the one found before it, changed. -/
theorem relayOf_modRelayed {s : State} {r : Relay} (hr : s.relayOf w g = some r) : (s.modRelayed w g f).relayOf w g = some (f r) := by
  have hfind : s.fabric.domain.relays.find? (Relay.isOf w g) = some r := hr
  have his := Relay.isOf_iff.mp (List.find?_some hfind)
  have hcomp : Relay.isOf w g ∘ Relay.changed w g f = Relay.isOf w g := funext (Relay.isOf_changed hf)
  calc (s.modRelayed w g f).relayOf w g = (s.fabric.domain.relays.map (Relay.changed w g f)).find? (Relay.isOf w g) := rfl
    _ = some (f r) := by rw [List.find?_map, hcomp, hfind, Option.map_some, Relay.changed, if_pos his]

/-- The relays that are not changed stay. -/
theorem filter_map_changed (l : List Relay) : (l.map (Relay.changed w g f)).filter (fun r => !r.isOf w g) = l.filter (fun r => !r.isOf w g) := by
  induction l with
  | nil => rfl
  | cons r l ih =>
    rw [List.map_cons, List.filter_cons, List.filter_cons, Relay.isOf_changed hf, ih]
    split
    · next hr =>
      rw [Relay.changed, if_neg (fun hc => by rw [Relay.isOf_iff.mpr hc] at hr; cases hr)]
    · rfl

end

/-- The command is a relay to worker `w`. -/
def relaysTo (w : Nat) (c : HostCmd) : Bool :=
  match c with
  | .domainRelay n => decide (n.toNat = w)
  | _ => false

/-- A relay that ends is dropped, and its DOMAIN_RELAY completes where its output fits. -/
theorem endRelay_drops {s : State} {w g : Nat} {a : State → Answer} (ha : (a (s.dropRelay w g)).s = s.dropRelay w g)
    (hfit : ∀ q x, s.ringExecuting (relaysTo w) = some q → (s.ring q).exec = some x →
      s.answerFits x.relay x.hdr (a (s.dropRelay w g)) = true) :
    (s.endRelay w g a).fabric.domain = (s.dropRelay w g).fabric.domain := by
  unfold State.endRelay
  split
  · next q hq =>
    split
    · next x hx =>
      rw [if_pos (hfit q x hq hx), completeRing_domain _ _ (congrArg (fun v => v.fabric.domain) ha)]
    · rfl
  · rfl

theorem dropRelay_relays (s : State) (w g : Nat) :
    (s.dropRelay w g).fabric.domain.relays = s.fabric.domain.relays.filter (fun r => !r.isOf w g) := rfl

/-- What fits depends on the mailbox alone. -/
theorem answerFits_congr {s t : State} (h : t.mbx = s.mbx) (relay : Option (Nat × Nat)) (hd : CmdHdr) (a : Answer) :
    t.answerFits relay hd a = s.answerFits relay hd a := by
  simp only [State.answerFits, State.fits, h]

/-! ## The manager: frames and time of a relay (R603, R604) -/

theorem putPage_relays (d : Domain) (n : Nat) (e : DomainPage) : (d.putPage n e).relays = d.relays := by
  unfold Domain.putPage
  split <;> rfl

/-- What a completion teaches leaves the relays alone. -/
theorem taught_relays (d : Domain) (w : Nat) (c : HostCmd) (bulk : List Byte) (result : Nat) : (d.taught w c bulk result).relays = d.relays := by
  unfold Domain.taught
  split
  · exact putPage_relays ..
  · rfl
  · refine foldl_keeps Domain.relays _ (fun d q => ?_) _ d
    split <;> exact putPage_relays ..
  · rfl
  · rfl
  · rfl
  · rfl

theorem learn_kept (s : State) (r : Relay) (cpl : List Byte) (plain : Option (List Byte × List Byte)) :
    (s.learn r cpl plain).fabric.domain.relays = s.fabric.domain.relays ∧ (s.learn r cpl plain).mbx = s.mbx := by
  unfold State.learn
  extract_lets q
  clear_value q
  split
  · split
    · exact ⟨rfl, rfl⟩
    · split
      · exact ⟨taught_relays .., rfl⟩
      · exact ⟨rfl, rfl⟩
  · exact ⟨rfl, rfl⟩

section
variable {s : State} {p i : Nat} {h : JoryarHdr} {bs : List Byte} (hrx : s.rxOn p = true) (hsrc : s.fromWorker h = some i)
  (hp : (s.relayPasses p i bs.length h).2 = true) (hq : h.seq.toNat = (s.dyn i).rxSeq)
include hrx hsrc hp hq

theorem joryarOutput_gathers : (s.joryarOutput p h bs).fabric.domain.relays = s.fabric.domain.relays.map
    (Relay.changed h.srcModule.toNat h.tag.toNat (fun r => if h.offset.toNat = r.data.length then { r with data := r.data ++ bs } else r)) := by
  obtain ⟨v, hsend, -, htaken⟩ := relayFrameIn_taken (drop := fun _ _ => false) hsrc hp rfl hq
  have hsame : s.joryarOutput p h bs = v.modRelayed h.srcModule.toNat h.tag.toNat (fun r =>
      if h.offset.toNat = r.data.length then { r with data := r.data ++ bs } else r) := (if_neg (by simp [hrx])).trans (htaken _)
  have hdomain : v.fabric.domain = s.fabric.domain := by rw [hsend.fabric]
  rw [hsame, ← hdomain]
  rfl

/-- A completion ends its relay. -/
theorem joryarCpl_ends {r : Relay} (plain : Option (List Byte × List Byte)) (hr : s.relayOf h.srcModule.toNat h.tag.toNat = some r)
    (hnone : r.cpl = none) (hfit : ∀ q x, s.ringExecuting (relaysTo r.worker) = some q → (s.ring q).exec = some x →
      s.answerFits x.relay x.hdr (Relay.answer { r with cpl := some bs } s) = true) :
    (s.joryarCpl p h bs plain).fabric.domain.relays = s.fabric.domain.relays.filter (fun y => !y.isOf r.worker r.tag) := by
  obtain ⟨v, hsend, -, htaken⟩ := relayFrameIn_taken (drop := fun _ _ => false) hsrc hp rfl hq
  have hfound : s.fabric.domain.relays.find? (Relay.isOf h.srcModule.toNat h.tag.toNat) = some r := hr
  obtain ⟨hworker, htag⟩ := Relay.isOf_iff.mp (List.find?_some hfound)
  have hv : v.relayOf h.srcModule.toNat h.tag.toNat = some r := by rw [State.relayOf, hsend.fabric]; exact hr
  obtain ⟨hrelays, hmbx⟩ := learn_kept v r bs plain
  have hsame : s.joryarCpl p h bs plain
      = ((v.learn r bs plain).modRelayed r.worker r.tag (fun r => { r with cpl := some bs })).answerRelay r.worker r.tag := by
    unfold State.joryarCpl
    rw [if_neg (by simp [hrx]), htaken, hv]
    exact if_neg (by simp [hnone])
  have hl : (v.learn r bs plain).relayOf r.worker r.tag = some r := by
    rw [State.relayOf, hrelays, ← State.relayOf, hworker, htag, hv]
  have hlast : (v.learn r bs plain).fabric.domain.relays = s.fabric.domain.relays := by rw [hrelays, hsend.fabric]
  have hbox : (v.learn r bs plain).mbx = s.mbx := by rw [hmbx, hsend.only]
  generalize v.learn r bs plain = l at hsame hl hlast hbox
  rw [hsame, State.answerRelay, relayOf_modRelayed (f := fun r => { r with cpl := some bs }) (fun r => ⟨rfl, rfl⟩) hl]
  refine (congrArg Domain.relays (endRelay_drops rfl (fun q x hex hx => ?_))).trans ?_
  · have hbox' : (l.modRelayed r.worker r.tag (fun r => { r with cpl := some bs })).mbx = s.mbx := hbox
    have hring : ∀ j, (l.modRelayed r.worker r.tag (fun r => { r with cpl := some bs })).ring j = s.ring j := fun j => by
      rw [State.ring, hbox', State.ring]
    rw [hring] at hx
    exact (answerFits_congr hbox' ..).trans (hfit q x (by rw [← hex]; simp only [State.ringExecuting, hring]) hx)
  · rw [dropRelay_relays, ← hlast]
    exact filter_map_changed (f := fun r => { r with cpl := some bs }) (fun r => ⟨rfl, rfl⟩) _

end

/-- A relay whose time is over ends. -/
theorem relayTimeout_ends {s : State} {w g : Nat} {r : Relay} (hr : s.relayOf w g = some r) (hm : s.mailboxOn = true) (hnone : r.cpl = none)
    (hdue : r.since + r.limit ≤ s.now) (hroom : s.mbx.boutFifo.length ≤ 65536) :
    (s.relayTimeout w g).fabric.domain.relays = s.fabric.domain.relays.filter (fun y => !y.isOf w g) := by
  have hsame : s.relayTimeout w g = s.endRelay w g (fun s => Answer.err s stTimeout) := by
    unfold State.relayTimeout
    rw [hr]
    exact if_pos (by simp [hm, hnone, hdue])
  have hempty : ∀ (x : Exec) (t : State), s.answerFits x.relay x.hdr (Answer.err t stTimeout) = true := fun x t => by
    have hfits : s.fits x.hdr.session false 0 = true := fits_nil s _ _ hroom
    exact Bool.or_eq_true_iff.mpr (.inr hfits)
  rw [hsame, endRelay_drops (a := fun s => Answer.err s stTimeout) rfl (fun q x _ _ => hempty x _), dropRelay_relays]

/-- Settles O52: a frame of a relay is taken with its number and does what its type is for; SHED and TAKEOVER by what they leave. -/
theorem relayedCommands : Obligations.RelayedCommands := by
  rintro s dt p h bs i u rfl hb hq
  refine ⟨fun hrun hm hw hsrc hp => ⟨fun hlen hopen hfree => ?cmd, fun hs => ?bulk⟩, fun hrx hsrc hp => ⟨?output, fun r plain hr hnone hfit => ?cpl⟩,
    fun w tag r hr hm hnone hdue hroom => ?timeout, fun hrx hj ha hk hf => ?shed, fun m pr fp hrx hd hw h0 hfp hmiss ha hf => ?takeover⟩
  case cmd =>
    obtain ⟨hcmds, hseq⟩ := joryarCmd_joins (s := s.elapse dt) hrun hm hw hsrc hq hp hlen hopen hfree
    exact ⟨_, exec_joryarCmd hb, hcmds, hseq⟩
  case bulk =>
    obtain ⟨hcmds, hseq⟩ := joryarBulk_feeds (s := s.elapse dt) hrun hm hw hsrc hq hp hs
    exact ⟨_, exec_joryarBulk hb, hcmds, hseq⟩
  case output => exact ⟨_, exec_joryarOutput hb, joryarOutput_gathers (s := s.elapse dt) hrx hsrc hp hq⟩
  case cpl =>
    exact ⟨_, exec_joryarCpl hb plain, joryarCpl_ends (s := s.elapse dt) hrx hsrc hp hq plain hr hnone hfit⟩
  case timeout => exact ⟨_, exec_domainRelayTimeout s dt w tag, relayTimeout_ends (s := s.elapse dt) hr hm hnone hdue hroom⟩
  case shed => exact (exec_joryarShed ..).trans (congrArg _ (joryarShed_receives (s := s.elapse dt) hrx hj ha hk hf))
  case takeover =>
    rw [exec_joryarTakeover, joryarTakeover_takes (s := s.elapse dt) hrx hd hw h0 hfp hmiss ha hf]
    exact ⟨_, rfl, raise_eventsOnly ..⟩

end Sys2Proof.Machine
end

section
/-! PROOFS. Ports up and down (R542 to R544), phases and retuning (R566 to R569), and router packets (R573, R644). -/

namespace Sys2Proof.Machine

theorem exec_portDown (s : State) (dt : Nat) (p : PortId) (a : Fin 3) : exec (.portDown dt p a) s = .next ((s.elapse dt).portDown p a) := rfl
theorem exec_portUp (s : State) (dt : Nat) (p : PortId) : exec (.portUp dt p) s = .next ((s.elapse dt).portUp p) := rfl
theorem exec_phaseStart (s : State) (dt : Nat) : exec (.phaseStart dt) s = .next (s.elapse dt).phaseStart := rfl
theorem exec_retuneFail (s : State) (dt : Nat) (c : ClusterId) (k : Fin 4) :
    exec (.retuneFail dt c k) s = .next ((s.elapse dt).retuneFail c k) := rfl
theorem exec_routerReceive {s : State} {dt : Nat} {c src : ClusterId} {k : Fin 4} {a : Word} {data : List Byte} (hd : data.length ≤ 4096) :
    exec (.routerReceive dt c k src a data) s = .next ((s.elapse dt).routerReceive c k src a.toNat data) := if_neg (Nat.not_lt.mpr hd)

/-! ## Whether a port serves, and its flags -/

/-- Of a port, whether it serves its group's capacity, and its flags. -/
def Port.service (x : Port) : Bool × W1c := (x.served, x.status)

/-- The services of all ports. -/
def State.services (s : State) : Nat → Bool × W1c := fun p => (s.port p).service

section
variable {s t : State}

theorem services_of_ports (h : t.fabric.ports = s.fabric.ports) : t.services = s.services :=
  funext (fun p => by rw [State.services, State.port, h]; rfl)

theorem services_of_sending {n : Nat} (h : Sending n s t) : t.services = s.services :=
  funext (fun p => by rw [State.services, h.ports p]; rfl)

end

section
variable (s : State)

theorem services_modPort (k : Nat) {f : Port → Port} (hf : ∀ x, (f x).service = x.service) : (s.modPort k f).services = s.services := by
  funext p
  unfold State.services
  by_cases h : p = k
  · rw [h, State.port_modPort_same, hf]
  · rw [State.port_modPort_other _ _ h]

theorem services_fabricEv (tenant port kind unit partner detail : Nat) (inj : Bool) :
    (s.fabricEv tenant port kind unit partner detail inj).services = s.services := services_of_ports (congrArg Fabric.ports (raise_fabric ..))

theorem services_release : s.release.services = s.services :=
  (forEach_keeps State.services _ (fun s _ => services_of_sending (emit_sending s _)) _ _).trans (services_of_ports rfl)

theorem services_takeFree : s.takeFree.services = s.services := rfl
theorem services_setPartner (k : Nat) (x : Entry) : (s.setPartner k x).services = s.services := rfl

theorem services_movePartner (i : Nat) (inj : Bool) : (s.movePartner i inj).services = s.services := by
  unfold State.movePartner State.assignPort
  rw [services_fabricEv, services_setPartner, services_takeFree]

theorem services_moveAll (l : List Nat) (inj : Bool) : (forEach l s (fun s i => s.movePartner i inj)).services = s.services :=
  forEach_keeps State.services _ (fun s i => services_movePartner s i inj) l s

theorem services_leavePort (p : Nat) (inj : Bool) : (s.leavePort p inj).services = s.services := by
  unfold State.leavePort
  rw [services_release]
  split
  · rfl
  · exact services_moveAll ..

theorem services_groupChanged (g port was : Nat) (inj : Bool) : (s.groupChanged g port was inj).services = s.services := by
  have hwalk : ∀ (u : State) (sel : Entry → Bool) (size : Entry → Nat) (cap : Nat), (u.walk sel size cap).services = u.services := by
    intro u sel size cap
    unfold State.walk
    extract_lets l from_
    split
    · rfl
    · exact (foldl_keeps State.services _ (by intro v i; exact services_of_ports rfl) _ _).trans (services_of_ports rfl)
  unfold State.groupChanged
  extract_lets cap t
  have ht : t.services = s.services := services_fabricEv ..
  split
  · rfl
  · split
    · exact (hwalk ..).trans ht
    · exact ht

theorem services_ptpSilent (p : Nat) : (s.ptpSilent p).services = s.services := by
  have hlost : ∀ (u : State) (was : Bool), (u.loseSources was).services = u.services := by
    intro u was
    unfold State.loseSources
    extract_lets t
    have ht : t.services = u.services := by
      unfold t
      split <;> rfl
    split
    · exact (services_of_ports (congrArg Fabric.ports (raise_fabric ..))).trans ht
    · exact ht
  unfold State.ptpSilent State.ptpLost State.disqualify
  rw [services_modPort _ p (by intro; rfl), services_modPort _ p (by intro; rfl), hlost]
  rfl

theorem services_sendLacp (p : Nat) : (s.sendLacp p).services = s.services := by
  unfold State.sendLacp State.sendLink
  rw [services_modPort _ p (by intro; rfl), services_of_sending (emit_sending ..)]
  rfl

theorem links_sendLacp (p : Nat) : (s.sendLacp p).links = s.links := by
  unfold State.sendLacp State.sendLink
  rw [links_modPort _ p (by intro; rfl), links_emit, links_takeFree]

theorem services_joinGroup (p : Nat) {f : Port → Port} (hf : ∀ x, (f x).service = x.service) : (s.joinGroup p f).services = s.services := by
  unfold State.joinGroup
  extract_lets alone t all
  rw [services_release]
  have ht : t.services = s.services := services_modPort s p hf
  split
  · exact (services_moveAll ..).trans ht
  · exact ht

end

section
variable {s : State} {p : Nat}

/-! ## A port goes down (R542, R543) -/

/-- A port that runs goes down: what follows leaves its own record as it is. -/
theorem service_portOut (cause : Nat) (inj : Bool) (h : s.portRuns p = true) : ((s.portOut p cause inj).port p).served = false
    ∧ ((s.portOut p cause inj).port p).status.has 8 = true := by
  have hall : (s.portOut p cause inj).services = (((s.breakOff p).withdraw p).modPort p Port.stopped).services := by
    unfold State.portOut
    simp only [h, Bool.not_true, Bool.false_eq_true, if_false, services_groupChanged, services_leavePort, services_fabricEv,
      services_ptpSilent]
    split
    · exact (services_modPort _ p (by intro; rfl)).trans rfl
    · rfl
  have hport := congrFun hall p
  simp only [State.services, State.port_modPort_same, Port.service, Port.stopped, Prod.mk.injEq] at hport
  obtain ⟨hserved, hstatus⟩ := hport
  exact ⟨hserved, hstatus ▸ W1c.has_hit_same _ (by decide)⟩

/-- A port with a cause to go down does. -/
theorem portDown_out {cause : Nat} (hc : cause = 2 → ∃ l ∈ portLoops p, s.ringServes l = false) :
    s.portDown p cause = s.portOut p cause (s.isInjected 5 p) := by
  refine if_neg ?_
  rw [Bool.and_eq_true, decide_eq_true_eq, List.all_eq_true]
  rintro ⟨h2, hserve⟩
  obtain ⟨l, hl, hout⟩ := hc h2
  rw [hserve l hl] at hout
  cases hout

theorem lacp_portOut (cause : Nat) (inj : Bool) (h : s.portRuns p = true) : ((s.portOut p cause inj).port p).lacp = false := by
  have hdown := link_of_links (links_portOut cause inj h) p
  rw [State.port_modPort_same] at hdown
  exact congrArg (fun x => x.2.2.1) hdown

/-! ## A port comes up (R544) -/

/-- The port's own record as it comes up. -/
def Port.started (x : Port) : Port := { x with up := true, served := true, lacpAt := none }

/-- A port whose rings serve comes up a member of its group. -/
theorem portUp_serves (hl : s.linksOn = true) (hdown : (s.port p).up = false) (hd : (s.port p).dark = 0) (hi : s.isInjected 5 p = false)
    (hr : ∀ l ∈ portLoops p, s.ringServes l = true) : ((s.portUp p).port p).up = true ∧ ((s.portUp p).port p).served = true
      ∧ p ∈ (s.portUp p).members (p / 8) ∧ (s.portUp p).mem = s.mem := by
  have hall : (portLoops p).all s.ringServes = true := List.all_eq_true.mpr hr
  have hup : s.portUp p = (((((s.modPort p Port.started).sendLacp p).joinGroup p (fun x => { x with lacp := true })).fabricEv 0 p faPortUp 0xFF
      noPartner 0 false)).groupChanged (p / 8) p (s.groupCapacity (p / 8)) false := if_neg (by simp [hl, hdown, hd, hi, hall])
  have hsent := links_sendLacp (s.modPort p Port.started) p
  have hserv := services_sendLacp (s.modPort p Port.started) p
  generalize (s.modPort p Port.started).sendLacp p = v at hup hsent hserv
  have hlinks : (s.portUp p).links = (v.modPort p (fun x => { x with lacp := true })).links := by
    rw [hup, links_groupChanged, links_fabricEv, links_joinGroup]
  have hservices : (s.portUp p).services = (s.modPort p Port.started).services := by
    rw [hup, services_groupChanged, services_fabricEv, services_joinGroup _ p (by intro; rfl), hserv]
  have hlink := link_of_links hlinks p
  have hbefore := link_of_links hsent p
  have hservice := congrFun hservices p
  rw [State.port_modPort_same] at hlink hbefore
  simp only [State.services, State.port_modPort_same] at hservice
  simp only [Port.link, Port.started, Port.service, Prod.mk.injEq] at hlink hbefore hservice
  obtain ⟨hup', -, hlacp, hat⟩ := hlink
  obtain ⟨hupv, -, -, hatv⟩ := hbefore
  have hcollects : ((s.portUp p).port p).collects (s.portUp p).now = true := by
    rw [Port.collects, hlacp, hat, hatv]
    rfl
  have hoff : (s.portUp p).offLinks = s.offLinks :=
    (offLinks_of_links hlinks).trans ((offLinks_modPort ..).trans ((offLinks_of_links hsent).trans (offLinks_modPort ..)))
  exact ⟨hup'.trans hupv, hservice.1, mem_members_own.mpr ⟨hup'.trans hupv, hcollects⟩, mem_of_offLinks hoff⟩

end

/-! ## Phases (R566, R570) -/

/-- `t` is `s` but for the fabric, the clusters and the event log. -/
def RouterMoved (s t : State) : Prop := EventsOnly { s with fabric := t.fabric, clusters := t.clusters } t

theorem RouterMoved.refl (s : State) : RouterMoved s s := EventsOnly.refl s

/-- A change of the event log is one beside any fabric and any clusters. -/
theorem EventsOnly.beside {s t : State} (h : EventsOnly s t) (f : Fabric) (cs : Tab Cluster) :
    EventsOnly { s with fabric := f, clusters := cs } { t with fabric := f, clusters := cs } := by
  obtain ⟨h1, h2, h3⟩ := h
  refine ⟨?_, h2, h3⟩
  conv_lhs => rw [h1]

theorem RouterMoved.trans {s t u : State} (h : RouterMoved s t) (g : RouterMoved t u) : RouterMoved s u :=
  (EventsOnly.beside h u.fabric u.clusters).trans g

theorem RouterMoved.raise (s : State) (a b : Nat) (m i : Bool) (p : Nat) : RouterMoved s (s.raise a b m i p) := by
  have h := raise_eventsOnly s a b m i p
  have hsame : { s with fabric := (s.raise a b m i p).fabric, clusters := (s.raise a b m i p).clusters } = s := by
    rw [raise_fabric, raise_clusters]
  rw [RouterMoved, hsame]
  exact h

theorem RouterMoved.modCluster (s : State) (c : Nat) (f : Cluster → Cluster) : RouterMoved s (s.modCluster c f) := EventsOnly.refl _
theorem RouterMoved.modFabric (s : State) (f : Fabric → Fabric) : RouterMoved s (s.modFabric f) := EventsOnly.refl _

theorem RouterMoved.forEach {α : Type} {f : State → α → State} (h : ∀ s a, RouterMoved s (f s a)) (l : List α) (s : State) :
    RouterMoved s (forEach l s f) := forEach_rel RouterMoved.refl RouterMoved.trans h l s

theorem RouterMoved.ite {s t u : State} {p : Prop} [Decidable p] (h : RouterMoved s t) (g : RouterMoved s u) :
    RouterMoved s (if p then t else u) := by
  split
  · exact h
  · exact g

theorem RouterMoved.time {s t : State} (h : RouterMoved s t) : t.time = s.time := by rw [h.1]
theorem RouterMoved.mem {s t : State} (h : RouterMoved s t) : t.mem = s.mem := by rw [h.1]

theorem RouterMoved.routerDrop (s : State) (d src : Nat) : RouterMoved s (s.routerDrop d src) :=
  (RouterMoved.modCluster s d _).trans (.raise ..)

theorem RouterMoved.arrive (s : State) (p : Packet) : RouterMoved s (s.arrive p) := .ite (.routerDrop ..) (.modFabric ..)

theorem RouterMoved.sendPackets (s : State) (c i n : Nat) (r : TaskRun) (late : Bool) : RouterMoved s (s.sendPackets c i n r late) := by
  unfold State.sendPackets
  dsimp only
  split
  · exact .ite (.forEach RouterMoved.arrive _ s) (.refl s)
  · exact .refl s

theorem RouterMoved.sendUpTo (s : State) (c i n : Nat) (r : TaskRun) (late : Bool) : RouterMoved s (s.sendUpTo c i n r late) := by
  unfold State.sendUpTo
  dsimp only
  split
  · exact (RouterMoved.sendPackets s c i n r late).trans (.modCluster ..)
  · exact .refl s

theorem RouterMoved.sendsSoFar (s : State) (whole : Bool) : RouterMoved s (s.sendsSoFar whole) := by
  refine .forEach (fun s c => .forEach (fun s i => ?_) _ s) _ s
  split
  · exact .ite (.sendUpTo ..) (.refl s)
  · exact .refl s

theorem RouterMoved.setPhase (s : State) (i : Nat) (map : Option (List Phase)) : RouterMoved s (s.setPhase i map) :=
  (RouterMoved.modFabric s _).trans (.forEach (fun _ _ => .modCluster ..) _ _)

theorem setPhase_fabric (s : State) (i : Nat) (map : Option (List Phase)) : (s.setPhase i map).fabric
    = { s.fabric with phaseMap := map.getD s.fabric.phaseMap, curPhase := i, phaseAt := s.now, lastPhase := s.phaseNow } :=
  forEach_keeps State.fabric _ (by intro s d; rfl) _ _

/-- The phase after the current one begins once its START_NS has come. -/
theorem phaseStart_begins {s : State} {ph : Phase} (hc : s.clocksOn = true) (hp : s.fabric.phaseMap[s.fabric.curPhase + 1]? = some ph)
    (hat : ph.start ≤ s.inTick) : s.phaseStart.fabric.curPhase = s.fabric.curPhase + 1 ∧ s.phaseStart.fabric.phaseAt = s.now
      ∧ RouterMoved s s.phaseStart := by
  have hsame : s.phaseStart = (s.sendsSoFar false).setPhase (s.fabric.curPhase + 1) none := by
    simp only [State.phaseStart, hc, hp, hat, Bool.not_true, Bool.false_eq_true, if_false, if_true]
  have hsent := RouterMoved.sendsSoFar s false
  rw [hsame]
  refine ⟨congrArg Fabric.curPhase (setPhase_fabric ..), (congrArg Fabric.phaseAt (setPhase_fabric ..)).trans ?_, hsent.trans (.setPhase ..)⟩
  exact congrArg TimeState.clock hsent.time

/-! ## Retuning (R569, R611) -/

/-- A receiver that is taken out of a set of four is not in it. -/
theorem receiver_cleared (x : BitVec 4) (k : Fin 4) : (x &&& ~~~(1#4 <<< k.val)).getLsbD k.val = false := by
  have hk := k.isLt
  simp only [BitVec.getLsbD_and, BitVec.getLsbD_not, BitVec.getLsbD_shiftLeft, BitVec.getLsbD_one, hk, Nat.lt_irrefl, Nat.sub_self]
  simp

theorem retuneFail_loses {s : State} {c : Nat} {k : Fin 4} (he : (s.entrySource s.phaseNow c k).isSome = true) (hr : s.retunes c k = true)
    (h1 : s.fabric.phaseAt + 3000 ≤ s.now) (h2 : s.now ≤ s.fabric.phaseAt + 3050) :
    ((s.retuneFail c k).cluster c).locked.getLsbD k = false ∧ ((s.retuneFail c k).cluster c).router.has 9 = true
      ∧ (s.retuneFail c k).mem = s.mem := by
  have hsome : (s.entrySource s.phaseNow c k).isNone = false := by rw [← Option.not_isSome, he]; rfl
  have hlate : ¬ ((s.entrySource s.phaseNow c k).isNone || !s.retunes c k || decide (s.now < s.fabric.phaseAt + 3000)
      || decide (s.fabric.phaseAt + 3050 < s.now)) = true := by simp [hsome, hr, h1, h2]
  unfold State.retuneFail
  rw [if_neg hlate]
  extract_lets t
  have hcluster : (t.fabricEv (t.cluster c).tenant 0xFF faRetuneFail c noPartner k false).cluster c = t.cluster c :=
    State.cluster_congr (raise_clusters ..) c
  rw [hcluster, State.cluster_modCluster_same]
  exact ⟨receiver_cleared .., W1c.has_hit_same _ (by decide), raise_mem ..⟩

/-! ## Packets (R573, R644) -/

section
variable {s : State} {d k src a : Nat} {data : List Byte} {pk : Packet}
  (hfind : s.fabric.packets.find? (fun q => q.dest == d && q.rx == k) = some pk) (hs : pk.src = src) (ha : pk.addr = a) (hd : pk.data = data)
include hfind hs ha hd

/-- The oldest packet of a receiver has left its buffer. -/
def State.unbuffered (s : State) (pk : Packet) : State := s.modFabric (fun f => { f with packets := f.packets.erase pk })

omit hs ha hd in
theorem unbuffered_length : (s.unbuffered pk).fabric.packets.length + 1 = s.fabric.packets.length :=
  List.length_erase_add_one (List.mem_of_find?_eq_some hfind)

theorem routerReceive_cases : s.routerReceive d k src a data =
    if !s.joins src d then (s.unbuffered pk).routerDrop d src
    else if s.barred d .clusterHaul a data.length then (s.unbuffered pk).routerDrop d src
    else if (s.cluster d).isHeld [(cmKey d (a - 0x100000), data.length)] (fun _ => false) then s
    else (s.unbuffered pk).landBytes d a data := by
  have hany : s.fabric.packets.any (fun q => q.dest == d && q.rx == k) = true :=
    List.any_eq_true.mpr ⟨pk, List.mem_of_find?_eq_some hfind, List.find?_some (p := fun q : Packet => q.dest == d && q.rx == k) hfind⟩
  simp only [State.routerReceive, hany, if_true, hfind, hs, ha, hd, ne_eq, not_true_eq_false, or_self, if_false]
  rfl

omit hs ha hd in
/-- A packet that is dropped sets ROUTER_DROP, and leaves memory. -/
theorem unbuffered_routerDrop (src : Nat) : (((s.unbuffered pk).routerDrop d src).cluster d).router.has 8 = true
    ∧ ((s.unbuffered pk).routerDrop d src).mem = s.mem
    ∧ ((s.unbuffered pk).routerDrop d src).fabric.packets.length + 1 = s.fabric.packets.length := by
  unfold State.routerDrop
  refine ⟨?_, raise_mem .., ?_⟩
  · rw [State.fabricEv, State.cluster_congr (raise_clusters ..), State.cluster_modCluster_same]
    exact W1c.has_hit_same _ (by decide)
  · rw [State.fabricEv, raise_fabric]
    exact unbuffered_length hfind

omit hs ha hd in
/-- A packet that lands is written as it would be from the buffer. -/
theorem unbuffered_landBytes : ((s.unbuffered pk).landBytes d a data).mem = (s.landBytes d a data).mem
    ∧ ((s.unbuffered pk).landBytes d a data).fabric.packets.length + 1 = s.fabric.packets.length := by
  have hgone : SameLanding s (s.unbuffered pk) := ⟨rfl, rfl, rfl, rfl, fun _ => rfl⟩
  refine ⟨(hgone.landBytes d a data).mem, ?_⟩
  rw [landBytes_fabric]
  exact unbuffered_length hfind

end

/-- Settles O53: a port's own record is left alone by what follows its going down or up; a phase and the packets that go before it touch
fabric, clusters and events only; and a router packet is dropped or lands by the branches of ROUTER_RECEIVE. -/
theorem portsAndRouter : Obligations.PortsAndRouter := by
  rintro s dt p c src k u rfl
  refine ⟨fun a hrun hcause => ?_, fun hl hdown hdark hi hr => ⟨_, exec_portUp .., portUp_serves (s := s.elapse dt) hl hdown hdark hi hr⟩,
    fun ph hc hp hat => ⟨_, exec_phaseStart .., phaseStart_begins (s := s.elapse dt) hc hp hat⟩,
    fun he hr h1 h2 => ⟨_, exec_retuneFail .., retuneFail_loses (s := s.elapse dt) he hr h1 h2⟩, fun a data pk hlen hfind hs ha hd => ?_⟩
  · have hlinks : (s.elapse dt).linksOn = true := (Bool.and_eq_true_iff.mp hrun).1
    obtain ⟨hserved, hflag⟩ := service_portOut a.val ((s.elapse dt).isInjected 5 p) hrun
    refine ⟨_, (exec_portDown ..).trans (congrArg _ (portDown_out hcause)), (portOut_port _ _ _ _ hlinks).1, lacp_portOut _ _ hrun, hserved,
      hflag, mem_of_offLinks (s := s.elapse dt) (offLinks_portOut ..)⟩
  · have hcases := routerReceive_cases (s := s.elapse dt) hfind hs ha hd
    have hdrop := unbuffered_routerDrop (s := s.elapse dt) hfind src
    refine ⟨fun hj => ?_, fun hj => ⟨fun hb => ?_, fun hb hh => ?_⟩⟩
    · replace hj : (s.elapse dt).joins src c = false := hj
      exact ⟨_, (exec_routerReceive hlen).trans (congrArg _ (hcases.trans (if_pos (by rw [hj]; rfl)))), hdrop⟩
    · replace hj : (s.elapse dt).joins src c = true := hj
      rw [hj, hb] at hcases
      exact ⟨_, (exec_routerReceive hlen).trans (congrArg _ hcases), hdrop⟩
    · replace hj : (s.elapse dt).joins src c = true := hj
      replace hh : ((s.elapse dt).cluster c).isHeld [(cmKey c (a.toNat - 0x100000), data.length)] (fun _ => false) = false := hh
      rw [hj, hb, hh] at hcases
      exact ⟨_, (exec_routerReceive hlen).trans (congrArg _ hcases), unbuffered_landBytes (s := s.elapse dt) hfind⟩

end Sys2Proof.Machine
end

section
/-! PROOFS. The device commands (R614 to R618, R626 to R628, R699, R716), and the tenant and key commands (R550, R625, R639, R650, R655). -/

namespace Sys2Proof.Machine

section
variable (h : CmdHdr) {f : State}

/-! ## DEV_IDENTIFY, DEV_ATTEST and DEV_SESSION_OPEN (R615 to R619, R626 to R629) -/

theorem cmdDevIdentify_answers {i : Identity} (hi : f.trust.identity = some i) : cmdDevIdentify h f = identityAnswer f i := by
  simp only [cmdDevIdentify, hi]

theorem cmdDevIdentify_derives (hi : f.trust.identity = none) (hlen : h.bulk.length = 3136) (hversion : leAt h.bulk 0 2 = 1)
    (hsize : leAt h.bulk 4 4 = 3136) : cmdDevIdentify h f = Answer.wait f 0 := by
  simp only [cmdDevIdentify, hi, hlen, hversion, hsize, ne_eq, not_true_eq_false, OfNat.ofNat_ne_zero, if_false]

/-- The 416 bytes that DEV_IDENTIFY yields (R618). -/
theorem identityAnswer_out_length (i : Identity) : (identityAnswer f i).out.length = 416 := by
  simp only [identityAnswer, List.length_append, toLe_length]

theorem cmdDevAttest_starts {p : AttestParams} (hak : f.trust.ak.isSome = true) (ht : (f.tenant p.tenant.toNat).exist = true) :
    cmdDevAttest h p f = Answer.wait f 0 := by
  have hkey : f.trust.ak.isNone = false := by rwa [Option.isNone_eq_false_iff]
  simp only [cmdDevAttest, hkey, ht, Bool.not_true, Bool.false_eq_true, if_false]

theorem cmdDevSessionOpen_starts {t : BitVec 4} (hlen : h.bulk.length = (if t = 0 then 384 else 768)) (hxk : f.trust.xk.isSome = true)
    (hnone : (f.tenant t.toNat).session = none) (ht : (f.tenant t.toNat).exist = true) :
    cmdDevSessionOpen h t f = Answer.wait f 0 := by
  have hzero : t.toNat = 0 ↔ t = 0 := BitVec.toNat_inj (y := 0)
  have hkey : f.trust.xk.isNone = false := by rwa [Option.isNone_eq_false_iff]
  simp only [cmdDevSessionOpen, hzero, hlen, hkey, hnone, ht, ne_eq, not_true_eq_false, Option.isSome_none, Bool.not_true,
    Bool.false_eq_true, if_false]

/-! ## DEV_SESSION_CLOSE (R634, R699) -/

theorem session_raise (s : State) (a b : Nat) (m i : Bool) (p k : Nat) :
    ((s.raise a b m i p).tenant k).session = (s.tenant k).session := by
  obtain ⟨-, -, htenant⟩ := raise_eventsOnly s a b m i p
  rw [htenant k]

theorem session_closeSession (s : State) (t reason : Nat) : ((s.closeSession t reason).tenant t).session = none := by
  unfold State.closeSession
  split
  · assumption
  · rw [State.trustEv, session_raise, State.tenant_modTenant_same]

theorem ended_devSessionClose {u : State} {t : TenantId} (ht : h.session = some t) :
    ((f.ended u h .devSessionClose 0 []).tenant t.val).session = none := by
  have hst : sessionTenant h = t.val := by rw [sessionTenant, ht]
  rw [← hst]
  exact session_closeSession ..

end

/-! ## DEV_RESET (R716) -/

section
variable (s : State)

theorem setFw_fw (w : FwState) : (s.setFw w).mbx.fw = w := by
  unfold State.setFw
  split
  · assumption
  · rfl

theorem setFw_trust (w : FwState) : (s.setFw w).trust = s.trust := by
  unfold State.setFw
  split <;> rfl

theorem setFw_fabric (w : FwState) : (s.setFw w).fabric = s.fabric := by
  unfold State.setFw
  split <;> rfl

theorem closeSession_fabric (t reason : Nat) : (s.closeSession t reason).fabric = s.fabric := by
  unfold State.closeSession
  split
  · rfl
  · exact raise_fabric ..

theorem closeAll_fabric (reason : Nat) : (s.closeAll reason).fabric = s.fabric := by
  unfold State.closeAll
  exact forEach_keeps State.fabric _ (fun v t => closeSession_fabric v t reason) _ s

theorem dropKeys_fabric (reason : Nat) : (s.dropKeys reason).fabric = s.fabric := by
  unfold State.dropKeys
  dsimp only
  rw [State.modTrust_fabric, forEach_keeps State.fabric _ _ _ (s.closeAll reason), closeAll_fabric]
  intro v t
  split <;> rfl

/-- The module waits for an image, of which it has nothing, without attestation and exchange keys and without a partner change to come. -/
def State.awaitsImage (s : State) : Prop :=
  s.mbx.fw = .waitImage ∧ s.mbx.image = [] ∧ s.mbx.imageLen = 0 ∧ s.trust.ak = none ∧ s.trust.xk = none ∧ s.fabric.changes = []

theorem setFw_awaitsImage {u : State} (hak : u.trust.ak = none) (hxk : u.trust.xk = none) (hchanges : u.fabric.changes = []) :
    ((u.setFw .waitImage).modMbx (fun m => { m with image := [], imageLen := 0 })).awaitsImage :=
  ⟨setFw_fw .., rfl, rfl, (congrArg Trust.ak (setFw_trust ..)).trans hak, (congrArg Trust.xk (setFw_trust ..)).trans hxk,
    (congrArg Fabric.changes (setFw_fabric ..)).trans hchanges⟩

theorem devReset_awaitsImage : s.devReset.awaitsImage := by
  unfold State.devReset
  exact setFw_awaitsImage rfl rfl (congrArg Fabric.changes (dropKeys_fabric ..))

end

theorem State.awaitsImage.books {u t : State} {r : Nat} (hu : u.awaitsImage) (hb : Books r u t) : t.awaitsImage := by
  obtain ⟨heq, -, -⟩ := hb
  rw [heq]
  exact hu

/-- Settles O6: each command passes its checks and completes or waits; DEV_SESSION_CLOSE closes its session behind its completion, whose
books leave what DEV_RESET did. -/
theorem identityAndSessionCommands : Obligations.IdentityAndSessionCommands := by
  intro s dt h f hf
  refine ⟨?identify, ?derive, ?attest, ?session, ?close, ?reset⟩
  case identify =>
    intro i hr hi hfits
    rw [← identityAnswer_out_length (f := f) i] at hfits
    exact congrArg _ (submit_ended_out hf hr (cmdDevIdentify_answers h hi) hfits)
  case derive => exact fun hr hi hlen hversion hsize => row_staying rfl hf hr (cmdDevIdentify_derives h hi hlen hversion hsize)
  case attest => exact fun p hr hak ht => row_staying rfl hf hr (cmdDevAttest_starts h hak ht)
  case session => exact fun t hr hlen hxk hnone ht => row_staying rfl hf hr (cmdDevSessionOpen_starts h hlen hxk hnone ht)
  case close => exact fun hr => ⟨row_ok rfl hf hr rfl, fun t ht => ended_devSessionClose h ht⟩
  case reset =>
    rintro t hr rfl
    exact ⟨row_ok rfl hf hr rfl, (devReset_awaitsImage f).books (ended_books f f.devReset h .devReset 0 [])⟩

/-! ## Tenants and keys (R550, R625, R639, R650, R655) -/

section
variable (h : CmdHdr) {f : State}

/-- No cluster that a command names awaits its strip. -/
theorem any_strip_eq_false {cs : List Nat} (hcs : ∀ c ∈ cs, (f.cluster c).strip = none) :
    cs.any (fun c => (f.cluster c).strip.isSome) = false := by
  rw [List.any_eq_false]
  intro c hc
  simp [hcs c hc]

theorem cmdTenantCreate_creates {t : BitVec 4} (hlen : h.bulk.length = 384) (h0 : t ≠ 0) (hnew : (f.tenant t.toNat).exist = false) :
    cmdTenantCreate h t f = Answer.ok ((((f.modTenant t.toNat (fun x =>
      { x with exist := true, modulus := h.bulk, genCur := 0, genOld := none })).newPageKey t.toNat 0).trustEv t.toNat trTenantCreated 0xFF
      0).extendCfg h (.tenantCreate t)) := by
  have hzero : ¬ t.toNat = 0 := fun hx => h0 (BitVec.toNat_inj.mp hx)
  simp only [cmdTenantCreate, hlen, if_neg hzero, hnew, ne_eq, not_true_eq_false, Bool.false_eq_true, if_false]

theorem cmdTenantAssign_assigns {m : Dword} {t : BitVec 4} (ht : (f.tenant t.toNat).exist = true)
    (hdel : (f.tenant t.toNat).deleting = false) (hcs : ∀ c ∈ maskBits m, (f.cluster c).strip = none) :
    cmdTenantAssign h m t f = Answer.ok ((forEach ((maskBits m).filter (fun c => decide ((f.cluster c).tenant ≠ t.toNat))) f
      (fun g c => g.scheduleStrip c t.toNat false)).extendCfg h (.tenantAssign m t)) := by
  simp only [cmdTenantAssign, ht, hdel, any_strip_eq_false hcs, Bool.not_true, Bool.false_eq_true, or_self, if_false]

theorem cmdTenantStrip_strips {p : TenantStripParams} {cs : List Nat} (hkeep : p.delete = false)
    (ht : (f.tenant p.tenant.toNat).exist = true) (hcs : cs = (maskBits p.clusters).filter (fun c =>
      ((List.range 64).filter (fun c => decide ((f.cluster c).tenant = p.tenant.toNat))).contains c))
    (hfree : ∀ c ∈ cs, (f.cluster c).strip = none) :
    cmdTenantStrip h p f
      = Answer.ok ((forEach cs f (fun g c => g.scheduleStrip c p.tenant.toNat false)).extendCfg h (.tenantStrip p)) := by
  simp only [cmdTenantStrip, ← hcs, hkeep, ht, any_strip_eq_false hfree, Bool.not_true, Bool.not_false, Bool.false_eq_true, false_and,
    and_false, if_false, if_true]

theorem cmdKeyRotate_takesKey {t : BitVec 4} (hold : (f.tenant t.toNat).genOld = none) (hrot : (f.tenant t.toNat).rotate = none) :
    cmdKeyRotate h t f = Answer.ok ((f.newPageKey t.toNat (((f.tenant t.toNat).genCur + 1) % 256)).modTenant t.toNat (fun x =>
      { x with rotate := some f.leadFrom })) := by
  simp only [cmdKeyRotate, hold, hrot, Option.isSome_none, Bool.false_eq_true, or_self, if_false]

theorem cmdKeyImport_imports {p : KeyImportParams} (h0 : 0 < p.cknLen.toNat) (hmax : p.cknLen.toNat ≤ 32)
    (hlen : h.bulk.length = 32 + p.cknLen.toNat) (hlink : p.ca.toNat < 16 → sessionTenant h = 0)
    (hown : (f.ca p.ca.toNat).cak = none ∨ (f.ca p.ca.toNat).tenant = sessionTenant h) :
    cmdKeyImport h p f = Answer.ok (f.modCa p.ca.toNat (fun _ =>
      { cak := some (h.bulk.take 32), ckn := h.bulk.drop 32, tenant := sessionTenant h, sak := none, txPn := 1, rxPn := 1 })) := by
  have hdenied : ¬ ((p.ca.toNat < 16 ∧ sessionTenant h ≠ 0)
      ∨ ((f.ca p.ca.toNat).cak.isSome = true ∧ (f.ca p.ca.toNat).tenant ≠ sessionTenant h)) := by
    rintro (⟨hport, hother⟩ | ⟨hkey, hother⟩)
    · exact hother (hlink hport)
    · obtain hnone | hmine := hown
      · simp [hnone] at hkey
      · exact hother hmine
  exact (if_neg (Nat.not_lt.mpr hmax)).trans ((if_neg (not_not.mpr hlen)).trans ((if_neg (Nat.pos_iff_ne_zero.mp h0)).trans
    (if_neg hdenied)))

end

/-- Settles O12: each command passes its checks and leaves what its meaning leaves. -/
theorem tenantCommands : Obligations.TenantCommands := by
  intro s dt h f hf
  refine ⟨?create, ?assign, ?strip, ?rotate, ?importKey⟩
  case create => exact fun t hr hlen h0 hnew => row_ok rfl hf hr (cmdTenantCreate_creates h hlen h0 hnew)
  case assign => exact fun m t hr ht hdel hcs => row_ok rfl hf hr (cmdTenantAssign_assigns h ht hdel hcs)
  case strip => exact fun p cs hr hkeep ht hcs hfree => row_ok rfl hf hr (cmdTenantStrip_strips h hkeep ht hcs hfree)
  case rotate => exact fun t hr hold hrot => row_ok rfl hf hr (cmdKeyRotate_takesKey h hold hrot)
  case importKey =>
    exact fun p hr h0 hmax hlen hlink hown => row_ok rfl hf hr (cmdKeyImport_imports h h0 hmax hlen hlink hown)

end Sys2Proof.Machine
end

section
/-! PROOFS. A strip ends where the table of slabs lists a slab twice (R657). A state of the model is plain data, so its table of slabs need not
have rising keys: a read finds the first entry of a slab, and an entry that becomes that of a slab as delivered is no longer listed. -/

namespace Sys2Proof.Machine

theorem exec_stripDone (s : State) (dt : Nat) (c : ClusterId) : exec (.stripDone dt c) s = .next ((s.elapse dt).stripDone c) := rfl

/-- Round 3 of a strip, begun at power-on, that gives a cluster to tenant 0. -/
def lastRound : Strip := { target := 0, notBefore := 0, running := true, startedAt := 0, delete := false }

/-- Cluster 0 strips, with an entry of its slab 0, unsealed and BLANK, and behind it another one of the same slab, SEALED and READY. -/
def slabListedTwice : State :=
  { State.reset.modCluster 0 (fun x => { x with strip := some lastRound }) with
    slabs := [(0, Slab.init), (0, { Slab.init with sealed_ := true, dress := .ready })] }

/-- The first entry goes as that of a slab as delivered, and the second, skipped as SEALED, is the one read from then on. -/
theorem stripDone_slabListedTwice : (((slabListedTwice.elapse 15900000).stripDone 0).slab 0).dress = .ready := by decide +kernel

/-- Refutes O54, in its clause on STRIP_DONE: an unsealed slab of the stripped cluster is READY after it where the table of slabs lists the
slab a second time, as SEALED. The statement has no premise that the table is canonical (`tabWf`). -/
theorem not_keysAndStrips : ¬ Obligations.KeysAndStrips := by
  intro hall
  obtain ⟨-, -, -, hdone⟩ := hall slabListedTwice 15900000 _ rfl
  obtain ⟨t, ht, -, -, -, hblank⟩ := hdone 0 lastRound rfl rfl (by decide) rfl
  rw [exec_stripDone, Host.Outcome.next.injEq] at ht
  subst ht
  obtain ⟨hdress, -⟩ := hblank 0 rfl rfl
  exact DressState.noConfusion (stripDone_slabListedTwice.symm.trans hdress)

end Sys2Proof.Machine
end

section
/-! PROOFS. The books of a command (R674, R680, R681), and a command that the checks before its own refuse (R686, R695, R696). -/

namespace Sys2Proof.Machine

/-! ## Acceptance (R674) -/

theorem openEnvelopes_rings (s : State) (h : CmdHdr) : (s.openEnvelopes h).mbx.rings = s.mbx.rings := by
  have hgood : ∀ (u : State) (t chan : Nat), (u.goodEnvelope t chan).mbx.rings = u.mbx.rings := fun u t chan => useSeq_rings ..
  unfold State.openEnvelopes
  split
  · exact (foldl_keeps (fun u : State => u.mbx.rings) _ (fun u _ => hgood u _ 2) _ _).trans (hgood ..)
  · rfl

/-- The ring of a command that is accepted: its envelopes leave it, and its push counts. -/
theorem ring_taken (s : State) (dt : Nat) (h : CmdHdr) : (s.taken dt h).ring (ringNo h.ring) =
    { s.ring (ringNo h.ring) with pushResult := 0, accepted := (s.ring (ringNo h.ring)).accepted + 1 } := by
  have hserved : ∀ (u : State) (r q : Nat), (u.served r).ring q = u.ring q := by
    intro u r q
    unfold State.served
    split <;> rfl
  have hopen : ((s.elapse dt).openEnvelopes h).ring (ringNo h.ring) = s.ring (ringNo h.ring) := by
    rw [State.ring, openEnvelopes_rings]
    rfl
  rw [State.taken, State.found, hserved, State.pushAccepted, State.ring_modRing_same, hopen]

/-- Settles O4: acceptance, and a completion that is OK. -/
theorem commandBooks : Obligations.CommandBooks := by
  refine ⟨fun s dt h => ⟨taken_books s dt h, ?_, ?_⟩, fun f u h c result out => ⟨ended_books f u h c result out, ended_cpl f u h c result out⟩⟩
  · rw [ring_taken]
  · rw [ring_taken]

/-! ## Refusal (R686, R695, R696) -/

/-- The row of a well-formed command submits it. -/
theorem exec_commandRow {c : HostCmd} (s : State) (dt : Nat) (h : CmdHdr) (hw : (commandRow dt h c).wellFormed = true) :
    exec (commandRow dt h c) s = .next ((s.elapse dt).submit h c) := by
  cases c
  case thermalLimitsSet l => exact exec_thermalLimitsSet s dt h (of_decide_eq_true hw)
  all_goals rfl

/-- A command that is refused on a ring with nothing before it completes at once: there is room for a completion without output. -/
theorem submit_refused {s : State} {dt : Nat} {h : CmdHdr} {c : HostCmd} {e : Nat × Nat} (hlink : s.hostLink = true)
    (hfree : (s.ring (ringNo h.ring)).free ≠ 0) (hopen : s.sessionOpen h = true) (hidle : s.idleRing (ringNo h.ring) = true)
    (hbout : s.mbx.boutFifo.length ≤ 65536) (he : (s.taken dt h).refuses false h c = some e) :
    (s.elapse dt).submit h c = (s.taken dt h).failed h c e.1 e.2 := by
  have hlink' : (s.elapse dt).hostLink = true := hlink
  have hfree' : ((s.elapse dt).ring (ringNo h.ring)).free ≠ 0 := hfree
  have hopen' : (s.elapse dt).sessionOpen h = true := hopen
  have hidle' : (s.elapse dt).idleRing (ringNo h.ring) = true := hidle
  have hanswer : ((s.elapse dt).found h).answer false h c = Answer.errD (s.taken dt h) e.1 e.2 := by
    unfold State.answer
    rw [show ((s.elapse dt).found h).refuses false h c = some e from he]
    rfl
  have hfits : ((s.elapse dt).found h).answerFits none h (Answer.errD (s.taken dt h) e.1 e.2) = true :=
    fits_nil _ h.session false (by rw [show ((s.elapse dt).found h).mbx.boutFifo = s.mbx.boutFifo from taken_bout s dt h]; exact hbout)
  unfold State.submit
  simp only [hlink', hfree', hopen', hidle', hanswer, hfits, Bool.not_true, Bool.false_eq_true, if_false, Bool.or_true, Bool.and_true, if_true]
  rfl

/-- Settles O5. -/
theorem refusedCommandHasNoEffect : Obligations.RefusedCommandHasNoEffect := by
  intro s dt h c e hw hlink hfree hopen hidle hbout he _ _
  exact ⟨(exec_commandRow s dt h hw).trans (congrArg _ (submit_refused hlink hfree hopen hidle hbout he)), failed_books ..⟩

end Sys2Proof.Machine
end

section
/-! PROOFS. Posting a record (R720, R730, R862, R865). -/

namespace Sys2Proof.Machine

/-- Of the event log and of what waits for it, room in a full log moves only positions and LOST totals. -/
theorem dropOldest_mbx (s : State) : s.dropOldest.mbx = s.mbx := by
  unfold State.dropOldest
  split
  · rfl
  · split
    · rfl
    · exact forEach_keeps State.mbx _ (fun u t => by split <;> rfl) _ _

theorem append_mbx (s : State) (e : Event) : (s.append e).mbx = s.mbx.append e := congrArg (fun m : Mailbox => m.append e) (dropOldest_mbx s)

theorem Mailbox.append_log_last (m : Mailbox) (e : Event) : (m.append e).log.getLast? = some (m.logSeq, e) := by
  unfold Mailbox.append
  dsimp only
  split <;> exact List.getLast?_concat ..

/-- A log of no more than its size takes a record as one more, or in the place of its oldest. -/
theorem Mailbox.append_log_length {m : Mailbox} (e : Event) (h : m.log.length ≤ 8192) :
    (m.append e).log.length = min (m.log.length + 1) 8192 := by
  by_cases hroom : m.log.length < Config.logRecords
  · rw [Mailbox.append, if_pos hroom, List.length_append, List.length_singleton]
    exact (min_eq_left (Nat.succ_le_of_lt hroom)).symm
  · have hfull : m.log.length = 8192 := Nat.le_antisymm h (Nat.not_lt.mp hroom)
    rw [Mailbox.append, if_neg hroom, List.length_append, List.length_singleton, List.length_drop, hfull]
    rfl

section
variable {s : State} {e : Event}

theorem post_running (h : s.mbx.fw = .running) : s.post e = s.append e := if_pos h

theorem post_waits (h : s.mbx.fw ≠ .running) (hroom : s.mbx.hwFifo.length < 1024) :
    s.post e = s.modMbx (fun m => { m with hwFifo := m.hwFifo ++ [e] }) := by
  have hroom' : s.mbx.hwFifo.length < Config.hwRecords := hroom
  rw [State.post, if_neg h, State.modMbx, if_pos hroom']
  rfl

theorem post_lost (h : s.mbx.fw ≠ .running) (hfull : 1024 ≤ s.mbx.hwFifo.length) :
    s.post e = s.modMbx (fun m => { m with hwLost := m.hwLost + 1 }) := by
  have hfull' : ¬ s.mbx.hwFifo.length < Config.hwRecords := Nat.not_lt.mpr hfull
  rw [State.post, if_neg h, State.modMbx, if_neg hfull']
  rfl

end

/-- Settles O57. -/
theorem eventsArePosted : Obligations.EventsArePosted := by
  rintro s cls tenant module injected payload e t he rfl
  have hraise : s.raise cls tenant module injected payload = s.post e := by
    rw [he]
    rfl
  rw [hraise]
  refine ⟨fun hrun => ?_, post_waits, post_lost⟩
  rw [post_running hrun, append_mbx]
  exact ⟨s.mbx.append_log_last e, rfl, W1c.has_hit_same _ (by decide), rfl, Mailbox.append_log_length e⟩

end Sys2Proof.Machine
end

section
/-! PROOFS. STATE_READ, STATE_LIST and EVENT_READ (R722, R727, R729 to R731). -/

namespace Sys2Proof.Machine

/-- A command's own row, whose output goes to the F3 window. -/
theorem row_endedF3 {s f u : State} {dt : Nat} {h : CmdHdr} {c : HostCmd} {result : Nat} {out : List Byte}
    (hrow : exec (commandRow dt h c) s = .next ((s.elapse dt).submit h c)) (e : f = s.taken dt h) (hr : Ready s dt h c)
    (ha : runHostCmd c h f = { Answer.okR u result with out := out, f3 := true }) (hf : f.fits h.session true out.length = true) :
    exec (commandRow dt h c) s = .next (f.endedF3 u h c result out) := hrow.trans (congrArg _ (submit_endedF3 e hr ha hf))

section
variable {h : CmdHdr} {f : State}

/-! ## STATE_READ (R722 to R728) -/

/-- Accumulators are marked by a read of their own class, whose objects are data. -/
theorem markAccums_of_not_data {x : ObjClass} {c : Nat} (i n : Nat) (hc : classOf c = some x) (hv : x.vis ≠ .data) : f.markAccums c i n = f := by
  refine if_neg ?_
  rintro rfl
  obtain rfl := Option.some.inj hc
  exact hv rfl

/-- A read of objects of fixed size that no data class holds. -/
theorem readNow_objects {p : StateReadParams} {x : ObjClass} (hc : classOf p.cls.toNat = some x) (hb : x.bytes = false) (hv : x.vis ≠ .data) :
    f.readNow p x = { Answer.okR (f.readObjects p.cls.toNat p.clear p.index.toNat p.count.toNat).2 0 with
      out := (f.readObjects p.cls.toNat p.clear p.index.toNat p.count.toNat).1, f3 := true } := by
  unfold State.readNow
  simp only [hb, hv, markAccums_of_not_data _ _ hc hv, Bool.false_eq_true, if_false]

/-- A STATE_READ that passes its checks and need not wait reads now. -/
theorem cmdStateRead_reads {p : StateReadParams} {x : ObjClass} (hc : classOf p.cls.toNat = some x) (hb : x.bytes = false)
    (hn : 0 < p.count.toNat) (hsize : p.count.toNat * x.size ≤ 32768) (hcount : p.index.toNat + p.count.toNat ≤ x.count)
    (hclear : p.clear = true → x.w1c ≠ [])
    (hmay : ∀ j, j < p.count.toNat → f.readDenied h x p.cls.toNat (p.index.toNat + j) 0 0 = none) (hwait : f.readWait p = none) :
    cmdStateRead h p f = f.readNow p x := by
  have hrange : ¬ (32768 < p.count.toNat * x.size ∨ x.count < p.index.toNat + p.count.toNat) := by omega
  have hflags : ¬ (p.clear = true ∧ x.w1c.isEmpty = true) := fun hw => hclear hw.1 (List.isEmpty_iff.mp hw.2)
  have hdenied : (List.range p.count.toNat).findSome? (fun j => f.readDenied h x p.cls.toNat (p.index.toNat + j) 0 0) = none :=
    List.findSome?_eq_none_iff.mpr (fun j hj => hmay j (List.mem_range.mp hj))
  unfold cmdStateRead
  simp only [hc, hb, hrange, hflags, Nat.ne_of_gt hn, hdenied, hwait, Bool.false_eq_true, if_false]

/-! ## STATE_LIST (R729) -/

theorem cmdStateList_classes {p : StateListParams} (hmax : p.max.toNat ≤ 8192) (hc : p.cls = 0xFFFF) :
    cmdStateList h p f = { Answer.okR f 0 with out := classList.flatMap classRow, f3 := true } := by
  rw [cmdStateList, if_neg (Nat.not_lt.mpr hmax), if_pos (by rw [hc]; rfl)]
  rfl

theorem cmdStateList_objects {p : StateListParams} {x : ObjClass} (hmax : p.max.toNat ≤ 8192) (hc : p.cls ≠ 0xFFFF)
    (hx : classOf p.cls.toNat = some x) : cmdStateList h p f = { Answer.okR f 0 with
      out := (f.listIndices p.cls.toNat x p.start.toNat p.max.toNat).flatMap (fun i => toLe 4 i), f3 := true } := by
  have hc' : ¬ p.cls.toNat = 0xFFFF := fun hn => hc (BitVec.eq_of_toNat_eq hn)
  rw [cmdStateList, if_neg (Nat.not_lt.mpr hmax), if_neg hc', hx]
  rfl

/-! ## EVENT_READ (R730, R731) -/

theorem cmdEventRead_takes {m : BitVec 11} {t : Nat} {r : List (Nat × Event) × Nat} (hm : 0 < m.toNat) (hmax : m.toNat ≤ 1024)
    (ht : t = sessionTenant h) (hr : r = takeRecords t m.toNat (f.tenant t).pos (f.mbx.since (f.tenant t).pos)) :
    cmdEventRead h m f = { Answer.okR (f.modTenant t (fun y => { y with pos := r.2, lost := 0 }))
      (fld 0 32 r.1.length + fld 32 32 ((f.mbx.since r.2).filter (fun y => y.2.readable t)).length + fld 64 32 (f.tenant t).lost) with
        out := r.1.flatMap (fun y => y.2.bytes y.1), f3 := true } := by
  subst ht hr
  have hm' : ¬ m = 0 := fun h0 => absurd hm (by rw [h0]; decide)
  rw [cmdEventRead]
  dsimp only
  rw [if_neg (Nat.not_lt.mpr hmax), if_neg hm']

end

/-- Settles O15, by what each command answers where its checks pass. -/
theorem readCommands : Obligations.ReadCommands := by
  intro s dt h f hf
  refine ⟨?read, ?list, ?events⟩
  case read =>
    intro p x hr hc hb hn hsize hcount hclear hmay hwait hfits hv
    have hread : cmdStateRead h p f = _ := (cmdStateRead_reads hc hb hn hsize hcount hclear hmay hwait).trans (readNow_objects hc hb hv)
    exact row_endedF3 rfl hf hr hread hfits
  case list =>
    intro p out hr hmax hclasses hobjects hfits
    by_cases hc : p.cls = 0xFFFF
    · obtain rfl := hclasses hc
      exact row_endedF3 rfl hf hr (cmdStateList_classes (h := h) hmax hc) hfits
    · obtain ⟨x, hx, rfl⟩ := hobjects hc
      exact row_endedF3 rfl hf hr (cmdStateList_objects (h := h) hmax hc hx) hfits
  case events => exact fun m t r hr hm hmax ht hrec hfits => row_endedF3 rfl hf hr (cmdEventRead_takes hm hmax ht hrec) hfits

end Sys2Proof.Machine
end

section
/-! PROOFS. Pops of completions and the bulk FIFOs (R681, R687, R691). -/

namespace Sys2Proof.Machine

section
variable {s : State} (hl : s.hostLink = true)
include hl

theorem popCpl_oldest {r : Nat} {c : Cpl} {rest : List Cpl} (hc : (s.ring r).cpls = c :: rest) :
    s.popCpl r = { s.modRing r (fun y => { y with cpls := rest }) with sdio := { s.sdio with read := c.wire } } := by
  simp [State.popCpl, hl, hc]

theorem bulkIn_takes (bytes : List Byte) : s.bulkIn bytes = s.modMbx (fun m => { m with
    binFifo := m.binFifo ++ bytes.take (524288 - m.binFifo.length)
    int := if 524288 - m.binFifo.length < bytes.length then m.int.hit 8 else m.int }) := by
  simp [State.bulkIn, State.modMbx, W1c.hitIf, hl]

theorem bulkRead_takes (n : Nat) : s.bulkRead n = { s.modMbx (fun m => { m with boutFifo := m.boutFifo.drop n }) with
    sdio := { s.sdio with read := s.mbx.boutFifo.take n } } := by
  simp [State.bulkRead, hl]

end

theorem exec_bulkInWrite (s : State) (dt : Nat) (bytes : List Byte) :
    exec (.bulkInWrite dt bytes) s = .next ((s.elapse dt).bulkIn bytes) := rfl
theorem exec_bulkOutRead (s : State) (dt n : Nat) : exec (.bulkOutRead dt n) s = .next ((s.elapse dt).bulkRead n) := rfl

/-- Settles O19. -/
theorem fifoAccess : Obligations.FifoAccess := by
  rintro s dt u rfl hl
  have hl' : (s.elapse dt).hostLink = true := hl
  refine ⟨fun r c rest hc => ?pop, fun bytes => ?write, fun n => ?read⟩
  case pop => exact (exec_cplPortPop ..).trans (congrArg _ (popCpl_oldest hl' hc))
  case write => exact (exec_bulkInWrite ..).trans (congrArg _ (bulkIn_takes hl' bytes))
  case read => exact (exec_bulkOutRead ..).trans (congrArg _ (bulkRead_takes hl' n))

end Sys2Proof.Machine
end

section
/-! PROOFS. The card interface (R667 to R669, R751, R839). -/

namespace Sys2Proof.Machine

section
variable {s : State}

theorem cmd5_awake (b : Bool) (ha : s.cardAnswers = true) (hp : s.power.pstate ≠ .ps5) :
    s.cmd5 b = { s with sdio := { s.sdio with s18 := (b && !s.sdio.v18) || s.sdio.s18 } } := by
  have hwake : s.wake = s := if_neg hp
  simp only [State.cmd5, ha, hwake, Bool.not_true, Bool.false_eq_true, if_false]

/-- A dormant module wakes from point W. -/
theorem cmd5_wakes (b : Bool) (ha : s.cardAnswers = true) (hp : s.power.pstate = .ps5) :
    (s.cmd5 b).power.boot = .sensors ∧ (s.cmd5 b).power.pstate = .ps0 := by
  have hwake : s.wake = s.modPower (fun p => { p with pstate := .ps0, boot := .sensors, pointW := s.now, checkedAt := none }) := if_pos hp
  simp only [State.cmd5, ha, hwake, Bool.not_true, Bool.false_eq_true, if_false]
  exact ⟨rfl, rfl⟩

theorem cmd11_lowers (ha : s.cardAnswers = true) (h18 : s.sdio.s18 = true) (hp : s.power.pstate ≠ .ps5) :
    s.cmd11 = { s with sdio := { s.sdio with v18 := true } } := by
  simp [State.cmd11, ha, h18, hp]

/-- The row of a byte written, once the card answers and its functions are ready. -/
theorem exec_sdioCmd52 (dt : Nat) (a : BitVec 17) (v : Byte) (ha : s.cardAnswers = true) (hready : s.sdio.ioReady = true) :
    exec (.sdioCmd52 dt a v) s = .next { s.elapse dt with sdio := (s.elapse dt).sdio.write a.toNat v } := by
  have hon : ((s.elapse dt).cardAnswers && (s.elapse dt).sdio.ioReady) = true := Bool.and_eq_true_iff.mpr ⟨ha, hready⟩
  exact congrArg _ (if_pos hon)

end

theorem exec_sdioCmd5 (s : State) (dt : Nat) (b : Bool) : exec (.sdioCmd5 dt b) s = .next ((s.elapse dt).cmd5 b) := rfl
theorem exec_sdioCmd11 (s : State) (dt : Nat) : exec (.sdioCmd11 dt) s = .next (s.elapse dt).cmd11 := rfl

/-- Settles O22. -/
theorem cardInterface : Obligations.CardInterface := by
  rintro s dt u rfl
  refine ⟨fun b ha hp => ?granted, fun b ha hp => ⟨_, exec_sdioCmd5 .., cmd5_wakes b ha hp⟩, fun ha h18 hp => ?lowered, rfl, rfl,
    fun a v ha hready => exec_sdioCmd52 dt a v ha hready⟩
  case granted => exact (exec_sdioCmd5 ..).trans (congrArg _ (cmd5_awake b ha hp))
  case lowered => exact (exec_sdioCmd11 ..).trans (congrArg _ (cmd11_lowers ha h18 hp))

end Sys2Proof.Machine
end

section
/-! PROOFS. Pushes to a ring, in clear and sealed (R630 to R633, R676 to R679): what the host seals under its key opens to what it sealed. -/

namespace Sys2Proof.Machine

/-! ## Bytes and numbers -/

theorem toLe_leNat (l : List Byte) : toLe l.length (leNat l) = l := by
  induction l with
  | nil => rfl
  | cons b l ih =>
    have hb := b.isLt
    have hbyte : BitVec.ofNat 8 (b.toNat + 256 * leNat l) = b := BitVec.eq_of_toNat_eq (by simp; omega)
    have hrest : (b.toNat + 256 * leNat l) / 256 = leNat l := by omega
    rw [List.length_cons, leNat, toLe, hbyte, hrest, ih]

/-- Little-endian bytes hold a value as far as they go. -/
theorem toLe_mod (n v : Nat) : toLe n (v % 2 ^ (8 * n)) = toLe n v := by
  have h := toLe_leNat (toLe n v)
  rwa [toLe_length, leNat_toLe] at h

theorem beNat_reverse (l : List Byte) : beNat l.reverse = leNat l := by
  unfold beNat
  rw [List.foldl_reverse]
  induction l with
  | nil => rfl
  | cons b l ih => rw [List.foldr_cons, ih, leNat, Nat.mul_comm, Nat.add_comm]

/-- A value read where its bytes lie. -/
theorem leAt_toLe {l a b : List Byte} {o n v : Nat} (hl : l = a ++ (toLe n v ++ b)) (ho : a.length = o) : leAt l o n = v % 2 ^ (8 * n) := by
  rw [leAt, hl, ← ho, List.drop_left, List.take_left' (toLe_length ..), leNat_toLe]

/-! ## Counter mode (NIST SP 800-38D) -/

/-- The bytes of `n` blocks in counter mode, from counter `j` on. -/
def streamed (w : List Nat) (j n : Nat) (l : List Byte) : List Byte :=
  (gcmStream w j (gcmBlocks n l)).flatMap (fun x => (toLe 16 x).reverse)

/-- The first block, where it is whole, and the others. -/
theorem streamed_succ (w : List Nat) (j n : Nat) {l : List Byte} (h : 16 ≤ l.length) :
    streamed w j (n + 1) l = (toLe 16 (beNat (l.take 16) ^^^ aesBlock w j)).reverse ++ streamed w (j + 1) n (l.drop 16) := by
  rw [streamed, gcmBlocks, Nat.sub_eq_zero_of_le h, List.replicate_zero, List.append_nil]
  rfl

theorem streamed_length (w : List Nat) (j n : Nat) (l : List Byte) : (streamed w j n l).length = 16 * n := by
  induction n generalizing j l with
  | zero => rfl
  | succ n ih =>
    rw [streamed, gcmBlocks, gcmStream, List.flatMap_cons, List.length_append, List.length_reverse, toLe_length]
    have hrest : ((gcmStream w (j + 1) (gcmBlocks n (l.drop 16))).flatMap (fun x => (toLe 16 x).reverse)).length = 16 * n := ih ..
    rw [hrest]
    omega

/-- A block under the same key stream twice is the block. -/
theorem block_twice {l : List Byte} (h : l.length = 16) (k : Nat) :
    (toLe 16 (beNat (toLe 16 (beNat l ^^^ k)).reverse ^^^ k)).reverse = l := by
  have hbe : beNat l = leNat l.reverse := by rw [← beNat_reverse, List.reverse_reverse]
  have hxor : ((beNat l ^^^ k) % 2 ^ (8 * 16) ^^^ k) % 2 ^ (8 * 16) = beNat l % 2 ^ (8 * 16) := by
    rw [Nat.xor_mod_two_pow, Nat.mod_mod, ← Nat.xor_mod_two_pow, Nat.xor_assoc, Nat.xor_self, Nat.xor_zero]
  rw [beNat_reverse, leNat_toLe, ← toLe_mod, hxor, toLe_mod, hbe, show 16 = l.reverse.length by rw [List.length_reverse, h], toLe_leNat,
    List.reverse_reverse]

theorem streamed_twice (w : List Nat) (j n : Nat) {l : List Byte} (h : l.length = 16 * n) : streamed w j n (streamed w j n l) = l := by
  induction n generalizing j l with
  | zero =>
    obtain rfl := List.eq_nil_of_length_eq_zero h
    rfl
  | succ n ih =>
    have hfirst : (l.take 16).length = 16 := by rw [List.length_take, h]; omega
    have hrest : (l.drop 16).length = 16 * n := by rw [List.length_drop, h]; omega
    have hblock : (toLe 16 (beNat (l.take 16) ^^^ aesBlock w j)).reverse.length = 16 := by rw [List.length_reverse, toLe_length]
    rw [streamed_succ w j n (l := l) (by omega), streamed_succ w j n (by rw [List.length_append, hblock]; omega), List.take_left' hblock,
      List.drop_left' hblock, block_twice hfirst, ih (j + 1) hrest, List.take_append_drop]

theorem gcmCrypt_whole (w : List Nat) (nonce : List Byte) {n : Nat} {l : List Byte} (h : l.length = 16 * n) :
    gcmCrypt w nonce l = streamed w (beNat nonce * 2 ^ 32 + 2) n l := by
  have hblocks : ceilDiv l.length 16 = n := by rw [h, ceilDiv]; omega
  rw [gcmCrypt, hblocks]
  exact List.take_of_length_le (by rw [h]; exact (streamed_length ..).le)

/-- What is sealed in whole blocks opens under the same key, nonce and additional data. -/
theorem gcmOpen_sealed (key nonce aad : List Byte) {n : Nat} {plain : List Byte} (h : plain.length = 16 * n) :
    gcmOpen key nonce aad (gcmCrypt (aesSchedule key) nonce plain)
      (gcmTag (aesSchedule key) nonce aad (gcmCrypt (aesSchedule key) nonce plain)) = some plain := by
  have hcipher : (gcmCrypt (aesSchedule key) nonce plain).length = 16 * n := by rw [gcmCrypt_whole _ _ h, streamed_length]
  refine (if_pos rfl).trans (congrArg some ?_)
  rw [gcmCrypt_whole _ _ hcipher, gcmCrypt_whole _ _ h, streamed_twice _ _ _ h]

/-! ## Envelopes (R631) -/

section
variable {key : BitVec 256} {t chan seq : Nat} {plain : List Byte}

theorem envHeader_length (t chan len seq : Nat) : (envHeader t chan len seq).length = 16 := rfl

theorem envelope_parts : envelope key t chan seq plain = envHeader t chan plain.length seq
    ++ (gcmCrypt (aesSchedule (toLe 32 key.toNat)) (envNonce chan seq) plain
      ++ gcmTag (aesSchedule (toLe 32 key.toNat)) (envNonce chan seq) (envHeader t chan plain.length seq)
        (gcmCrypt (aesSchedule (toLe 32 key.toNat)) (envNonce chan seq) plain)) := rfl

theorem envelope_length {n : Nat} (h : plain.length = 16 * n) : (envelope key t chan seq plain).length = 32 + 16 * n := by
  have htag : ∀ (w : List Nat) (a b c : List Byte), (gcmTag w a b c).length = 16 := fun _ _ _ _ => by
    rw [gcmTag, List.length_reverse, toLe_length]
  rw [envelope_parts, List.length_append, List.length_append, envHeader_length, gcmCrypt_whole _ _ h, streamed_length, htag]
  omega

/-- The first byte gives the session and the channel. -/
theorem envelope_first (ht : t < 16) (hc : chan < 16) : leAt (envelope key t chan seq plain) 0 1 = t + 16 * chan := by
  have hbyte : leAt (envelope key t chan seq plain) 0 1 = (t + 16 * chan) % 2 ^ (8 * 1) := leAt_toLe (a := []) rfl rfl
  omega

theorem envSession_envelope (ht : t < 16) (hc : chan < 16) : envSession (envelope key t chan seq plain) = t := by
  rw [envSession, envelope_first ht hc]
  omega

theorem envChannel_envelope (ht : t < 16) (hc : chan < 16) : envChannel (envelope key t chan seq plain) = chan := by
  rw [envChannel, envelope_first ht hc]
  omega

theorem envLength_envelope (h : plain.length < 2 ^ 16) : envLength (envelope key t chan seq plain) = plain.length :=
  (leAt_toLe (a := [BitVec.ofNat 8 (t + 16 * chan), 0]) rfl rfl).trans (Nat.mod_eq_of_lt h)

theorem envSeq_envelope (h : seq < 2 ^ 64) : envSeq (envelope key t chan seq plain) = seq :=
  (leAt_toLe (a := [BitVec.ofNat 8 (t + 16 * chan), 0] ++ toLe 2 plain.length ++ toLe 4 0) rfl rfl).trans (Nat.mod_eq_of_lt h)

/-- The reserved bytes of the header are zero. -/
theorem envelope_reserved : leAt (envelope key t chan seq plain) 1 1 = 0 ∧ leAt (envelope key t chan seq plain) 4 4 = 0 :=
  ⟨leAt_toLe (a := [BitVec.ofNat 8 (t + 16 * chan)]) (v := 0) rfl rfl,
    leAt_toLe (a := [BitVec.ofNat 8 (t + 16 * chan), 0] ++ toLe 2 plain.length) (v := 0) rfl rfl⟩

/-- The host's envelope of whole blocks opens on its session and channel. -/
theorem openEnv_envelope {s : State} {x : Session} {n : Nat} (hs : (s.tenant t).session = some x) (ht : t < 16) (hc : chan < 16)
    (hq : seq < 2 ^ 64) (hn : plain.length = 16 * n) (hlen : plain.length < 2 ^ 16) :
    s.openEnv t chan (envelope x.keyIn t chan seq plain) = some plain := by
  obtain ⟨hr1, hr4⟩ := envelope_reserved (key := x.keyIn) (t := t) (chan := chan) (seq := seq) (plain := plain)
  have hcipher : (gcmCrypt (aesSchedule (toLe 32 x.keyIn.toNat)) (envNonce chan seq) plain).length = plain.length := by
    rw [gcmCrypt_whole _ _ hn, streamed_length, hn]
  have hheader := envHeader_length t chan plain.length seq
  unfold State.openEnv
  simp only [hs, envSession_envelope ht hc, envChannel_envelope ht hc, hr1, hr4, envLength_envelope hlen, envSeq_envelope hq, ne_eq,
    not_true_eq_false, or_self, if_false]
  have hbody := envelope_parts (key := x.keyIn) (t := t) (chan := chan) (seq := seq) (plain := plain)
  rw [← List.drop_drop, hbody, List.take_left' hheader, List.drop_left' hheader, List.take_left' hcipher, List.drop_left' hcipher,
    List.take_of_length_le (by rw [gcmTag, List.length_reverse, toLe_length]), gcmOpen_sealed _ _ _ hn]

end

/-! ## Envelopes that are discarded (R633, R634) -/

section
variable (s : State)

theorem tenant_raise_badTag (a b : Nat) (m i : Bool) (p k : Nat) : ((s.raise a b m i p).tenant k).badTag = (s.tenant k).badTag := by
  rw [(raise_eventsOnly s a b m i p).2.2 k]

theorem tenant_closeSession_badTag (t reason k : Nat) : ((s.closeSession t reason).tenant k).badTag = (s.tenant k).badTag := by
  rw [(closeSession_books 0 s t reason).2.1 k]

theorem badEnvelope_rings (t : Nat) (seq : Bool) : (s.badEnvelope t seq).mbx.rings = s.mbx.rings := by
  unfold State.badEnvelope
  dsimp only
  split
  · split
    · exact closeSession_rings ..
    · rfl
  · rfl

theorem badEnvelope_badTag (t : Nat) : ((s.badEnvelope t false).tenant t).badTag = (s.tenant t).badTag + 1 := by
  unfold State.badEnvelope
  extract_lets u
  have hu : (u.tenant t).badTag = (s.tenant t).badTag + 1 := by
    unfold u
    rw [State.tenant_modTenant_same]
    rfl
  split
  · split
    · exact (tenant_closeSession_badTag ..).trans hu
    · exact hu
  · exact hu

end

/-! ## Pushes (R676 to R679) -/

theorem exec_cmdPortPush (s : State) (dt : Nat) (r : Ring) (bytes : List Byte) :
    exec (.cmdPortPush dt r bytes) s = .next ((s.elapse dt).pushClear (ringNo r) bytes) := rfl
theorem exec_sealedPortPush (s : State) (dt : Nat) (r : Ring) (bytes : List Byte) :
    exec (.sealedPortPush dt r bytes) s = .next ((s.elapse dt).pushSealed (ringNo r) bytes) := rfl

section
variable {s : State} {r : Nat} {bytes : List Byte}

/-- A command that is accepted joins the commands of its ring. -/
theorem ring_joined (a : Accepted) : ((s.pushAccepted r).queueCmd r a).ring r =
    { s.ring r with pushResult := 0, accepted := (s.ring r).accepted + 1, cmds := (s.ring r).cmds ++ [a] } := by
  rw [State.queueCmd, State.ring_modRing_same, State.pushAccepted, State.ring_modRing_same]

theorem joined_books (a : Accepted) : Books r s ((s.pushAccepted r).queueCmd r a) := (Books.modRing r _).trans (Books.modRing r _)

variable (hl : s.hostLink = true)
include hl

theorem pushClear_length (h : bytes.length ≠ 64) : s.pushClear r bytes = s.pushed r 3 := by
  simp [State.pushClear, hl, h]

theorem pushClear_full (h : bytes.length = 64) (hfull : (s.ring r).free = 0) : s.pushClear r bytes = s.pushBusy r := by
  simp [State.pushClear, hl, h, hfull]

theorem pushClear_joins (h : bytes.length = 64) (hfree : (s.ring r).free ≠ 0) : s.pushClear r bytes =
    (s.pushAccepted r).queueCmd r { bytes := bytes, session := none, headAt := s.now, relay := none, direct := false, bulk := [] } := by
  simp [State.pushClear, hl, h, hfree]

theorem pushSealed_length (h : bytes.length ≠ 96) : s.pushSealed r bytes = s.pushed r 3 := by
  simp [State.pushSealed, hl, h]

theorem pushSealed_full (h : bytes.length = 96) (hfull : (s.ring r).free = 0) : s.pushSealed r bytes = s.pushBusy r := by
  simp [State.pushSealed, hl, h, hfull]

/-- An envelope that does not authenticate is discarded. -/
theorem pushSealed_bad (h : bytes.length = 96) (hfree : (s.ring r).free ≠ 0) (hlen : envLength bytes ≤ 64)
    (hopen : s.openEnv (envSession bytes) 0 bytes = none) :
    s.pushSealed r bytes = (s.badEnvelope (envSession bytes) false).pushed r 0xE := by
  simp [State.pushSealed, hl, h, hfree, Nat.not_lt.mpr hlen, hopen]

/-- An envelope of 64 bytes that opens, with the next sequence number, joins with its plaintext. -/
theorem pushSealed_joins {plain : List Byte} (h : bytes.length = 96) (hfree : (s.ring r).free ≠ 0) (hlen : envLength bytes = 64)
    (hopen : s.openEnv (envSession bytes) 0 bytes = some plain) (hnext : s.envNext (envSession bytes) 0 bytes = true) :
    s.pushSealed r bytes = ((s.goodEnvelope (envSession bytes) 0).pushAccepted r).queueCmd r
      { bytes := plain, session := some (Fin.ofNat 16 (envSession bytes)), headAt := (s.goodEnvelope (envSession bytes) 0).now,
        relay := none, direct := false, bulk := [] } := by
  simp [State.pushSealed, hl, h, hfree, hlen, hopen, hnext]

end

/-- The envelope that the host seals under its key for the next sequence number is accepted with its plaintext. -/
theorem pushSealed_envelope {s : State} {r n : Nat} {x : Session} {plain : List Byte} (hl : s.hostLink = true) (hfree : (s.ring r).free ≠ 0)
    (hlen : plain.length = 64) (hn : n < 16) (hx : (s.tenant n).session = some x) (hq : tabGet 0 x.seq 0 < 2 ^ 64) :
    Books r s (s.pushSealed r (envelope x.keyIn n 0 (tabGet 0 x.seq 0) plain))
      ∧ (s.pushSealed r (envelope x.keyIn n 0 (tabGet 0 x.seq 0) plain)).ring r = { s.ring r with
          pushResult := 0, accepted := (s.ring r).accepted + 1
          cmds := (s.ring r).cmds ++ [{ bytes := plain, session := some (Fin.ofNat 16 n), headAt := s.now, relay := none, direct := false, bulk := [] }] } := by
  generalize hb : envelope x.keyIn n 0 (tabGet 0 x.seq 0) plain = bytes
  have hsession : envSession bytes = n := hb ▸ envSession_envelope hn (by decide)
  have hlength : bytes.length = 96 := hb ▸ envelope_length (n := 4) hlen
  have hplain : envLength bytes = 64 := hb ▸ (envLength_envelope (by omega)).trans hlen
  have hopen : s.openEnv n 0 bytes = some plain := hb ▸ openEnv_envelope (n := 4) hx hn (by decide) hq hlen (by omega)
  have hnext : s.envNext n 0 bytes = true := by
    unfold State.envNext
    rw [hx]
    exact decide_eq_true (hb ▸ envSeq_envelope hq)
  have hgood := goodEnvelope_books r s n 0
  have hring : (s.goodEnvelope n 0).ring r = s.ring r := by
    have hrings : (s.goodEnvelope n 0).mbx.rings = s.mbx.rings := useSeq_rings ..
    rw [State.ring, hrings]
    rfl
  have hnow : (s.goodEnvelope n 0).now = s.now := by rw [hgood.1]; rfl
  rw [pushSealed_joins hl hlength hfree hplain (hsession ▸ hopen) (hsession ▸ hnext), hsession]
  refine ⟨hgood.trans (joined_books _), ?_⟩
  rw [ring_joined, hring, hnow]

/-- Settles O18. -/
theorem portPushes : Obligations.PortPushes := by
  rintro s dt r u rfl hl
  have hl' : (s.elapse dt).hostLink = true := hl
  refine ⟨fun bytes h hfree => ?joins, fun bytes h hfull => ?busy, fun bytes h => ?length, fun bytes h hfull => ?sealedBusy,
    fun bytes h => ?sealedLength, fun plain n x q hlen hfree hn hx hq hbound => ?sealedJoins, fun bytes n h hfree hn hlen hopen => ?bad⟩
  case joins =>
    refine ⟨_, (exec_cmdPortPush ..).trans (congrArg _ (pushClear_joins hl' h hfree)), joined_books _, ?_⟩
    rw [ring_joined]
    rfl
  case busy => exact (exec_cmdPortPush ..).trans (congrArg _ (pushClear_full hl' h hfull))
  case length => exact (exec_cmdPortPush ..).trans (congrArg _ (pushClear_length hl' h))
  case sealedBusy => exact (exec_sealedPortPush ..).trans (congrArg _ (pushSealed_full hl' h hfull))
  case sealedLength => exact (exec_sealedPortPush ..).trans (congrArg _ (pushSealed_length hl' h))
  case sealedJoins =>
    subst hq
    exact ⟨_, exec_sealedPortPush .., pushSealed_envelope hl' hfree hlen hn hx hbound⟩
  case bad =>
    subst hn
    refine ⟨_, (exec_sealedPortPush ..).trans (congrArg _ (pushSealed_bad hl' h hfree hlen hopen)), ?_, ?_, badEnvelope_badTag ..⟩
    · rw [State.pushed, State.ring_modRing_same]
    · rw [State.pushed, State.ring_modRing_same, State.ring, badEnvelope_rings]
      rfl

end Sys2Proof.Machine
end

section
/-! PROOFS. Transfers that end with a lost stack or die leave the time, the record of what is lost, the firmware and the plans (R88, R495 to R507,
R530, R861). -/

namespace Sys2Proof.Machine

/-- What a haul leaves of a state, however it ends: the time, the stacks and dies that are lost, the firmware, and the active plans. -/
def State.hauled (s : State) : TimeState × List (Nat × Option Nat) × List Nat × FwState × (Nat → Option Plan) :=
  (s.time, s.hbmLost, s.fabric.groupLost, s.mbx.fw, fun c => (s.cluster c).active)

section
variable {s t : State}

theorem time_of_hauled (h : t.hauled = s.hauled) : t.time = s.time := congrArg Prod.fst h
theorem hbmLost_of_hauled (h : t.hauled = s.hauled) : t.hbmLost = s.hbmLost := (congrArg (fun x => x.2.1) h :)
theorem groupLost_of_hauled (h : t.hauled = s.hauled) : t.fabric.groupLost = s.fabric.groupLost := (congrArg (fun x => x.2.2.1) h :)
theorem fw_of_hauled (h : t.hauled = s.hauled) : t.mbx.fw = s.mbx.fw := (congrArg (fun x => x.2.2.2.1) h :)

/-- The tasks of the plans in force stay. -/
theorem task_of_hauled (h : t.hauled = s.hauled) (c i : Nat) : (t.cluster c).task i = (s.cluster c).task i := by
  have ha : (t.cluster c).active = (s.cluster c).active := congrFun (congrArg (fun x => x.2.2.2.2) h) c
  rw [Cluster.task, ha, Cluster.task]

theorem hauled_ite {p : Prop} [Decidable p] {u : State} (ht : t.hauled = s.hauled) (hu : u.hauled = s.hauled) :
    (if p then t else u).hauled = s.hauled := by
  split
  · exact ht
  · exact hu

end

section
variable (s : State)

theorem hauled_forEach {α : Type} {f : State → α → State} (h : ∀ s a, (f s a).hauled = s.hauled) (l : List α) (s : State) :
    (forEach l s f).hauled = s.hauled := forEach_keeps State.hauled f h l s

theorem hauled_raise (a b : Nat) (m i : Bool) (p : Nat) : (s.raise a b m i p).hauled = s.hauled := by
  rw [(raise_eventsOnly s a b m i p).1]
  rfl

theorem hauled_modCluster (c : Nat) {f : Cluster → Cluster} (hf : ∀ x, (f x).active = x.active) : (s.modCluster c f).hauled = s.hauled := by
  have hplans : ∀ d, ((s.modCluster c f).cluster d).active = (s.cluster d).active := by
    intro d
    by_cases h : d = c
    · rw [h, State.cluster_modCluster_same, hf]
    · rw [State.cluster_modCluster_other _ _ h]
  exact congrArg (fun g : Nat → Option Plan => (s.time, s.hbmLost, s.fabric.groupLost, s.mbx.fw, g)) (funext hplans)

/-! ## Writes -/

theorem hauled_storeTagged (k : Nat) (bs : List Byte) (t : Option Tag) : (s.storeTagged k bs t).hauled = s.hauled := by
  unfold State.storeTagged State.setTags
  split
  · rfl
  · exact hauled_ite rfl rfl

theorem hauled_writeAt (c core addr : Nat) (bs : List Byte) (t : Option Tag) : (s.writeAt c core addr bs t).hauled = s.hauled := by
  unfold State.writeAt
  split
  · rfl
  · exact hauled_ite (hauled_storeTagged ..) (hauled_forEach (fun s _ => hauled_ite (hauled_storeTagged ..) rfl) _ s)

theorem hauled_hubWrite {f : State → State} (k n : Nat) (h : ∀ u, (f u).hauled = u.hauled) : (s.hubWrite k n f).hauled = s.hauled := by
  unfold State.hubWrite
  refine hauled_ite rfl (hauled_ite (h s) ?_)
  extract_lets a e first both
  have hfirst : first.hauled = s.hauled := hauled_ite rfl rfl
  have hboth : both.hauled = first.hauled := hauled_ite rfl rfl
  have hseal : ∀ (u : State) (i j key : Nat), (u.sealLines i j key).hauled = u.hauled := fun _ _ _ _ => hauled_ite rfl rfl
  exact (hseal ..).trans ((h both).trans (hboth.trans hfirst))

theorem hauled_haulWrite (c k : Nat) (bs : List Byte) : (s.haulWrite c k bs).hauled = s.hauled :=
  hauled_ite (hauled_ite rfl (hauled_hubWrite s _ _ (fun _ => rfl))) rfl

theorem hauled_sideWrite (c core : Nat) (x : Side) (bs : List Byte) (t : Option Tag) : (s.sideWrite c core x bs t).hauled = s.hauled := by
  unfold State.sideWrite
  split
  · rfl
  · exact hauled_haulWrite ..
  · split
    · exact hauled_forEach (by intro u j; rfl) _ s
    · exact hauled_writeAt ..

theorem hauled_sideMark (c core : Nat) (x : Side) (n : Nat) : (s.sideMark c core x n).hauled = s.hauled := by
  unfold State.sideMark
  split
  · split <;> rfl
  · rfl

/-! ## Rows and tiles -/

theorem hauled_copyBytes (c core : Nat) (a b : Side) (n : Nat) : (s.copyBytes c core a b n).1.hauled = s.hauled :=
  foldl_keeps (fun acc : State × Option Tag => acc.1.hauled) _
    (by intro acc p; exact (hauled_sideWrite ..).trans (hauled_sideMark ..)) _ (s, none)

theorem hauled_copyTile (c core : Nat) (a b : Side) (late : Bool) : (s.copyTile c core a b late).1.hauled = s.hauled :=
  (hauled_copyBytes ..).trans ((hauled_sideWrite ..).trans (hauled_sideMark ..))

theorem hauled_haulMove (c i pass n : Nat) (late : Bool) : (s.haulMove c i pass n late).1.hauled = s.hauled := by
  refine foldl_keeps (fun acc : State × Option Tag => acc.1.hauled) _ (fun acc u => ?_) _ (s, none)
  dsimp only
  split
  · exact hauled_copyTile ..
  · exact hauled_copyBytes ..

theorem hauled_underEntry (c i : Nat) {f : State → State × Option Tag} (h : ∀ u, (f u).1.hauled = u.hauled) :
    (s.underEntry c i f).1.hauled = s.hauled := by
  unfold State.underEntry
  dsimp only
  split
  · exact h s
  · exact h (s.setPage _ _)

theorem hauled_clashHaul (c i pass : Nat) (l : List Clashed) : (s.clashHaul c i pass l).hauled = s.hauled :=
  (hauled_forEach (fun _ _ => hauled_writeAt ..) _ _).trans (hauled_forEach (fun _ _ => hauled_forEach (fun _ _ => hauled_sideWrite ..) _ _) _ s)

/-- The first units of a fill that is cancelled. -/
theorem hauled_movePlain (c i pass n : Nat) : (s.movePlain c i pass n).hauled = s.hauled := by
  refine foldl_keeps State.hauled _ (fun u w => ?_) _ s
  dsimp only
  split
  · exact hauled_writeAt ..
  · rfl

/-! ## The end of a haul (R88, R311, R875) -/

theorem hauled_complete (c i : Nat) (r : TaskRun) (t : Option Tag) : (s.complete c i r t).hauled = s.hauled := by
  have hdone : ∀ x : Cluster, (((x.logOutput i r.pass t).setRun i (r.over t)).finishSlots i r).active = x.active := by
    intro x
    rw [Cluster.finishSlots_active]
    rfl
  have hmiss : ∀ (u : State) (cause tag late skipped : Nat), (u.miss c cause tag late skipped).hauled = u.hauled := by
    intro u cause tag late skipped
    unfold State.miss
    extract_lets x v
    exact (hauled_modCluster v c (by intro; rfl)).trans (hauled_raise ..)
  obtain ⟨u, rfl, h | ⟨tag, n, h⟩⟩ := complete_cases s c i r t
  · rw [h, hauled_modCluster s c hdone]
  · rw [h, hmiss, hauled_modCluster s c hdone]

theorem hauled_stopped (c i : Nat) (r : TaskRun) (t : Option Tag) : (s.stopped c i r t).hauled = s.hauled := by
  refine hauled_modCluster s c (fun x => ?_)
  dsimp only
  rw [Cluster.readDone_active, Cluster.freeSlots_active]
  rfl

theorem hauled_stopHaul (c i : Nat) (r : TaskRun) (late : Bool) : (s.stopHaul c i r late).hauled = s.hauled := by
  unfold State.stopHaul
  refine hauled_ite (hauled_stopped ..) ?_
  extract_lets d us n whole out
  have hout : out.1.hauled = s.hauled := hauled_underEntry s.takeFree c i (fun _ => hauled_haulMove ..)
  have hshort : ∀ u : State, (u.endShort c i r out.2 whole).hauled = u.hauled := fun _ => hauled_ite (hauled_complete ..) (hauled_stopped ..)
  exact (hshort _).trans ((hauled_ite rfl (hauled_clashHaul ..)).trans hout)

/-- Cluster hauls that are stopped. -/
theorem hauled_stopAll (c : Nat) (late : Bool) {sel : Nat → Bool} (hsel : ∀ i, sel i = true → dKind ((s.cluster c).task i) = kClusterHaul) :
    (s.stopAll c late sel (fun s _ => s)).hauled = s.hauled := by
  refine List.foldlRecOn _ _ (motive := fun u : State => u.hauled = s.hauled) rfl (fun u hu i hi => ?_)
  have hkind : dKind ((u.cluster c).task i) = 6 := by
    rw [task_of_hauled hu]
    exact hsel i (List.mem_filter.mp hi).2
  split
  · split
    · next r _ _ =>
      have hstop : u.stopTask c i r late = u.stopHaul c i r late := by
        unfold State.stopTask
        dsimp only
        rw [hkind]
        rfl
      dsimp only
      rw [ite_self, hstop, hauled_stopHaul, hu]
    · exact hu
  · exact hu

/-! ## Fills made ahead (R530) -/

theorem hauled_cancelAhead (c : Nat) (p : Ahead → Bool) : (s.cancelAhead c p).hauled = s.hauled := by
  have hpart : ∀ (u : State) (a : Ahead), (u.partFill c a).hauled = u.hauled := fun u a => hauled_ite rfl (hauled_movePlain u.takeFree ..)
  unfold State.cancelAhead
  extract_lets gone t
  have ht : t.hauled = s.hauled := by
    refine foldl_keeps State.hauled _ (fun u a => ?_) gone s
    dsimp only
    exact (hauled_modCluster _ c (fun x => x.freeSlots_active _)).trans (hpart u a)
  exact hauled_ite rfl ((hauled_modCluster t c (by intro; rfl)).trans ht)

/-! ## Capacity (R591, R592) -/

theorem hauled_walk (sel : Entry → Bool) (size : Entry → Nat) (cap : Nat) : (s.walk sel size cap).hauled = s.hauled := by
  unfold State.walk
  extract_lets l from_
  exact hauled_ite rfl (foldl_keeps State.hauled _ (by intro u i; rfl) _ s.takeFree)

theorem hauled_updateCapacity (c : Nat) : (s.updateCapacity c).hauled = s.hauled := by
  unfold State.updateCapacity State.setCapacity
  extract_lets was t
  have ht : t.hauled = s.hauled := (hauled_raise ..).trans (hauled_modCluster s c (by intro; rfl))
  exact hauled_ite rfl (hauled_ite ((hauled_walk ..).trans ht) ht)

theorem hauled_groupChanged (g port was : Nat) (inj : Bool) : (s.groupChanged g port was inj).hauled = s.hauled := by
  unfold State.groupChanged
  extract_lets cap t
  have ht : t.hauled = s.hauled := hauled_raise ..
  exact hauled_ite rfl (hauled_ite ((hauled_walk ..).trans ht) ht)

end

end Sys2Proof.Machine
end

section
/-! PROOFS. Commands that complete leave memory, the record of lost stacks and the firmware (R604, R680, R691, R692, R720). -/

namespace Sys2Proof.Machine

/-- What a completion leaves of a state: memory, the stacks that are lost, the firmware with its restarts, and while it runs the records that
wait for it. -/
def State.attended (s : State) : List Host.Cell × List (Nat × Option Nat) × FwState × Nat × List Event :=
  (s.mem, s.hbmLost, s.mbx.fw, s.mbx.restarts, if s.mbx.fw = .running then s.mbx.hwFifo else [])

section
variable {s t : State}

theorem mem_of_attended (h : t.attended = s.attended) : t.mem = s.mem := congrArg Prod.fst h
theorem hbmLost_of_attended (h : t.attended = s.attended) : t.hbmLost = s.hbmLost := (congrArg (fun x => x.2.1) h :)
theorem fw_of_attended (h : t.attended = s.attended) : t.mbx.fw = s.mbx.fw := (congrArg (fun x => x.2.2.1) h :)
theorem restarts_of_attended (h : t.attended = s.attended) : t.mbx.restarts = s.mbx.restarts := (congrArg (fun x => x.2.2.2.1) h :)

/-- While the firmware runs, no record joins those that wait. -/
theorem hwFifo_of_attended (h : t.attended = s.attended) (hrun : s.mbx.fw = .running) : t.mbx.hwFifo = s.mbx.hwFifo := by
  have hfifo := congrArg (fun x => x.2.2.2.2) h
  simp only [State.attended, fw_of_attended h, hrun, if_true] at hfifo
  exact hfifo

theorem attended_ite {p : Prop} [Decidable p] {u : State} (ht : t.attended = s.attended) (hu : u.attended = s.attended) :
    (if p then t else u).attended = s.attended := by
  split
  · exact ht
  · exact hu

end

section
variable (s : State)

/-! ## Records -/

theorem attended_append (e : Event) : (s.append e).attended = s.attended := by
  have hdrop : s.dropOldest.attended = s.attended := by
    rw [State.attended, dropOldest_mbx, (dropOldest_eventsOnly s).1]
    rfl
  exact hdrop

theorem attended_post (e : Event) : (s.post e).attended = s.attended := by
  by_cases hrun : s.mbx.fw = .running
  · rw [post_running hrun, attended_append]
  · have hnone : ∀ f : Mailbox → Mailbox, (∀ m, (f m).fw = m.fw ∧ (f m).restarts = m.restarts) →
        (s.modMbx f).attended = s.attended := by
      intro f hf
      obtain ⟨hfw, hre⟩ := hf s.mbx
      have hoff : ¬ (f s.mbx).fw = .running := by rwa [hfw]
      simp only [State.attended, State.modMbx, hfw, hre, hrun, if_false]
    rw [State.post, if_neg hrun]
    refine hnone _ (fun m => ?_)
    split <;> exact ⟨rfl, rfl⟩

theorem attended_raise (a b : Nat) (m i : Bool) (p : Nat) : (s.raise a b m i p).attended = s.attended := attended_post ..

/-! ## Sessions and output (R631 to R634, R680, R691, R692) -/

theorem attended_closeSession (t reason : Nat) : (s.closeSession t reason).attended = s.attended := by
  unfold State.closeSession
  split
  · rfl
  · exact attended_raise ..

theorem attended_useSeq (t chan : Nat) : (s.useSeq t chan).attended = s.attended := by
  unfold State.useSeq
  split
  · rfl
  · exact attended_ite (attended_closeSession ..) rfl

theorem attended_sealOn (t chan : Nat) (l : List Byte) : (s.sealOn t chan l).2.attended = s.attended := by
  unfold State.sealOn
  split
  · rfl
  · exact attended_useSeq ..

theorem attended_postCpl (r : Nat) (c : Cpl) : (s.postCpl r c).attended = s.attended := by
  unfold State.postCpl
  extract_lets w
  have hw : w.2.attended = s.attended := by
    unfold w
    split
    · exact attended_sealOn ..
    · rfl
  exact hw

theorem attended_bulkOut (n : Option TenantId) (out : List Byte) : (s.bulkOut n out).attended = s.attended := by
  unfold State.bulkOut
  refine attended_ite rfl ?_
  cases n with
  | none => rfl
  | some t => exact foldl_keeps State.attended _ (by intro u b; exact attended_sealOn ..) (chunks 32768 (ceilDiv out.length 32768) out) s

theorem attended_f3Out (n : Option TenantId) (out : List Byte) : (s.f3Out n out).attended = s.attended := by
  unfold State.f3Out
  refine attended_ite rfl ?_
  extract_lets e
  have he : e.2.attended = s.attended := by
    unfold e
    split
    · exact attended_sealOn ..
    · rfl
  exact he

/-! ## Completions (R604, R680) -/

section
variable {s} {a : Answer} (ha : a.s.attended = s.attended)
include ha

theorem attended_after : (a.after s).attended = s.attended := attended_ite ha rfl

theorem attended_finish (h : CmdHdr) (op : Nat) (clear : Bool) : (s.finish h op clear a).attended = s.attended := by
  unfold State.finish
  exact (attended_postCpl ..).trans ((attended_ite (attended_f3Out ..) (attended_bulkOut ..)).trans (attended_after ha))

theorem attended_finishRelayed (i tag : Nat) (h : CmdHdr) (op : Nat) (clear : Bool) :
    (s.finishRelayed i tag h op clear a).attended = s.attended := by
  have hsend : ∀ (u : State) (type offset : Nat) (last : Bool) (bs : List Byte), (u.sendTo i type tag offset last bs).attended = u.attended := by
    intro u type offset last bs
    rw [(sendTo_sends u i type tag offset last bs).only]
    rfl
  unfold State.finishRelayed
  extract_lets s1 c o w t
  have ho : o.2.attended = s1.attended := by
    unfold o
    split
    · split
      · exact attended_sealOn ..
      · exact foldl_keeps (fun x : List Byte × State => x.2.attended) _ (by intro x b; exact attended_sealOn ..) _ ([], s1)
    · rfl
  have hw : w.2.attended = o.2.attended := by
    unfold w
    split
    · exact attended_sealOn ..
    · rfl
  have ht : t.attended = w.2.attended := foldl_keeps State.attended _ (by intro u x; exact hsend ..) _ w.2
  exact (hsend ..).trans (ht.trans (hw.trans (ho.trans (attended_after ha))))

theorem attended_deliver (relay : Option (Nat × Nat)) (h : CmdHdr) (c : HostCmd) : (s.deliver relay h c a).attended = s.attended := by
  have hclose : ∀ u : State, (afterFinish c h a.status u).attended = u.attended := by
    intro u
    unfold afterFinish
    split
    · exact attended_ite (attended_closeSession ..) rfl
    · rfl
  unfold State.deliver
  extract_lets op t
  refine (hclose t).trans ?_
  unfold t
  split
  · exact attended_finishRelayed ha ..
  · exact attended_finish ha ..

/-- A command in execution that completes, or goes on waiting for room. -/
theorem attended_completeRing (r : Nat) : (s.completeRing r a).attended = s.attended := by
  unfold State.completeRing
  split
  · rfl
  · extract_lets clr
    have hclr : ∀ u : State, (clr u).attended = u.attended := fun _ => rfl
    have hleft : (clr a.s).attended = (clr s).attended := (hclr _).trans (ha.trans (hclr s).symm)
    exact attended_ite ((attended_deliver (a := { a with s := clr a.s }) hleft ..).trans (hclr s)) rfl

end

end

end Sys2Proof.Machine
end

section
/-! PROOFS. Hung cores, lost stacks and dies, the watchdog, and the end of an injected fault (R717 to R719, R856 to R861, R867). -/

namespace Sys2Proof.Machine

theorem exec_coreHang (s : State) (dt : Nat) (n : CoreId) : exec (.coreHang dt n) s = .next ((s.elapse dt).coreHang n) := rfl
theorem exec_hbmLost (s : State) (dt : Nat) (k : Fin 12) : exec (.hbmLost dt k) s = .next ((s.elapse dt).stackGone k) := rfl
theorem exec_dieLost (s : State) (dt : Nat) (d : Fin 2) : exec (.dieLost dt d) s = .next ((s.elapse dt).dieGone d) := rfl
theorem exec_watchdogExpiry (s : State) (dt : Nat) : exec (.watchdogExpiry dt) s = .next (s.elapse dt).wdogExpires := rfl
theorem exec_wdogRestart (s : State) (dt : Nat) (same : Bool) : exec (.wdogRestart dt same) s = .next ((s.elapse dt).wdogRestart same) := rfl
theorem exec_injectHoldEnd (s : State) (dt : Nat) (k : Byte) (g : Word) :
    exec (.injectHoldEnd dt k g) s = .next ((s.elapse dt).injectEnd k.toNat g.toNat) := rfl

/-! ## Hung cores (R857 to R859) -/

/-- A change of capacity hangs no core and frees none. -/
theorem hung_updateCapacity (s : State) (c d : Nat) : ((s.updateCapacity c).cluster d).hung = (s.cluster d).hung := by
  have hwalk : ∀ (u : State) (sel : Entry → Bool) (size : Entry → Nat) (cap : Nat), (u.walk sel size cap).clusters = u.clusters := by
    intro u sel size cap
    unfold State.walk
    extract_lets l from_
    split
    · rfl
    · exact foldl_keeps State.clusters _ (by intro v i; rfl) _ u.takeFree
  unfold State.updateCapacity State.setCapacity
  generalize capacityOf _ _ _ _ = cap
  extract_lets was t
  have ht : (t.cluster d).hung = (s.cluster d).hung := by
    unfold t
    rw [State.fabricEv, State.cluster_congr (raise_clusters ..)]
    by_cases h : d = c
    · rw [h, State.cluster_modCluster_same]
    · rw [State.cluster_modCluster_other _ _ h]
  split
  · rfl
  · split
    · rw [State.cluster_congr (hwalk ..), ht]
    · exact ht

/-- A core that hangs while its cluster runs a plan is recorded with the standby that is free to act for it. -/
theorem coreHang_records {s : State} {core c k : Nat} (hc : c = core / 64) (hk : k = core % 64) (hon : s.clocksOn = true)
    (hruns : s.runsPlans = true) (hplan : (s.cluster c).active.isSome = true) (hdie : s.fabric.groupLost.contains (c / 32) = false)
    (hnew : (s.cluster c).hung.any (fun h => h.1 == k) = false) :
    (k, (s.cluster c).freeStandby k) ∈ ((s.coreHang core).cluster c).hung := by
  subst hc hk
  have hguard : (!s.clocksOn || !s.runsPlans || (s.cluster (core / 64)).active.isNone || s.fabric.groupLost.contains (core / 64 / 32)
      || (s.cluster (core / 64)).hung.any (fun h => h.1 == core % 64)) = false := by
    rw [hon, hruns, hdie, hnew, Option.isNone_eq_false_iff.mpr hplan]
    rfl
  unfold State.coreHang
  extract_lets c k x ts tag b stopped cancelled hung
  rw [if_neg (by rw [hguard]; decide), hung_updateCapacity, State.faultEv, State.cluster_congr (raise_clusters ..)]
  unfold hung
  rw [State.cluster_modCluster_same]
  exact List.mem_append_right _ List.mem_cons_self

/-! ## HBM stacks (R861) -/

theorem haulsOn_kind {d : Desc} {k : Nat} (h : haulsOn d k = true) : dKind d = kClusterHaul := by
  simp only [haulsOn, Bool.and_eq_true, beq_iff_eq] at h
  exact h.1.1

theorem haulsDie_kind {d : Desc} {die : Nat} (h : haulsDie d die = true) : dKind d = kClusterHaul := by
  simp only [haulsDie, Bool.and_eq_true, beq_iff_eq] at h
  exact h.1.1

/-- A stack that is lost joins those lost before, its pages free from the lead time on. -/
theorem stackGone_hbmLost {s : State} {k : Nat} (hon : s.clocksOn = true) (hnew : s.hbmLost.any (fun x => x.1 == k) = false) :
    (s.stackGone k).hbmLost = s.hbmLost ++ [(k, some s.leadFrom)] := by
  unfold State.stackGone
  rw [if_neg (by rw [hon, hnew]; decide)]
  extract_lets b ended lost tables cut
  have hended : ended.hauled = s.hauled :=
    hauled_forEach (by
      intro u c
      exact (hauled_cancelAhead ..).trans (hauled_stopAll u c false (fun i hi => haulsOn_kind hi))) _ s
  have hlost : lost.hbmLost = s.hbmLost ++ [(k, some s.leadFrom)] := by
    have hlead : ended.leadFrom = s.leadFrom := congrArg (fun t : TimeState => t.clock + Config.leadNs) (time_of_hauled hended)
    unfold lost
    rw [hlead, hbmLost_of_hauled hended]
  have htables : tables.hbmLost = lost.hbmLost := by
    unfold tables
    split <;> rfl
  have hcut : cut.hbmLost = tables.hbmLost := by
    refine forEach_keeps State.hbmLost _ (fun u r => ?_) _ tables
    split
    · split
      · split
        · exact hbmLost_of_attended (attended_completeRing (by rfl) _)
        · rfl
      · rfl
    · rfl
  exact (hbmLost_of_hauled (hauled_forEach (fun _ _ => hauled_updateCapacity ..) _ cut)).trans (hcut.trans (htables.trans hlost))

/-! ## Die stacks (R38, R861) -/

theorem hauled_bridgeStops (s : State) (die : Nat) : (s.bridgeStops die).hauled = s.hauled := by
  refine hauled_forEach (by
    intro u c
    exact (hauled_cancelAhead ..).trans (hauled_stopAll u c false (fun i hi => haulsDie_kind hi))) _ s

theorem up_of_links {s t : State} (h : t.links = s.links) (p : Nat) : (t.port p).up = (s.port p).up := congrArg Prod.fst (link_of_links h p)

theorem port_of_fabric {s t : State} (h : t.fabric = s.fabric) (p : Nat) : t.port p = s.port p := by rw [State.port, h, State.port]

/-- Ports that a run of changes leaves down. -/
theorem up_portsDown {s : State} {l : List Nat} {p : Nat} (hp : p ∈ l) :
    ((forEach l s (fun s q => s.modPort q (fun x => { x with up := false, lacp := false }))).port p).up = false := by
  have hkeep : ∀ (u : State) (q : Nat), (u.port p).up = false → ((u.modPort q (fun x => { x with up := false, lacp := false })).port p).up = false := by
    intro u q hu
    by_cases h : p = q
    · rw [h, State.port_modPort_same]
    · rw [State.port_modPort_other _ _ h, hu]
  obtain ⟨a, b, rfl⟩ := List.append_of_mem hp
  unfold forEach
  rw [List.foldl_append, List.foldl_cons]
  refine List.foldlRecOn b _ (motive := fun u : State => (u.port p).up = false) ?_ (fun u hu q _ => hkeep u q hu)
  rw [State.port_modPort_same]

/-- A die that is lost takes its ports down; the firmware is another matter. -/
theorem dieStops_leaves (s : State) (die : Nat) : (s.dieStops die).fabric.groupLost = s.fabric.groupLost ++ [die]
    ∧ (∀ p, 8 * die ≤ p → p < 8 * die + 8 → ((s.dieStops die).port p).up = false) ∧ (s.dieStops die).mbx.fw = s.mbx.fw := by
  unfold State.dieStops
  extract_lets idle was down lost sized
  have hidle : idle.hauled = s.hauled := hauled_forEach (by intro u c; exact hauled_modCluster u c (by intro; rfl)) _ s
  have hdown : down.hauled = s.hauled := (hauled_forEach (by intro u p; rfl) _ idle).trans hidle
  have hup : ∀ p, 8 * die ≤ p → p < 8 * die + 8 → (down.port p).up = false := by
    intro p hlow hhigh
    unfold down
    refine up_portsDown (List.mem_map.mpr ?_)
    exact ⟨p - 8 * die, List.mem_range.mpr (by omega), by omega⟩
  clear_value down
  have hsized : sized.hauled = lost.hauled := hauled_forEach (fun _ _ => hauled_updateCapacity ..) _ lost
  have hend : (sized.groupChanged die (8 * die) was false).hauled = lost.hauled := (hauled_groupChanged ..).trans hsized
  have hlinks : (sized.groupChanged die (8 * die) was false).links = lost.links :=
    (links_groupChanged ..).trans (forEach_keeps State.links _ (fun u c => links_setCapacity ..) _ lost)
  refine ⟨?_, fun p hlow hhigh => ?_, ?_⟩
  · rw [groupLost_of_hauled hend]
    exact congrArg (· ++ [die]) (groupLost_of_hauled hdown)
  · have hport : lost.port p = down.port p := rfl
    rw [up_of_links hlinks, hport, hup p hlow hhigh]
  · have hfw : lost.mbx.fw = down.mbx.fw := rfl
    exact (fw_of_hauled hend).trans (hfw.trans (fw_of_hauled hdown))

theorem hauled_freePages (s : State) (p : Nat → Page → Bool) : (s.freePages p).hauled = s.hauled := by
  unfold State.freePages
  extract_lets ps
  exact hauled_ite rfl rfl

section
variable {s : State} (hon : s.clocksOn = true)
include hon

theorem dieGone_ds1 (hnew : s.fabric.groupLost.contains 1 = false) : (s.dieGone 1).fabric.groupLost = s.fabric.groupLost ++ [1]
    ∧ (∀ p, 8 ≤ p → p < 16 → ((s.dieGone 1).port p).up = false) ∧ (s.dieGone 1).mbx.fw = s.mbx.fw := by
  have hbridge := hauled_bridgeStops s 1
  unfold State.dieGone
  rw [if_neg (by rw [hon, hnew]; decide)]
  extract_lets bridge on unbind unbound
  rw [if_pos rfl]
  have hfreed : (unbound.freePages (fun p _ => on p)).hauled = s.hauled := (hauled_freePages ..).trans hbridge
  generalize unbound.freePages (fun p _ => on p) = freed at hfreed ⊢
  obtain ⟨hlost, hports, hfw⟩ := dieStops_leaves freed 1
  generalize freed.dieStops 1 = stops at hlost hports hfw ⊢
  have htold : (stops.loseTables.faultEv 1 ftDie 0 0 false).hauled = stops.hauled := (hauled_raise ..).trans rfl
  have hlinks : (stops.loseTables.faultEv 1 ftDie 0 0 false).links = stops.links := (links_raise ..).trans (links_of_ports rfl rfl)
  refine ⟨?_, fun p h8 h16 => ?_, ?_⟩
  · rw [groupLost_of_hauled htold, hlost, groupLost_of_hauled hfreed]
  · rw [up_of_links hlinks, hports p h8 h16]
  · rw [fw_of_hauled htold, hfw, fw_of_hauled hfreed]

/-- With DS0 the host interface and the firmware stop. -/
theorem dieGone_ds0 (hnew : s.fabric.groupLost.contains 0 = false) : (s.dieGone 0).fabric.groupLost = s.fabric.groupLost ++ [0]
    ∧ (∀ p, p < 8 → ((s.dieGone 0).port p).up = false) ∧ (s.dieGone 0).mbx.fw = .halted ∧ (s.dieGone 0).sdio.ioReady = false
    ∧ (s.dieGone 0).power.ds0Ticks = some 0 := by
  have hbridge := hauled_bridgeStops s 0
  unfold State.dieGone
  rw [if_neg (by rw [hon, hnew]; decide)]
  extract_lets bridge _ _ _ counted halted
  rw [if_neg Nat.zero_ne_one]
  obtain ⟨hlost, hports, -⟩ := dieStops_leaves bridge 0
  have hbefore : bridge.fabric.groupLost = s.fabric.groupLost := groupLost_of_hauled hbridge
  have hfabric : halted.fabric = (bridge.dieStops 0).fabric := by
    unfold halted counted
    generalize bridge.dieStops 0 = stops
    rfl
  have hfw : halted.mbx.fw = .halted := rfl
  have hticks : halted.power.ds0Ticks = some 0 := rfl
  clear_value halted
  rw [hbefore, ← hfabric] at hlost
  refine ⟨hlost, fun p h8 => ?_, hfw, rfl, hticks⟩
  exact (congrArg Port.up (port_of_fabric (by exact hfabric) p)).trans (hports p (Nat.zero_le _) (h8.trans_eq (Nat.zero_add 8).symm))

end

/-! ## The watchdog (R717 to R719) -/

/-- Commands cut in execution complete, and what they had set aside is taken back. -/
theorem attended_finishCut (s : State) : s.finishCut.attended = s.attended := by
  have hback : ∀ (u : State) (x : Exec), (u.takeBack x).attended = u.attended := by
    intro u x
    unfold State.takeBack
    split
    · rfl
    · rfl
    · exact attended_ite rfl rfl
    · rfl
  refine forEach_keeps State.attended _ (fun u r => ?_) _ s
  split
  · exact (attended_completeRing (by rfl) r).trans (hback ..)
  · rfl

/-- The state that an expiry leaves before the firmware is halted: the expiries of the last second with this one, and the flag. -/
def State.expired (s : State) : State :=
  (s.modMbx (fun m => { m with
    wdogs := s.mbx.wdogs.filter (fun t => decide (s.now < t + 1000000000)) ++ [s.now], int := m.int.hit 9 })).setFw .restarting

theorem expired_of_running {s : State} (hfw : s.mbx.fw = .running) :
    s.expired.mbx.fw = .restarting ∧ s.expired.mbx.int.has 9 = true ∧ s.expired = { s with mbx := s.expired.mbx } := by
  unfold State.expired State.setFw
  rw [if_neg (by rw [State.modMbx, hfw]; decide)]
  exact ⟨rfl, W1c.has_hit_of_has 7 (W1c.has_hit_same _ (by decide)), rfl⟩

theorem haltFw_halts (s : State) (detail : Nat) : (s.haltFw detail).mbx.fw = .halted ∧ (s.haltFw detail).mem = s.mem := by
  have hcut := attended_finishCut s
  have htold : (s.haltFw detail).attended = (s.finishCut.setFw .halted).attended := attended_raise ..
  have hmem : ∀ (u : State) (w : FwState), (u.setFw w).mem = u.mem := by
    intro u w
    unfold State.setFw
    split <;> rfl
  exact ⟨(fw_of_attended htold).trans (setFw_fw ..), (mem_of_attended htold).trans ((hmem ..).trans (mem_of_attended hcut))⟩

section
variable {s : State} (hon : s.mailboxOn = true)
include hon

/-- An expiry sets its flag and stops the firmware, which the third in a second halts. -/
theorem wdogExpires_eq (hfw : s.mbx.fw = .running) : s.wdogExpires =
    if 2 ≤ (s.mbx.wdogs.filter (fun n => decide (s.now < n + 1000000000))).length then s.expired.haltFw 1 else s.expired := by
  unfold State.wdogExpires
  rw [if_neg (by rw [hon, hfw]; decide)]
  extract_lets recent
  have hlen : recent.length = (s.mbx.wdogs.filter (fun n => decide (s.now < n + 1000000000))).length + 1 := by
    unfold recent
    rw [List.length_append, List.length_singleton]
  have hcount : (3 ≤ recent.length) = (2 ≤ (s.mbx.wdogs.filter (fun n => decide (s.now < n + 1000000000))).length) := by
    rw [hlen]
    exact propext Nat.succ_le_succ_iff
  simp only [hcount]
  rfl

theorem wdogRestart_runs (hfw : s.mbx.fw = .restarting) : (s.wdogRestart true).mbx.fw = .running
    ∧ (s.wdogRestart true).mbx.restarts = (s.mbx.restarts + 1) % 256 ∧ (s.wdogRestart true).mbx.hwFifo = [] ∧ (s.wdogRestart true).mem = s.mem := by
  have hresume : ∀ u : State, u.resumeEvents.attended = (u.modMbx (fun m => { m with hwFifo := [], hwLost := 0 })).attended := by
    intro u
    unfold State.resumeEvents
    extract_lets lost due v
    have hv : v.attended = (u.modMbx (fun m => { m with hwFifo := [], hwLost := 0 })).attended :=
      foldl_keeps State.attended _ attended_append due _
    split
    · exact hv
    · exact (attended_raise ..).trans hv
  unfold State.wdogRestart
  rw [if_neg (by rw [hon, hfw]; decide), if_neg (by decide)]
  extract_lets inj begun told
  have hbegun : (begun.modMbx (fun m => { m with hwFifo := [], hwLost := 0 })).attended =
      (s.mem, s.hbmLost, .running, (s.mbx.restarts + 1) % 256, []) := by
    unfold begun State.setFw
    rw [if_neg (by rw [State.modMbx, hfw]; decide)]
    rfl
  have htold : told.attended = (s.mem, s.hbmLost, .running, (s.mbx.restarts + 1) % 256, []) :=
    ((attended_raise ..).trans (hresume begun)).trans hbegun
  clear_value told
  have hcut := attended_finishCut told
  have hrun : told.mbx.fw = .running := (congrArg (fun x => x.2.2.1) htold :)
  refine ⟨(fw_of_attended hcut).trans hrun, (restarts_of_attended hcut).trans ?_, (hwFifo_of_attended hcut hrun).trans ?_,
    (mem_of_attended hcut).trans (congrArg Prod.fst htold)⟩
  · exact (congrArg (fun x => x.2.2.2.1) htold :)
  · have hfifo := congrArg (fun x => x.2.2.2.2) htold
    simp only [State.attended, hrun, if_true] at hfifo
    exact hfifo

theorem wdogRestart_halts (hfw : s.mbx.fw = .restarting) :
    (s.wdogRestart false).mbx.fw = .halted ∧ (s.wdogRestart false).mem = s.mem := by
  have hhalt : s.wdogRestart false = s.haltFw 0 := by
    unfold State.wdogRestart
    rw [if_neg (by rw [hon, hfw]; decide)]
    rfl
  rw [hhalt]
  exact haltFw_halts s 0

end

/-! ## Injected faults (R867) -/

/-- A hold that is over ends its fault, in memory and time nothing else. -/
theorem injectEnd_ends {s : State} {kind target n : Nat} {f : Injected} (hf : f ∈ s.faults) (hk : f.kind = kind) (ht : f.target = target)
    (hu : f.until_ = some n) (hn : n ≤ s.now) :
    f ∉ (s.injectEnd kind target).faults ∧ (s.injectEnd kind target).mem = s.mem ∧ (s.injectEnd kind target).time = s.time := by
  have hended : (f.kind == kind && f.target == target && (match f.until_ with
      | some t => decide (t ≤ s.now)
      | none => false)) = true := by
    rw [hu, beq_iff_eq.mpr hk, beq_iff_eq.mpr ht]
    exact decide_eq_true hn
  unfold State.injectEnd
  extract_lets ended cleared
  have hany : s.faults.any ended = true := List.any_eq_true.mpr ⟨f, hf, hended⟩
  have hgone : f ∉ cleared.faults := by
    intro hmem
    obtain ⟨-, hnot⟩ := List.mem_filter.mp hmem
    rw [show ended f = true from hended] at hnot
    cases hnot
  rw [if_neg (by rw [hany]; decide)]
  split
  · exact ⟨hgone, rfl, rfl⟩
  · exact ⟨hgone, rfl, rfl⟩

/-- Settles O55. -/
theorem faultsTakeEffect : Obligations.FaultsTakeEffect := by
  rintro s dt u rfl
  refine ⟨fun n c k hc hk hon hruns hplan hdie hnew => ?hang, fun k hon hnew => ?stack, fun hon hnew => ?ds1, fun hon hnew => ?ds0,
    fun hon hfw => ⟨fun hfew => ?restarts, fun hmany => ?halts⟩, fun hon hfw => ⟨?runs, ?stays⟩, fun k g f n hf hk ht hu hn => ?hold⟩
  case hang => exact ⟨_, exec_coreHang .., coreHang_records (s := s.elapse dt) hc hk hon hruns hplan hdie hnew⟩
  case stack => exact ⟨_, exec_hbmLost .., stackGone_hbmLost (s := s.elapse dt) hon hnew⟩
  case ds1 => exact ⟨_, exec_dieLost .., dieGone_ds1 (s := s.elapse dt) hon hnew⟩
  case ds0 => exact ⟨_, exec_dieLost .., dieGone_ds0 (s := s.elapse dt) hon hnew⟩
  case restarts =>
    have hexp := (wdogExpires_eq (s := s.elapse dt) hon hfw).trans (if_neg (Nat.not_le.mpr hfew))
    exact ⟨_, (exec_watchdogExpiry ..).trans (congrArg _ hexp), expired_of_running hfw⟩
  case halts =>
    have hexp := (wdogExpires_eq (s := s.elapse dt) hon hfw).trans (if_pos hmany)
    obtain ⟨-, -, hbooks⟩ := expired_of_running (s := s.elapse dt) hfw
    have hkept : (s.elapse dt).expired.mem = (s.elapse dt).mem := (congrArg State.mem hbooks :)
    obtain ⟨hhalted, hmem⟩ := haltFw_halts (s.elapse dt).expired 1
    exact ⟨_, (exec_watchdogExpiry ..).trans (congrArg _ hexp), hhalted, hmem.trans hkept⟩
  case runs => exact ⟨_, exec_wdogRestart .., wdogRestart_runs (s := s.elapse dt) hon hfw⟩
  case stays => exact ⟨_, exec_wdogRestart .., wdogRestart_halts (s := s.elapse dt) hon hfw⟩
  case hold => exact ⟨_, exec_injectHoldEnd .., injectEnd_ends (s := s.elapse dt) hf hk ht hu hn⟩

end Sys2Proof.Machine
end

section
/-! PROOFS. A step runs the front command, and every command whose operand lists have the length of their row completes. -/

namespace Sys2Proof.Machine

/-- An outcome that completes where the operand lists have the length of their row, and is malformed where they have not. -/
structure Completes (ok : Bool) (o : Host.Outcome State Fault Refusal) : Prop where
  runs : ok = true → ∃ t, o = .next t
  malformed : ok = false → o = .fault .malformed

theorem Completes.next (t : State) : Completes true (.next t) := ⟨fun _ => ⟨t, rfl⟩, fun h => absurd h (by decide)⟩

/-- A row that checks its lists before it runs. -/
theorem Completes.checked {ok : Bool} {p : Prop} [Decidable p] (h : ok = false ↔ p) (t : State) :
    Completes ok (if p then .fault .malformed else .next t) := by
  refine ⟨fun hok => ⟨t, if_neg fun hp => ?_⟩, fun hbad => if_pos (h.mp hbad)⟩
  rw [h.mpr hp] at hok
  cases hok

/-- The rows with lists check them, by an exact length, a bound or a predicate of their own; every other row completes. -/
theorem exec_completes (i : Instr) (s : State) : Completes i.wellFormed (exec i s) := by
  cases i with
  | thermalLimitsSet | seamLocalised => exact .checked beq_eq_false_iff_ne _
  | joryarData | joryarCmd | joryarBulk | joryarOutput | joryarCpl | routerReceive =>
    exact .checked (decide_eq_false_iff_not.trans Nat.not_le) _
  | startupSensorRecheck | wakeRecheck | controlTick | uplaneRx | mkaFrame | sakReplace =>
    exact .checked (Iff.of_eq (Bool.not_eq_true' _).symm) _
  | _ => exact .next _

/-- Settles O2, row by row. -/
theorem wellFormedCommandsComplete : Obligations.WellFormedCommandsComplete := fun i s =>
  ⟨(exec_completes i s).runs, (exec_completes i s).malformed⟩

/-- Settles O1: both are the two branches of `step`. -/
theorem stepRunsFrontCommand : Obligations.StepRunsFrontCommand := ⟨fun _ _ _ => rfl, fun s h => by rw [step, h]⟩

end Sys2Proof.Machine
end

section
/-! PROOFS. FAULT_INJECT and SELFTEST_RUN (R699, R867), and the firmware commands (R624, R711 to R713). -/

namespace Sys2Proof.Machine

section
variable (h : CmdHdr) {f : State}

/-! ## FAULT_INJECT and SELFTEST_RUN (R699, R867) -/

/-- The faults that a hold ends: mislock, port loss and sensor failure. -/
theorem timed_iff (k : Byte) : (k.toNat == injMislock || k.toNat == injPort || k.toNat == injSensor) = true ↔ k = 2 ∨ k = 5 ∨ k = 6 := by
  simp only [Bool.or_eq_true, beq_iff_eq, or_assoc, ← BitVec.toNat_inj (x := k)]
  rfl

theorem cmdFaultInject_injects {p : FaultInjectParams} (h1 : 1 ≤ p.kind.toNat) (h7 : p.kind.toNat ≤ 7)
    (ht : p.target.toNat < injTargets p.kind.toNat)
    (hc : p.kind = 3 → ((f.slab (p.target.toNat / 272)).columnOf (p.target.toNat % 272)).isSome = true) :
    cmdFaultInject h p f = Answer.ok (if p.kind = 2 ∨ p.kind = 5 ∨ p.kind = 6 then
        (if p.holdUs = 0 then f else f.inject p.kind.toNat p.target.toNat (some p.holdUs.toNat))
      else f.inject p.kind.toNat p.target.toNat none) := by
  have hkind : ¬ (p.kind.toNat = 0 ∨ 7 < p.kind.toNat) := by omega
  have hseam : ¬ (p.kind.toNat = injSeam ∧ ((f.slab (p.target.toNat / 272)).columnOf (p.target.toNat % 272)).isNone = true) := by
    rintro ⟨hk, hnone⟩
    have hsome := hc (BitVec.eq_of_toNat_eq hk)
    rw [Option.isNone_iff_eq_none.mp hnone] at hsome
    cases hsome
  unfold cmdFaultInject
  extract_lets kind target timed
  have htimed : timed = true ↔ p.kind = 2 ∨ p.kind = 5 ∨ p.kind = 6 := timed_iff p.kind
  rw [if_neg hkind, if_neg (Nat.not_le.mpr ht), if_neg hseam]
  simp only [htimed]
  by_cases hheld : p.kind = 2 ∨ p.kind = 5 ∨ p.kind = 6
  · rw [if_pos hheld, if_pos hheld]
    by_cases hzero : p.holdUs = 0
    · rw [if_pos ⟨hheld, hzero⟩, if_pos hzero]
    · rw [if_neg fun hx => hzero hx.2, if_neg hzero]
  · rw [if_neg fun hx => hheld hx.1, if_neg hheld, if_neg hheld]

theorem cmdSelftestRun_marches {p : SelftestParams} (h1 : p.test = 1) (ht : p.target.toNat < 34816)
    (ho : (f.bank p.target.toNat).owner ≠ 5) (hp : (f.bank p.target.toNat).pending = none) (hup : f.bankUp p.target.toNat = true) :
    cmdSelftestRun h p f = Answer.wait (f.modBank p.target.toNat (fun b => { b with owner := 5 }))
      ((f.bank p.target.toNat).owner + 8 * (f.bank p.target.toNat).ownerCore) := by
  have hunits : ¬ selftestUnits 1 ≤ p.target.toNat := Nat.not_le.mpr ht
  simp [cmdSelftestRun, h1, hunits, ho, hp, hup]

theorem cmdSelftestRun_waits {p : SelftestParams} (h2 : 2 ≤ p.test.toNat) (h4 : p.test.toNat ≤ 4)
    (ht : p.target.toNat < selftestUnits p.test.toNat) (hl : p.test = 3 → f.lasersOn = true) (hc : p.test ≠ 3 → f.convertersOn = true) :
    cmdSelftestRun h p f = Answer.wait f 0 := by
  have hready : ¬ ((p.test.toNat = 3 ∧ (!f.lasersOn) = true) ∨ (p.test.toNat ≠ 3 ∧ (!f.convertersOn) = true)) := by
    have h3 : p.test.toNat = 3 ↔ p.test = 3 := BitVec.toNat_inj (y := 3)
    rintro (⟨hk, hoff⟩ | ⟨hk, hoff⟩)
    · rw [hl (h3.mp hk)] at hoff
      cases hoff
    · rw [hc (mt h3.mpr hk)] at hoff
      cases hoff
  exact (if_neg (by omega)).trans ((if_neg (Nat.not_le.mpr ht)).trans ((if_neg (by omega)).trans (if_neg hready)))

/-! ## The firmware commands (R624, R711 to R713) -/

theorem cmdFwLoadBegin_begins {n : Word} (hmin : 1024 ≤ n.toNat) (hmax : n.toNat ≤ 4194304) (hpages : n.toNat % 512 = 0)
    (hi : f.trust.identity.isSome = true) : cmdFwLoadBegin h n f =
      Answer.ok ((((if f.mbx.fw = .running then f.devReset else f.dropKeys 4).modTrust (fun t =>
        { t with mrFw := 0, mrCfg := 0, mrPlan := [], mrModel := [] })).modMbx (fun m =>
          { m with image := [], imageLen := n.toNat })).setFw .loading) := by
  have hsome : ¬ f.trust.identity.isNone = true := by
    rw [Option.isNone_iff_eq_none, ← ne_eq, ← Option.isSome_iff_ne_none]
    exact hi
  exact (if_neg (by omega)).trans ((if_neg (by omega)).trans (if_neg hsome))

theorem setFw_image (s : State) (w : FwState) : (s.setFw w).mbx.image = s.mbx.image ∧ (s.setFw w).mbx.imageLen = s.mbx.imageLen := by
  unfold State.setFw
  split <;> exact ⟨rfl, rfl⟩

theorem cmdFwLoadBlock_appends {o : Word} (hlen : h.bulk.length ≤ 262144) (hfw : f.mbx.fw = .loading)
    (hroom : o.toNat + h.bulk.length ≤ f.mbx.imageLen) (ho : o.toNat = f.mbx.image.length) :
    cmdFwLoadBlock h o f = Answer.ok (f.modMbx (fun m => { m with image := m.image ++ h.bulk })) :=
  (if_neg (Nat.not_lt.mpr hlen)).trans ((if_neg (not_not.mpr hfw)).trans ((if_neg (Nat.not_lt.mpr hroom)).trans
    (if_neg (not_not.mpr ho))))

theorem cmdFwLoadEnd_verifies (hfw : f.mbx.fw = .loading) (hlen : f.mbx.image.length = f.mbx.imageLen) (hok : imageHeaderOk f.mbx = true) :
    cmdFwLoadEnd h f = Answer.wait (f.setFw .verifying) 0 :=
  (if_neg (not_not.mpr hfw)).trans ((if_neg (not_not.mpr hlen)).trans (if_neg (by rw [hok]; decide)))

end

/-- Settles O16: each command passes its checks, and completes or waits. -/
theorem diagnosticAndFirmwareCommands : Obligations.DiagnosticAndFirmwareCommands := by
  intro s dt h f hf
  refine ⟨?inject, ?march, ?test, ?begins, ?block, ?whole⟩
  case inject => exact fun p hr h1 h7 ht hc => row_ok rfl hf hr (cmdFaultInject_injects h h1 h7 ht hc)
  case march => exact fun p hr h1 ht ho hp hup => row_staying rfl hf hr (cmdSelftestRun_marches h h1 ht ho hp hup)
  case test => exact fun p hr h2 h4 ht hl hc => row_staying rfl hf hr (cmdSelftestRun_waits h h2 h4 ht hl hc)
  case begins =>
    rintro n u hr hmin hmax hpages hi rfl
    obtain ⟨himage, hlen⟩ := setFw_image _ .loading
    exact ⟨row_ok rfl hf hr (cmdFwLoadBegin_begins h hmin hmax hpages hi), setFw_fw .., himage, hlen,
      congrArg Trust.mrFw (setFw_trust ..), congrArg Trust.mrCfg (setFw_trust ..)⟩
  case block => exact fun o hr hlen hfw hroom ho => row_ok rfl hf hr (cmdFwLoadBlock_appends h hlen hfw hroom ho)
  case whole => exact fun hr hfw hlen hok => row_staying rfl hf hr (cmdFwLoadEnd_verifies h hfw hlen hok)

end Sys2Proof.Machine
end

section
/-! PROOFS. What the PMBus commands answer and change (R738 to R742). -/

namespace Sys2Proof.Machine

section
variable {s : State} (hp : s.powered = true)
include hp

theorem pmAnswer_powered (reply : List Byte) : s.pmAnswer reply = { s with pmbus := { s.pmbus with reply := reply } } := if_pos hp

theorem pmReject_powered {cmd : Nat} {write : Bool} (h : (if write then cmd != 0x03 else !pmCommands.contains cmd) = true) :
    s.pmReject cmd write = { s with pmbus := { s.pmbus with cml := s.pmbus.cml ||| 0x80, reply := [], alertN := false } } :=
  if_pos (by rw [hp, h]; rfl)

/-- The outcome of every row that reads. -/
theorem pmAnswer_outcome (reply : List Byte) : (.next (s.pmAnswer reply) : Host.Outcome State Fault Refusal)
    = .next { s with pmbus := { s.pmbus with reply := reply } } := by rw [pmAnswer_powered hp]

end

theorem exec_clearFaults {s : State} (dt : Nat) (hp : (s.elapse dt).powered = true) :
    exec (.clearFaults dt) s = .next (s.elapse dt).clearFaults := congrArg Host.Outcome.next (if_pos hp)

theorem exec_pmbusWriteRejected (s : State) (dt : Nat) (c : Byte) (write : Bool) :
    exec (.pmbusWriteRejected dt c write) s = .next ((s.elapse dt).pmReject c.toNat write) := rfl

/-- Settles O25: the rows that read differ in their reply alone. -/
theorem pmbusAnswers : Obligations.PmbusAnswers := by
  rintro s dt u rfl hp
  have reads := pmAnswer_outcome (s := s.elapse dt) hp
  refine ⟨reads _, reads _, reads _, reads _, reads _, reads _, reads _, reads _, reads _, reads _, reads _, reads _, reads _, reads _,
    reads _, reads _, reads _, reads _, reads _, reads _, reads _, ?clear, fun c hc => ?write, fun c hc => ?unlisted⟩
  case clear => exact ⟨_, exec_clearFaults dt hp, rfl, rfl, rfl, rfl, decide_eq_true_iff⟩
  case write =>
    have hother : c.toNat ≠ 0x03 := fun h => hc (BitVec.eq_of_toNat_eq h)
    exact (exec_pmbusWriteRejected ..).trans (congrArg _ (pmReject_powered (s := s.elapse dt) (write := true) hp (bne_iff_ne.mpr hother)))
  case unlisted =>
    have hno : (!pmCommands.contains c.toNat) = true := by rw [List.contains_eq_mem, decide_eq_false hc]; rfl
    exact (exec_pmbusWriteRejected ..).trans (congrArg _ (pmReject_powered (s := s.elapse dt) (write := false) hp hno))

end Sys2Proof.Machine
end

section
/-! PROOFS. The test access port (R845 to R849). -/

namespace Sys2Proof.Machine

theorem exec_extest (s : State) (dt : Nat) (cells : List Bool) :
    exec (.extest dt cells) s = .next ((s.elapse dt).selectTest .extest (fun j => { j with capture := cells })) := rfl
theorem exec_samplePreload (s : State) (dt : Nat) (cells preload : List Bool) : exec (.samplePreload dt cells preload) s
    = .next ((s.elapse dt).selectTest .sample (fun j => { j with capture := cells, preload := preload })) := rfl
theorem exec_idcode (s : State) (dt : Nat) : exec (.idcode dt) s = .next ((s.elapse dt).selectTest .idcode id) := rfl
theorem exec_clamp (s : State) (dt : Nat) : exec (.clamp dt) s = .next ((s.elapse dt).selectTest .clamp id) := rfl
theorem exec_highz (s : State) (dt : Nat) : exec (.highz dt) s = .next ((s.elapse dt).selectTest .highz id) := rfl
theorem exec_bypass (s : State) (dt : Nat) : exec (.bypass dt) s = .next ((s.elapse dt).selectTest .bypass id) := rfl
theorem exec_jtagTestExit (s : State) (dt : Nat) : exec (.jtagTestExit dt) s = .next ((s.elapse dt).selectTest .idcode id) := rfl

section
variable {s : State} (i : JtagInstr) (f : Jtag → Jtag)

theorem selectTest_off (h : s.powered = false) : s.selectTest i f = s := if_pos (by rw [h]; rfl)

/-- EXTEST and CLAMP take effect in WAIT_IMAGE; whatever else is selected leaves the test (R847, R848). -/
theorem selectTest_powered (hp : s.powered = true) : s.selectTest i f =
    if (i = .extest ∨ i = .clamp) ∧ s.mbx.fw = .waitImage ∧ s.power.boot = .serving ∧ s.power.pstate ≠ .ps5 then
      { s with jtag := f { s.jtag with instr := i, inEffect := true } }
    else { s.leaveTest with
      jtag := (if i = .extest ∨ i = .clamp then id else f) { s.jtag with instr := i, inEffect := false } } := by
  simp [State.selectTest, hp, and_assoc]

section
variable {i} (hp : s.powered = true)
include hp

theorem selectTest_takesEffect (hi : i = .extest ∨ i = .clamp)
    (hw : s.mbx.fw = .waitImage ∧ s.power.boot = .serving ∧ s.power.pstate ≠ .ps5) :
    s.selectTest i f = { s with jtag := f { s.jtag with instr := i, inEffect := true } } := by
  rw [selectTest_powered i f hp, if_pos ⟨hi, hw⟩]

/-- In any other state EXTEST and CLAMP act as BYPASS: they capture nothing (R847). -/
theorem selectTest_bypasses (hi : i = .extest ∨ i = .clamp)
    (hw : ¬ (s.mbx.fw = .waitImage ∧ s.power.boot = .serving ∧ s.power.pstate ≠ .ps5)) :
    s.selectTest i f = { s.leaveTest with jtag := { s.jtag with instr := i, inEffect := false } } := by
  rw [selectTest_powered i f hp, if_neg (fun h => hw h.2), if_pos hi, id]

theorem selectTest_selects (hi : ¬ (i = .extest ∨ i = .clamp)) :
    s.selectTest i f = { s.leaveTest with jtag := f { s.jtag with instr := i, inEffect := false } } := by
  rw [selectTest_powered i f hp, if_neg (fun h => hi h.1), if_neg hi]

end

end

/-- Settles O26: an instruction is selected, takes effect, or leaves the test. -/
theorem testAccessPort : Obligations.TestAccessPort := by
  rintro s dt u v cells preload hu hv
  rw [← State.leaveTest] at hv
  subst hv
  simp only [exec_extest, exec_samplePreload, exec_idcode, exec_clamp, exec_highz, exec_bypass, exec_jtagTestExit, ← hu,
    Host.Outcome.next.injEq]
  refine ⟨fun hoff => ?off, fun hon => ⟨fun hw => ?inEffect, fun hw => ?bypassed, ?selected⟩⟩
  case off => simp only [selectTest_off _ _ hoff, and_self]
  case inEffect => exact ⟨selectTest_takesEffect _ hon (.inl rfl) hw, selectTest_takesEffect _ hon (.inr rfl) hw⟩
  case bypassed => exact ⟨selectTest_bypasses _ hon (.inl rfl) hw, selectTest_bypasses _ hon (.inr rfl) hw⟩
  case selected =>
    exact ⟨selectTest_selects _ hon (by decide), selectTest_selects _ hon (by decide), selectTest_selects _ hon (by decide),
      selectTest_selects _ hon (by decide), selectTest_selects _ hon (by decide)⟩

end Sys2Proof.Machine
end

section
/-! PROOFS. A step of the throttle (R762, R763). -/

namespace Sys2Proof.Machine

theorem exec_throttleStep (s : State) (dt : Nat) : exec (.throttleStep dt) s = .next (s.elapse dt).throttle := rfl

/-- Memory, TL and the loops: what a throttle step leaves beside its records and its status. -/
def State.limits (s : State) : List Host.Cell × Nat × Tab Loop := (s.mem, s.power.tl, s.loops)

section
variable (s : State)

theorem limits_raise (a b : Nat) (m i : Bool) (p : Nat) : (s.raise a b m i p).limits = s.limits := by
  rw [(raise_eventsOnly ..).1]
  rfl

theorem loop_of_limits {s t : State} (h : t.limits = s.limits) (k : Nat) : t.loop k = s.loop k := by
  have hl : t.loops = s.loops := congrArg (fun x => x.2.2) h
  rw [State.loop, hl, State.loop]

/-- The SETPOINT in force of the PWR loop is the lower of the two limits (R763). -/
theorem setPower_lowers : s.setPower.mem = s.mem ∧ s.setPower.power.tl = s.power.tl
    ∧ (s.setPower.loop 5120).coef = coPut (s.loop 5120).coef 0x0E (unsigned 16 (min s.power.hostLimit s.power.tl)) := by
  have hkept := steady_setPower s
  refine ⟨mem_of_steady hkept, congrArg (fun x => x.2.2.tl) hkept, ?_⟩
  unfold State.setPower
  extract_lets v x old t
  have ht : t.loop 5120 = { x with coef := coPut x.coef 0x0E (unsigned 16 v) } := State.loop_setLoop_same ..
  split
  · rw [State.light, loop_of_limits (limits_raise ..), State.loop_modLoop_same, ht]
  · rw [ht]

/-- TL after a step of the throttle (R762). -/
def State.nextLimit (s : State) : Nat :=
  if ((List.range 4).map s.dieTemp).any (fun x => decide (380 ≤ x)) then max (s.power.tl - 500) 4000
  else if ((List.range 4).map s.dieTemp).all (fun x => decide (x < 360)) then min (s.power.tl + 500) 14000 else s.power.tl

theorem any_dieTemp {p : Int → Prop} [DecidablePred p] :
    ((List.range 4).map s.dieTemp).any (fun x => decide (p x)) = true ↔ ∃ d, d < 4 ∧ p (s.dieTemp d) := by
  simp only [List.any_map, List.any_eq_true, List.mem_range, Function.comp_apply, decide_eq_true_eq]

theorem all_dieTemp {p : Int → Prop} [DecidablePred p] :
    ((List.range 4).map s.dieTemp).all (fun x => decide (p x)) = true ↔ ∀ d, d < 4 → p (s.dieTemp d) := by
  simp only [List.all_map, List.all_eq_true, List.mem_range, Function.comp_apply, decide_eq_true_eq]

variable {s}

theorem nextLimit_hot (h : ∃ d, d < 4 ∧ 380 ≤ s.dieTemp d) : s.nextLimit = max (s.power.tl - 500) 4000 :=
  if_pos ((any_dieTemp s).mpr h)

theorem nextLimit_below (h : ∀ d, d < 4 → s.dieTemp d < 380) : s.nextLimit =
    if ((List.range 4).map s.dieTemp).all (fun x => decide (x < 360)) then min (s.power.tl + 500) 14000 else s.power.tl := by
  refine if_neg (mt (any_dieTemp s).mp ?_)
  rintro ⟨d, hd, hhot⟩
  exact absurd (h d hd) (not_lt.mpr hhot)

theorem nextLimit_cool (h : ∀ d, d < 4 → s.dieTemp d < 360) : s.nextLimit = min (s.power.tl + 500) 14000 :=
  (nextLimit_below fun d hd => (h d hd).trans (by decide)).trans (if_pos ((all_dieTemp s).mpr h))

theorem nextLimit_warm (h : ∀ d, d < 4 → s.dieTemp d < 380) (hw : ∃ d, d < 4 ∧ 360 ≤ s.dieTemp d) : s.nextLimit = s.power.tl := by
  obtain ⟨d, hd, hwarm⟩ := hw
  exact (nextLimit_below h).trans (if_neg fun hall => absurd ((all_dieTemp s (p := (· < 360))).mp hall d hd) (not_lt.mpr hwarm))

/-- The module at a throttle step, with its new TL. -/
def State.atThrottle (s : State) : State :=
  (s.modTime (fun t => { t with throttleAt := some s.throttlePoint })).modPower (fun p => { p with tl := s.nextLimit })

/-- A step that is due sets TL and the loop; beyond that it only reports. -/
theorem throttle_limits (h : s.throttleDue = true) : s.throttle.limits = s.atThrottle.setPower.limits := by
  unfold State.throttle
  rw [if_neg (by rw [h]; decide)]
  extract_lets u t tl new v w
  have hv : v = s.atThrottle.setPower := rfl
  have hw : w.limits = v.limits := by
    unfold w
    split <;> rfl
  rw [← hv]
  clear_value new w
  split
  · exact (limits_raise ..).trans hw
  · split
    · exact (limits_raise ..).trans hw
    · exact hw

end

/-- Settles O24: TL by the dies' temperatures, and the loop's SETPOINT by TL. -/
theorem throttleStepMovesLimit : Obligations.ThrottleStepMovesLimit := by
  rintro s dt u rfl hdue
  have hstep := throttle_limits hdue
  obtain ⟨hmem, htl, hcoef⟩ := setPower_lowers (s.elapse dt).atThrottle
  have hlimit : (s.elapse dt).throttle.power.tl = (s.elapse dt).nextLimit := (congrArg (fun x => x.2.1) hstep).trans htl
  refine ⟨_, exec_throttleStep s dt, fun h => hlimit.trans (nextLimit_hot h), fun h => hlimit.trans (nextLimit_cool h),
    fun h hw => hlimit.trans (nextLimit_warm h hw), ?_, (congrArg Prod.fst hstep).trans hmem⟩
  rw [loop_of_limits hstep, hcoef, hlimit]
  rfl

end Sys2Proof.Machine
end

section
/-! PROOFS. Monitor converters: scan passes, results, injected conversions and the reference (R781 to R792, R805), and what the completion of a
command leaves of the rest of the module (R604, R680). -/

namespace Sys2Proof.Machine

/-! ## What a completion leaves (R604, R680) -/

/-- `t` is `s` but for the mailbox, the trust state, the fabric and the free values used: what a completion changes wherever it goes. -/
def MailOnly (s t : State) : Prop := t = { s with mbx := t.mbx, trust := t.trust, fabric := t.fabric, free := t.free }

section
variable {s t u : State}

theorem MailOnly.refl (s : State) : MailOnly s s := rfl

theorem MailOnly.trans (h : MailOnly s t) (g : MailOnly t u) : MailOnly s u := by
  unfold MailOnly at *
  rw [g]
  conv_lhs => rw [h]

theorem MailOnly.mem (h : MailOnly s t) : t.mem = s.mem := by rw [h]
theorem MailOnly.mc (h : MailOnly s t) (k : Nat) : t.mc k = s.mc k := by rw [State.mc, h, State.mc]

theorem MailOnly.ite {p : Prop} [Decidable p] (ht : MailOnly s t) (hu : MailOnly s u) : MailOnly s (if p then t else u) := by
  split
  · exact ht
  · exact hu

/-- A fold that carries a state. -/
theorem MailOnly.foldl {α β : Type} {g : β → State} {f : β → α → β} (h : ∀ b a, MailOnly (g b) (g (f b a))) (l : List α) (b : β) :
    MailOnly (g b) (g (l.foldl f b)) :=
  List.foldlRecOn (motive := fun c => MailOnly (g b) (g c)) l f (.refl _) fun c hc a _ => hc.trans (h c a)

theorem Books.mailOnly {r : Nat} (h : Books r s t) : MailOnly s t := by
  obtain ⟨heq, -, -⟩ := h
  rw [heq]
  rfl

theorem FabricOnly.mailOnly (h : FabricOnly s t) : MailOnly s t := by
  rw [h]
  rfl

end

section
variable (s : State)

theorem sealOn_mailOnly (t chan : Nat) (l : List Byte) : MailOnly s (s.sealOn t chan l).2 := (sealOn_books 0 s t chan l).mailOnly

theorem sendTo_mailOnly (i type tag offset : Nat) (last : Bool) (payload : List Byte) :
    MailOnly s (s.sendTo i type tag offset last payload) := (sendTo_sends ..).only.mailOnly

theorem finishRelayed_mailOnly (i tag : Nat) (h : CmdHdr) (op : Nat) (clear : Bool) (a : Answer) :
    MailOnly (a.after s) (s.finishRelayed i tag h op clear a) := by
  unfold State.finishRelayed
  extract_lets s1 c o w t
  have ho : MailOnly s1 o.2 := by
    unfold o
    split
    · split
      · exact sealOn_mailOnly ..
      · exact MailOnly.foldl (g := Prod.snd) (by intro x b; exact sealOn_mailOnly ..) _ ([], s1)
    · exact .refl s1
  have hw : MailOnly o.2 w.2 := by
    unfold w
    split
    · exact sealOn_mailOnly ..
    · exact .refl o.2
  have ht : MailOnly w.2 t := MailOnly.foldl (g := id) (by intro v x; exact sendTo_mailOnly ..) _ w.2
  exact ho.trans (hw.trans (ht.trans (sendTo_mailOnly ..)))

theorem afterFinish_mailOnly (c : HostCmd) (h : CmdHdr) (status : Nat) : MailOnly s (afterFinish c h status s) := by
  unfold afterFinish
  split
  · exact .ite (closeSession_books 0 ..).mailOnly (.refl s)
  · exact .refl s

theorem deliver_mailOnly (relay : Option (Nat × Nat)) (h : CmdHdr) (c : HostCmd) (a : Answer) :
    MailOnly (a.after s) (s.deliver relay h c a) := by
  unfold State.deliver
  extract_lets op t
  refine .trans ?_ (afterFinish_mailOnly ..)
  unfold t
  split
  · exact (finishRelayed_mailOnly ..).trans (Books.modRing ..).mailOnly
  · exact (finish_books ..).mailOnly

/-- A command in execution that completes with an answer, or goes on waiting for room, leaves what the answer leaves. -/
theorem completeRing_mailOnly (r : Nat) {a : Answer} (ha : MailOnly s a.s) : MailOnly s (s.completeRing r a) := by
  unfold State.completeRing
  split
  · exact .refl s
  · extract_lets clr
    have hclr : ∀ v : State, MailOnly v (clr v) := fun v => rfl
    have hleft : MailOnly s (Answer.after { a with s := clr a.s } (clr s)) := .ite (ha.trans (hclr a.s)) (hclr s)
    exact .ite (hleft.trans (deliver_mailOnly ..)) (.refl s)

end

/-! ## Scan passes (R781, R782, R787, R792) -/

theorem exec_monconvPass (s : State) (dt : Nat) (k : McId) : exec (.monconvPass dt k) s = .next ((s.elapse dt).beginPass k) := rfl
theorem exec_monconvResult (s : State) (dt : Nat) (k : McId) (raw : BitVec 12) :
    exec (.monconvResult dt k raw) s = .next ((s.elapse dt).deliverResult k raw.toNat) := rfl
theorem exec_monconvDataRead (s : State) (dt : Nat) (k : McId) :
    exec (.monconvDataRead dt k) s = .next ((s.elapse dt).readData k) := rfl
theorem exec_injectedConversion (s : State) (dt : Nat) (k : McId) (raw : BitVec 12) :
    exec (.injectedConversion dt k raw) s = .next ((s.elapse dt).injectedResult k raw.toNat) := rfl
theorem exec_refReady (s : State) (dt : Nat) (k : McId) : exec (.refReady dt k) s = .next ((s.elapse dt).refSettled k) := rfl

section
variable {s : State} {k : Nat}

theorem mc_converter (conv kind detail j : Nat) : (s.converter conv kind detail).mc j = s.mc j :=
  ((raise_eventsOnly ..).books 0).mailOnly.mc j

/-- The report of lost results clears their count, and touches nothing else of the converters. -/
theorem mc_reportLost_same : (s.reportLost k).mc k = { s.mc k with lost := 0 } := by
  unfold State.reportLost
  extract_lets n
  split
  · next hn => rw [← show (s.mc k).lost = 0 from hn]
  · rw [mc_converter, State.mc_modMc_same]

theorem mc_reportLost_other {j : Nat} (hj : j ≠ k) : (s.reportLost k).mc j = s.mc j := by
  unfold State.reportLost
  extract_lets n
  split
  · rfl
  · rw [mc_converter, State.mc_modMc_other _ _ hj]

theorem mem_reportLost : (s.reportLost k).mem = s.mem := by
  unfold State.reportLost
  extract_lets n
  split
  · rfl
  · exact raise_mem ..

/-- The samples of a pass that begins now; in REFMODE 1 the converter first starts up (R792). -/
def State.passSamples (s : State) (k : Nat) : List (Nat × Nat) :=
  samplesFrom (s.now + (if (s.mc k).refmode then 2000 else 0)) (maskBits ((s.mc k).scanMask.zeroExtend 64))

theorem beginPass_begins (hc : s.convertersOn = true) (hs : (s.mc k).start = true) (hb : (s.mc k).busy = false)
    (ht : (s.mc k).continuous = true → 2000 ≤ s.sinceControl ∧ s.sinceControl ≤ 2050) :
    s.beginPass k = (s.reportLost k).modMc k (fun x => { x with busy := true, todo := x.todo ++ s.passSamples k }) := by
  refine if_neg ?_
  simpa [hc, hs, hb] using ht

/-! ## Results (R778, R785 to R787, R805) -/

theorem mcNow_todo : (s.mcNow k).todo = (s.mc k).todo := by
  unfold State.mcNow
  split <;> rfl

/-- What a result leaves to be read: what is still to be sampled, DATA with its channel, and the flags. -/
def Monconv.shown (x : Monconv) : List (Nat × Nat) × Nat × Nat × Bool × W1c := (x.todo, x.data, x.dataCh, x.dataValid, x.status)

/-- A result goes to DATA, over an unread one with OVERRUN; with the last of its pass, what the pass lost is reported. -/
theorem deliverResult_delivers {y : Nat × Nat} {rest : List (Nat × Nat)} (raw : Nat) (hy : (s.mc k).todo = y :: rest)
    (ht : y.2 + 200 ≤ s.now) :
    ((s.deliverResult k raw).mc k).shown
        = (rest, s.mcCode k raw, y.1, true, (s.mcNow k).status.hitIf (s.mcNow k).dataValid mcOverrun)
      ∧ (∀ j, j ≠ k → (s.deliverResult k raw).mc j = s.mc j) ∧ (s.deliverResult k raw).mem = s.mem := by
  unfold State.deliverResult
  dsimp only
  rw [mcNow_todo, hy]
  dsimp only
  rw [if_neg (Nat.not_lt.mpr ht)]
  split
  · refine ⟨?_, fun j hj => ?_, mem_reportLost⟩
    · rw [mc_reportLost_same, State.mc_modMc_same]
      rfl
    · rw [mc_reportLost_other hj, State.mc_modMc_other _ _ hj]
  · refine ⟨?_, fun j hj => State.mc_modMc_other _ _ hj, rfl⟩
    rw [State.mc_modMc_same]
    rfl

theorem readData_reads (hv : (s.mc k).dataValid = true) (hw : s.inLoopWindow = false) : s.readData k = s.modMc k Monconv.taken :=
  if_pos (by rw [hv, hw]; rfl)

/-! ## Injected conversions and the reference (R790, R791) -/

theorem injectedResult_leaves {y : Nat × Ring × Nat} {rest : List (Nat × Ring × Nat)} (raw : Nat) (hy : (s.mc k).inj = y :: rest)
    (ht : y.2.2 + 200 ≤ s.now) :
    MailOnly (s.modMc k (fun x => { x with inj := rest, injCode := s.mcCode k raw, injCh := y.1 })) (s.injectedResult k raw) := by
  unfold State.injectedResult
  rw [hy]
  dsimp only
  rw [if_neg (Nat.not_lt.mpr ht)]
  exact completeRing_mailOnly _ _ (.refl _)

theorem refSettled_starts (hm : (s.mc k).refmode = false) (hr : (s.mc k).refReady = false) (ht : (s.mc k).refFrom + 20000 ≤ s.now) :
    MailOnly (s.modMc k (fun x => { x with refReady := true, start := x.scanMask != 0 })) (s.refSettled k) := by
  unfold State.refSettled
  extract_lets x t
  rw [if_neg (by simp [x, hm, hr, ht])]
  split
  · exact completeRing_mailOnly _ _ (.refl _)
  · exact .refl _

end

/-- Settles O48: what each step leaves of its converter, beside the completion of a command that waited for it. -/
theorem monitorConverters : Obligations.MonitorConverters := by
  rintro s dt k u rfl
  refine ⟨fun hc hs hb ht => ?pass, fun y rest raw hy ht => ?result, fun hv hw => ?read, fun y rest raw hy ht => ?injected,
    fun hm hr ht => ?reference⟩
  case pass =>
    refine ⟨_, (exec_monconvPass ..).trans (congrArg _ (beginPass_begins (s := s.elapse dt) hc hs hb ht)), ?_, ?_, fun j hj => ?_,
      mem_reportLost⟩
    · rw [State.mc_modMc_same]
    · rw [State.mc_modMc_same, mc_reportLost_same]
      rfl
    · rw [State.mc_modMc_other _ _ hj, mc_reportLost_other hj]
      rfl
  case result =>
    obtain ⟨hshown, hother, hmem⟩ := deliverResult_delivers (s := s.elapse dt) (k := k) raw.toNat hy ht
    obtain ⟨htodo, hdata, hch, hvalid, hstatus⟩ := by simpa only [Monconv.shown, Prod.mk.injEq] using hshown
    refine ⟨_, exec_monconvResult .., htodo, hdata, hch, hvalid, fun hlost => ?_, hother, hmem⟩
    rw [hstatus, hlost]
    exact W1c.has_hit_same _ (by decide)
  case read => exact (exec_monconvDataRead ..).trans (congrArg _ (readData_reads (s := s.elapse dt) hv hw))
  case injected =>
    have h := injectedResult_leaves (s := s.elapse dt) (k := k) raw.toNat hy ht
    have hmc := (h.mc k).trans (State.mc_modMc_same ..)
    exact ⟨_, exec_injectedConversion .., congrArg Monconv.inj hmc, congrArg Monconv.injCode hmc, congrArg Monconv.injCh hmc, h.mem⟩
  case reference =>
    have h := refSettled_starts (s := s.elapse dt) (k := k) hm hr ht
    have hmc := (h.mc k).trans (State.mc_modMc_same ..)
    exact ⟨_, exec_refReady .., congrArg Monconv.refReady hmc, congrArg Monconv.start hmc, h.mem⟩

end Sys2Proof.Machine
end

section
/-! PROOFS. Start-up, reset and the loss of input power (R733, R735, R736, R771, R817 to R837). -/

namespace Sys2Proof.Machine

/-! ## Input power, reset and the sensors (R733, R735, R771, R817 to R833) -/

theorem exec_powerUp (s : State) (dt : Nat) (role : Bool) (a : BitVec 3) :
    exec (.powerUp dt role a) s = .next ((s.elapse dt).powerUp role a) := rfl
theorem exec_resetRelease (s : State) (dt : Nat) (role : Bool) (a : BitVec 3) :
    exec (.resetRelease dt role a) s = .next ((s.elapse dt).releaseReset role a) := rfl
theorem exec_refclkQualified (s : State) (dt : Nat) : exec (.refclkQualified dt) s = .next (s.elapse dt).refclkStep := rfl
theorem exec_bootRomStart (s : State) (dt : Nat) : exec (.bootRomStart dt) s = .next (s.elapse dt).bootRom := rfl
theorem exec_startupLighting (s : State) (dt : Nat) (k : CartId) (p1 p2 : Bool) (w : Int) :
    exec (.startupLighting dt k p1 p2 w) s = .next ((s.elapse dt).startLighting k p1 p2 w) := rfl
theorem exec_resetAssert (s : State) (dt n : Nat) : exec (.resetAssert dt n) s = .next ((s.elapse dt).assertReset n) := rfl
theorem exec_inputOutOfRange (s : State) (dt : Nat) (d : Fin 3) :
    exec (.inputOutOfRange dt d) s = .next ((s.elapse dt).inputRange d) := rfl
theorem exec_inputOvercurrent (s : State) (dt : Nat) : exec (.inputOvercurrent dt) s = .next (s.elapse dt).overcurrent := rfl

theorem exec_startupSensorRecheck (s : State) (dt : Nat) {temps : List Int} (hl : temps.length = 256) :
    exec (.startupSensorRecheck dt temps) s = .next ((s.elapse dt).sensorStep temps) :=
  if_neg (by rw [tempsOk, beq_iff_eq.mpr hl]; decide)

theorem exec_wakeRecheck (s : State) (dt : Nat) {temps : List Int} (hl : temps.length = 256) (ht : s.power.tripped = true) :
    exec (.wakeRecheck dt temps) s = .next ((s.elapse dt).sensorStep temps) :=
  (if_neg (by rw [tempsOk, beq_iff_eq.mpr hl]; decide)).trans (congrArg Host.Outcome.next (if_pos ht))

section
variable {s : State}

theorem powerUp_starts (role : Bool) (a : BitVec 3) (hb : s.power.boot = .unpowered) :
    s.powerUp role a = if s.power.resetLow then s.modPower (fun p => { p with boot := .inReset }) else s.startUp role a :=
  if_neg (not_not.mpr hb)

theorem releaseReset_starts (role : Bool) (a : BitVec 3) (hb : s.power.boot = .inReset) :
    s.releaseReset role a = (s.modPower (fun p => { p with resetLow := false })).startUp role a := if_pos hb

/-- A sensor step that is due, with every reading below 90 degC. -/
theorem sensorStep_passes {temps : List Int} (hb : s.power.boot = .sensors) (hd : s.stepDue) (ht : ∀ x ∈ temps, x < 360) :
    (s.sensorStep temps).power.boot = .refclk ∧ (s.sensorStep temps).power.tripped = false := by
  obtain ⟨hw, hlast⟩ := hd
  have hagain : s.power.checkedAt.all (fun t => decide (t + 100000000 ≤ s.now)) = true := by
    rw [Option.all_eq_true]
    exact fun t hc => decide_eq_true (hlast t hc)
  have hcool : temps.all (fun t => decide (t < 360)) = true := List.all_eq_true.mpr fun x hx => decide_eq_true (ht x hx)
  unfold State.sensorStep
  rw [if_neg (by rw [hb, hagain]; exact not_or.mpr ⟨not_not.mpr rfl, not_or.mpr ⟨Nat.not_lt.mpr hw, Bool.false_ne_true⟩⟩)]
  extract_lets u v
  rw [if_pos hcool]
  exact ⟨rfl, rfl⟩

theorem refclkStep_qualifies (hb : s.power.boot = .refclk) :
    s.refclkStep.power.boot = .rails ∧ s.refclkStep.time.timeNs = 0 ∧ s.refclkStep.power.refAt = s.now := by
  unfold State.refclkStep
  rw [if_neg (not_not.mpr hb)]
  exact ⟨rfl, rfl, rfl⟩

theorem assertReset_resets {n : Nat} (hn : 2000 ≤ n) (hb : s.power.boot ≠ .unpowered) :
    s.assertReset n = (s.modPower (fun p => { p with resetLow := true })).powerLoss .inReset true :=
  (if_neg (Nat.not_lt.mpr hn)).trans (if_neg hb)

theorem inputRange_reports (d : Nat) (hb : s.power.boot = .serving) (hp : s.power.pstate ≠ .ps5) :
    s.inputRange d = s.powerEv 0xFF poInput 0xFF 0 d false := if_pos ⟨hb, hp⟩

theorem overcurrent_trips (hp : s.powered = true) (ht : s.power.tripped = false) :
    s.overcurrent = s.tripNow { overcurrent := true, die := 0xFF, sensor := 0xFF, reading := 0 } :=
  if_pos ⟨hp, by rw [ht]; rfl⟩

end

/-! ## The cartridge step and the boot ROM (R614, R673, R835, R837) -/

/-- A state without its light supply and what the traffic of the ports changes: memory, the time, the power supply and the card interface
stand in it. -/
def State.unlit (s : State) : State := { s.supply with carts := [], feed := [] }

theorem unlit_of_supply {s t : State} (h : t.supply = s.supply) : t.unlit = s.unlit :=
  congrArg (fun v : State => { v with carts := [], feed := [] }) h

/-- `t` is `s` but for the cartridge in socket `k`, the feeds, engines and loops, and the traffic of the ports. -/
structure SocketOnly (k : Nat) (s t : State) : Prop where
  unlit : t.unlit = s.unlit
  other : ∀ j, j ≠ k → t.cart j = s.cart j

section
variable {k : Nat} {s t u : State}

theorem SocketOnly.refl (k : Nat) (s : State) : SocketOnly k s s := ⟨rfl, fun _ _ => rfl⟩

theorem SocketOnly.trans (h : SocketOnly k s t) (g : SocketOnly k t u) : SocketOnly k s u :=
  ⟨g.unlit.trans h.unlit, fun j hj => (g.other j hj).trans (h.other j hj)⟩

theorem SocketOnly.of_supply (k : Nat) (h : t.supply = s.supply) : SocketOnly k s t := ⟨unlit_of_supply h, fun j _ => cart_of_supply h j⟩

theorem SocketOnly.ite {p : Prop} [Decidable p] (ht : SocketOnly k s t) (hu : SocketOnly k s u) : SocketOnly k s (if p then t else u) := by
  split
  · exact ht
  · exact hu

theorem SocketOnly.power (h : SocketOnly k s t) : t.power = s.power := (congrArg State.power h.unlit :)
theorem SocketOnly.now (h : SocketOnly k s t) : t.now = s.now := (congrArg State.now h.unlit :)

theorem SocketOnly.modCart (s : State) (k : Nat) (f : Cart → Cart) : SocketOnly k s (s.modCart k f) :=
  ⟨rfl, fun _ hj => State.cart_modCart_other _ _ hj⟩

theorem SocketOnly.loseLine (s : State) (k n : Nat) (l : LaserState) : SocketOnly k s (s.loseLine k n l) := by
  rw [loseLine_eq]
  exact .trans (t := { s with feed := (s.loseLine k n l).feed }) ⟨rfl, fun _ _ => rfl⟩ (.modCart ..)

theorem SocketOnly.darkCart (s : State) (k : Nat) : SocketOnly k s (s.darkCart k) := by
  unfold State.darkCart
  extract_lets ns dark
  have hdark : SocketOnly k s dark := forEach_rel (.refl k) .trans (fun v n => .loseLine v k n _) ns s
  exact (hdark.trans (.modCart ..)).trans (.of_supply k (supply_feedPorts _))

theorem SocketOnly.cartLost (s : State) (k detail : Nat) : SocketOnly k s (s.cartLost k detail) := by
  unfold State.cartLost
  extract_lets dark gone ns lost
  have hdark : SocketOnly k s dark := .ite (.refl k s) (.darkCart s k)
  have hgone : SocketOnly k dark gone := .ite (.modCart ..) (.refl k dark)
  exact ((hdark.trans hgone).trans (.modCart ..)).trans (.of_supply k (supply_raise ..))

theorem mayPower_ready (hb : s.power.boot = .serving) (hl : s.lasersOn = true) (hp : (s.cart k).present = true)
    (hi : (s.cart k).intlk = true) (hc : (s.cart k).limited = false) (ht : (s.cart k).closedAt + 100000000 ≤ s.now) :
    s.mayPower k = true := by
  simp only [State.mayPower, hb, hl, hp, hi, hc, decide_eq_true ht]
  rfl

/-- Whether a socket may be powered rests on the power supply, the time and its own cartridge. -/
theorem mayPower_congr (hp : t.power = s.power) (hn : t.now = s.now) (hc : t.cart k = s.cart k) : t.mayPower k = s.mayPower k := by
  simp only [State.mayPower, State.lasersOn, hp, hn, hc]

end

section
variable (s : State)

/-- The cartridge step of one socket. -/
def State.socketStep (s : State) (k : Nat) : State :=
  if s.mayPower k then (s.powerSocket k).modCart k (fun x => { x with starting := true })
  else if !(s.cart k).present then s.cartLost k 0
  else s

theorem cartridgeStep_eq : s.cartridgeStep = (s.socketStep 0).socketStep 1 := by
  have hsockets : List.range 2 = [0, 1] := rfl
  unfold State.cartridgeStep
  rw [hsockets]
  rfl

theorem socketStep_only (k : Nat) : SocketOnly k s (s.socketStep k) :=
  .ite (.trans (.modCart ..) (.modCart ..)) (.ite (.cartLost ..) (.refl k s))

theorem socketStep_powers {k : Nat} (h : s.mayPower k = true) :
    ((s.socketStep k).cart k).powered = true ∧ ((s.socketStep k).cart k).starting = true := by
  rw [State.socketStep, if_pos h, State.cart_modCart_same]
  exact ⟨cart_powerSocket.1, rfl⟩

theorem cartridgeStep_unlit : s.cartridgeStep.unlit = s.unlit := by
  rw [cartridgeStep_eq]
  exact (socketStep_only (s.socketStep 0) 1).unlit.trans (socketStep_only s 0).unlit

/-- Each socket that may be powered is, whatever the step finds in the other. -/
theorem cartridgeStep_powers (k : CartId) (h : s.mayPower k = true) :
    (s.cartridgeStep.cart k).powered = true ∧ (s.cartridgeStep.cart k).starting = true := by
  have h0 := socketStep_only s 0
  have h1 := socketStep_only (s.socketStep 0) 1
  rw [cartridgeStep_eq]
  match k, h with
  | 0, h =>
    rw [h1.other _ (by decide)]
    exact socketStep_powers s h
  | 1, h => exact socketStep_powers _ ((mayPower_congr h0.power h0.now (h0.other _ (by decide))).trans h)

/-- The boot ROM serves, and the PUF is read. -/
def State.romStarted (s : State) : State :=
  { s.modPower (fun p => { p with boot := .serving }) with
    sdio := { s.sdio with ioReady := true }, trust := { s.trust with puf := some s.free }, free := s.free + 1 }

variable {s}

/-- The loops of the ports are acquired last, and leave what the cartridge step left. -/
theorem bootRom_supply (hb : s.power.boot = .rails) (ht : s.power.refAt + 22000000 ≤ s.now) :
    s.bootRom.supply = s.romStarted.cartridgeStep.supply := by
  have hrun : ¬ (s.power.boot ≠ .rails ∨ s.now < s.power.refAt + 22000000) := by
    rw [hb]
    exact not_or.mpr ⟨not_not.mpr rfl, Nat.not_lt.mpr ht⟩
  have hsweep : ∀ (v : State) (k : Nat), (if (v.cart k).lit then v.sweepPorts k else v).supply = v.supply := by
    intro v k
    split
    · exact supply_sweepPorts ..
    · rfl
  unfold State.bootRom
  rw [if_neg hrun]
  exact forEach_keeps State.supply _ hsweep _ s.romStarted.cartridgeStep

end

/-! ## Lighting at start-up (R836) -/

section
variable {s : State} {k : Nat}

/-- Lighting leaves the socket's power as it is. -/
theorem powered_lightCart (returnPower : Int) : ((s.lightCart k returnPower).cart k).powered = (s.cart k).powered := by
  have hkeep : ∀ (t : State) (f : Cart → Cart), (∀ x, (f x).powered = x.powered) → ((t.modCart k f).cart k).powered = (t.cart k).powered :=
    fun t f hf => by rw [State.cart_modCart_same, hf]
  unfold State.lightCart
  extract_lets good starting lit measured fed named tuned
  have hlit : (lit.cart k).powered = (s.cart k).powered :=
    hkeep s _ (by intro x; exact foldl_keeps Cart.powered _ (by intro y n; rfl) good x)
  have hmeasured : (measured.cart k).powered = (lit.cart k).powered :=
    forEach_keeps (fun t => (t.cart k).powered) _ (by intro t n; exact hkeep t.takeFree _ fun _ => rfl) good lit
  have hfed : (fed.cart k).powered = (measured.cart k).powered := by
    unfold fed
    split
    · exact forEach_keeps (fun t => (t.cart k).powered) _ (by intro t n; rfl) good measured
    · rfl
  have hnamed : (named.cart k).powered = (fed.cart k).powered := by
    unfold named
    split
    · exact hkeep fed _ fun _ => rfl
    · rfl
  have htuned : (tuned.cart k).powered = (named.cart k).powered :=
    forEach_keeps (fun t => (t.cart k).powered) _ (by intro t n; rw [(SparesOnly.tuneSpare t k n _).cart k]) _ named
  rw [cart_of_supply (supply_sweepPorts ..), cart_of_supply (supply_feedPorts ..), htuned, hnamed, hfed, hmeasured, hlit]

/-- Both probes light the cartridge; a path that one of them does not see leaves it dark, its socket powered. -/
theorem startLighting_lights {p1 p2 : Bool} (w : Int) (hm : s.mayPower k = true) (hl : (s.cart k).lit = false)
    (hp : (s.cart k).probedAt = none) (hs : (s.cart k).powered = true → (s.cart k).starting = true)
    (ht : s.lightingTime k (p1 && p2) = true) :
    ((s.startLighting k p1 p2 w).cart k).lit = (p1 && p2) ∧ ((s.startLighting k p1 p2 w).cart k).powered = true := by
  obtain ⟨hpowered, hlit, -⟩ := cart_powerSocket (s := s) (k := k)
  have hstart : ((s.cart k).powered && !(s.cart k).starting) = false := by
    cases h : (s.cart k).powered with
    | false => rfl
    | true => rw [hs h]; rfl
  have hgo : ¬ (!s.mayPower k || (s.cart k).lit || (s.cart k).probedAt.isSome || (s.cart k).powered && !(s.cart k).starting
      || !s.lightingTime k (p1 && p2)) = true := by
    rw [hm, hl, hp, ht, hstart]
    exact Bool.false_ne_true
  unfold State.startLighting
  extract_lets x v
  rw [if_neg hgo]
  split
  · next hboth =>
    obtain ⟨hlamp, -⟩ := Prod.mk.inj (lamp_lightCart (s := s.powerSocket k) (k := k) w)
    rw [hboth]
    exact ⟨hlamp, (powered_lightCart ..).trans hpowered⟩
  · next hdark =>
    rw [State.cart_modCart_same, Cart.setDark_eq, Bool.eq_false_iff.mpr hdark]
    exact ⟨hlit.trans hl, hpowered⟩

end

/-- Settles O23: each step of the start-up and each loss of power. -/
theorem startAndReset : Obligations.StartAndReset := by
  rintro s dt u rfl
  refine ⟨fun role a hb => ?powerUp, fun role a hb => ?release, fun temps hl hb hd ht => ?sensors, fun temps hl hb hd htrip ht => ?wake,
    fun hb => ?reference, fun hb ht => ?rom, fun k p1 p2 w hm hl hp hs ht => ?lighting, fun n hn hb => ?reset, rfl,
    fun d hb hp => ?range, fun hp ht => ?overcurrent, fun b k => ⟨rfl, rfl, rfl, rfl, rfl, rfl, rfl⟩⟩
  case powerUp => exact (exec_powerUp ..).trans (congrArg _ (powerUp_starts (s := s.elapse dt) role a hb))
  case release => exact (exec_resetRelease ..).trans (congrArg _ (releaseReset_starts (s := s.elapse dt) role a hb))
  case sensors => exact ⟨_, exec_startupSensorRecheck s dt hl, sensorStep_passes hb hd ht⟩
  case wake => exact ⟨_, exec_wakeRecheck s dt hl htrip, sensorStep_passes hb hd ht⟩
  case reference => exact ⟨_, exec_refclkQualified s dt, refclkStep_qualifies hb⟩
  case rom =>
    have hsupply := bootRom_supply (s := s.elapse dt) hb ht
    have hunlit := (unlit_of_supply hsupply).trans (cartridgeStep_unlit (s.elapse dt).romStarted)
    refine ⟨_, exec_bootRomStart s dt, (congrArg (fun v : State => v.power.boot) hunlit :),
      (congrArg (fun v : State => v.sdio.ioReady) hunlit :), (congrArg State.mem hunlit :), fun k hpresent hintlk hfree hclosed hon => ?_⟩
    rw [cart_of_supply hsupply]
    exact cartridgeStep_powers _ k (mayPower_ready rfl hon hpresent hintlk hfree hclosed)
  case lighting => exact ⟨_, exec_startupLighting .., startLighting_lights w hm hl hp hs ht⟩
  case reset => exact ⟨(exec_resetAssert ..).trans (congrArg _ (assertReset_resets (s := s.elapse dt) hn hb)), rfl⟩
  case range => exact (exec_inputOutOfRange ..).trans (congrArg _ (inputRange_reports (s := s.elapse dt) d hb hp))
  case overcurrent =>
    exact ⟨_, (exec_inputOvercurrent ..).trans (congrArg _ (overcurrent_trips (s := s.elapse dt) hp ht)), rfl, rfl, rfl, rfl⟩

end Sys2Proof.Machine
end
